-- ==== Sys2Proof/Word.lean ====
section
/-!
DEFINITION. Word types of the Thrumvos V12 (R12 to R14): the bit vectors that the spec treats as bits.
-/

namespace Sys2Proof

/-- One byte of storage. -/
abbrev Byte := BitVec 8

/-- A 32-bit register word or lane pattern. -/
abbrev Word32 := BitVec 32

/-- A 64-bit scalar register, timebase value or queue word. -/
abbrev Word64 := BitVec 64

end Sys2Proof
end

