-- ==== Sys2Proof/Syntax.lean ====
section
/-!
DEFINITION. The commands of the block: one constructor for each row of the operation table, with its operands.
-/

namespace Sys2Proof

/-- Fields of an instruction word of format S (R93). -/
structure SFields where
  gd : BitVec 4
  ga : BitVec 4
  gb : BitVec 4
  flags : BitVec 4
  imm : BitVec 32
  deriving DecidableEq, Repr

/-- Fields of an instruction word of format V (R93). -/
structure VFields where
  yd : BitVec 5
  ya : BitVec 5
  yb : BitVec 5
  yc : BitVec 5
  md : BitVec 4
  ga : BitVec 4
  gb : BitVec 4
  imm : BitVec 24
  deriving DecidableEq, Repr

/-- Fields of an MXA (R101). -/
structure MxaFields where
  bank : Bool
  opening : Bool
  wfmt : BitVec 4
  afmt : BitVec 4
  sparse : Bool
  ring : Bool
  hold : Bool
  aaddr : BitVec 14
  areg : BitVec 4
  waddr : BitVec 14
  wreg : BitVec 4
  deriving DecidableEq, Repr

/-- Fields of an MXR (R103). -/
structure MxrFields where
  bank : Bool
  keep : Bool
  ofmt : BitVec 4
  oaddr : BitVec 14
  oreg : BitVec 4
  deriving DecidableEq, Repr

/-- Fields of a WSTRM (R104). -/
structure WstrmFields where
  count : BitVec 8
  tsize : BitVec 9
  sreg : BitVec 4
  soff : BitVec 24
  deriving DecidableEq, Repr

/-- The agents that access registers (R486): the host, the TCC of a tile, Vexondane, a fault aggregator. -/
inductive Agent where
  | host
  | tcc (t : Fin 12)
  | vexondane
  | aggregator (a : Fin 5)
  deriving DecidableEq, Repr

/-- A frame of a chain link (R359). -/
structure Frame where
  type : BitVec 8
  fl : BitVec 8
  dst : BitVec 16
  src : BitVec 16
  lseq : BitVec 32
  tag : BitVec 32
  addr : BitVec 64
  arg : BitVec 64
  ext : BitVec 64
  payload : List Byte
  deriving DecidableEq, Repr

/-- What the head collects of one segment of a chain plan (R164, R165): NODE, SEG_INDEX, SEG_COUNT, PLAN_UID, T_SEG_NS,
XFER_BYTES, and of the way to the next segment the ports in service of the DOWN_PORT bundle, whether the slowest of them runs x4,
and the CP_DELAY of each port transmitted on, there and back (R372, R373). -/
structure ChainSeg where
  node : BitVec 16
  index : BitVec 8
  count : BitVec 8
  uid : BitVec 64
  tSeg : BitVec 32
  xferBytes : BitVec 32
  ports : BitVec 4
  x4 : Bool
  down : List (BitVec 32)
  up : List (BitVec 32)
  deriving DecidableEq, Repr


/-- Operands of SEQ_OPEN (R337). -/
structure SeqOpenArgs where
  mode : BitVec 8
  cq : BitVec 16
  plist : BitVec 32
  inputDa : BitVec 64
  kvLen : BitVec 64
  outDa : BitVec 64
  inputLen : BitVec 32
  lastToken : BitVec 32
  outSize : BitVec 32
  stepLimit : BitVec 32
  stopToken : BitVec 32
  deriving DecidableEq, Repr

/-- How a replay or re-run ended (R444): it passed with identical lines, or with differing lines; it failed the same
columns with the same values; or it raised a cause or mismatched otherwise. -/
inductive ReplayResult where
  | identical
  | differs
  | sameFailure
  | failed
  deriving DecidableEq, Repr

/-- The leaf requesters of the fabric (R319, R320): a participant of a tile, a slice controller, the Tongs engine as one tile
uses it, a chain port, the host port, Vexondane. -/
inductive Leaf where
  | part (t p : Nat)
  | slice (t n : Nat)
  | tongs (t : Nat)
  | port (c : Nat)
  | host
  | vexondane
  deriving DecidableEq, Repr

/-- The arbiter outputs of the four levels of R319: output k of the routers of a half mesh, and a slice controller; output k of
a seam strip, toward the west half, the east half or the tile-to-base bond; port, memory target or bridge port k of a base
die; the output of a base die onto its east-west or its north-south bridge. -/
inductive ArbOut where
  | mesh (t h k : Nat)
  | slice (t n : Nat)
  | strip (t k : Nat)
  | die (a k : Nat)
  | ring (a : Nat) (ns : Bool)
  deriving DecidableEq, Repr

/-- What feeds an input of an arbiter: a leaf requester, or the output of another arbiter. -/
inductive ArbSrc where
  | leaf (x : Leaf)
  | out (o : ArbOut)
  deriving DecidableEq, Repr

/-- One input of an arbiter at a flit slot (R320): what feeds it, and whether a flit waits on it. -/
structure ArbInput where
  src : ArbSrc
  waiting : Bool
  deriving DecidableEq, Repr

/-- How an LPDDR5X channel reads a line (R286, R289): the bits, 0 to 1,023 of the data and 1,024 to 1,055 of the check word, in
which the read and its re-read differ from what is stored, the bit errors that link ECC corrected, and whether the line's word in
the check cache has a parity error (R307). -/
structure LpRead where
  flips : List (Fin 1056)
  again : List (Fin 1056)
  lecc : BitVec 8
  par : Bool
  deriving DecidableEq, Repr

/-- What goes wrong in a near-bank unit as it takes a line (R227): the first read of the line fails its check, or both reads do,
though what is stored is good; or the operand register file or an accumulator has a parity error. -/
inductive NbUpsetKind where
  | read
  | reads
  | operandFile
  | accumulator
  deriving DecidableEq, Repr

/-- An upset of the near-bank unit of slice n and bank b, at a bank line (R227). -/
structure NbUpset where
  n : Fin 32
  b : Fin 16
  line : BitVec 17
  kind : NbUpsetKind
  deriving DecidableEq, Repr

/-- A parity error that an MXA meets (R89): in a word of its core store, cleared by the re-read or not, or in an accumulator of its
bank. -/
inductive MxaUpset where
  | storeOnce
  | storeStays
  | accumulator
  deriving DecidableEq, Repr

/-- The windows of the host (R328). -/
inductive HostBar where
  | bar0
  | bar2
  | bar4
  deriving DecidableEq, Repr

/-- The AtomicOps of R332. -/
inductive HostAtomic where
  | fetchAdd
  | swap
  | cas
  deriving DecidableEq, Repr

/-- What ends the host link (R346). -/
inductive LinkLoss where
  | perst
  | hotReset
  | linkDown
  deriving DecidableEq, Repr

/-- Link rates of R349, 2.5 to 64 GT/s, and widths. -/
inductive LinkRate where
  | g2
  | g5
  | g8
  | g16
  | g32
  | g64
  deriving DecidableEq, Repr

inductive LinkWidth where
  | x1
  | x2
  | x4
  | x8
  | x16
  deriving DecidableEq, Repr

/-- What wakes the module (R389), numbered as WAKE_CAUSE (R403). -/
inductive WakeCause where
  | hostAccess
  | doorbell
  | timed
  | chainFrame
  | pwrCmd
  | load
  deriving DecidableEq, Repr

/-- WAKE_CAUSE of a cause (R403). -/
def WakeCause.code : WakeCause → Nat
  | .hostAccess => 1 | .doorbell => 2 | .timed => 3 | .chainFrame => 4 | .pwrCmd => 5 | .load => 6

/-- Readings of the two diodes of a hot spot (R410), in 1/64 °C: dies 0 to 3 are base dies, 4 + t tiles. -/
structure DiodeReading where
  die : Fin 16
  spot : Fin 34
  r0 : BitVec 16
  r1 : BitVec 16
  deriving DecidableEq, Repr


/-- Cycles that a counter of a page has counted over an epoch (R88). -/
structure CycleCount where
  page : BitVec 11
  off : BitVec 12
  n : BitVec 64
  deriving DecidableEq, Repr

/-- What an epoch of 1 ms brings (R391, R402, R407): the measured power of the 52 domains, the requests of the 16 dies and the input
averages, in the units of their registers, and the cycles counted. -/
structure EpochReading where
  domains : List (BitVec 16)
  req : List (BitVec 16)
  vin : BitVec 16
  iin : BitVec 16
  pin : BitVec 16
  cycles : List CycleCount
  deriving DecidableEq, Repr

/-- A REPAIR_MAP entry (R470): KIND, DIE and the fields of its position in the order of R470. -/
structure RepairEntry where
  kind : BitVec 8
  die : BitVec 8
  pos : List Nat
  deriving DecidableEq, Repr

/-- Identity and fuse map blown at package test: GUID, serial number, ordering code, revisions of base dies (1 AB1, 2 AB2) and tiles
(1 FT1, 2 FT2), 2 where the list ends, hidden positions (tile, whether a vector core, physical position), and the bond lanes, rows
and columns replaced, as REPAIR_MAP entries of KIND 0x02 to 0x04 (R22, R272, R481, R498). -/
structure Fuse where
  guid : BitVec 128
  serial : BitVec 64
  code : BitVec 8
  bases : List (BitVec 4)
  tiles : List (BitVec 4)
  hidden : List (Fin 12 × Bool × Fin 34)
  spares : List RepairEntry
  deriving DecidableEq, Repr

/-- A TOPOLOGY section (R355, R357, R468): node, parent port (15 for the root), tiles in service, matrix and vector cores by
tile (0xFF matches any count), masks of channels by package, neighbour node and port by port (0xFFFF for unused), ports of the
C2M medium (R375), routes (LO, HI, ports), and the section's CRC. -/
structure Topology where
  node : BitVec 16
  parent : BitVec 4
  tiles : BitVec 12
  mcs : List (BitVec 8)
  vcs : List (BitVec 8)
  chans : List (BitVec 8)
  ports : List (BitVec 16 × BitVec 3)
  media : BitVec 8
  routes : List (BitVec 16 × BitVec 16 × BitVec 8)
  crc : BitVec 32
  deriving DecidableEq, Repr

/-- What the sections of a configuration image say (R461): TOPOLOGY, REPAIR_MAP, whether CALIBRATION names the dies of this
module, TRAINING (whether it names them, and the repair map it was taken under), SETTINGS (BAR0 offset and value). -/
structure ConfigImage where
  topo : Topology
  repair : List RepairEntry
  calib : Bool
  training : Option (Bool × List RepairEntry)
  settings : List (BitVec 26 × BitVec 32)
  deriving DecidableEq, Repr

/-- A configuration slot that holds an image (R461): the 128 bytes of its header, whether the CRC of the image and of every
section matches, and what its sections say. -/
structure FlashSlot where
  header : List Byte
  crcOk : Bool
  image : ConfigImage
  deriving DecidableEq, Repr

/-- What a bring-up finds (R465, R466, R467): an interface that stays untrained, base dies with an interface whose saved
settings failed, the slices whose bonds are such an interface, the lanes that each bridge repaired (R325), rate of each LPDDR5X channel (3 where it fails all three), good lanes of each chain port, what each
neighbour's IDENT says (node, port, capabilities), units that fail the bring-up test twice, settings found under DIAG by page,
and the timebase in ns at its end. -/
structure BringUp where
  untrained : Option (BitVec 32)
  savedBad : List (Fin 4)
  bondsBad : List (Fin 12 × Fin 32)
  bridgeLanes : List (BitVec 8)
  rates : List (BitVec 2)
  lanes : List (BitVec 8)
  idents : List (Option (BitVec 16 × BitVec 3 × BitVec 16))
  failed : List (Fin 12 × BitVec 9)
  diag : List (BitVec 11 × List (BitVec 32))
  time : BitVec 64
  deriving DecidableEq, Repr

/-- A message on the sideband (R348): SETDASA or ENTDAA assigns an address; the bus owner sets the endpoint ID; PLDM reads
sensor n; PLDM takes the oldest pending event; PLDM updates the firmware to a version; any other message of those
protocols. -/
inductive Sideband where
  | assign (addr : BitVec 7)
  | setEid (eid : BitVec 8)
  | readSensor (n : Fin 31)
  | pollEvent
  | firmware (version : BitVec 32)
  | other
  deriving DecidableEq, Repr

/-- The commands of the block (spec/opcode_table.json). -/
inductive Instr where
  /-- Common instruction that does nothing. (R97) -/
  | nop (t : Fin 12) (p : Fin 41) (f : SFields)
  /-- Ends the program: a matrix or vector core becomes IDLE and reports completion, and the TCC halts. (R97) -/
  | endProgram (t : Fin 12) (p : Fin 41) (f : SFields)
  /-- Stops the core and raises a software trap with its code. (R128) -/
  | trap (t : Fin 12) (p : Fin 41) (f : SFields)
  /-- Waits until every earlier load, store and XFER of the core is complete and visible. (R97) -/
  | fence (t : Fin 12) (p : Fin 41) (f : SFields)
  /-- Loads the timebase value at issue into GD. (R97) -/
  | time (t : Fin 12) (p : Fin 41) (f : SFields)
  /-- Loads the sign-extended IMM32 into GD. (R97) -/
  | ldi (t : Fin 12) (p : Fin 41) (f : SFields)
  /-- Loads IMM32 into the upper half of GD. (R97) -/
  | ldih (t : Fin 12) (p : Fin 41) (f : SFields)
  /-- GD takes G[GA] plus B, modulo 2^64. (R97) -/
  | add (t : Fin 12) (p : Fin 41) (f : SFields)
  /-- GD takes G[GA] minus B, modulo 2^64. (R97) -/
  | sub (t : Fin 12) (p : Fin 41) (f : SFields)
  /-- GD takes G[GA] AND B. (R97) -/
  | and (t : Fin 12) (p : Fin 41) (f : SFields)
  /-- GD takes G[GA] OR B. (R97) -/
  | or (t : Fin 12) (p : Fin 41) (f : SFields)
  /-- GD takes G[GA] XOR B. (R97) -/
  | xor (t : Fin 12) (p : Fin 41) (f : SFields)
  /-- GD takes G[GA] shifted left by B[5:0]. (R97) -/
  | shl (t : Fin 12) (p : Fin 41) (f : SFields)
  /-- GD takes G[GA] shifted right by B[5:0], filling with 0. (R97) -/
  | shr (t : Fin 12) (p : Fin 41) (f : SFields)
  /-- GD takes G[GA] shifted right by B[5:0], filling with the sign. (R97) -/
  | sar (t : Fin 12) (p : Fin 41) (f : SFields)
  /-- GD takes the low 64 bits of G[GA] times B. (R97) -/
  | mul (t : Fin 12) (p : Fin 41) (f : SFields)
  /-- GD takes 1 if G[GA] is less than B (signed), else 0. (R97) -/
  | slt (t : Fin 12) (p : Fin 41) (f : SFields)
  /-- GD takes 1 if G[GA] is less than B (unsigned), else 0. (R97) -/
  | sltu (t : Fin 12) (p : Fin 41) (f : SFields)
  /-- 64-bit load from the core's own store into GD. (R97) -/
  | ld (t : Fin 12) (p : Fin 41) (f : SFields)
  /-- 64-bit store of G[GB] to the core's own store. (R97) -/
  | st (t : Fin 12) (p : Fin 41) (f : SFields)
  /-- 32-bit zero-extending load from the core's own store. (R97) -/
  | ldw (t : Fin 12) (p : Fin 41) (f : SFields)
  /-- 32-bit store to the core's own store. (R97) -/
  | stw (t : Fin 12) (p : Fin 41) (f : SFields)
  /-- Branches relative to the PC. (R97) -/
  | br (t : Fin 12) (p : Fin 41) (f : SFields)
  /-- Branches when G[GA] equals G[GB]. (R97) -/
  | beq (t : Fin 12) (p : Fin 41) (f : SFields)
  /-- Branches when G[GA] differs from G[GB]. (R97) -/
  | bne (t : Fin 12) (p : Fin 41) (f : SFields)
  /-- Branches when G[GA] is less than G[GB], signed. (R97) -/
  | blt (t : Fin 12) (p : Fin 41) (f : SFields)
  /-- Branches when G[GA] is at least G[GB], signed. (R97) -/
  | bge (t : Fin 12) (p : Fin 41) (f : SFields)
  /-- Decrements GD and branches while it is not zero. (R97) -/
  | loop (t : Fin 12) (p : Fin 41) (f : SFields)
  /-- Saves PC + 8 in GD and branches. (R97) -/
  | call (t : Fin 12) (p : Fin 41) (f : SFields)
  /-- Jumps to the address in G[GA]. (R97) -/
  | jr (t : Fin 12) (p : Fin 41) (f : SFields)
  /-- Starts a block transfer between the core's store and a remote DA or TLA range. (R98) -/
  | xfer (t : Fin 12) (p : Fin 41) (f : SFields)
  /-- An outstanding transfer completes and optionally sets its tile flag with release ordering. (R98) -/
  | xferComplete (t : Fin 12) (p : Fin 41) (i : Fin 4)
  /-- Sets a tile or module flag as a release. (R120) -/
  | fset (t : Fin 12) (p : Fin 41) (f : SFields)
  /-- Clears a tile or module flag as a release. (R120) -/
  | fclr (t : Fin 12) (p : Fin 41) (f : SFields)
  /-- Waits until a flag holds the awaited value. (R120) -/
  | fwait (t : Fin 12) (p : Fin 41) (f : SFields)
  /-- A waiting participant is released when its flag holds the awaited value at the end of a FAB cycle. (R120) -/
  | fwaitRelease (t : Fin 12) (p : Fin 41)
  /-- Reads a flag value into GD. (R97) -/
  | ftst (t : Fin 12) (p : Fin 41) (f : SFields)
  /-- Arrives at a tile or module barrier group as a release. (R121) -/
  | bara (t : Fin 12) (p : Fin 41) (f : SFields)
  /-- Waits for the completion of a barrier generation and returns its status. (R121) -/
  | barw (t : Fin 12) (p : Fin 41) (f : SFields)
  /-- Arrives at a barrier group and waits for it as one instruction. (R97) -/
  | bar (t : Fin 12) (p : Fin 41) (f : SFields)
  /-- The last member arrives, so the generation count increments, arrivals clear and waiters are released with status 0. (R121) -/
  | barrierComplete (module : Bool) (t : Fin 12) (g : Fin 16)
  /-- An illegal opcode or field sets PROG_ERR and executes as a no-operation. (R95) -/
  | illegalInstruction (t : Fin 12) (p : Fin 41) (w : BitVec 64)
  /-- The PC leaves the store, so the core sets PROG_ERR and ends as aborted, or the TCC halts. (R96) -/
  | pcOutOfStore (t : Fin 12) (p : Fin 41)
  /-- Matrix multiply-accumulate of one K-chunk into an accumulator bank over 32 ARR cycles. (R58) -/
  | mxa (t : Fin 12) (n : Fin 32) (f : MxaFields)
  /-- A ring-sourced MXA that waited starts when the head tile becomes eligible. (R65) -/
  | mxaStart (t : Fin 12) (n : Fin 32)
  /-- An MXA ends, its tree sums enter the bank and the ring releases the head tile unless HOLD applies. (R68) -/
  | mxaEnd (t : Fin 12) (n : Fin 32) (up : Option MxaUpset)
  /-- Reads out an accumulator bank: drain, checksum comparison, conversion and output to the core store. (R70) -/
  | mxr (t : Fin 12) (n : Fin 32) (f : MxrFields)
  /-- Hands a stream descriptor of weight tiles to the slice controller. (R104) -/
  | wstrm (t : Fin 12) (n : Fin 32) (f : WstrmFields)
  /-- A weight tile has fully arrived in the ring with good or corrected CRC and becomes eligible. (R65) -/
  | ringTileEligible (t : Fin 12) (n : Fin 32)
  /-- Waits until no MXA reads the ring, then discards every ring tile and queued descriptor. (R105) -/
  | wflush (t : Fin 12) (n : Fin 32)
  /-- Loads 64 elements into a vector register, converting them to FP32. (R109) -/
  | vld (t : Fin 12) (v : Fin 8) (f : VFields)
  /-- Stores 64 lanes in a format, converting them from FP32. (R109) -/
  | vst (t : Fin 12) (v : Fin 8) (f : VFields)
  /-- Quantises two 32-lane blocks to an MX format and stores elements and scales. (R110) -/
  | vmxq (t : Fin 12) (v : Fin 8) (f : VFields)
  /-- Lane-wise FP32 addition. (R108) -/
  | vadd (t : Fin 12) (v : Fin 8) (f : VFields)
  /-- Lane-wise FP32 subtraction. (R108) -/
  | vsub (t : Fin 12) (v : Fin 8) (f : VFields)
  /-- Lane-wise FP32 multiplication. (R108) -/
  | vmul (t : Fin 12) (v : Fin 8) (f : VFields)
  /-- Lane-wise fused multiply-add, rounded once. (R108) -/
  | vfma (t : Fin 12) (v : Fin 8) (f : VFields)
  /-- Lane-wise higher-ranked value. (R111) -/
  | vmax (t : Fin 12) (v : Fin 8) (f : VFields)
  /-- Lane-wise lower-ranked value. (R111) -/
  | vmin (t : Fin 12) (v : Fin 8) (f : VFields)
  /-- Broadcasts G[GA][31:0] to every lane. (R108) -/
  | vbc (t : Fin 12) (v : Fin 8) (f : VFields)
  /-- Clears lane bit 31. (R108) -/
  | vabs (t : Fin 12) (v : Fin 8) (f : VFields)
  /-- Inverts lane bit 31. (R108) -/
  | vneg (t : Fin 12) (v : Fin 8) (f : VFields)
  /-- Lane-wise correctly rounded exp2. (R46) -/
  | vexp2 (t : Fin 12) (v : Fin 8) (f : VFields)
  /-- Lane-wise correctly rounded reciprocal. (R46) -/
  | vrcp (t : Fin 12) (v : Fin 8) (f : VFields)
  /-- Lane-wise correctly rounded reciprocal square root. (R46) -/
  | vrsq (t : Fin 12) (v : Fin 8) (f : VFields)
  /-- Selects lanes of YA or YB by YC. (R108) -/
  | vsel (t : Fin 12) (v : Fin 8) (f : VFields)
  /-- Lane-wise comparison producing all-ones or zero. (R111) -/
  | vcmp (t : Fin 12) (v : Fin 8) (f : VFields)
  /-- Lane-wise INT32 addition. (R108) -/
  | viadd (t : Fin 12) (v : Fin 8) (f : VFields)
  /-- Writes G[GA] + i to lane i. (R108) -/
  | viota (t : Fin 12) (v : Fin 8) (f : VFields)
  /-- Converts FP32 to INT32, ties to even, saturating. (R108) -/
  | vf2i (t : Fin 12) (v : Fin 8) (f : VFields)
  /-- Converts INT32 to FP32, ties to even. (R108) -/
  | vi2f (t : Fin 12) (v : Fin 8) (f : VFields)
  /-- Cross-lane tree sum broadcast to every lane. (R47) -/
  | vrsum (t : Fin 12) (v : Fin 8) (f : VFields)
  /-- Cross-lane first-ranked value broadcast to every lane. (R111) -/
  | vrmax (t : Fin 12) (v : Fin 8) (f : VFields)
  /-- Permutes lanes of YA by YB. (R108) -/
  | vperm (t : Fin 12) (v : Fin 8) (f : VFields)
  /-- Applies rotary position encoding to lane pairs. (R112) -/
  | vrope (t : Fin 12) (v : Fin 8) (f : VFields)
  /-- Sorts 64 value and index candidates in R47 order. (R113) -/
  | vsort (t : Fin 12) (v : Fin 8) (f : VFields)
  /-- Keeps the top 64 of 128 value and index candidates. (R113) -/
  | vtkm (t : Fin 12) (v : Fin 8) (f : VFields)
  /-- Starts an IDLE participant at a PC with G1 and a step tag. (R116) -/
  | cstart (t : Fin 12) (f : SFields)
  /-- Waits until every masked participant is IDLE and returns the aborted mask. (R115) -/
  | cwait (t : Fin 12) (f : SFields)
  /-- A waiting CWAIT completes when the last masked participant becomes IDLE. (R115) -/
  | cwaitRelease (t : Fin 12)
  /-- Aborts the masked participants at their next instruction boundary. (R117) -/
  | cabort (t : Fin 12) (f : SFields)
  /-- Resumes a TRAPPED participant at its first uncompleted instruction. (R128) -/
  | cresume (t : Fin 12) (f : SFields)
  /-- TCC 32-bit load from any DA, registers included. (R115) -/
  | ldg (t : Fin 12) (f : SFields)
  /-- TCC 32-bit store to any DA, registers included. (R115) -/
  | stg (t : Fin 12) (f : SFields)
  /-- Returns from a trap, or enters the next pending trap. (R130) -/
  | tret (t : Fin 12) (f : SFields)
  /-- Waits for a pending tile event of a set and consumes it. (R523) -/
  | waitev (t : Fin 12) (f : SFields)
  /-- A waiting WAITEV is released when an awaited tile event is raised. (R523) -/
  | waitevRelease (t : Fin 12)
  /-- The TCC enters a trap at its next instruction boundary for a software trap or trap-reaction fault. (R129) -/
  | tccTrapEntry (t : Fin 12)
  /-- A trap-reaction source on a running core's page stops the core in TRAPPED. (R128) -/
  | coreSourceTrap (t : Fin 12) (p : Fin 40)
  /-- Register write that sets a tile flag. (R132) -/
  | tfSet (t : Fin 12) (flag : BitVec 8)
  /-- Register write that clears a tile flag. (R132) -/
  | tfClr (t : Fin 12) (flag : BitVec 8)
  /-- Register write that sets a module flag. (R133) -/
  | mfSet (flag : BitVec 6)
  /-- Register write that clears a module flag. (R133) -/
  | mfClr (flag : BitVec 6)
  /-- Writes a tile barrier member mask, held while the generation has arrivals. (R124) -/
  | tbMembersWrite (t : Fin 12) (g : Fin 16) (high : Bool) (v : BitVec 32)
  /-- Writes a module barrier member mask, held as R124 lays down. (R133) -/
  | mbMembersWrite (g : Fin 8) (v : BitVec 12)
  /-- Aborts the current generation of a tile barrier group and releases waiters with status 1. (R123) -/
  | tbAbort (t : Fin 12) (g : Fin 16)
  /-- Aborts the current generation of a module barrier group and releases waiting TCCs with status 1. (R123) -/
  | mbAbort (g : Fin 8)
  /-- A write to TCC_CTL.HALT halts the TCC at its next boundary or lets it run. (R138) -/
  | tccHaltWrite (t : Fin 12) (halt : Bool)
  /-- Clears IN_TRAP and pending causes and sets the PC to TCC_BOOT. (R138) -/
  | tccRestart (t : Fin 12)
  /-- Writes the weight ring base or size, discarded with PROG_ERR unless the ring is empty and idle. (R86) -/
  | mcWringWrite (t : Fin 12) (n : Fin 32) (size : Bool) (v : BitVec 32)
  /-- Host command that checks, places and activates a Plauth image in a plan slot. (R151) -/
  | loadPlan (q : Fin 64) (cid : BitVec 16) (imageDa imageSize : BitVec 64) (slot pin : BitVec 8)
  /-- The placement of a load finishes, the completion is posted and the slot becomes ACTIVE or LOADED. (R151) -/
  | loadPlanDone (slot : Fin 4)
  /-- Host command that ends a plan's sequences and empties its slot at the period end. (R156) -/
  | unloadPlan (q : Fin 64) (cid : BitVec 16) (slot : BitVec 8)
  /-- Host command that changes a plan's variant pinning from the next admission. (R159) -/
  | planCtl (q : Fin 64) (cid : BitVec 16) (slot pin : BitVec 8)
  /-- Writes TC_HSIG and raises HOST_SIGNAL on every tile holding the plan. (R339) -/
  | planSignal (q : Fin 64) (cid : BitVec 16) (slot : BitVec 8) (arg : BitVec 32)
  /-- The head collects segment records, checks codes 0x14 and 0x15 and activates the chain plan. (R165) -/
  | chainActivation (slot : Fin 4) (segs : List ChainSeg)
  /-- The placement of a RELOAD variant from the golden copy completes and the slot becomes DEGRADED. (R162) -/
  | reloadPlacementDone (slot : Fin 4)
  /-- Host command that opens a sequence in the lowest FREE entry. (R169) -/
  | seqOpen (q : Fin 64) (cid : BitVec 16) (o : SeqOpenArgs)
  /-- Host command that suspends a READY or STALLED sequence. (R168) -/
  | seqSuspend (q : Fin 64) (cid seq : BitVec 16)
  /-- Host command that returns a SUSPENDED or STALLED sequence to READY. (R168) -/
  | seqResume (q : Fin 64) (cid seq : BitVec 16)
  /-- Host command that ends a sequence. (R168) -/
  | seqEnd (q : Fin 64) (cid seq : BitVec 16)
  /-- Host command that frees an ENDED or FAILED sequence and returns its pages. (R193) -/
  | seqRelease (q : Fin 64) (cid seq : BitVec 16)
  /-- Host command that moves bytes between host memory and a device range. (R338) -/
  | dma (q : Fin 64) (cid : BitVec 16) (dir : BitVec 8) (host da len : BitVec 64)
  /-- A running DMA command finishes and posts its completion. (R338) -/
  | dmaDone (i : Fin 8) (data : List Byte)
  /-- Maintenance command that maps out an LPDDR5X channel through LP_MAPOUT. (R295) -/
  | chMapout (q : Fin 64) (cid : BitVec 16) (pkg ch : BitVec 8)
  /-- The remap and initialisation of a region complete, so the fence lifts and MAPOUT_DONE is posted. (R295) -/
  | mapoutRemapDone
  /-- Maintenance command that drains, resets, retrains and returns one tile. (R476) -/
  | tileCycle (q : Fin 64) (cid : BitVec 16) (tile flags : BitVec 8)
  /-- Maintenance command that runs the rest of a tile cycle on a PARKED or FENCED tile. (R476) -/
  | tileRejoin (q : Fin 64) (cid : BitVec 16) (tile flags : BitVec 8)
  /-- A draining tile finishes cleanup, enters self-refresh and RETAIN, and becomes PARKED. (R476) -/
  | tileParked (t : Fin 12)
  /-- A rejoining tile's golden records are rewritten, and it returns to service at the next admission cutoff. (R476) -/
  | tileReloadDone (t : Fin 12) (bad : List (BitVec 9))
  /-- Maintenance command that builds a new repair map and warm restarts with full training. (R471) -/
  | repairPass (q : Fin 64) (cid : BitVec 16) (flags : BitVec 8)
  /-- Maintenance command that writes current training settings to a new image. (R467) -/
  | saveTraining (q : Fin 64) (cid : BitVec 16)
  /-- Maintenance command that starts a warm restart, optionally with DIAG or SELECT. (R472) -/
  | restart (q : Fin 64) (cid : BitVec 16) (flags : BitVec 8)
  /-- Maintenance command that replaces one configuration section with staged bytes. (R464) -/
  | cfgWrite (q : Fin 64) (cid : BitVec 16) (type : BitVec 8) (src len : BitVec 64)
  /-- Maintenance command that writes the topology found into a new image. (R468) -/
  | acceptTopology (q : Fin 64) (cid : BitVec 16)
  /-- Host NOP command that completes with no effect. (R337) -/
  | nopCommand (q : Fin 64) (cid : BitVec 16)
  /-- A fetched entry with an unknown OPC completes with status 0x40. (R337) -/
  | invalidOpcode (q : Fin 64) (cid : BitVec 16) (opc oper : BitVec 8)
  /-- Submission doorbell that makes the module fetch entries up to the new tail. (R335) -/
  | sqTail (q : Fin 64) (tail : BitVec 12) (entries : List (List Byte)) (bad : Option (BitVec 12))
  /-- Completion doorbell that frees consumed completion entries. (R341) -/
  | cqHead (q : Fin 64) (head : BitVec 12)
  /-- When a full CQ has room again, held completions and one CQ_LOST event are posted. (R342) -/
  | cqRoomPost (q : Fin 64)
  /-- Writing HI_Q_CFG.EN enables a pair with zeroed pointers or disables it and aborts fetched commands. (R334) -/
  | queuePairEnable (q : Fin 64) (en : Bool)
  /-- COAL_US after the oldest unsignalled entry, the completion vector is signalled. (R344) -/
  | irqCoalesceTimeout (q : Fin 64)
  /-- Unmasking a vector sends its one merged pending message if its cause is still pending. (R344) -/
  | msixUnmask (v : Option (Fin 256)) (mask : Bool)
  /-- Setting SP_CTRL.RUN schedules the first period on the grid; clearing it stops further periods. (R171) -/
  | spRunWrite (run : Bool)
  /-- At S_k − 20 µs commands take effect and admission writes the records and plan control blocks. (R172) -/
  | admissionCutoff (away : List (Fin 4))
  /-- A period starts, SP_PERIOD_NUM increments and PERIOD_START is raised on tiles. (R172) -/
  | periodStart (routes : List (Fin 4 × List ChainSeg))
  /-- Every step group without a commit point is dropped, participants and barriers are aborted and drops are posted. (R179) -/
  | periodEnd (parts : List (BitVec 7 × List (Fin 12 × BitVec 32)))
  /-- A group passes every check, so sequence entries update, outputs are copied and completions posted. (R177) -/
  | stepGroupCommit (g : BitVec 7) (tc : BitVec 64) (ends : List (Fin 12 × BitVec 32)) (outs : List (BitVec 32 × List Byte))
  /-- Replays a suspect piece on replay hardware, comparing result lines bit for bit. (R442) -/
  | pieceReplay (g : BitVec 7) (page : BitVec 11) (n : Fin 32) (da : BitVec 64) (inputs : List Byte)
  /-- Re-runs every piece of a group from its held inputs and writes the compared lines. (R443) -/
  | groupRerun (g : BitVec 7)
  /-- A replay or re-run ends and the outcome, strike or commit is decided. (R444) -/
  | replayResolve (g : BitVec 7) (piece : Option (BitVec 11 × Fin 32)) (r : ReplayResult)
  /-- Register write that posts 1 to 16 walk commands to a tile's walk queue. (R201) -/
  | tgWpost (t : Fin 12) (v : BitVec 32)
  /-- Tongs starts a walk, reading the guarded descriptor of a page list. (R199) -/
  | walk (t : Fin 12)
  /-- When ring space frees, one page sub-range and its record are delivered and DELIVERED advances. (R199) -/
  | walkDelivery (t : Fin 12) (i : Fin 4)
  /-- The last delivery of a walk is made and its flag is set. (R199) -/
  | walkComplete (t : Fin 12) (i : Fin 4)
  /-- Register write that posts near-bank descriptors to a layer control queue. (R230) -/
  | nlPost (t : Fin 12) (l : Fin 8) (v : BitVec 32)
  /-- A near-bank descriptor starts, streaming bank lines and accumulating products. (R219) -/
  | stream (t : Fin 12) (l : Fin 8)
  /-- At a row boundary the layer control grants rows to waiting banks within the concurrency limit. (R229) -/
  | rowGrant (t : Fin 12) (l : Fin 8) (upsets : List NbUpset)
  /-- At FINAL each NBU compares its set, reduces along the neighbour chain and delivers results. (R220) -/
  | nbuFinal (t : Fin 12) (l : Fin 8) (chainPar : Bool)
  /-- Every taking-part bank has delivered and the descriptor's flag is set. (R223) -/
  | nbuDescComplete (t : Fin 12) (l : Fin 8)
  /-- A refresh taken in a streaming bank index stops its channel and resumes after it. (R231) -/
  | nbuRefreshPreempt (t : Fin 12) (l : Fin 8) (b : Fin 16) (due : Bool)
  /-- Register write that posts scan commands to the tile scan sequencer. (R247) -/
  | tcSpost (t : Fin 12) (v : BitVec 32)
  /-- The sequencer presents a scan to every named layer control and it streams the corpus. (R247) -/
  | scan (t : Fin 12)
  /-- When the slice's last block is filtered, its candidate list is written. (R245) -/
  | sliceListWrite (t : Fin 12) (n : Fin 32) (par : Bool)
  /-- Every named slice has written its list and the scan's flag is set. (R248) -/
  | scanComplete (t : Fin 12)
  /-- Register write that posts memory commands to a tile's memory-command queue. (R300) -/
  | tgMpost (t : Fin 12) (v : BitVec 32)
  /-- Memory command whose contribution is applied at the adder in contributor order. (R301) -/
  | reduce (t : Fin 12)
  /-- Every 200 ns Tongs retries a refused contribution. (R302) -/
  | reduceRetry (a : Fin 4) (t : Option (Fin 3)) (i : Nat)
  /-- A contribution refused for RED_TIMEOUT is discarded and its group is suspect. (R302) -/
  | redTimeout (a : Fin 4) (t : Option (Fin 3)) (i : Nat)
  /-- Memory command applied indivisibly to a shared-buffer word, returning the old value. (R304) -/
  | atomic (t : Fin 12)
  /-- Memory command that sends bytes to a remote DA as ACT frames. (R362) -/
  | send (t : Fin 12)
  /-- Memory command that sends a combine contribution as CMB frames. (R364) -/
  | sendCombine (t : Fin 12)
  /-- Memory command that sets or clears a module flag of a remote module. (R363) -/
  | rflag (t : Fin 12)
  /-- Writing TG_FILL_CTL.GO starts a FILL of zero lines with good check words. (R264) -/
  | fill (a : Fin 4)
  /-- Every part of a FILL is written and DONE is set. (R264) -/
  | fillDone (a : Fin 4)
  /-- A whole aligned line write to bonded memory with its computed check word. (R260) -/
  | bondedWholeWrite (t : Fin 12) (n : Fin 32) (line : BitVec 24) (data : List Byte) (who : Leaf) (tag : BitVec 32)
  /-- A narrow write to bonded memory gathers into a merge-buffer entry. (R265) -/
  | bondedNarrowWrite (t : Fin 12) (n : Fin 32) (line : BitVec 24) (off : Fin 128) (data : List Byte) (who : Leaf)
      (tag : BitVec 32)
  /-- A gathering entry idle for MB_TIMEOUT leaves by read-modify-write. (R266) -/
  | mbTimeout (t : Fin 12) (n : Fin 32) (i : Fin 32)
  /-- A read-modify-write merges over the checked bank line and writes it whole, or poisons it. (R267) -/
  | rmwDone (t : Fin 12) (n : Fin 32) (i : Fin 32) (par : Bool)
  /-- The slice controller reads and checks a line before delivering it. (R268) -/
  | bondedLineRead (t : Fin 12) (n : Fin 32) (line : BitVec 24) (who : Leaf) (tag : BitVec 32) (flips : List (Fin 1056))
  /-- The re-read of a failed line returns, delivering it or escalating to the golden copy. (R268) -/
  | crcRereadReturn (t : Fin 12) (n : Fin 32) (i : Nat) (flips : List (Fin 1056))
  /-- The golden copy of a bad line arrives from LPDDR5X and is checked and delivered. (R268) -/
  | goldenFetchDone (t : Fin 12) (n : Fin 32) (i : Nat)
  /-- A bank's refresh falls due and is taken or postponed. (R274) -/
  | refreshDue (t : Fin 12) (n : Fin 32) (l : Fin 8) (b : Fin 16) (postpone : Bool)
  /-- A bank exceeds 5 tREFI between refreshes and sets the FATAL source. (R275) -/
  | refreshMiss (t : Fin 12) (n : Fin 32) (l : Fin 8) (b : Fin 16)
  /-- An LPDDR5X controller reads and checks a line, re-reading or poisoning it. (R289) -/
  | lpLineRead (a : Fin 4) (line : BitVec 31) (who : Leaf) (tag : BitVec 32) (r : LpRead)
  /-- A whole aligned line write to LPDDR5X with its check word. (R288) -/
  | lpWholeWrite (a : Fin 4) (line : BitVec 31) (data : List Byte) (who : Leaf) (tag : BitVec 32)
  /-- A narrow LPDDR5X write gathers into the gather buffer. (R288) -/
  | lpNarrowWrite (a : Fin 4) (line : BitVec 31) (off : Fin 128) (data : List Byte) (who : Leaf) (tag : BitVec 32)
  /-- A gathering LPDDR5X entry idle for GB_TIMEOUT leaves by read-modify-write. (R288) -/
  | gbTimeout (p : Fin 16) (i : Fin 64) (par : Bool)
  /-- A per-bank refresh is issued every tREFI / 16 on a channel. (R291) -/
  | lpRefresh (p : Fin 16) (c : Fin 4)
  /-- Every 1 ms the controller reads MR4 and applies the refresh multiplier. (R291) -/
  | mr4Read (p : Fin 16) (c : Fin 4) (mult : Fin 3) (hot : Bool)
  /-- Every 1,000,000 cycles LP_EFFc takes the loss terms of the window. (R296) -/
  | lpEffWindow (p : Fin 16) (c : Fin 4)
  /-- Guarded register write that maps out a channel and fences its region. (R295) -/
  | lpMapout (p : Fin 16) (mask : BitVec 4)
  /-- Writing 0xFF to a channel's UNC count clears it. (R305) -/
  | lpUncClear (p : Fin 16) (c : Fin 4)
  /-- A shared-buffer read that re-reads and poisons on persistent parity error. (R298) -/
  | sbRead (a : Fin 4) (off : BitVec 26) (who : Leaf) (tag : BitVec 32) (bad : Fin 3)
  /-- A shared-buffer write, refused on arriving parity error and replayed once. (R298) -/
  | sbWrite (a : Fin 4) (off : BitVec 26) (data : List Byte) (who : Leaf) (tag : BitVec 32) (bad : Fin 3)
  /-- A flit with bad parity is refused and replayed once, else delivered poisoned. (R310) -/
  | flitParityReplay (t : Fin 12) (seg : Fin 4) (src : BitVec 8) (tag : BitVec 32) (again : Bool)
  /-- An arbiter output grants one waiting input per flit slot by census-weighted credit. (R320) -/
  | arbiterGrant (arb : ArbOut) (inputs : List ArbInput)
  /-- A half idle for IDLE_US with automatic clock-down begins GOING_DOWN. (R316) -/
  | halfIdleTimeout (t : Fin 12) (h : Fin 2)
  /-- The clock-down sequence of a half ends and it becomes DOWN or, if a wake was latched, wakes. (R315) -/
  | halfDown (t : Fin 12) (h : Fin 2)
  /-- The first request to a DOWN half enters the seam FIFO and wakes the half. (R317) -/
  | halfWakeRequest (t : Fin 12) (h : Fin 2) (who : Leaf) (tag : BitVec 32)
  /-- A waking half reaches AWAKE and the seam FIFO drains into it. (R317) -/
  | halfAwake (t : Fin 12) (h : Fin 2)
  /-- A request to a GATED half completes poisoned. (R318) -/
  | gatedAccess (t : Fin 12) (h : Fin 2) (tag : BitVec 32)
  /-- Writes automatic clock-down enables or wakes a half. (R323) -/
  | fbHalfCtlWrite (t : Fin 12) (v : BitVec 32)
  /-- A UCIe module of a bridge fails, degrading or downing the bridge and rerouting traffic. (R322) -/
  | bridgeModuleFail (x : Fin 4) (m : Fin 4) (lost : List (Leaf × BitVec 32))
  /-- Host register access through BAR0, narrow or misaligned writes discarded. (R331) -/
  | bar0Access (off : BitVec 26) (size : Fin 9) (data : Option (List Byte))
  /-- A host AtomicOp on BAR2 acts as the shared-buffer ATOMIC. (R332) -/
  | bar2Atomicop (bar : HostBar) (off : BitVec 28) (bytes : Fin 3) (op : HostAtomic) (a b : BitVec 64)
  /-- Host access through the BAR4 window translated to a DA. (R328) -/
  | bar4Access (bar2 : Bool) (resize : Option (Fin 12)) (off : BitVec 48) (len : Nat) (data : Option (List Byte))
  /-- Host CXL.mem read of LPDDR5X through the HDM decoder. (R329) -/
  | cxlMemRead (y : BitVec 40)
  /-- Host CXL.mem store to LPDDR5X, completed when the module returns its completion. (R330) -/
  | cxlMemWrite (y : BitVec 40) (data : List Byte)
  /-- A device write to a host-held line waits for a back-invalidate. (R330) -/
  | backInvalidate (da : BitVec 48) (data : List Byte) (tag : BitVec 32) (answered : Bool)
  /-- A back-invalidate unanswered for 10 ms sets CXL_BISNP_TO. (R330) -/
  | bisnpTimeout (i : Nat)
  /-- PERST_N, hot reset or link down takes the link down and resets the host interface. (R346) -/
  | perstN (cause : LinkLoss)
  /-- Function level reset resets the host interface with the link up. (R346) -/
  | functionLevelReset
  /-- CXL reset empties the snoop filter and coherence cache and uncommits the decoder. (R346) -/
  | cxlReset
  /-- The host link trains to a rate and width. (R326) -/
  | linkTrained (rate : LinkRate) (width : LinkWidth) (flit cxl : Bool)
  /-- A chain port's training ends in x8, x4 or DOWN. (R352) -/
  | portTrainingDone (c : Fin 8) (lanes : BitVec 8)
  /-- Writing CP_CMD.RETRAIN retrains a chain port. (R352) -/
  | cpRetrain (c : Fin 8)
  /-- A frame arrives on a port and is accepted in LSEQ order or NAKed. (R354) -/
  | frameReceive (c : Fin 8) (f : Frame) (crc : Option (BitVec 32))
  /-- A frame not addressed to the module is forwarded by its route. (R358) -/
  | framePassThrough (c : Fin 8)
  /-- A neighbour's IDENT frame is checked against the descriptor. (R355) -/
  | ident (c : Fin 8)
  /-- A cumulative ACK frees replay-buffer frames. (R354) -/
  | ack (c : Fin 8)
  /-- A NAK makes the transmitter resend from the expected frame, retraining after 8 resends. (R354) -/
  | nak (c : Fin 8)
  /-- Every 1 ms a child sends SYNC_REQ to its parent. (R370) -/
  | syncExchange (c : Fin 8) (ns : Fin 40)
  /-- The parent stamps a SYNC_REQ and answers with SYNC_RSP. (R370) -/
  | syncReq (c : Fin 8) (ns2 ns3 : Fin 40)
  /-- The child computes delay and offset and steps, holds or slews its timebase. (R371) -/
  | syncRsp (c : Fin 8) (ns : Fin 40)
  /-- An ACT frame's payload lands at its DA and its flag is set when the command has landed. (R361) -/
  | act (c : Fin 8)
  /-- A CMB frame delivers bytes or makes Tongs issue a REDUCE. (R364) -/
  | cmb (c : Fin 8)
  /-- A FLAG frame sets or clears a module flag. (R363) -/
  | flagFrame (c : Fin 8)
  /-- The root counts a chain barrier arrival and broadcasts BAR_REL at the member count. (R365) -/
  | barArr (c : Fin 8)
  /-- A member completes the chain barrier generation and forwards the broadcast. (R365) -/
  | barRel (c : Fin 8)
  /-- The root broadcasts or a member applies the abort of a chain barrier generation. (R365) -/
  | barAbt (c : Fin 8)
  /-- A segment takes the head's admission entries and runs its part. (R366) -/
  | admitFrame (c : Fin 8)
  /-- The last segment records that an upstream segment's part has passed its checks. (R368) -/
  | report (c : Fin 8)
  /-- A segment applies a chain commit decision and forwards it upstream. (R368) -/
  | commit (c : Fin 8)
  /-- A segment's DROP frame reaches the last segment and head, possibly raising CHAIN_SPLIT. (R368) -/
  | drop (c : Fin 8)
  /-- A segment with no decision by S_k + L + Hmax drops the group CHAIN_LATE. (R180) -/
  | chainLateTimeout (i : Nat)
  /-- A segment applies an OPEN, CANCEL or transition sent by the head. (R367) -/
  | seqSync (c : Fin 8)
  /-- The head takes a segment's answer and proceeds to completion or another round. (R367) -/
  | seqAck (c : Fin 8)
  /-- A segment silent for 1 ms after SEQ_SYNC refuses the open with reason 11. (R367) -/
  | seqSyncTimeout (i : Nat)
  /-- A peer receives held inputs and raises REPLAY_REQUEST on the named tile. (R369) -/
  | rplReq (c : Fin 8)
  /-- The requester receives a chain peer's replay results. (R369) -/
  | rplRes (c : Fin 8)
  /-- Writes a chain barrier configuration, held while MB(4+g) has arrivals. (R365) -/
  | cbCfgWrite (g : Fin 4) (v : BitVec 32)
  /-- Every 10 µs or on input change Bellows chooses the deepest permitted state. (R386) -/
  | bellowsEvaluation
  /-- Entry to a sleep state completes, or a latched wake then starts. (R383) -/
  | sleepEntryDone
  /-- The armed wake fires so the module is ACTIVE before the next admission. (R387) -/
  | timedWake
  /-- A wake trigger starts the return to ACTIVE, restoring saved stores from HEARTH. (R389) -/
  | wake (cause : WakeCause)
  /-- The module reaches ACTIVE, setting WAKE_LATE if the bound passed. (R389) -/
  | wakeDone
  /-- A fast PLL not locked within 100 µs of a wake sets PLL_LOCK. (R389) -/
  | pllLockTimeout
  /-- Writing PWR_CMD.WAKE wakes the module. (R403) -/
  | pwrCmdWake
  /-- Every 1 ms epoch grants take effect and REPORT and REQUEST messages are sent. (R391) -/
  | budgetEpoch (x : EpochReading)
  /-- A REPORT budget message is received. (R392) -/
  | budgetReport (d : Fin 16) (flips : List (Fin 256))
  /-- A REQUEST budget message is received. (R392) -/
  | budgetRequest (d : Fin 16) (flips : List (Fin 256))
  /-- A GRANT budget message is received and divided among the die's requesters. (R393) -/
  | grant (d : Fin 16) (flips : List (Fin 256))
  /-- Three epochs without a good GRANT make a die apply its floor. (R392) -/
  | grantLapse (d : Fin 16)
  /-- A tile changes its ARR step within 20 µs without stopping any core. (R382) -/
  | arrStepChange (t : Fin 12)
  /-- A BLK_PREQ write requests a block power state, latching wakes during shutdown. (R396) -/
  | blockPowerRequest (page : BitVec 11) (req : BitVec 2)
  /-- A block finishes entering its parked state and applies any latched request. (R396) -/
  | blockParked (page : BitVec 11)
  /-- Hearth switches to the internal reference when REFCLK fails. (R380) -/
  | refclkLoss
  /-- REFCLK good for 10 ms returns clocks to it and clears REF_INT. (R380) -/
  | refclkRestore
  /-- Each REFCLK tick advances the timebase by 40 plus trim and slew. (R398) -/
  | refclkTick
  /-- Every 100 ms Hearth measures REFCLK and sets the timebase trim. (R398) -/
  | trimMeasure (err : BitVec 16)
  /-- Writing TIME_CTL.LOAD loads the timebase at the next tick if permitted. (R399) -/
  | timeLoad
  /-- The input falls below 40 V. (R397) -/
  | inputUvWarn
  /-- The input below 37 V for 1 ms turns the main converters off. (R397) -/
  | inputUv
  /-- The input rises above 60 V. (R397) -/
  | inputOvWarn
  /-- The input above 60 V for 100 ms or above 74 V turns the main converters off. (R397) -/
  | inputOv
  /-- The input below 30 V stops Hearth. (R518) -/
  | hearthPowerLoss
  /-- At each epoch start Quench reads diodes, steps the model, forecasts and sets limits. (R408) -/
  | quenchEvaluation (l : List DiodeReading) (inlet outlet : BitVec 16 × BitVec 16) (busy : BitVec 12)
  /-- After 1 s without a warning rate and with C_raw ≥ 400 W Quench leaves FLOOR. (R419) -/
  | floorExit
  /-- After 100 ms at or below L − 10 K Quench releases the halves and returns to FLOOR. (R420) -/
  | thermalStopExit
  /-- Both diodes of a hot spot reach 115 °C, asserting THERM_TRIP_N and shutting down the converters. (R414) -/
  | hwTrip (d : Fin 17) (i : Fin 34) (c0 c1 : Bool)
  /-- THERM_TRIP_N is released after 10 s cool with PWR_EN low. (R516) -/
  | thermTripRelease
  /-- Snapshots a hot spot into TT_HS_DATA. (R423) -/
  | ttHsSel (d : Fin 16) (hs : BitVec 6)
  /-- Returns FAILED sensors of the page to GOOD. (R423) -/
  | ttSensClr (d : Fin 16)
  /-- Raises a source once as if its cause were present. (R431) -/
  | fltForce (page : BitVec 11) (bits : BitVec 32)
  /-- Writing 1 clears a sticky bit whose LIVE reads 0. (R430) -/
  | fltStickyClear (page : BitVec 11) (bits : BitVec 32)
  /-- Vexondane composes and writes the CPER report of a setting. (R434) -/
  | faultReport (temp volt : BitVec 16) (time : BitVec 64)
  /-- Vexondane clears a reported bit unless the source is in storm. (R430) -/
  | vexondaneClear (page : BitVec 11) (src : Fin 32)
  /-- BLK_CTRL.RESET or the reaction starts a block reset. (R492) -/
  | blockReset (page : BitVec 11)
  /-- A block reset completes within 10 µs. (R492) -/
  | blockResetDone (page : BitVec 11)
  /-- Temper starts a known-answer test in an idle slot of a unit. (R451) -/
  | temperTest (t : Fin 12) (u : BitVec 9)
  /-- A test's signature is compared; a failure runs again and may condemn the unit. (R452) -/
  | temperTestDone (t : Fin 12) (pass : Bool)
  /-- A unit untested for twice the interval sets TEMPER_OVERDUE. (R451) -/
  | temperOverdue (t : Fin 12) (u : BitVec 9)
  /-- A CSTART, descriptor or scan naming a unit under test abandons the test. (R451) -/
  | temperAbandon (t : Fin 12) (u : BitVec 9)
  /-- Tests every unit at its next slot. (R457) -/
  | tmRunNow (t : Fin 12)
  /-- Snapshots a unit's test results. (R457) -/
  | tmSel (t : Fin 12) (v : BitVec 32)
  /-- The input in range starts bring-up from Hearth to READY or HELD. (R465) -/
  | coldPowerOn (factory : Option (Fuse × Option FlashSlot × Option FlashSlot)) (test pwrEn : Bool) (strap : BitVec 4) (r : BringUp)
      (clocks : List (Bool × Bool))
  /-- A trigger resets every die but Hearth, restores training and re-places plans. (R472) -/
  | warmRestart (r : BringUp)
  /-- A falling edge held at least 1 µs triggers a warm restart. (R517) -/
  | modRstN (ns : BitVec 16)
  /-- PWR_EN falling aborts work and turns the main converters off. (R515) -/
  | pwrEnFall
  /-- PWR_EN rising after 100 ms low runs bring-up steps 3 to 9. (R515) -/
  | pwrEnRise (r : BringUp)
  /-- Every 10 ms HELD causes are re-evaluated and the module may enter READY. (R459) -/
  | heldReevaluate
  /-- A new configuration image is written to the non-current slot and verified. (R463) -/
  | configImageWrite (sec : ConfigImage) (ok1 ok2 : Bool)
  /-- A tile's unrequested reset or clock loss fences it within 1 µs. (R478) -/
  | tileFence (t : Fin 12) (clock : Bool)
  /-- A base die's clock or reset failure fences it, its tiles and bridges. (R479) -/
  | baseFence (a : Fin 4) (lost : List (Fin 4 × Leaf × BitVec 32))
  /-- Snapshots a sequence-table entry into SP_SEQ_DATA. (R167) -/
  | spSeqSel (v : BitVec 32)
  /-- Snapshots a Hearth-kept record. (R501) -/
  | fsHrecSel (v : BitVec 32)
  /-- Host records consumption of error records. (R501) -/
  | fsRingTail (v : BitVec 32)
  /-- Configures or enables the error-record ring, zeroing HEAD and TAIL on enable. (R501) -/
  | fsRingCfgWrite (da : Bool) (v : BitVec 32)
  /-- Snapshots a port's expected topology. (R503) -/
  | toPortSel (v : BitVec 32)
  /-- Snapshots a route-table entry. (R503) -/
  | toRtSel (v : BitVec 32)
  /-- Snapshots a unit's strike count. (R455) -/
  | tcStrikeSel (t : Fin 12) (v : BitVec 32)
  /-- Writing CNTCTL.CLEAR zeroes every counter of a page. (R88) -/
  | counterClear (page : BitVec 11)
  /-- A complement write completes a guarded pair, applying the value or setting GUARD. (R494) -/
  | guardedWrite (ag : Agent) (off : BitVec 26) (v : BitVec 32)
  /-- A write to a register with no row of its own, clamped to legal values. (R486) -/
  | registerWrite (ag : Agent) (off : BitVec 26) (v : BitVec 32)
  /-- An OSFP plug removed, or its link lost, takes the chain port DOWN. (R511) -/
  | chainPlugRemoved (c : Fin 8)
  /-- A plug appearing in an enabled cage starts the port's training state machine. (R352) -/
  | chainPlugInserted (c : Fin 8)
  /-- Release of PERST_N lets the host link start training once step 4 of bring-up has ended. (R514) -/
  | perstNRelease
  /-- The rising edge of MOD_RST_N lets a warm restart held at step 2 continue. (R517) -/
  | modRstNRelease (r : BringUp)
  /-- A PWR_EN rise that followed less than 100 ms of low is acted on when those 100 ms have passed. (R515) -/
  | pwrEnLowHoldoffEnd (r : BringUp)
  /-- The bridge's Die-to-Die Adapter detects a CRC error, retries the flit and sets BR_RETRY. (R322) -/
  | ucieAdapterRetry (x : Fin 4) (far : Bool)
  /-- An I3C CCC or an MCTP/PLDM message arrives on the sideband and Vexondane serves it, including firmware update. (R348) -/
  | sidebandMessage (m : Sideband)
  /-- Every 100 ms every PLDM sensor is updated. (R348) -/
  | pldmSensorUpdate
  /-- The input rising above 41.0 V or falling below 59.0 V clears the undervoltage or overvoltage warning. (R397) -/
  | inputWarningClear (high : Bool)
  /-- An LPDDR5X channel with no request for 1 µs enters power-down. (R292) -/
  | lpIdlePowerDown (p : Fin 16) (c : Fin 4)
  deriving DecidableEq, Repr

end Sys2Proof
end

