-- ==== Sys2Proof/Decode.lean ====
section
/-!
DEFINITION. Decoding. The operation table gives its rows no bits, so no word spells a command. The 64-bit instruction
words of the cores (R92, R93, R101 to R105, R115) have a decoder for each kind of core, which gives the command that
the core's word stands for, and an encoder.
-/

namespace Sys2Proof

/-- The command that a word spells by the table's bits: the table gives none of its rows bits. -/
def decodeTableWord (_nbits _w : Nat) : Option Instr := none

/-- Fields of a word of format S (R93); bits [31:24] are reserved and ignored (R95). -/
def decodeS (w : BitVec 64) : SFields :=
  ⟨w.extractLsb' 8 4, w.extractLsb' 12 4, w.extractLsb' 16 4, w.extractLsb' 20 4, w.extractLsb' 32 32⟩

/-- A word of format S (R93), reserved bits 0. -/
def encodeS (op : BitVec 8) (f : SFields) : BitVec 64 :=
  f.imm ++ 0#8 ++ f.flags ++ f.gb ++ f.ga ++ f.gd ++ op

/-- Fields of a word of format V (R93). -/
def decodeV (w : BitVec 64) : VFields :=
  ⟨w.extractLsb' 8 5, w.extractLsb' 13 5, w.extractLsb' 18 5, w.extractLsb' 23 5, w.extractLsb' 28 4,
    w.extractLsb' 32 4, w.extractLsb' 36 4, w.extractLsb' 40 24⟩

/-- A word of format V (R93). -/
def encodeV (op : BitVec 8) (f : VFields) : BitVec 64 :=
  f.imm ++ f.gb ++ f.ga ++ f.md ++ f.yc ++ f.yb ++ f.ya ++ f.yd ++ op

/-- Fields of an MXA word (R101). -/
def decodeMxa (w : BitVec 64) : MxaFields :=
  ⟨w.getLsbD 8, w.getLsbD 9, w.extractLsb' 10 4, w.extractLsb' 14 4, w.getLsbD 18, w.getLsbD 19, w.getLsbD 20,
    w.extractLsb' 24 14, w.extractLsb' 38 4, w.extractLsb' 42 14, w.extractLsb' 56 4⟩

/-- An MXA word (R101), reserved bits 0. -/
def encodeMxa (f : MxaFields) : BitVec 64 :=
  0#4 ++ f.wreg ++ f.waddr ++ f.areg ++ f.aaddr ++ 0#3 ++ BitVec.ofBool f.hold ++ BitVec.ofBool f.ring ++
    BitVec.ofBool f.sparse ++ f.afmt ++ f.wfmt ++ BitVec.ofBool f.opening ++ BitVec.ofBool f.bank ++ 0x40#8

/-- Fields of an MXR word (R103). -/
def decodeMxr (w : BitVec 64) : MxrFields :=
  ⟨w.getLsbD 8, w.getLsbD 9, w.extractLsb' 10 4, w.extractLsb' 24 14, w.extractLsb' 38 4⟩

/-- An MXR word (R103), reserved bits 0. -/
def encodeMxr (f : MxrFields) : BitVec 64 :=
  0#22 ++ f.oreg ++ f.oaddr ++ 0#10 ++ f.ofmt ++ BitVec.ofBool f.keep ++ BitVec.ofBool f.bank ++ 0x41#8

/-- Fields of a WSTRM word (R104). -/
def decodeWstrm (w : BitVec 64) : WstrmFields :=
  ⟨w.extractLsb' 8 8, w.extractLsb' 16 9, w.extractLsb' 28 4, w.extractLsb' 32 24⟩

/-- A WSTRM word (R104), reserved bits 0. -/
def encodeWstrm (f : WstrmFields) : BitVec 64 :=
  0#8 ++ f.soff ++ f.sreg ++ 0#3 ++ f.tsize ++ f.count ++ 0x42#8

/-- A common instruction (R97), executed by every core. -/
def decodeCommon (t : Fin 12) (p : Fin 41) (w : BitVec 64) : Option Instr :=
  match (w.extractLsb' 0 8).toNat with
  | 0x01 => some (.nop t p (decodeS w))
  | 0x02 => some (.endProgram t p (decodeS w))
  | 0x03 => some (.trap t p (decodeS w))
  | 0x04 => some (.fence t p (decodeS w))
  | 0x05 => some (.time t p (decodeS w))
  | 0x08 => some (.ldi t p (decodeS w))
  | 0x09 => some (.ldih t p (decodeS w))
  | 0x0A => some (.add t p (decodeS w))
  | 0x0B => some (.sub t p (decodeS w))
  | 0x0C => some (.and t p (decodeS w))
  | 0x0D => some (.or t p (decodeS w))
  | 0x0E => some (.xor t p (decodeS w))
  | 0x0F => some (.shl t p (decodeS w))
  | 0x10 => some (.shr t p (decodeS w))
  | 0x11 => some (.sar t p (decodeS w))
  | 0x12 => some (.mul t p (decodeS w))
  | 0x13 => some (.slt t p (decodeS w))
  | 0x14 => some (.sltu t p (decodeS w))
  | 0x18 => some (.ld t p (decodeS w))
  | 0x19 => some (.st t p (decodeS w))
  | 0x1A => some (.ldw t p (decodeS w))
  | 0x1B => some (.stw t p (decodeS w))
  | 0x20 => some (.br t p (decodeS w))
  | 0x21 => some (.beq t p (decodeS w))
  | 0x22 => some (.bne t p (decodeS w))
  | 0x23 => some (.blt t p (decodeS w))
  | 0x24 => some (.bge t p (decodeS w))
  | 0x25 => some (.loop t p (decodeS w))
  | 0x26 => some (.call t p (decodeS w))
  | 0x27 => some (.jr t p (decodeS w))
  | 0x28 => some (.xfer t p (decodeS w))
  | 0x30 => some (.fset t p (decodeS w))
  | 0x31 => some (.fclr t p (decodeS w))
  | 0x32 => some (.fwait t p (decodeS w))
  | 0x33 => some (.ftst t p (decodeS w))
  | 0x34 => some (.bara t p (decodeS w))
  | 0x35 => some (.barw t p (decodeS w))
  | 0x36 => some (.bar t p (decodeS w))
  | _ => none

/-- A matrix instruction (R101 to R105), executed by matrix cores. -/
def decodeMatrix (t : Fin 12) (n : Fin 32) (w : BitVec 64) : Option Instr :=
  match (w.extractLsb' 0 8).toNat with
  | 0x40 => some (.mxa t n (decodeMxa w))
  | 0x41 => some (.mxr t n (decodeMxr w))
  | 0x42 => some (.wstrm t n (decodeWstrm w))
  | 0x43 => some (.wflush t n)
  | _ => none

/-- A vector instruction (R108), executed by vector cores. -/
def decodeVector (t : Fin 12) (v : Fin 8) (w : BitVec 64) : Option Instr :=
  match (w.extractLsb' 0 8).toNat with
  | 0x60 => some (.vld t v (decodeV w))
  | 0x61 => some (.vst t v (decodeV w))
  | 0x62 => some (.vmxq t v (decodeV w))
  | 0x68 => some (.vadd t v (decodeV w))
  | 0x69 => some (.vsub t v (decodeV w))
  | 0x6A => some (.vmul t v (decodeV w))
  | 0x6B => some (.vfma t v (decodeV w))
  | 0x6C => some (.vmax t v (decodeV w))
  | 0x6D => some (.vmin t v (decodeV w))
  | 0x6E => some (.vbc t v (decodeV w))
  | 0x6F => some (.vabs t v (decodeV w))
  | 0x70 => some (.vneg t v (decodeV w))
  | 0x71 => some (.vexp2 t v (decodeV w))
  | 0x72 => some (.vrcp t v (decodeV w))
  | 0x73 => some (.vrsq t v (decodeV w))
  | 0x74 => some (.vsel t v (decodeV w))
  | 0x75 => some (.vcmp t v (decodeV w))
  | 0x76 => some (.viadd t v (decodeV w))
  | 0x77 => some (.viota t v (decodeV w))
  | 0x78 => some (.vf2i t v (decodeV w))
  | 0x79 => some (.vi2f t v (decodeV w))
  | 0x80 => some (.vrsum t v (decodeV w))
  | 0x81 => some (.vrmax t v (decodeV w))
  | 0x82 => some (.vperm t v (decodeV w))
  | 0x84 => some (.vrope t v (decodeV w))
  | 0x88 => some (.vsort t v (decodeV w))
  | 0x89 => some (.vtkm t v (decodeV w))
  | _ => none

/-- A control instruction (R115), executed by the TCC. -/
def decodeControl (t : Fin 12) (w : BitVec 64) : Option Instr :=
  match (w.extractLsb' 0 8).toNat with
  | 0xC0 => some (.cstart t (decodeS w))
  | 0xC1 => some (.cwait t (decodeS w))
  | 0xC2 => some (.cabort t (decodeS w))
  | 0xC3 => some (.cresume t (decodeS w))
  | 0xC4 => some (.ldg t (decodeS w))
  | 0xC5 => some (.stg t (decodeS w))
  | 0xC6 => some (.tret t (decodeS w))
  | 0xC7 => some (.waitev t (decodeS w))
  | _ => none

/-- The command that an instruction word of participant p of tile t stands for; none for opcode 0x00, a reserved
opcode and an opcode of another kind of core (R92, R95). -/
def decodeCoreWord (t : Fin 12) (p : Fin 41) (w : BitVec 64) : Option Instr :=
  match decodeCommon t p w with
  | some i => some i
  | none =>
    if h : p.val < 32 then decodeMatrix t ⟨p.val, h⟩ w
    else if h' : p.val < 40 then decodeVector t ⟨p.val - 32, by omega⟩ w
    else decodeControl t w

/-- The instruction word of a command that is a core's instruction; none for every other command. -/
def encodeCoreWord : Instr → Option (BitVec 64)
  | .nop _ _ f => some (encodeS 0x01#8 f)
  | .endProgram _ _ f => some (encodeS 0x02#8 f)
  | .trap _ _ f => some (encodeS 0x03#8 f)
  | .fence _ _ f => some (encodeS 0x04#8 f)
  | .time _ _ f => some (encodeS 0x05#8 f)
  | .ldi _ _ f => some (encodeS 0x08#8 f)
  | .ldih _ _ f => some (encodeS 0x09#8 f)
  | .add _ _ f => some (encodeS 0x0A#8 f)
  | .sub _ _ f => some (encodeS 0x0B#8 f)
  | .and _ _ f => some (encodeS 0x0C#8 f)
  | .or _ _ f => some (encodeS 0x0D#8 f)
  | .xor _ _ f => some (encodeS 0x0E#8 f)
  | .shl _ _ f => some (encodeS 0x0F#8 f)
  | .shr _ _ f => some (encodeS 0x10#8 f)
  | .sar _ _ f => some (encodeS 0x11#8 f)
  | .mul _ _ f => some (encodeS 0x12#8 f)
  | .slt _ _ f => some (encodeS 0x13#8 f)
  | .sltu _ _ f => some (encodeS 0x14#8 f)
  | .ld _ _ f => some (encodeS 0x18#8 f)
  | .st _ _ f => some (encodeS 0x19#8 f)
  | .ldw _ _ f => some (encodeS 0x1A#8 f)
  | .stw _ _ f => some (encodeS 0x1B#8 f)
  | .br _ _ f => some (encodeS 0x20#8 f)
  | .beq _ _ f => some (encodeS 0x21#8 f)
  | .bne _ _ f => some (encodeS 0x22#8 f)
  | .blt _ _ f => some (encodeS 0x23#8 f)
  | .bge _ _ f => some (encodeS 0x24#8 f)
  | .loop _ _ f => some (encodeS 0x25#8 f)
  | .call _ _ f => some (encodeS 0x26#8 f)
  | .jr _ _ f => some (encodeS 0x27#8 f)
  | .xfer _ _ f => some (encodeS 0x28#8 f)
  | .fset _ _ f => some (encodeS 0x30#8 f)
  | .fclr _ _ f => some (encodeS 0x31#8 f)
  | .fwait _ _ f => some (encodeS 0x32#8 f)
  | .ftst _ _ f => some (encodeS 0x33#8 f)
  | .bara _ _ f => some (encodeS 0x34#8 f)
  | .barw _ _ f => some (encodeS 0x35#8 f)
  | .bar _ _ f => some (encodeS 0x36#8 f)
  | .mxa _ _ f => some (encodeMxa f)
  | .mxr _ _ f => some (encodeMxr f)
  | .wstrm _ _ f => some (encodeWstrm f)
  | .wflush _ _ => some 0x43#64
  | .vld _ _ f => some (encodeV 0x60#8 f)
  | .vst _ _ f => some (encodeV 0x61#8 f)
  | .vmxq _ _ f => some (encodeV 0x62#8 f)
  | .vadd _ _ f => some (encodeV 0x68#8 f)
  | .vsub _ _ f => some (encodeV 0x69#8 f)
  | .vmul _ _ f => some (encodeV 0x6A#8 f)
  | .vfma _ _ f => some (encodeV 0x6B#8 f)
  | .vmax _ _ f => some (encodeV 0x6C#8 f)
  | .vmin _ _ f => some (encodeV 0x6D#8 f)
  | .vbc _ _ f => some (encodeV 0x6E#8 f)
  | .vabs _ _ f => some (encodeV 0x6F#8 f)
  | .vneg _ _ f => some (encodeV 0x70#8 f)
  | .vexp2 _ _ f => some (encodeV 0x71#8 f)
  | .vrcp _ _ f => some (encodeV 0x72#8 f)
  | .vrsq _ _ f => some (encodeV 0x73#8 f)
  | .vsel _ _ f => some (encodeV 0x74#8 f)
  | .vcmp _ _ f => some (encodeV 0x75#8 f)
  | .viadd _ _ f => some (encodeV 0x76#8 f)
  | .viota _ _ f => some (encodeV 0x77#8 f)
  | .vf2i _ _ f => some (encodeV 0x78#8 f)
  | .vi2f _ _ f => some (encodeV 0x79#8 f)
  | .vrsum _ _ f => some (encodeV 0x80#8 f)
  | .vrmax _ _ f => some (encodeV 0x81#8 f)
  | .vperm _ _ f => some (encodeV 0x82#8 f)
  | .vrope _ _ f => some (encodeV 0x84#8 f)
  | .vsort _ _ f => some (encodeV 0x88#8 f)
  | .vtkm _ _ f => some (encodeV 0x89#8 f)
  | .cstart _ f => some (encodeS 0xC0#8 f)
  | .cwait _ f => some (encodeS 0xC1#8 f)
  | .cabort _ f => some (encodeS 0xC2#8 f)
  | .cresume _ f => some (encodeS 0xC3#8 f)
  | .ldg _ f => some (encodeS 0xC4#8 f)
  | .stg _ f => some (encodeS 0xC5#8 f)
  | .tret _ f => some (encodeS 0xC6#8 f)
  | .waitev _ f => some (encodeS 0xC7#8 f)
  | _ => none

/-- The participant that executes a command that is a core's instruction. -/
def coreOfInstr : Instr → Option (Fin 12 × Fin 41)
  | .nop t p _ => some (t, p)
  | .endProgram t p _ => some (t, p)
  | .trap t p _ => some (t, p)
  | .fence t p _ => some (t, p)
  | .time t p _ => some (t, p)
  | .ldi t p _ => some (t, p)
  | .ldih t p _ => some (t, p)
  | .add t p _ => some (t, p)
  | .sub t p _ => some (t, p)
  | .and t p _ => some (t, p)
  | .or t p _ => some (t, p)
  | .xor t p _ => some (t, p)
  | .shl t p _ => some (t, p)
  | .shr t p _ => some (t, p)
  | .sar t p _ => some (t, p)
  | .mul t p _ => some (t, p)
  | .slt t p _ => some (t, p)
  | .sltu t p _ => some (t, p)
  | .ld t p _ => some (t, p)
  | .st t p _ => some (t, p)
  | .ldw t p _ => some (t, p)
  | .stw t p _ => some (t, p)
  | .br t p _ => some (t, p)
  | .beq t p _ => some (t, p)
  | .bne t p _ => some (t, p)
  | .blt t p _ => some (t, p)
  | .bge t p _ => some (t, p)
  | .loop t p _ => some (t, p)
  | .call t p _ => some (t, p)
  | .jr t p _ => some (t, p)
  | .xfer t p _ => some (t, p)
  | .fset t p _ => some (t, p)
  | .fclr t p _ => some (t, p)
  | .fwait t p _ => some (t, p)
  | .ftst t p _ => some (t, p)
  | .bara t p _ => some (t, p)
  | .barw t p _ => some (t, p)
  | .bar t p _ => some (t, p)
  | .mxa t n _ => some (t, ⟨n.val, by omega⟩)
  | .mxr t n _ => some (t, ⟨n.val, by omega⟩)
  | .wstrm t n _ => some (t, ⟨n.val, by omega⟩)
  | .wflush t n => some (t, ⟨n.val, by omega⟩)
  | .vld t v _ => some (t, ⟨32 + v.val, by omega⟩)
  | .vst t v _ => some (t, ⟨32 + v.val, by omega⟩)
  | .vmxq t v _ => some (t, ⟨32 + v.val, by omega⟩)
  | .vadd t v _ => some (t, ⟨32 + v.val, by omega⟩)
  | .vsub t v _ => some (t, ⟨32 + v.val, by omega⟩)
  | .vmul t v _ => some (t, ⟨32 + v.val, by omega⟩)
  | .vfma t v _ => some (t, ⟨32 + v.val, by omega⟩)
  | .vmax t v _ => some (t, ⟨32 + v.val, by omega⟩)
  | .vmin t v _ => some (t, ⟨32 + v.val, by omega⟩)
  | .vbc t v _ => some (t, ⟨32 + v.val, by omega⟩)
  | .vabs t v _ => some (t, ⟨32 + v.val, by omega⟩)
  | .vneg t v _ => some (t, ⟨32 + v.val, by omega⟩)
  | .vexp2 t v _ => some (t, ⟨32 + v.val, by omega⟩)
  | .vrcp t v _ => some (t, ⟨32 + v.val, by omega⟩)
  | .vrsq t v _ => some (t, ⟨32 + v.val, by omega⟩)
  | .vsel t v _ => some (t, ⟨32 + v.val, by omega⟩)
  | .vcmp t v _ => some (t, ⟨32 + v.val, by omega⟩)
  | .viadd t v _ => some (t, ⟨32 + v.val, by omega⟩)
  | .viota t v _ => some (t, ⟨32 + v.val, by omega⟩)
  | .vf2i t v _ => some (t, ⟨32 + v.val, by omega⟩)
  | .vi2f t v _ => some (t, ⟨32 + v.val, by omega⟩)
  | .vrsum t v _ => some (t, ⟨32 + v.val, by omega⟩)
  | .vrmax t v _ => some (t, ⟨32 + v.val, by omega⟩)
  | .vperm t v _ => some (t, ⟨32 + v.val, by omega⟩)
  | .vrope t v _ => some (t, ⟨32 + v.val, by omega⟩)
  | .vsort t v _ => some (t, ⟨32 + v.val, by omega⟩)
  | .vtkm t v _ => some (t, ⟨32 + v.val, by omega⟩)
  | .cstart t _ => some (t, ⟨40, by omega⟩)
  | .cwait t _ => some (t, ⟨40, by omega⟩)
  | .cabort t _ => some (t, ⟨40, by omega⟩)
  | .cresume t _ => some (t, ⟨40, by omega⟩)
  | .ldg t _ => some (t, ⟨40, by omega⟩)
  | .stg t _ => some (t, ⟨40, by omega⟩)
  | .tret t _ => some (t, ⟨40, by omega⟩)
  | .waitev t _ => some (t, ⟨40, by omega⟩)
  | _ => none

end Sys2Proof
end

