-- ==== Sys2Proof/Config.lean ====
section
/-!
DEFINITION. Free values: constants without a body, one for each kind of value that the spec leaves open.
Nothing can be proved about what they are, so a claim about them holds whatever they are (log 5).
-/

namespace Sys2Proof

/-- The byte read at an address whose content the spec leaves undefined (R154, R303).
The first argument counts the ranges that became undefined so far. -/
opaque Config.freeByte : Nat → Nat → BitVec 8

/-- A free choice between two outcomes that the spec allows, for example R100 and R517. -/
opaque Config.freeBool : Nat → Bool

/-- A free 32-bit word, for a register value that the spec does not state. -/
opaque Config.freeWord : Nat → BitVec 32

/-- A free 64-bit value. -/
opaque Config.freeWord64 : Nat → BitVec 64

/-- A 32-bit lane that a sleep state lost (R384): the loss, and the lane. -/
opaque Config.lostWord : Nat → Nat → BitVec 32

/-- A scalar register that a sleep state lost (R384): the loss, and the register. -/
opaque Config.lostWord64 : Nat → Nat → BitVec 64

/-- Bytes that INPUT_DA advances for one input token (R177): the spec does not state the size. -/
opaque Config.tokenBytes : Nat

/-- Supply voltage of the array at an ARR step (R394): the spec does not give the curve. -/
opaque Config.arrVolt : Nat → Nat

/-- Weight of a count in the share of a node (R407): 0 CNT_ARR_BUSY, 1 CNT_MAC_SLOTS, 2 gated slots, 3 CNT_VBUSY, 4 and 5 lines read
and written, 6 near-bank products, 7 refreshes. The spec gives no weights. -/
opaque Config.powerWeight : Nat → Int

/-- Share of a node in the power of a base die or of a seam strip, which no counter divides (R407). -/
opaque Config.fixedShare : Nat → Nat

/-- One implicit step of 1 ms of the stack model (R406, R408): from the temperatures of the nodes, in 2^-16 of 1/64 °C, their powers,
the inlet in 1/64 °C and Θ, the temperature of a node. The conductances and capacitances lie in the calibration record, whose
contents the spec does not give. -/
opaque Config.modelStep : List Int → List (Nat × Nat) → Int → Int → Nat → Int

/-- The outlet that the model reports, in 1/64 °C (R412): node temperatures, node powers and the inlet. -/
opaque Config.outletTemp : List Int → List (Nat × Nat) → Int → Int

/-- The sink heat capacity in J/K (R416), of the calibration record. -/
opaque Config.sinkCapacity : Nat

/-- The raw thermal cap in W (R417) of an epoch whose measured resistance is not above 0, for which R417 states none. -/
opaque Config.rawCap : Nat → Int

/-- The instruction that selects IDCODE in a base die's TAP (R522): the spec gives no opcodes. -/
opaque Config.idcodeInstruction : BitVec 8

/-- Bits that a base die's instruction register captures above its two fixed ones (R522). -/
opaque Config.irCapture : Nat → BitVec 6

/-- What a data register of a base die captures that is neither bypass nor IDCODE: die wrappers, parallel ports and instruments
(R522), whose lengths and contents the spec does not give. -/
opaque Config.tapRegister : Nat → BitVec 8 → List Bool

/-- REFpb commands of an LPDDR5X channel that may be postponed (R291): JESD209-5C gives the number, and the spec does not. -/
opaque Config.lpPostpone : Nat

/-- Frames of a virtual channel that a port may send beyond the first before one is acknowledged (R358): the spec gives the channels
separate credits and states no number of them. -/
opaque Config.vcCredits : Bool → Nat

/-- A byte of host memory that a fetch brings where no row gives it (R335): the draw, and the byte. -/
opaque Config.hostByte : Nat → Nat → BitVec 8

end Sys2Proof
end

