-- ==== Sys2Proof/Machine/Data.lean ====
section
/-!
DEFINITION. Plain data structures of the state: sparse maps and sets of addresses, each in one canonical form.
-/

namespace Sys2Proof.Machine

/-- A sparse map: pairs of key and value, keys strictly rising. -/
abbrev KMap (α : Type) := List (Nat × α)

/-- The value listed at a key. -/
def kfind {α : Type} : KMap α → Nat → Option α
  | [], _ => none
  | (k', v) :: m, k => if k = k' then some v else kfind m k

/-- The value at a key, or the value that an unlisted key has. -/
def kget {α : Type} (d : α) (m : KMap α) (k : Nat) : α := (kfind m k).getD d

/-- The map with a value listed at a key. -/
def kinsert {α : Type} : KMap α → Nat → α → KMap α
  | [], k, v => [(k, v)]
  | (k', v') :: m, k, v =>
    if k < k' then (k, v) :: (k', v') :: m
    else if k = k' then (k, v) :: m
    else (k', v') :: kinsert m k v

/-- The map with a key unlisted. -/
def kerase {α : Type} (m : KMap α) (k : Nat) : KMap α := m.filter fun p => p.1 != k

/-- The map with a value at a key; the value that an unlisted key has is not listed. -/
def kput {α : Type} [DecidableEq α] (d : α) (m : KMap α) (k : Nat) (v : α) : KMap α :=
  if v = d then kerase m k else kinsert m k v

/-- Keys strictly rising, all above a bound. -/
def kSortedFrom {α : Type} : Nat → KMap α → Bool
  | _, [] => true
  | b, (k, _) :: m => decide (b ≤ k) && kSortedFrom (k + 1) m

/-- The map without the keys in a half-open range. -/
def keraseRange {α : Type} (m : KMap α) (lo hi : Nat) : KMap α :=
  m.filter fun p => p.1 < lo || hi ≤ p.1

/-- The map with only the keys in a half-open range. -/
def kslice {α : Type} (m : KMap α) (lo hi : Nat) : KMap α :=
  m.filter fun p => lo ≤ p.1 && p.1 < hi

/-- A set of naturals: half-open intervals, disjoint, rising and not touching. -/
abbrev RangeSet := List (Nat × Nat)

/-- Membership. -/
def rmem (r : RangeSet) (a : Nat) : Bool := r.any fun p => p.1 ≤ a && a < p.2

/-- The set with an interval added, for an interval that is not empty. -/
def raddAux : RangeSet → Nat → Nat → RangeSet
  | [], lo, hi => [(lo, hi)]
  | (a, b) :: r, lo, hi =>
    if hi < a then (lo, hi) :: (a, b) :: r
    else if b < lo then (a, b) :: raddAux r lo hi
    else raddAux r (min a lo) (max b hi)

/-- The set with the interval [lo, hi) added. -/
def radd (r : RangeSet) (lo hi : Nat) : RangeSet := if lo < hi then raddAux r lo hi else r

/-- The set with an interval removed, for an interval that is not empty. -/
def rdelAux : RangeSet → Nat → Nat → RangeSet
  | [], _, _ => []
  | (a, b) :: r, lo, hi =>
    (if a < min b lo then [(a, min b lo)] else []) ++
    (if max a hi < b then [(max a hi, b)] else []) ++ rdelAux r lo hi

/-- The set with the interval [lo, hi) removed. -/
def rdel (r : RangeSet) (lo hi : Nat) : RangeSet := if lo < hi then rdelAux r lo hi else r

/-- The part of the set inside [lo, hi). -/
def rinter (r : RangeSet) (lo hi : Nat) : RangeSet :=
  r.filterMap fun p => if max p.1 lo < min p.2 hi then some (max p.1 lo, min p.2 hi) else none

/-- Whether the set meets [lo, hi). -/
def rmeets (r : RangeSet) (lo hi : Nat) : Bool := !(rinter r lo hi).isEmpty

/-- Whether the set contains all of [lo, hi). -/
def rcovers (r : RangeSet) (lo hi : Nat) : Bool :=
  hi ≤ lo || r.any fun p => p.1 ≤ lo && hi ≤ p.2

/-- A value that is neither nothing nor out of range at an index of a list. -/
def lget {α : Type} (d : α) (l : List α) (i : Nat) : α := l.getD i d

/-- A list with one element replaced. -/
def lset {α : Type} (l : List α) (i : Nat) (v : α) : List α := l.set i v

/-- The first free name not in a list, searched from a start with fuel. -/
def firstFree (used : List Nat) : Nat → Nat → Option Nat
  | 0, _ => none
  | n + 1, i => if used.contains i then firstFree used n (i + 1) else some i

/-- A list with an element put in its place under an order. -/
def insertBy {α : Type} (le : α → α → Bool) (x : α) : List α → List α
  | [] => [x]
  | y :: l => if le x y then x :: y :: l else y :: insertBy le x l

/-- A list sorted under an order; elements that are equal under it keep their order. -/
def sortBy {α : Type} (le : α → α → Bool) : List α → List α
  | [] => []
  | x :: l => insertBy le x (sortBy le l)

/-- Fold a state over the naturals below n, upwards. -/
def foldUp {σ : Type} (f : Nat → σ → σ) : Nat → σ → σ
  | 0, s => s
  | n + 1, s => f n (foldUp f n s)

/-- Fold a state over a list, in order. -/
def foldList {σ α : Type} (f : α → σ → σ) : List α → σ → σ
  | [], s => s
  | a :: l, s => foldList f l (f a s)

end Sys2Proof.Machine
end

