-- ==== Sys2Proof/Machine/Bits.lean ====
section
/-!
DEFINITION. Bit fields, sign extension, byte order (R12, R14) and check codes.
-/

namespace Sys2Proof.Machine

/-- The field [hi:lo] of a number (R12). -/
def fld (w hi lo : Nat) : Nat := (w >>> lo) % 2 ^ (hi + 1 - lo)

/-- Bit i of a number. -/
def bitOf (w i : Nat) : Bool := (w >>> i) % 2 = 1

/-- A flag as a number. -/
def b2n (b : Bool) : Nat := if b then 1 else 0

/-- A number with bit i set or cleared. -/
def setBitN (w i : Nat) (b : Bool) : Nat :=
  if bitOf w i = b then w else if b then w + 2 ^ i else w - 2 ^ i

/-- A number with field [hi:lo] replaced. -/
def setFld (w hi lo v : Nat) : Nat :=
  w - (fld w hi lo) * 2 ^ lo + (v % 2 ^ (hi + 1 - lo)) * 2 ^ lo

/-- The two's complement value of an n-bit pattern. -/
def sext (n w : Nat) : Int :=
  let v := w % 2 ^ n
  if 2 ^ (n - 1) ≤ v then (v : Int) - 2 ^ n else v

/-- The n-bit pattern of an integer, modulo 2^n. -/
def toPat (n : Nat) (x : Int) : Nat := (x % (2 ^ n : Int)).toNat

/-- The 64-bit sign extension of a 32-bit immediate. -/
def sext32 (w : BitVec 32) : BitVec 64 := w.signExtend 64

/-- The 64-bit sign extension of a 24-bit immediate. -/
def sext24 (w : BitVec 24) : BitVec 64 := w.signExtend 64

/-- Number of set bits among the low n bits. -/
def popCount (w : Nat) : Nat → Nat
  | 0 => 0
  | n + 1 => popCount w n + b2n (bitOf w n)

/-- Numbers of the set bits among the low n bits, rising. -/
def setBits (w n : Nat) : List Nat := (List.range n).filter (bitOf w)

/-- The number whose set bits are the members of a list. -/
def maskOf (l : List Nat) : Nat := l.foldl (fun m i => setBitN m i true) 0

/-- Bytes of a number, least significant first (R14). -/
def leBytes : Nat → Nat → List Byte
  | 0, _ => []
  | n + 1, w => BitVec.ofNat 8 w :: leBytes n (w / 256)

/-- The number that bytes spell, least significant first (R14). -/
def leNat : List Byte → Nat
  | [] => 0
  | b :: l => b.toNat + 256 * leNat l

/-- A number clamped to a range. -/
def clampN (lo hi x : Nat) : Nat := if x < lo then lo else if hi < x then hi else x

/-- An integer clamped to a range. -/
def clampI (lo hi x : Int) : Int := if x < lo then lo else if hi < x then hi else x

/-- Quotient rounded up. -/
def divUp (a b : Nat) : Nat := (a + b - 1) / b

/-- One step of a reflected cyclic redundancy code over a bit. -/
def crcShift (poly c : Nat) : Nat := if c % 2 = 1 then (c / 2) ^^^ poly else c / 2

/-- One byte of a reflected 32-bit cyclic redundancy code. -/
def crcByte (poly c : Nat) (b : Byte) : Nat :=
  let s := crcShift poly
  s (s (s (s (s (s (s (s (c ^^^ b.toNat))))))))

/-- A reflected 32-bit cyclic redundancy code, all ones before and inverted after. -/
def crc32With (poly : Nat) (l : List Byte) : Nat :=
  (l.foldl (crcByte poly) 0xFFFFFFFF) ^^^ 0xFFFFFFFF

/-- CRC-32C (Castagnoli), of line check words (R259, R285). -/
def crc32c (l : List Byte) : Nat := crc32With 0x82F63B78 l

/-- CRC-32 (IEEE 802.3), of Plauth sections and images (R143). -/
def crc32 (l : List Byte) : Nat := crc32With 0xEDB88320 l

end Sys2Proof.Machine
end

