-- ==== Sys2Proof/Machine/Fp.lean ====
section
/-!
DEFINITION. Number formats and deterministic arithmetic (R34 to R51): every value is held exactly as a dyadic number
and rounded once, where the spec rounds.
-/

namespace Sys2Proof.Machine

/-- An exact floating value: a NaN, an infinity, or sign, significand and exponent. -/
inductive Fval where
  | nan
  | inf (neg : Bool)
  | fin (neg : Bool) (m : Nat) (e : Int)
  deriving DecidableEq, Repr

/-- How a format spends its top encodings (R35). -/
inductive FpTop where
  | ieee
  | e4m3
  | finite
  deriving DecidableEq, Repr

/-- A binary floating format (R34). -/
structure FpFormat where
  ebits : Nat
  mbits : Nat
  bias : Int
  top : FpTop
  deriving DecidableEq, Repr

def fpFP32 : FpFormat := ⟨8, 23, 127, .ieee⟩
def fpBF16 : FpFormat := ⟨8, 7, 127, .ieee⟩
def fpFP16 : FpFormat := ⟨5, 10, 15, .ieee⟩
def fpE4M3 : FpFormat := ⟨4, 3, 7, .e4m3⟩
def fpE5M2 : FpFormat := ⟨5, 2, 15, .ieee⟩
def fpE3M2 : FpFormat := ⟨3, 2, 3, .finite⟩
def fpE2M3 : FpFormat := ⟨2, 3, 1, .finite⟩
def fpE2M1 : FpFormat := ⟨2, 1, 1, .finite⟩

/-- The value of an encoding (R34, R35), FP32 subnormals kept. -/
def decodeFp (f : FpFormat) (w : Nat) : Fval :=
  let m := w % 2 ^ f.mbits
  let e := (w >>> f.mbits) % 2 ^ f.ebits
  let s := bitOf w (f.mbits + f.ebits)
  let top := decide (e = 2 ^ f.ebits - 1)
  match f.top, top, decide (m = 0), decide (m = 2 ^ f.mbits - 1) with
  | .ieee, true, true, _ => .inf s
  | .ieee, true, false, _ => .nan
  | .e4m3, true, _, true => .nan
  | _, _, _, _ =>
    if e = 0 then .fin s m (1 - f.bias - f.mbits)
    else .fin s (2 ^ f.mbits + m) ((e : Int) - f.bias - f.mbits)

/-- The value of an FP32 pattern as an operand of arithmetic: a subnormal is zero of its sign (R35, R40). -/
def f32Val (w : Word32) : Fval :=
  if fld w.toNat 30 23 = 0 then .fin (bitOf w.toNat 31) 0 0 else decodeFp fpFP32 w.toNat

/-- The canonical NaN (R39, R40). -/
def f32Nan : Word32 := 0x7FC00000#32

def f32Inf (neg : Bool) : Word32 := if neg then 0xFF800000#32 else 0x7F800000#32

def f32Zero (neg : Bool) : Word32 := if neg then 0x80000000#32 else 0#32

/-- Round m times 2^sh to an integer, nearest, ties to even. -/
def roundNE (m : Nat) (sh : Int) : Nat :=
  if 0 ≤ sh then m <<< sh.toNat
  else
    let k := (-sh).toNat
    let q := m >>> k
    let r := m - (q <<< k)
    let half := 1 <<< (k - 1)
    if half < r ∨ (r = half ∧ q % 2 = 1) then q + 1 else q

/-- Significand n and quantum q of m·2^e rounded to a format, subnormals kept (m not 0). -/
def roundFp (f : FpFormat) (m : Nat) (e : Int) : Nat × Int :=
  let l : Int := (Nat.log2 m : Int) + e
  let q := max (l - f.mbits) (1 - f.bias - f.mbits)
  (roundNE m (e - q), q)

/-- Whether |m·2^e| is below 2^k. -/
def belowPow (m : Nat) (e k : Int) : Bool := m = 0 || decide ((Nat.log2 m : Int) + e < k)

/-- Encoding of a finite value in a format, subnormals kept; none where the rounded value passes the format's
largest encodable exponent (R49). -/
def encodeFin (f : FpFormat) (neg : Bool) (m : Nat) (e : Int) : Option Nat :=
  let s := b2n neg * 2 ^ (f.mbits + f.ebits)
  if m = 0 then some s
  else
    let (n0, q0) := roundFp f m e
    let (n, q) := if n0 = 2 ^ (f.mbits + 1) then (2 ^ f.mbits, q0 + 1) else (n0, q0)
    if n < 2 ^ f.mbits then some (s + n)
    else
      let be := (q + f.mbits + f.bias).toNat
      let w := be * 2 ^ f.mbits + (n - 2 ^ f.mbits)
      let lim := match f.top with
        | .ieee => (2 ^ f.ebits - 1) * 2 ^ f.mbits
        | .e4m3 => 2 ^ (f.ebits + f.mbits) - 1
        | .finite => 2 ^ (f.ebits + f.mbits)
      if w < lim then some (s + w) else none

/-- FP32 pattern of a value by R40: magnitudes below 2^-126 become zero of their sign, NaN is canonical.
DEDUCED (log 7): the magnitude compared with 2^-126 is that of the exact result. -/
def f32Of : Fval → Word32
  | .nan => f32Nan
  | .inf s => f32Inf s
  | .fin s m e =>
    if belowPow m e (-126) then f32Zero s
    else
      match encodeFin fpFP32 s m e with
      | some w => BitVec.ofNat 32 w
      | none => f32Inf s

/-- The signed integer significand of a finite value at a quantum not above its own. -/
def sigAt (neg : Bool) (m : Nat) (e q : Int) : Int :=
  let v : Int := ((m <<< (e - q).toNat : Nat) : Int)
  if neg then -v else v

/-- Exact sum of two values. x + (−x) is +0, (−0) + (−0) is −0 (R40). -/
def fvAdd : Fval → Fval → Fval
  | .nan, _ => .nan
  | _, .nan => .nan
  | .inf a, .inf b => if a = b then .inf a else .nan
  | .inf a, .fin _ _ _ => .inf a
  | .fin _ _ _, .inf b => .inf b
  | .fin sa ma ea, .fin sb mb eb =>
    let q := min ea eb
    let v := sigAt sa ma ea q + sigAt sb mb eb q
    if v = 0 then .fin (sa && sb && decide (ma = 0) && decide (mb = 0)) 0 0
    else .fin (decide (v < 0)) v.natAbs q

/-- Exact product of two values (R39). -/
def fvMul : Fval → Fval → Fval
  | .nan, _ => .nan
  | _, .nan => .nan
  | .inf a, .inf b => .inf (a != b)
  | .inf a, .fin b m _ => if m = 0 then .nan else .inf (a != b)
  | .fin b m _, .inf a => if m = 0 then .nan else .inf (a != b)
  | .fin a ma ea, .fin b mb eb => .fin (a != b) (ma * mb) (ea + eb)

def fvNeg : Fval → Fval
  | .nan => .nan
  | .inf s => .inf (!s)
  | .fin s m e => .fin (!s) m e

/-- A value times 2^k. -/
def fvScale (k : Int) : Fval → Fval
  | .fin s m e => .fin s m (e + k)
  | v => v

/-- FP32 addition (R40). -/
def f32Add (a b : Word32) : Word32 := f32Of (fvAdd (f32Val a) (f32Val b))

/-- FP32 subtraction a + (−b) (R108). -/
def f32Sub (a b : Word32) : Word32 := f32Of (fvAdd (f32Val a) (fvNeg (f32Val b)))

/-- FP32 multiplication (R46). -/
def f32Mul (a b : Word32) : Word32 := f32Of (fvMul (f32Val a) (f32Val b))

/-- Fused multiply-add, rounded once (R46). -/
def f32Fma (a b c : Word32) : Word32 := f32Of (fvAdd (fvMul (f32Val a) (f32Val b)) (f32Val c))

/-- Sign bit cleared. -/
def f32Abs (a : Word32) : Word32 := a &&& 0x7FFFFFFF#32

/-- Sign bit inverted. -/
def f32Neg (a : Word32) : Word32 := a ^^^ 0x80000000#32

/-- Whether a pattern is finite. -/
def f32Finite (a : Word32) : Bool := fld a.toNat 30 23 != 255

/-- Whether a pattern is a NaN. -/
def f32IsNan (a : Word32) : Bool := fld a.toNat 30 23 == 255 && fld a.toNat 22 0 != 0

/-- FP32 product of two encodings as a cell forms it (R39). -/
def f32Product (a b : Fval) : Word32 := f32Of (fvMul a b)

/-- One level of the tree of R41: neighbouring pairs added. -/
def treeLevel (add : Word32 → Word32 → Word32) : List Word32 → List Word32
  | a :: b :: l => add a b :: treeLevel add l
  | l => l

/-- The tree of R41 over 2^k values. -/
def treeSum (add : Word32 → Word32 → Word32) : Nat → List Word32 → Word32
  | 0, l => l.headD 0#32
  | k + 1, l => treeSum add k (treeLevel add l)

/-- Order of R47 as a number: NaN below −infinity, +0 and −0 equal. -/
def f32Rank (w : Word32) : Int :=
  if f32IsNan w then -(2 ^ 33 : Int)
  else
    let mag : Int := ((if fld w.toNat 30 23 = 0 then 0 else fld w.toNat 30 0 : Nat) : Int)
    if bitOf w.toNat 31 then -mag else mag

/-- Whether the candidate (v, i) comes before (w, j) in the order of R47. DESIGN CHOICE: candidates that are equal in value and in
index but not in their bits, where R47 ranks neither first, stand by ascending bits, so that no order of arrival decides (R113,
log 85). -/
def candBefore (v : Word32) (i : Nat) (w : Word32) (j : Nat) : Bool :=
  decide (f32Rank w < f32Rank v) ||
    (decide (f32Rank v = f32Rank w) && (decide (i < j) || (decide (i = j) && decide (v.toNat < w.toNat))))

/-- Insertion of a candidate into a list in the order of R47. -/
def candInsert (v : Word32) (i : Nat) : List (Word32 × Nat) → List (Word32 × Nat)
  | [] => [(v, i)]
  | (w, j) :: l => if candBefore w j v i then (w, j) :: candInsert v i l else (v, i) :: (w, j) :: l

/-- Candidates in the order of R47. -/
def candSort : List (Word32 × Nat) → List (Word32 × Nat)
  | [] => []
  | (v, i) :: l => candInsert v i (candSort l)

/-- Flush of a subnormal result to zero of its sign (R46). -/
def f32Flush (w : Word32) : Word32 :=
  if fld w.toNat 30 23 = 0 then f32Zero (bitOf w.toNat 31) else w

/-- Integer square root, bit by bit from bit k. -/
def isqrtAux (n : Nat) : Nat → Nat → Nat
  | 0, r => r
  | k + 1, r => let t := r + 2 ^ k; isqrtAux n k (if t * t ≤ n then t else r)

def isqrt (n : Nat) : Nat := isqrtAux n (Nat.log2 n / 2 + 1) 0

/-- A quotient with a sticky bit below it, so that one later rounding is correct. -/
def stickyDiv (a b : Nat) : Nat := 2 * (a / b) + b2n (decide (a % b ≠ 0))

/-- Reciprocal, correctly rounded (R46). -/
def f32Rcp (a : Word32) : Word32 :=
  match f32Val a with
  | .nan => f32Nan
  | .inf s => f32Zero s
  | .fin s m e =>
    if m = 0 then f32Inf s
    else f32Of (.fin s (stickyDiv (2 ^ 64) m) (-65 - e))

/-- Reciprocal square root, correctly rounded (R46). -/
def f32Rsqrt (a : Word32) : Word32 :=
  match f32Val a with
  | .nan => f32Nan
  | .inf s => if s then f32Nan else 0#32
  | .fin s m e =>
    if m = 0 then f32Inf s
    else if s then f32Nan
    else
      let odd := e % 2 ≠ 0
      let m' := if odd then 2 * m else m
      let e' := if odd then e - 1 else e
      let n := 2 ^ 160 / m'
      let q := isqrt n
      let exact := decide (q * q = n) && decide (2 ^ 160 % m' = 0)
      f32Of (.fin false (2 * q + b2n (!exact)) (-81 - e' / 2))

/-- ln 2 to 256 fractional bits. -/
def ln2Fix : Nat := 0xB17217F7D1CF79ABC9E3B39803F2F6AF40F343267298B62D8A0D175B8BAAFA2B

/-- Terms of the exponential series in 256-bit fixed point: the sum of x^k / k! from the k-th term on. -/
def expSeries (x : Nat) : Nat → Nat → Nat → Nat
  | 0, _, _ => 0
  | n + 1, k, t => t + expSeries x n (k + 1) (t * x / 2 ^ 256 / k)

/-- 2^f for a fraction f of 256 bits, in fixed point with 256 fractional bits. -/
def exp2Fix (f : Nat) : Nat := expSeries (f * ln2Fix / 2 ^ 256) 70 1 (2 ^ 256)

/-- exp2, correctly rounded (R46): 256-bit fixed point is finer than any rounding boundary of FP32.
DEDUCED (log 8). -/
def f32Exp2 (a : Word32) : Word32 :=
  match f32Val a with
  | .nan => f32Nan
  | .inf s => if s then 0#32 else f32Inf false
  | .fin s m e =>
    if m = 0 then 0x3F800000#32
    else
      let x : Int := sigAt s m (e + 256) 0
      let big := decide (8 ≤ (Nat.log2 m : Int) + e)
      if big then (if s then 0#32 else f32Inf false)
      else
        let n : Int := x / (2 ^ 256 : Int)
        let f : Nat := (x % (2 ^ 256 : Int)).toNat
        if n < -126 then 0#32
        else if 128 ≤ n then f32Inf false
        else if f = 0 then f32Of (.fin false 1 n)
        else f32Of (.fin false (2 * exp2Fix f + 1) (n - 257))

/-- Nearest integer of a value, ties to even. -/
def fvToInt : Fval → Int
  | .fin s m e => let n : Int := (roundNE m e : Int); if s then -n else n
  | _ => 0

/-- FP32 to a saturating integer of n bits, ties to even, NaN gives 0 (R49, R50). -/
def f32ToInt (n : Nat) (a : Word32) : Int :=
  let hi : Int := 2 ^ (n - 1) - 1
  let lo : Int := -(2 ^ (n - 1))
  match f32Val a with
  | .nan => 0
  | .inf s => if s then lo else hi
  | v => clampI lo hi (fvToInt v)

/-- An integer as FP32, nearest, ties to even. -/
def intToF32 (x : Int) : Word32 := f32Of (.fin (decide (x < 0)) x.natAbs 0)

/-- The formats of R37 by code. -/
def fmtOf : Nat → Option FpFormat
  | 0x0 => some fpBF16
  | 0x1 => some fpFP16
  | 0x2 => some fpE4M3
  | 0x3 => some fpE5M2
  | 0x4 => some fpE2M1
  | 0x5 => some fpE4M3
  | 0x6 => some fpE5M2
  | 0x7 => some fpE3M2
  | 0x8 => some fpE2M3
  | 0x9 => some fpE2M1
  | _ => none

/-- Element width in bits of a format code (R34, R37); 0 for the reserved code. -/
def fmtWidth : Nat → Nat
  | 0x0 => 16 | 0x1 => 16 | 0x2 => 8 | 0x3 => 8 | 0x4 => 4 | 0x5 => 8 | 0x6 => 8 | 0x7 => 6
  | 0x8 => 6 | 0x9 => 4 | 0xA => 8 | 0xB => 4 | 0xC => 16 | 0xD => 32 | 0xE => 32
  | _ => 0

/-- Whether a code is an MX format (R36). -/
def fmtMx (c : Nat) : Bool := decide (5 ≤ c) && decide (c ≤ 9)

/-- Rate class of an operand code (R37). -/
def fmtClass : Nat → Nat
  | 0x0 => 16 | 0x1 => 16 | 0x2 => 8 | 0x3 => 8 | 0x5 => 8 | 0x6 => 8 | 0xA => 8
  | 0x4 => 4 | 0x7 => 4 | 0x8 => 4 | 0x9 => 4 | 0xB => 4
  | _ => 0

/-- Operand groups of R38. -/
inductive FmtGroup where
  | f16 | f8 | f4 | i8 | i4
  deriving DecidableEq, Repr

/-- The group of an operand code; none for codes that are no matrix operand. -/
def fmtGroup : Nat → Option FmtGroup
  | 0x0 => some .f16 | 0x1 => some .f16
  | 0x2 => some .f8 | 0x3 => some .f8 | 0x5 => some .f8 | 0x6 => some .f8
  | 0x4 => some .f4 | 0x7 => some .f4 | 0x8 => some .f4 | 0x9 => some .f4
  | 0xA => some .i8
  | 0xB => some .i4
  | _ => none

/-- Whether a group accumulates in INT32 (R38). -/
def FmtGroup.isInt : FmtGroup → Bool
  | .i8 => true
  | .i4 => true
  | _ => false

/-- Value of a floating element with a block scale X (R36); scale 0xFF makes it a NaN (R35). -/
def elemVal (code raw scale : Nat) : Fval :=
  if scale = 0xFF then .nan
  else
    match fmtOf code with
    | some f => fvScale ((scale : Int) - 127) (decodeFp f raw)
    | none => .nan

/-- Output of an FP32 value in a floating format by R49 and R50, for formats outside MX blocks. -/
def f32ToFmt (code : Nat) (a : Word32) : Nat :=
  match fmtOf code with
  | none => 0
  | some f =>
    let sgn (s : Bool) : Nat := b2n s * 2 ^ (f.mbits + f.ebits)
    let maxFin (s : Bool) : Nat := sgn s + (match code with
      | 0x0 => 0x7F80 | 0x1 => 0x7C00 | 0x2 => 0x7E | 0x5 => 0x7E | 0x3 => 0x7B | 0x6 => 0x7B
      | 0x7 => 0x1F | 0x8 => 0x1F | _ => 0x7)
    let infOut (s : Bool) : Nat := sgn s + (match code with
      | 0x0 => 0x7F80 | 0x1 => 0x7C00 | 0x2 => 0x7E | 0x5 => 0x7E | 0x3 => 0x7C | 0x6 => 0x7C
      | 0x7 => 0x1F | 0x8 => 0x1F | _ => 0x7)
    match f32Val a with
    | .nan => (match code with
      | 0x0 => 0x7FC0 | 0x1 => 0x7E00 | 0x2 => 0x7F | 0x3 => 0x7F
      | _ => 0)
    | .inf s => infOut s
    | .fin s m e => (encodeFin f s m e).getD (maxFin s)

/-- An FP32 value in any output code (R49, R50, R70): unconverted for 0xD and 0xE. -/
def f32ToOut (code : Nat) (a : Word32) : Nat :=
  match code with
  | 0xA => toPat 8 (f32ToInt 8 a)
  | 0xB => toPat 4 (f32ToInt 4 a)
  | 0xC => toPat 16 (f32ToInt 16 a)
  | 0xD => a.toNat
  | 0xE => a.toNat
  | c => f32ToFmt c a

/-- An INT32 value in an output code: saturating, unconverted for 0xD and 0xE (R50, R70). -/
def i32ToOut (code : Nat) (a : Word32) : Nat :=
  match code with
  | 0xA => toPat 8 (clampI (-128) 127 a.toInt)
  | 0xB => toPat 4 (clampI (-8) 7 a.toInt)
  | 0xC => toPat 16 (clampI (-32768) 32767 a.toInt)
  | _ => a.toNat

/-- An element loaded as FP32 (R46, R109): exact, subnormal results flushed. DESIGN CHOICE: a scaled magnitude of 2^128 or more is
infinity of its sign, and a NaN element is the canonical NaN (log 107). -/
def elemToF32 (code raw scale : Nat) : Word32 :=
  match code with
  | 0xA => intToF32 (sext 8 raw)
  | 0xB => intToF32 (sext 4 raw)
  | 0xC => intToF32 (sext 16 raw)
  | 0xD => BitVec.ofNat 32 raw
  | 0xE => BitVec.ofNat 32 raw
  | c => f32Of (elemVal c raw scale)

/-- emax of an MX element format (R51). -/
def mxEmax : Nat → Int
  | 0x5 => 8
  | 0x6 => 15
  | 0x7 => 4
  | _ => 2

/-- Magnitude of the largest finite value of a block, as its FP32 pattern (R51, step 1). -/
def mxLargest (l : List Word32) : Nat :=
  l.foldl (fun a w => if f32Finite w then max a (fld (f32Flush w).toNat 30 0) else a) 0

/-- Scale byte and elements of a block of 32 FP32 values in an MX format (R51). -/
def mxQuantise (code : Nat) (l : List Word32) : Nat × List Nat :=
  if l.any f32IsNan then (0xFF, l.map fun _ => 0)
  else
    let a := mxLargest l
    let x : Int :=
      if a = 0 then 0
      else clampI (-127) 127 ((fld a 30 23 : Int) - 127 - mxEmax code)
    let elem (w : Word32) : Nat :=
      match f32Val w, fmtOf code with
      | .fin s m e, some f =>
        (encodeFin f s m (e - x)).getD (b2n s * 2 ^ (f.mbits + f.ebits) +
          (match code with | 0x5 => 0x7E | 0x6 => 0x7B | 0x7 => 0x1F | 0x8 => 0x1F | _ => 0x7))
      | _, _ => f32ToFmt code w
    ((x + 127).toNat, l.map elem)

end Sys2Proof.Machine
end

