-- ==== Sys2Proof/Machine/Geometry.lean ====
section
/-!
DEFINITION. Units, the device address space and the tile-local address space (R8, R25 to R32, R99), and the pages of
the register space (R496, R497).
-/

namespace Sys2Proof.Machine

/-- Number of a participant of the module: tile × 41 + participant (R115). -/
def coreId (t p : Nat) : Nat := t * 41 + p

/-- Bytes of the store of a participant (R91). -/
def storeSize (p : Nat) : Nat := if p < 32 then 0x200000 else if p < 40 then 0x100000 else 0x80000

/-- Tile-local address at which the store of a participant begins (R99). -/
def storeTla (p : Nat) : Nat :=
  if p < 32 then 0x1000000 + p * 0x200000
  else if p < 40 then 0x5000000 + (p - 32) * 0x100000
  else 0x5800000

/-- Participant whose store holds a tile-local address; none for tile SRAM and unmapped addresses (R99). -/
def tlaStore (a : Nat) : Option Nat :=
  if 0x1000000 ≤ a && a < 0x5000000 then some ((a - 0x1000000) / 0x200000)
  else if 0x5000000 ≤ a && a < 0x5800000 then some (32 + (a - 0x5000000) / 0x100000)
  else if 0x5800000 ≤ a && a < 0x5880000 then some 40
  else none

/-- Whether a tile-local address is mapped (R99). -/
def tlaMapped (a : Nat) : Bool := a < 0x5880000

/-- Key of a tile-local byte in the state's one memory: each tile has a space of its own above the device addresses. -/
def tlaKey (t a : Nat) : Nat := 2 ^ 48 * (t + 1) + a

/-- Key of a byte of the configuration flash (R460). -/
def flashKey (a : Nat) : Nat := 2 ^ 48 * 13 + a

/-- Whether participant p of a tile lies in the west half (R8): the TCC and the seam strip are in neither. -/
def ptWest (p : Nat) : Bool := p < 16 || (32 ≤ p && p < 36)

/-- Half of a participant: 0 west, 1 east; none for the TCC. -/
def ptHalf (p : Nat) : Option Nat :=
  if p < 16 then some 0 else if p < 32 then some 1 else if p < 36 then some 0
  else if p < 40 then some 1 else none

/-- Bytes of bonded memory of a tile, and of a slice (R26). -/
def tileBytes : Nat := 0xC00000000
def sliceBytes : Nat := 0x60000000

/-- What a device address names (R25). -/
inductive DaKind where
  | bonded (t n o : Nat)
  | lpddr (a q : Nat)
  | shared (a o : Nat)
  | register (off : Nat)
  | unmapped
  deriving DecidableEq, Repr

/-- First device address of slice Tt.Sn (R26). -/
def sliceBase (t n : Nat) : Nat := t * tileBytes + n * sliceBytes

/-- First device address of LPDDR5X region a (R27). -/
def regionBase (a : Nat) : Nat := 0x10000000000 + a * 0x4000000000

/-- First device address of the shared buffer of base die a (R30). -/
def sbBase (a : Nat) : Nat := 0x20000000000 + a * 0x4000000

/-- First device address of register space (R31). -/
def regBase : Nat := 0x30000000000

/-- The unit that a device address names, before any map-out is taken into account (R25). -/
def daKind (da : Nat) : DaKind :=
  if da < 0x9000000000 then
    .bonded (da / tileBytes) (da % tileBytes / sliceBytes) (da % tileBytes % sliceBytes)
  else if 0x10000000000 ≤ da && da < 0x20000000000 then
    .lpddr ((da - 0x10000000000) / 0x4000000000) ((da - 0x10000000000) % 0x4000000000)
  else if 0x20000000000 ≤ da && da < 0x20010000000 then
    .shared ((da - 0x20000000000) / 0x4000000) ((da - 0x20000000000) % 0x4000000)
  else if 0x30000000000 ≤ da && da < 0x30004000000 then .register (da - 0x30000000000)
  else .unmapped

/-- Layer, bank and bank line of a slice offset (R26). -/
def offLayer (o : Nat) : Nat := fld o 9 7
def offBank (o : Nat) : Nat := fld o 13 10
def offBankLine (o : Nat) : Nat := o >>> 14

/-- Base die of a tile, a package, a chain port (R8). -/
def tileDie (t : Nat) : Nat := t / 3
def pkgDie (p : Nat) : Nat := p / 4
def portDie (c : Nat) : Nat := c / 2

/-- Bytes of the data area of one LPDDR5X channel: 15.5 GiB (R27). -/
def chBytes : Nat := 0x3E0000000

/-- Register page numbers (R496, R497). -/
def modPage (i : Nat) : Nat := i
def basePage (a i : Nat) : Nat := 0x040 + a * 0x40 + i
def tilePage (t i : Nat) : Nat := 0x200 + t * 0x80 + i
def mcPage (t n : Nat) : Nat := tilePage t (2 + n)
def vcPage (t n : Nat) : Nat := tilePage t (34 + n)
def tccPage (t : Nat) : Nat := tilePage t 1
def scPage (t n : Nat) : Nat := tilePage t (42 + n)
def nlPage (t l : Nat) : Nat := tilePage t (74 + l)
def lpPage (p : Nat) : Nat := basePage (p / 4) (1 + p % 4)
def sbPage (a : Nat) : Nat := basePage a 5
def cpPage (c : Nat) : Nat := basePage (c / 2) (6 + c % 2)
def tgPage (a : Nat) : Nat := basePage a 13
def faPage (a : Nat) : Nat := basePage a 12

/-- Page of a participant (R497). -/
def ptPage (t p : Nat) : Nat := if p = 40 then tccPage t else tilePage t (2 + p)

/-- Offset in register space of a register of a page. -/
def regOff (page off : Nat) : Nat := page * 0x1000 + off

/-- Block types of R497. -/
inductive Block where
  | identity | hostIf | hearth | bellows | quench | configuration | faultSummary | timebase | topology
  | queueCfg | queueBell
  | sequences | msix
  | baseControl | lpddr | sharedBuffer | chainPort | bridge | baseThermal | basePower | aggregator | tongs
  | tileControl | tcc | matrixCore | vectorCore | sliceCtl | layerCtl | tileThermal | tilePower | fabric | temper
  deriving DecidableEq, Repr

/-- BLK_ID.TYPE (R497). -/
def Block.typeCode : Block → Nat
  | .identity => 1 | .hostIf => 2 | .hearth => 3 | .bellows => 4 | .quench => 5 | .configuration => 6
  | .faultSummary => 7 | .timebase => 8 | .topology => 9 | .queueCfg => 0xA | .queueBell => 0xA | .sequences => 0xB | .msix => 0
  | .baseControl => 0x100 | .lpddr => 0x101 | .sharedBuffer => 0x102 | .chainPort => 0x103 | .bridge => 0x104
  | .basePower => 0x105 | .baseThermal => 0x106 | .aggregator => 0x107 | .tongs => 0x108
  | .tileControl => 0x200 | .tcc => 0x201 | .matrixCore => 0x202 | .vectorCore => 0x203 | .sliceCtl => 0x204
  | .layerCtl => 0x205 | .tileThermal => 0x206 | .tilePower => 0x207 | .fabric => 0x208 | .temper => 0x209

/-- Block of a module page. -/
def modBlock : Nat → Option Block
  | 0 => some .identity | 1 => some .hostIf | 2 => some .hearth | 3 => some .bellows | 4 => some .quench
  | 5 => some .configuration | 6 => some .faultSummary | 7 => some .timebase | 8 => some .topology
  | 9 => some .queueCfg | 10 => some .queueBell | 11 => some .sequences | 16 => some .msix | 17 => some .msix
  | _ => none

/-- Block of a base-die page. -/
def baseBlock : Nat → Option Block
  | 0 => some .baseControl | 1 => some .lpddr | 2 => some .lpddr | 3 => some .lpddr | 4 => some .lpddr
  | 5 => some .sharedBuffer | 6 => some .chainPort | 7 => some .chainPort | 8 => some .bridge | 9 => some .bridge
  | 10 => some .basePower | 11 => some .baseThermal | 12 => some .aggregator | 13 => some .tongs
  | _ => none

/-- Block of a tile page. -/
def tileBlock (i : Nat) : Option Block :=
  if i = 0 then some .tileControl
  else if i = 1 then some .tcc
  else if i < 34 then some .matrixCore
  else if i < 42 then some .vectorCore
  else if i < 74 then some .sliceCtl
  else if i < 82 then some .layerCtl
  else match i with
    | 82 => some .tileThermal | 83 => some .tilePower | 84 => some .fabric | 85 => some .temper
    | _ => none

/-- Where a page stands. -/
inductive PagePlace where
  | module (i : Nat)
  | base (a i : Nat)
  | tile (t i : Nat)
  | unmapped
  deriving DecidableEq, Repr

/-- Place of a page number (R496). -/
def pagePlace (p : Nat) : PagePlace :=
  if p < 0x40 then .module p
  else if p < 0x140 then .base ((p - 0x40) / 0x40) ((p - 0x40) % 0x40)
  else if 0x200 ≤ p && p < 0x800 then .tile ((p - 0x200) / 0x80) ((p - 0x200) % 0x80)
  else .unmapped

/-- Block of a page number; none for unassigned and unmapped pages. -/
def pageBlock (p : Nat) : Option Block :=
  match pagePlace p with
  | .module i => modBlock i
  | .base _ i => baseBlock i
  | .tile _ i => tileBlock i
  | .unmapped => none

/-- DIE field of a page (R437). -/
def pageDie (p : Nat) : Nat :=
  match pagePlace p with
  | .tile t _ => t
  | .base a _ => 0x40 + a
  | _ => 0x80

/-- Page number within its die or the module (R491). -/
def pageIndex (p : Nat) : Nat :=
  match pagePlace p with
  | .tile _ i => i
  | .base _ i => i
  | .module i => i
  | .unmapped => 0

/-- Every page that owns a block with the common layout (R490). -/
def allPages : List Nat :=
  (List.range 12).map modPage ++
  (List.range 4).flatMap (fun a => (List.range 14).map (basePage a)) ++
  (List.range 12).flatMap (fun t => (List.range 86).map (tilePage t))

end Sys2Proof.Machine
end

