-- ==== Sys2Proof/Machine/RegTable.lean ====
section
/-!
DEFINITION. The registers of every page by block type, from the register tables of the spec, and the fault sources
with their reset classes. RegDesc holds the masks of R15's access codes.
-/

namespace Sys2Proof.Machine

/-- A register, or an array of registers, of a page: the bits of each access code (R15) and the reset value. -/
structure RegDesc where
  off : Nat
  stride : Nat
  count : Nat
  rw : Nat
  rwg : Nat
  w1c : Nat
  wo : Nat
  ro : Nat
  reset : Nat
  deriving DecidableEq, Repr

/-- Registers of a matrixCore page. -/
def regsMatrixCore : List RegDesc := [
  ⟨0x080, 0x4, 1, 0x0, 0x11F, 0x0, 0x0, 0x0, 0x10C⟩,  -- MC_CK
  ⟨0x088, 0x4, 1, 0x3F, 0x0, 0x0, 0x0, 0x0, 0x0⟩,  -- MC_CFG
  ⟨0x08C, 0x4, 1, 0x1FFF80, 0x0, 0x0, 0x0, 0x0, 0x0⟩,  -- MC_WRING_BASE
  ⟨0x090, 0x4, 1, 0x1FFF80, 0x0, 0x0, 0x0, 0x0, 0x0⟩,  -- MC_WRING_SIZE
  ⟨0x094, 0x4, 1, 0x0, 0x0, 0x0, 0x0, 0xFF3F, 0x0⟩,  -- MC_STAT
  ⟨0x098, 0x4, 1, 0x0, 0x0, 0x0, 0x0, 0x7FFFF, 0x0⟩,  -- MC_CUROP0
  ⟨0x09C, 0x4, 1, 0x0, 0x0, 0x0, 0x0, 0xFFFFFFFF, 0x0⟩,  -- MC_CUROP1
  ⟨0x0A0, 0x4, 1, 0x0, 0x0, 0x20, 0x0, 0x1F, 0x0⟩,  -- MC_CK_LAST
  ⟨0x0AC, 0x4, 1, 0x2, 0x0, 0x0, 0x1, 0x0, 0x0⟩,  -- MC_CNTCTL
  ⟨0x008, 0x4, 1, 0x0, 0x0, 0x0, 0x0, 0xFFFF001F, 0x1000001F⟩,  -- BLK_CAP
  ⟨0x0A4, 0x4, 1, 0x0, 0x0, 0x0, 0x0, 0xFFFFFFFF, 0x0⟩,  -- MC_CK_D
  ⟨0x0A8, 0x4, 1, 0x0, 0x0, 0x0, 0x0, 0xFFFFFFFF, 0x0⟩]  -- MC_CK_B

/-- Registers of a tileControl page. -/
def regsTileControl : List RegDesc := [
  ⟨0x400, 0x4, 8, 0x0, 0x0, 0x0, 0x0, 0xFFFFFFFF, 0x0⟩,  -- TF_STATEm
  ⟨0x420, 0x4, 1, 0x0, 0x0, 0x0, 0xFF, 0x0, 0x0⟩,  -- TF_SET
  ⟨0x424, 0x4, 1, 0x0, 0x0, 0x0, 0xFF, 0x0, 0x0⟩,  -- TF_CLR
  ⟨0x440, 0x8, 16, 0xFFFFFFFF, 0x0, 0x0, 0x0, 0x0, 0x0⟩,  -- TB_MEMBERS_LOg
  ⟨0x444, 0x8, 16, 0x1FF, 0x0, 0x0, 0x0, 0x0, 0x0⟩,  -- TB_MEMBERS_HIg
  ⟨0x4C0, 0x4, 16, 0x0, 0x0, 0x0, 0x80000000, 0x7FFFFF, 0x0⟩,  -- TB_STATg
  ⟨0x500, 0x4, 3, 0x0, 0x0, 0x0, 0x0, 0xFFFFFFFF, 0x0⟩,  -- PSTATEm
  ⟨0x600, 0x4, 1, 0x0, 0x0, 0x0, 0x0, 0xFFFFFFFF, 0x0⟩,  -- TC_DONE_OFS
  ⟨0x604, 0x4, 1, 0x0, 0x0, 0x0, 0x0, 0xFFFF, 0x0⟩,  -- TC_LAG_COUNT
  ⟨0x700, 0x4, 1, 0x0, 0x0, 0x0, 0x7FFFF80, 0x0, 0x0⟩,  -- TC_SPOST
  ⟨0x704, 0x4, 1, 0x0, 0x0, 0x0, 0x0, 0xFFFF001F, 0x8⟩,  -- TC_SSTAT
  ⟨0x708, 0x4, 1, 0x0, 0x0, 0x0, 0x0, 0xFFFFFFFF, 0x0⟩,  -- TC_SCUR0
  ⟨0x70C, 0x4, 1, 0x0, 0x0, 0x0, 0x0, 0xFFFFFFFF, 0x0⟩,  -- TC_SCUR1
  ⟨0x710, 0x4, 1, 0x0, 0x0, 0x80000000, 0x0, 0x7FFFFFFF, 0x0⟩,  -- TC_SERR
  ⟨0x740, 0x4, 1, 0x0, 0xF, 0x0, 0x0, 0x0, 0x1⟩,  -- TC_RPL_CFG
  ⟨0x748, 0x4, 1, 0xFFFF, 0x0, 0x0, 0x0, 0x0, 0xFFFF⟩,  -- TC_RPL_PEER
  ⟨0x74C, 0x4, 1, 0x0, 0x0, 0x0, 0x0, 0x1FF000F, 0x0⟩,  -- TC_RPL_LAST0
  ⟨0x750, 0x4, 1, 0x0, 0x0, 0x0, 0x0, 0xFFFFFFFF, 0x0⟩,  -- TC_RPL_LAST1
  ⟨0x754, 0x4, 1, 0x0, 0x0, 0x0, 0x0, 0xFFFFFFFF, 0xFFFFFFFF⟩,  -- TC_RPL_LAST2
  ⟨0x758, 0x4, 1, 0x1FF, 0x0, 0x0, 0x0, 0x0, 0x0⟩,  -- TC_STRIKE_SEL
  ⟨0x75C, 0x4, 1, 0x0, 0x0, 0x0, 0x0, 0x1F, 0x0⟩,  -- TC_STRIKE_DATA
  ⟨0x780, 0x4, 1, 0x0, 0x0, 0x0, 0x0, 0xFF37, 0x0⟩,  -- TC_SVC
  ⟨0x784, 0x4, 1, 0x0, 0x0, 0x0, 0x0, 0xFFFFFFFF, 0x0⟩,  -- TC_SVC_T
  ⟨0x720, 0x4, 1, 0x0, 0x0, 0x0, 0x0, 0xFFFFFFFF, 0x0⟩]  -- TC_HSIG

/-- Registers of a baseControl page. -/
def regsBaseControl : List RegDesc := [
  ⟨0x400, 0x4, 2, 0x0, 0x0, 0x0, 0x0, 0xFFFFFFFF, 0x0⟩,  -- MF_STATE0, MF_STATE1
  ⟨0x408, 0x4, 2, 0x0, 0x0, 0x0, 0x3F, 0x0, 0x0⟩,  -- MF_SET, MF_CLR
  ⟨0x420, 0x4, 8, 0xFFF, 0x0, 0x0, 0x0, 0x0, 0x0⟩,  -- MB_MEMBERSg
  ⟨0x440, 0x4, 8, 0x0, 0x0, 0x0, 0x80000000, 0x1FFFFF, 0x0⟩,  -- MB_STATg
  ⟨0x460, 0x4, 4, 0x1FFFFFFF, 0x0, 0x0, 0x0, 0x0, 0xFFFF⟩,  -- CB_CFGg
  ⟨0x470, 0x4, 4, 0x0, 0x0, 0x0, 0x0, 0x10FFF, 0x0⟩,  -- CB_STATg
  ⟨0x500, 0x4, 1, 0x0, 0x0, 0x0, 0x0, 0x1FF, 0x0⟩,  -- BC_FENCE
  ⟨0x504, 0x4, 1, 0x0, 0x0, 0x0, 0x0, 0x1FFFF, 0x2⟩]  -- BC_REV

/-- Registers of a vectorCore page. -/
def regsVectorCore : List RegDesc := [
  ⟨0x080, 0x4, 1, 0x0, 0x0, 0x0, 0x0, 0xFF1F, 0x0⟩,  -- VC_STAT
  ⟨0x084, 0x4, 1, 0x0, 0x0, 0x0, 0x0, 0xFFFF8, 0x0⟩,  -- VC_PC
  ⟨0x088, 0x4, 1, 0x0, 0x0, 0x0, 0x0, 0xFFF, 0x0⟩,  -- VC_CUROP0
  ⟨0x08C, 0x4, 1, 0x0, 0x0, 0x0, 0x0, 0xFFFFFFFF, 0x0⟩,  -- VC_CUROP1
  ⟨0x090, 0x4, 1, 0x2, 0x0, 0x0, 0x1, 0x0, 0x0⟩,  -- VC_CNTCTL
  ⟨0x008, 0x4, 1, 0x0, 0x0, 0x0, 0x0, 0xFFFF0007, 0x400007⟩]  -- BLK_CAP

/-- Registers of a tcc page. -/
def regsTcc : List RegDesc := [
  ⟨0x080, 0x4, 1, 0x0, 0x7FFF8, 0x0, 0x0, 0x0, 0x0⟩,  -- TCC_TVEC
  ⟨0x088, 0x4, 1, 0x0, 0x0, 0x0, 0x0, 0x7FFF8, 0x0⟩,  -- TCC_EPC
  ⟨0x08C, 0x4, 1, 0x0, 0x0, 0x0, 0x0, 0xFFFF1FFF, 0x0⟩,  -- TCC_CAUSE
  ⟨0x090, 0x4, 1, 0x0, 0x0, 0x0, 0x0, 0xFF07, 0x2⟩,  -- TCC_STAT
  ⟨0x094, 0x4, 1, 0x0, 0x0, 0x0, 0x0, 0x7FFF8, 0x0⟩,  -- TCC_PC
  ⟨0x098, 0x4, 1, 0x1, 0x0, 0x0, 0x2, 0x0, 0x1⟩,  -- TCC_CTL
  ⟨0x09C, 0x4, 1, 0x7FFF8, 0x0, 0x0, 0x0, 0x0, 0x0⟩]  -- TCC_BOOT

/-- Registers of a tongs page. -/
def regsTongs : List RegDesc := [
  ⟨0x200, 0x10, 3, 0x0, 0x0, 0x0, 0xFFFFFF80, 0x0, 0x0⟩,  -- TG_WPOSTt′
  ⟨0x204, 0x10, 3, 0x0, 0x0, 0x0, 0x0, 0xFFFF077F, 0x40⟩,  -- TG_WSTATt′
  ⟨0x240, 0x4, 1, 0x0, 0x0, 0x0, 0x0, 0x3FFFFFFF, 0x0⟩,  -- TG_WCUR0
  ⟨0x244, 0x4, 1, 0x0, 0x0, 0x0, 0x0, 0xFFFFFFFF, 0x0⟩,  -- TG_WCUR1
  ⟨0x280, 0x4, 1, 0xFFFFFF80, 0x0, 0x0, 0x0, 0x0, 0x0⟩,  -- TG_FILL_DA_LO
  ⟨0x284, 0x4, 1, 0xFFFF, 0x0, 0x0, 0x0, 0x0, 0x0⟩,  -- TG_FILL_DA_HI
  ⟨0x288, 0x4, 1, 0xFFFFFF80, 0x0, 0x0, 0x0, 0x0, 0x0⟩,  -- TG_FILL_LEN_LO
  ⟨0x28C, 0x4, 1, 0xFF, 0x0, 0x0, 0x0, 0x0, 0x0⟩,  -- TG_FILL_LEN_HI
  ⟨0x290, 0x4, 1, 0x0, 0x0, 0x0, 0x1, 0x0, 0x0⟩,  -- TG_FILL_CTL
  ⟨0x294, 0x4, 1, 0x0, 0x0, 0x6, 0x0, 0x1, 0x0⟩,  -- TG_FILL_STAT
  ⟨0x300, 0x10, 3, 0x0, 0x0, 0x0, 0xFFFFFF80, 0x0, 0x0⟩,  -- TG_MPOSTt′
  ⟨0x304, 0x10, 3, 0x0, 0x0, 0x0, 0x0, 0xFFFF073F, 0x20⟩,  -- TG_MSTATt′
  ⟨0x340, 0x4, 1, 0xFFFF, 0x0, 0x0, 0x0, 0x0, 0x64⟩]  -- TG_MCFG

/-- Registers of a layerCtl page. -/
def regsLayerCtl : List RegDesc := [
  ⟨0x080, 0x4, 1, 0x0, 0x0, 0x0, 0xFFFFF80, 0x0, 0x0⟩,  -- NL_POST
  ⟨0x084, 0x4, 1, 0x0, 0x0, 0x0, 0x0, 0xFFFF0F3F, 0x40020⟩,  -- NL_STAT
  ⟨0x088, 0x4, 1, 0x0, 0xF, 0x0, 0x0, 0x0, 0x4⟩,  -- NL_CONC
  ⟨0x090, 0x4, 1, 0x0, 0x11F, 0x0, 0x0, 0x0, 0x10C⟩,  -- NL_CK
  ⟨0x098, 0x4, 1, 0x0, 0x0, 0x0, 0x0, 0xFFFFFFFF, 0x0⟩,  -- NL_CUROP0
  ⟨0x09C, 0x4, 1, 0x0, 0x0, 0x0, 0x0, 0xFFFFFFFF, 0x0⟩,  -- NL_CUROP1
  ⟨0x0A0, 0x4, 1, 0x0, 0x0, 0x2000, 0x0, 0x1FFF, 0x0⟩,  -- NL_CK_LAST
  ⟨0x0A4, 0x4, 2, 0x0, 0x0, 0x0, 0x0, 0xFFFFFFFF, 0x0⟩,  -- NL_CK_D
  ⟨0x0AC, 0x4, 1, 0x2, 0x0, 0x0, 0x1, 0x0, 0x0⟩,  -- NL_CNTCTL
  ⟨0x0B0, 0x4, 1, 0x0, 0x0, 0x0, 0x0, 0x7F, 0x8⟩,  -- NL_GRANT
  ⟨0x0B4, 0x4, 1, 0x0, 0x0, 0x0, 0x0, 0xFFFFFFFF, 0x0⟩,  -- NL_QUAR
  ⟨0x008, 0x4, 1, 0x0, 0x0, 0x0, 0x0, 0xFFFF000F, 0x200000F⟩]  -- BLK_CAP

/-- Registers of a sliceCtl page. -/
def regsSliceCtl : List RegDesc := [
  ⟨0x080, 0x4, 1, 0xFF01, 0x0, 0x0, 0x0, 0x0, 0x201⟩,  -- SC_CFG
  ⟨0x084, 0x4, 1, 0x0, 0xF, 0x0, 0x0, 0x0, 0x4⟩,  -- SC_SPARE
  ⟨0x08C, 0x4, 1, 0x0, 0x0, 0x0, 0x0, 0x73F03, 0x0⟩,  -- SC_STAT
  ⟨0x090, 0x4, 1, 0x0, 0x0, 0x0, 0x0, 0x7F01FF, 0x0⟩,  -- SC_RANGES
  ⟨0x094, 0x4, 1, 0x0, 0x0, 0x0, 0x0, 0xF, 0x0⟩,  -- SC_CUROP0
  ⟨0x098, 0x4, 1, 0x0, 0x0, 0x0, 0x0, 0x7FFFFF80, 0x0⟩,  -- SC_CUROP1
  ⟨0x09C, 0x4, 1, 0x0, 0x0, 0x0, 0x0, 0xFFFFFFFF, 0x0⟩,  -- SC_CUROP2
  ⟨0x0A0, 0x4, 1, 0x2, 0x0, 0x0, 0x1, 0x0, 0x0⟩,  -- SC_CNTCTL
  ⟨0x100, 0x8, 16, 0x0, 0x0, 0x1, 0x0, 0xFFFFFFFE, 0x0⟩,  -- SC_RLOGi
  ⟨0x104, 0x8, 16, 0x0, 0x0, 0x0, 0x0, 0xFFFFFFFF, 0x0⟩]  -- SC_RLOGi_T

/-- Registers of a lpddr page. -/
def regsLpddr : List RegDesc := [
  ⟨0x080, 0x4, 1, 0x0, 0x0, 0x0, 0x0, 0x3F3F3F3F, 0x0⟩,  -- LP_CHSTAT
  ⟨0x084, 0x4, 1, 0x0, 0xF, 0x0, 0x0, 0x0, 0x0⟩,  -- LP_MAPOUT
  ⟨0x08C, 0x4, 1, 0xFFFF, 0x0, 0x0, 0x0, 0x0, 0x1002⟩,  -- LP_CFG
  ⟨0x090, 0x4, 1, 0x0, 0x0, 0xFFFFFFFF, 0x0, 0x0, 0x0⟩,  -- LP_UNC
  ⟨0x0A0, 0x4, 4, 0x0, 0x0, 0x0, 0x0, 0xFFFFFFFF, 0x0⟩,  -- LP_EFFc
  ⟨0x0B0, 0x4, 1, 0x0, 0x0, 0x0, 0x0, 0x1F, 0x0⟩,  -- LP_CUROP0
  ⟨0x0B4, 0x4, 1, 0x0, 0x0, 0x0, 0x0, 0xFFFFFFFF, 0x0⟩,  -- LP_CUROP1
  ⟨0x0B8, 0x4, 1, 0x0, 0x0, 0x0, 0x0, 0xFFFFFFFF, 0x0⟩,  -- LP_CUROP2
  ⟨0x0BC, 0x4, 1, 0x2, 0x0, 0x0, 0x1, 0x0, 0x0⟩]  -- LP_CNTCTL

/-- Registers of a sharedBuffer page. -/
def regsSharedBuffer : List RegDesc := [
  ⟨0x080, 0x4, 1, 0x0, 0x0, 0x80000000, 0x0, 0x3FFFFFC, 0x0⟩,  -- SB_PAR_LAST
  ⟨0x084, 0x4, 1, 0x0, 0x0, 0x0, 0x0, 0x7, 0x0⟩,  -- SB_CUROP0
  ⟨0x088, 0x4, 1, 0x0, 0x0, 0x0, 0x0, 0x3FFFFFF, 0x0⟩,  -- SB_CUROP1
  ⟨0x08C, 0x4, 1, 0x0, 0x0, 0x0, 0x0, 0xFFFFFFFF, 0x0⟩,  -- SB_CUROP2
  ⟨0x090, 0x4, 1, 0x0, 0x0, 0x0, 0x0, 0x1F, 0x0⟩,  -- SB_RED
  ⟨0x094, 0x4, 1, 0x2, 0x0, 0x0, 0x1, 0x0, 0x0⟩]  -- SB_CNTCTL

/-- Registers of a fabric page. -/
def regsFabric : List RegDesc := [
  ⟨0x080, 0x4, 1, 0x3, 0x0, 0x0, 0xC, 0x0, 0x3⟩,  -- FB_HALF_CTL
  ⟨0x084, 0x4, 1, 0x0, 0x0, 0x0, 0x0, 0x77, 0x0⟩,  -- FB_HALF_STAT
  ⟨0x088, 0x4, 1, 0xFFFF, 0x0, 0x0, 0x0, 0x0, 0x64⟩,  -- FB_CFG
  ⟨0x08C, 0x4, 1, 0x0, 0x0, 0x0, 0x0, 0x7F7F, 0x0⟩,  -- FB_SEAM
  ⟨0x090, 0x4, 1, 0x0, 0x0, 0x0, 0x0, 0xFF07, 0x0⟩,  -- FB_CUROP0
  ⟨0x094, 0x4, 1, 0x0, 0x0, 0x0, 0x0, 0xFFFFFFFF, 0x0⟩,  -- FB_CUROP1
  ⟨0x098, 0x4, 1, 0x2, 0x0, 0x0, 0x1, 0x0, 0x0⟩]  -- FB_CNTCTL

/-- Registers of a bridge page. -/
def regsBridge : List RegDesc := [
  ⟨0x080, 0x4, 1, 0x0, 0x0, 0x0, 0x0, 0xFF3F, 0xF⟩,  -- BR_STAT
  ⟨0x084, 0x4, 1, 0x0, 0x0, 0x0, 0x0, 0x3, 0x0⟩,  -- BR_CUROP0
  ⟨0x088, 0x4, 1, 0x0, 0x0, 0x0, 0x0, 0xFFFFFFFF, 0x0⟩,  -- BR_CUROP1
  ⟨0x08C, 0x4, 1, 0x2, 0x0, 0x0, 0x1, 0x0, 0x0⟩]  -- BR_CNTCTL

/-- Registers of a hostIf page. -/
def regsHostIf : List RegDesc := [
  ⟨0x080, 0x4, 1, 0x0, 0x0, 0x0, 0x0, 0x3FF, 0x0⟩,  -- HI_LINK
  ⟨0x084, 0x4, 1, 0xC0000000, 0x0, 0x0, 0x0, 0x0, 0x0⟩,  -- HI_B4_BASE_LO
  ⟨0x088, 0x4, 1, 0xFFFF, 0x0, 0x0, 0x0, 0x0, 0x0⟩]  -- HI_B4_BASE_HI

/-- Registers of a queueCfg page. -/
def regsQueueCfg : List RegDesc := [
  ⟨0x100, 0x18, 64, 0xFFFFF000, 0x0, 0x0, 0x0, 0x0, 0x0⟩,  -- HI_SQ_BASE_LO
  ⟨0x104, 0x18, 64, 0xFFFFFFFF, 0x0, 0x0, 0x0, 0x0, 0x0⟩,  -- HI_SQ_BASE_HI
  ⟨0x108, 0x18, 64, 0xFFFFF000, 0x0, 0x0, 0x0, 0x0, 0x0⟩,  -- HI_CQ_BASE_LO
  ⟨0x10C, 0x18, 64, 0xFFFFFFFF, 0x0, 0x0, 0x0, 0x0, 0x0⟩,  -- HI_CQ_BASE_HI
  ⟨0x110, 0x18, 64, 0x3FFFFFF, 0x0, 0x0, 0x0, 0x0, 0x0⟩,  -- HI_Q_CFG
  ⟨0x114, 0x18, 64, 0x1FFFFFF, 0x0, 0x0, 0x0, 0x0, 0x0⟩]  -- HI_Q_IRQ

/-- Registers of a queueBell page. -/
def regsQueueBell : List RegDesc := [
  ⟨0x080, 0x10, 64, 0x0, 0x0, 0x0, 0xFFF, 0x0, 0x0⟩,  -- SQ_TAIL
  ⟨0x084, 0x10, 64, 0x0, 0x0, 0x0, 0xFFF, 0x0, 0x0⟩,  -- CQ_HEAD
  ⟨0x088, 0x10, 64, 0x0, 0x0, 0x3000000, 0x0, 0xFFFFFF, 0x0⟩]  -- HI_Q_STAT

/-- Registers of a chainPort page. -/
def regsChainPort : List RegDesc := [
  ⟨0x080, 0x4, 1, 0x0, 0x7, 0x0, 0x0, 0x0, 0x4⟩,  -- CP_CTL
  ⟨0x088, 0x4, 1, 0x0, 0x0, 0x0, 0x1, 0x0, 0x0⟩,  -- CP_CMD
  ⟨0x08C, 0x4, 1, 0x0, 0x0, 0x0, 0x0, 0xFFFFFF0F, 0xFFFF0000⟩,  -- CP_STAT
  ⟨0x090, 0x4, 1, 0x0, 0x0, 0x0, 0x0, 0x7, 0x0⟩,  -- CP_NEIGH
  ⟨0x094, 0x4, 1, 0x0, 0x0, 0x0, 0x0, 0xFFFF, 0x0⟩,  -- CP_DELAY
  ⟨0x098, 0x4, 1, 0x0, 0x0, 0x0, 0x0, 0x7, 0x0⟩,  -- CP_SYNC
  ⟨0x09C, 0x4, 1, 0x0, 0x0, 0x0, 0x0, 0xFFFFFFFF, 0x0⟩,  -- CP_OFFSET
  ⟨0x0A0, 0x4, 1, 0x0, 0x0, 0x0, 0x0, 0xFFFF00FF, 0x0⟩,  -- CP_CUROP0
  ⟨0x0A4, 0x4, 1, 0x0, 0x0, 0x0, 0x0, 0xFFFFFFFF, 0x0⟩,  -- CP_CUROP1
  ⟨0x0A8, 0x4, 1, 0x2, 0x0, 0x0, 0x1, 0x0, 0x0⟩]  -- CP_CNTCTL

/-- Registers of a hearth page. -/
def regsHearth : List RegDesc := [
  ⟨0x080, 0x4, 1, 0x0, 0x0, 0x0, 0x0, 0xFFFF, 0x0⟩,  -- HH_VIN
  ⟨0x084, 0x4, 1, 0x0, 0x0, 0x0, 0x0, 0xFFFF, 0x0⟩,  -- HH_IIN
  ⟨0x088, 0x4, 1, 0x0, 0x0, 0x0, 0x0, 0xFFFF, 0x0⟩,  -- HH_PIN
  ⟨0x08C, 0x4, 1, 0x0, 0x0, 0x0, 0x0, 0x1FFFF, 0x0⟩,  -- HH_REF
  ⟨0x090, 0x4, 1, 0x0, 0x0, 0x0, 0x0, 0xFFFFFFFF, 0x0⟩]  -- HH_TRIM

/-- Registers of a bellows page. -/
def regsBellows : List RegDesc := [
  ⟨0x080, 0x4, 1, 0x0, 0xF, 0x0, 0x0, 0x0, 0xA⟩,  -- PWR_CTL
  ⟨0x088, 0x4, 1, 0x0, 0x0, 0x0, 0x1, 0x0, 0x0⟩,  -- PWR_CMD
  ⟨0x08C, 0x4, 1, 0xFFFFFFFF, 0x0, 0x0, 0x0, 0x0, 0x6403E8⟩,  -- PWR_DWELL
  ⟨0x090, 0x4, 1, 0xFFFF, 0x0, 0x0, 0x0, 0x0, 0xA⟩,  -- PWR_DWELL2
  ⟨0x094, 0x4, 1, 0x0, 0x0, 0x0, 0x0, 0xFFFF, 0x0⟩,  -- PWR_STAT
  ⟨0x098, 0x4, 1, 0xFFFFF000, 0x0, 0x0, 0x0, 0x0, 0x0⟩,  -- PWR_SAVE_LO
  ⟨0x09C, 0x4, 1, 0x8000FFFF, 0x0, 0x0, 0x0, 0x0, 0x0⟩]  -- PWR_SAVE_HI

/-- Registers of a power page. -/
def regsPower : List RegDesc := [
  ⟨0x080, 0x4, 1, 0x0, 0x0, 0x0, 0x0, 0xFFFF, 0x0⟩,  -- TP_GRANT
  ⟨0x084, 0x4, 1, 0x0, 0x0, 0x0, 0x0, 0xFFFF, 0x0⟩,  -- TP_REQ
  ⟨0x088, 0x4, 1, 0x0, 0x0, 0x0, 0x0, 0xFFFF, 0x0⟩,  -- TP_MEAS
  ⟨0x08C, 0x4, 1, 0x0, 0x0, 0x0, 0x0, 0x13F, 0x30⟩,  -- TP_ARR
  ⟨0x090, 0x4, 1, 0xFFFF, 0x0, 0x0, 0x0, 0x0, 0x78⟩]  -- TP_FLOOR

/-- Registers of a quench page. -/
def regsQuench : List RegDesc := [
  ⟨0x080, 0x4, 1, 0x0, 0x7FF, 0x0, 0x0, 0x0, 0x44C⟩,  -- QN_CAP
  ⟨0x088, 0x4, 1, 0x0, 0xFFFFF, 0x0, 0x0, 0x0, 0x60202⟩,  -- QN_CFG
  ⟨0x090, 0x4, 1, 0x0, 0x0, 0x0, 0x0, 0x7FF0007, 0x44C0000⟩,  -- QN_STAT
  ⟨0x094, 0x4, 1, 0x0, 0x0, 0x0, 0x0, 0xFFFF, 0xFFFF⟩,  -- QN_CAPTH
  ⟨0x098, 0x4, 1, 0x0, 0x0, 0x0, 0x0, 0xFFFF, 0xDAC⟩,  -- QN_RTH
  ⟨0x09C, 0x4, 1, 0x0, 0x0, 0x0, 0x0, 0xFFFFFFFF, 0x0⟩,  -- QN_AIR
  ⟨0x0A0, 0x4, 1, 0x0, 0x0, 0x0, 0x0, 0xFFFFF, 0x0⟩,  -- QN_HOT_DRAM
  ⟨0x0A4, 0x4, 1, 0x0, 0x0, 0x0, 0x0, 0x1FFFFF, 0x0⟩,  -- QN_HOT_LOGIC
  ⟨0x0A8, 0x4, 1, 0x0, 0x0, 0x0, 0x0, 0xFFFFFFFF, 0x0⟩]  -- QN_HOT_FC

/-- Registers of a thermal page. -/
def regsThermal : List RegDesc := [
  ⟨0x080, 0x4, 1, 0x3F, 0x0, 0x0, 0x0, 0x0, 0x0⟩,  -- TT_HS_SEL
  ⟨0x084, 0x4, 1, 0x0, 0x0, 0x0, 0x0, 0xFFFFFFFF, 0x0⟩,  -- TT_HS_DATA0
  ⟨0x088, 0x4, 1, 0x0, 0x0, 0x0, 0x0, 0xFFFFFFFF, 0x0⟩,  -- TT_HS_DATA1
  ⟨0x08C, 0x4, 1, 0x0, 0x0, 0x0, 0x0, 0xFFFFFFFF, 0x0⟩,  -- TT_HS_DATA2
  ⟨0x090, 0x4, 1, 0x0, 0x0, 0x0, 0x0, 0xFFFF001F, 0x0⟩,  -- TT_HS_DATA3
  ⟨0x094, 0x4, 1, 0x0, 0x0, 0x0, 0x0, 0x7FFFFF, 0x0⟩,  -- TT_DRAM
  ⟨0x098, 0x4, 1, 0x0, 0x0, 0x0, 0x0, 0xFFFF, 0x0⟩,  -- TT_LOGIC
  ⟨0x09C, 0x4, 1, 0x0, 0x0, 0x0, 0x1, 0x0, 0x0⟩]  -- TT_SENS_CLR

/-- Registers of a aggregator page. -/
def regsAggregator : List RegDesc := [
  ⟨0x080, 0x4, 14, 0x0, 0x0, 0x0, 0x0, 0xFFFFFFFF, 0x0⟩,  -- FA_SUMw
  ⟨0x0C0, 0x4, 1, 0x0, 0x0, 0x0, 0x0, 0x1F07FF, 0x0⟩,  -- FA_LAST
  ⟨0x0C4, 0x4, 1, 0x0, 0x0, 0x0, 0x0, 0xFFFFFFFF, 0x0⟩,  -- FA_LAST_T_LO
  ⟨0x0C8, 0x4, 1, 0x0, 0x0, 0x0, 0x0, 0xFFFFFFFF, 0x0⟩]  -- FA_LAST_T_HI

/-- Registers of a temper page. -/
def regsTemper : List RegDesc := [
  ⟨0x080, 0x4, 1, 0x1, 0x0, 0x0, 0x2, 0x0, 0x1⟩,  -- TM_CTL
  ⟨0x084, 0x4, 1, 0x3FF, 0x0, 0x0, 0x0, 0x0, 0xA⟩,  -- TM_INTERVAL
  ⟨0x088, 0x4, 1, 0x0, 0x0, 0x0, 0x0, 0xFFFF03FF, 0x0⟩,  -- TM_STAT
  ⟨0x08C, 0x4, 1, 0x1FF, 0x0, 0x0, 0x0, 0x0, 0x0⟩,  -- TM_SEL
  ⟨0x090, 0x4, 1, 0x0, 0x0, 0x0, 0x0, 0xFFFFFFFF, 0x0⟩,  -- TM_DATA0
  ⟨0x094, 0x4, 1, 0x0, 0x0, 0x0, 0x0, 0x7, 0x0⟩]  -- TM_DATA1

/-- Registers of a identity page. -/
def regsIdentity : List RegDesc := [
  ⟨0x080, 0x4, 1, 0x0, 0x0, 0x0, 0x0, 0xFFFF, 0xC01⟩,  -- ID_PART
  ⟨0x084, 0x4, 4, 0x0, 0x0, 0x0, 0x0, 0xFFFFFFFF, 0x0⟩,  -- ID_GUID0–3
  ⟨0x094, 0x4, 2, 0x0, 0x0, 0x0, 0x0, 0xFFFFFFFF, 0x0⟩,  -- ID_SERIAL_LO, _HI
  ⟨0x09C, 0x4, 1, 0x0, 0x0, 0x0, 0x0, 0xFFFFFFFF, 0x0⟩,  -- ID_FW
  ⟨0x0A0, 0x4, 1, 0x0, 0x0, 0x0, 0x0, 0x7FF, 0x7FF⟩,  -- ID_CAP
  ⟨0x0A4, 0x4, 1, 0x0, 0x0, 0x0, 0x0, 0xFFF0FFF, 0xFFF⟩,  -- ID_TILES
  ⟨0x0C0, 0x4, 12, 0x0, 0x0, 0x0, 0x0, 0xF3F, 0x820⟩,  -- ID_EXPOSEDt
  ⟨0x100, 0x4, 12, 0x0, 0x0, 0x0, 0x0, 0xFFFFFFFF, 0x0⟩,  -- ID_MCQt
  ⟨0x140, 0x4, 3, 0x0, 0x0, 0x0, 0x0, 0xFFFFFFFF, 0x0⟩,  -- ID_VCQw
  ⟨0x150, 0x4, 3, 0x0, 0x0, 0x0, 0x0, 0xFFFFFFFF, 0x0⟩,  -- ID_NBQw
  ⟨0x160, 0x4, 1, 0x0, 0x0, 0x0, 0x0, 0xFFF, 0x0⟩,  -- ID_TCCQ
  ⟨0x164, 0x4, 2, 0x0, 0x0, 0x0, 0x0, 0xFFFFFFFF, 0xFFFFFFFF⟩]  -- ID_LPCH_LO, _HI

/-- Registers of a configuration page. -/
def regsConfiguration : List RegDesc := [
  ⟨0x080, 0x4, 1, 0x0, 0x0, 0x0, 0x0, 0xFFF07, 0x0⟩,  -- CF_STATE
  ⟨0x084, 0x4, 2, 0x0, 0x0, 0x0, 0x0, 0xFFFFFFFF, 0x0⟩,  -- CF_DETAIL0, 1
  ⟨0x08C, 0x4, 1, 0x0, 0x0, 0x0, 0x0, 0x1F, 0x0⟩,  -- CF_SLOT
  ⟨0x090, 0x4, 2, 0x0, 0x0, 0x0, 0x0, 0xFFFFFFFF, 0xFFFFFFFF⟩,  -- CF_SEQ_A, CF_SEQ_B
  ⟨0x098, 0x4, 2, 0x0, 0x0, 0x0, 0x0, 0xFFFFFFFF, 0x0⟩,  -- CF_READY_T_LO, _HI
  ⟨0x0A0, 0x4, 1, 0x0, 0x0, 0x0, 0x0, 0xFFFFFFFF, 0x0⟩]  -- CF_PEND_FW

/-- Registers of a faultSummary page. -/
def regsFaultSummary : List RegDesc := [
  ⟨0x080, 0x4, 2, 0x0, 0x0, 0x0, 0x0, 0xFFFFFFFF, 0x0⟩,  -- FS_MOD0, FS_MOD1
  ⟨0x088, 0x4, 1, 0x0, 0x0, 0x0, 0x0, 0x8FFF000F, 0x0⟩,  -- FS_DIE
  ⟨0x090, 0x4, 1, 0xFFFFF80, 0x0, 0x0, 0x0, 0x0, 0x0⟩,  -- FS_RING_DA_LO
  ⟨0x094, 0x4, 1, 0x30FFF, 0x0, 0x0, 0x0, 0x0, 0x20000⟩,  -- FS_RING_CFG
  ⟨0x098, 0x4, 1, 0x0, 0x0, 0x0, 0x0, 0xFFFFFFFF, 0x0⟩,  -- FS_RING_HEAD
  ⟨0x09C, 0x4, 1, 0xFFFFFFFF, 0x0, 0x0, 0x0, 0x0, 0x0⟩,  -- FS_RING_TAIL
  ⟨0x0A0, 0x4, 1, 0xFF, 0x0, 0x0, 0x0, 0x0, 0x0⟩,  -- FS_HREC_SEL
  ⟨0x200, 0x4, 82, 0x0, 0x0, 0x0, 0x0, 0xFFFFFFFF, 0x0⟩]  -- FS_HREC_DATAi

/-- Registers of a timebase page. -/
def regsTimebase : List RegDesc := [
  ⟨0x080, 0x4, 2, 0x0, 0x0, 0x0, 0x0, 0xFFFFFFFF, 0x0⟩,  -- TIME_NOW_LO, _HI
  ⟨0x088, 0x4, 2, 0xFFFFFFFF, 0x0, 0x0, 0x0, 0x0, 0x0⟩,  -- TIME_LOAD_LO, _HI
  ⟨0x090, 0x4, 1, 0x0, 0x0, 0x0, 0x1, 0x0, 0x0⟩,  -- TIME_CTL
  ⟨0x094, 0x4, 1, 0x0, 0x0, 0x3, 0x0, 0x3C, 0x4⟩]  -- TIME_STAT

/-- Registers of a topology page. -/
def regsTopology : List RegDesc := [
  ⟨0x080, 0x4, 1, 0x0, 0x0, 0x0, 0x0, 0xFF0FFFFF, 0xF0000⟩,  -- TO_NODE
  ⟨0x084, 0x4, 1, 0x0, 0x0, 0x0, 0x0, 0xFFFFFFFF, 0x0⟩,  -- TO_DESC_CRC
  ⟨0x088, 0x4, 1, 0x7, 0x0, 0x0, 0x0, 0x0, 0x0⟩,  -- TO_PORT_SEL
  ⟨0x08C, 0x4, 1, 0x0, 0x0, 0x0, 0x0, 0xFFFFF, 0xFFFF⟩,  -- TO_PORT_DATA
  ⟨0x090, 0x4, 1, 0x3F, 0x0, 0x0, 0x0, 0x0, 0x0⟩,  -- TO_RT_SEL
  ⟨0x094, 0x4, 1, 0x0, 0x0, 0x0, 0x0, 0xFFFFFFFF, 0xFFFF⟩,  -- TO_RT_DATA0
  ⟨0x098, 0x4, 1, 0x0, 0x0, 0x0, 0x0, 0xFFFF, 0x0⟩]  -- TO_RT_DATA1

/-- Registers of a sequences page. -/
def regsSequences : List RegDesc := [
  ⟨0x080, 0x4, 1, 0x3, 0x0, 0x0, 0x0, 0x0, 0x2⟩,  -- SP_CTRL
  ⟨0x084, 0x4, 1, 0x1FFFFFF, 0x0, 0x0, 0x0, 0x0, 0xC350⟩,  -- SP_PERIOD_LEN
  ⟨0x088, 0x4, 2, 0xFFFFFFFF, 0x0, 0x0, 0x0, 0x0, 0x0⟩,  -- SP_PERIOD_BASE_LO, _HI
  ⟨0x090, 0x4, 2, 0x0, 0x0, 0x0, 0x0, 0xFFFFFFFF, 0x0⟩,  -- SP_PERIOD_NUM_LO, _HI
  ⟨0x098, 0x4, 2, 0x0, 0x0, 0x0, 0x0, 0xFFFFFFFF, 0x0⟩,  -- SP_PERIOD_S_LO, _HI
  ⟨0x0A0, 0x4, 1, 0xFF, 0x0, 0x0, 0x0, 0x0, 0x8⟩,  -- SP_DROP_LIMIT
  ⟨0x0A4, 0x4, 1, 0x7FFFFF, 0x0, 0x0, 0x0, 0x0, 0x5A0064⟩,  -- SP_LAG
  ⟨0x0B0, 0x4, 4, 0x1F, 0x0, 0x0, 0x0, 0x0, 0x1⟩,  -- SP_PF_MAXp
  ⟨0x0C0, 0x4, 1, 0x0, 0x0, 0x0, 0x0, 0xFFFF, 0x0⟩,  -- SP_PLAN_STATE
  ⟨0x0C4, 0x4, 1, 0xFFF, 0x0, 0x0, 0x0, 0x0, 0x0⟩,  -- SP_SEQ_SEL
  ⟨0x100, 0x4, 16, 0x0, 0x0, 0x0, 0x0, 0xFFFFFFFF, 0x0⟩,  -- SP_SEQ_DATAi
  ⟨0x140, 0x4, 1, 0x0, 0x0, 0x0, 0x0, 0x1FF01FF, 0x0⟩]  -- SP_ACTIVE

/-- Fault sources of a matrixCore page: number and reset class. -/
def sourcesMatrixCore : List (Nat × Nat) := [
  (0, 1), (1, 0), (2, 0), (3, 1), (4, 1), (5, 0), (6, 1), (7, 1), (8, 1), (9, 0)]

/-- Fault sources of a vectorCore page: number and reset class. -/
def sourcesVectorCore : List (Nat × Nat) := [
  (0, 1), (1, 0), (2, 1), (3, 1), (4, 1), (5, 1)]

/-- Fault sources of a tcc page: number and reset class. -/
def sourcesTcc : List (Nat × Nat) := [
  (0, 1), (1, 0), (2, 1), (3, 1), (4, 1)]

/-- Fault sources of a tongs page: number and reset class. -/
def sourcesTongs : List (Nat × Nat) := [
  (0, 0), (1, 1), (16, 1), (17, 1), (18, 1), (19, 1), (20, 0), (21, 0), (22, 0), (23, 1), (24, 1), (25, 1), (26, 1), (27, 1)]

/-- Fault sources of a layerCtl page: number and reset class. -/
def sourcesLayerCtl : List (Nat × Nat) := [
  (0, 1), (1, 0), (2, 1), (3, 0), (4, 1), (5, 1), (6, 1), (7, 1), (8, 1), (9, 1), (10, 0)]

/-- Fault sources of a tileControl page: number and reset class. -/
def sourcesTileControl : List (Nat × Nat) := [
  (0, 0), (1, 1), (2, 0), (3, 0), (4, 1), (5, 0), (16, 1), (17, 1), (18, 1), (19, 1)]

/-- Fault sources of a sliceCtl page: number and reset class. -/
def sourcesSliceCtl : List (Nat × Nat) := [
  (0, 0), (1, 0), (2, 1), (3, 1), (4, 1), (5, 1), (6, 0), (7, 0), (8, 0), (9, 1), (10, 0), (11, 2)]

/-- Fault sources of a lpddr page: number and reset class. -/
def sourcesLpddr : List (Nat × Nat) := [
  (0, 0), (1, 1), (2, 1), (3, 1), (4, 0), (5, 0), (6, 0), (7, 0), (8, 2), (9, 1)]

/-- Fault sources of a sharedBuffer page: number and reset class. -/
def sourcesSharedBuffer : List (Nat × Nat) := [
  (0, 0), (1, 1), (2, 1)]

/-- Fault sources of a fabric page: number and reset class. -/
def sourcesFabric : List (Nat × Nat) := [
  (0, 0), (1, 1), (2, 0), (3, 1)]

/-- Fault sources of a bridge page: number and reset class. -/
def sourcesBridge : List (Nat × Nat) := [
  (0, 0), (1, 0), (2, 1)]

/-- Fault sources of a hostIf page: number and reset class. -/
def sourcesHostIf : List (Nat × Nat) := [
  (0, 0), (1, 0), (2, 0), (3, 0), (4, 0), (5, 1), (6, 1), (7, 0), (8, 1)]

/-- Fault sources of a chainPort page: number and reset class. -/
def sourcesChainPort : List (Nat × Nat) := [
  (0, 0), (1, 0), (2, 0), (3, 1), (4, 1), (5, 0), (6, 0), (7, 1)]

/-- Fault sources of a hearth page: number and reset class. -/
def sourcesHearth : List (Nat × Nat) := [
  (0, 0), (1, 2), (2, 0), (3, 2), (4, 1), (5, 0)]

/-- Fault sources of a bellows page: number and reset class. -/
def sourcesBellows : List (Nat × Nat) := [
  (0, 0), (1, 2), (2, 1)]

/-- Fault sources of a power page: number and reset class. -/
def sourcesPower : List (Nat × Nat) := [
  (0, 0), (1, 0), (2, 0)]

/-- Fault sources of a quench page: number and reset class. -/
def sourcesQuench : List (Nat × Nat) := [
  (0, 0), (1, 1), (2, 0), (3, 1), (4, 1), (5, 2), (6, 0)]

/-- Fault sources of a thermal page: number and reset class. -/
def sourcesThermal : List (Nat × Nat) := [
  (0, 0), (1, 0), (2, 0)]

/-- Fault sources of a faultSummary page: number and reset class. -/
def sourcesFaultSummary : List (Nat × Nat) := [
  (0, 1), (1, 0), (2, 0)]

/-- Fault sources of a aggregator page: number and reset class. -/
def sourcesAggregator : List (Nat × Nat) := [
  (0, 0), (1, 2)]

/-- Fault sources of a temper page: number and reset class. -/
def sourcesTemper : List (Nat × Nat) := [
  (0, 1), (1, 0), (2, 0), (3, 1)]

/-- Fault sources of a baseControl page: number and reset class. -/
def sourcesBaseControl : List (Nat × Nat) := [
  (0, 1), (1, 1), (2, 1), (3, 0), (4, 0)]

/-- Fault sources of a configuration page: number and reset class. -/
def sourcesConfiguration : List (Nat × Nat) := [
  (0, 0), (1, 0), (2, 2), (3, 1), (4, 1), (5, 2), (6, 0)]

/-- Block-specific registers of a block type. -/
def blockRegs : Block → List RegDesc
  | .identity => regsIdentity
  | .hostIf => regsHostIf
  | .hearth => regsHearth
  | .bellows => regsBellows
  | .quench => regsQuench
  | .configuration => regsConfiguration
  | .faultSummary => regsFaultSummary
  | .timebase => regsTimebase
  | .topology => regsTopology
  | .queueCfg => regsQueueCfg
  | .queueBell => regsQueueBell
  | .sequences => regsSequences
  | .msix => []
  | .baseControl => regsBaseControl
  | .lpddr => regsLpddr
  | .sharedBuffer => regsSharedBuffer
  | .chainPort => regsChainPort
  | .bridge => regsBridge
  | .baseThermal => regsThermal
  | .basePower => regsPower
  | .aggregator => regsAggregator
  | .tongs => regsTongs
  | .tileControl => regsTileControl
  | .tcc => regsTcc
  | .matrixCore => regsMatrixCore
  | .vectorCore => regsVectorCore
  | .sliceCtl => regsSliceCtl
  | .layerCtl => regsLayerCtl
  | .tileThermal => regsThermal
  | .tilePower => regsPower
  | .fabric => regsFabric
  | .temper => regsTemper

/-- Sources 0 to 29 of a block type with their reset classes (R453); 30 and 31 are on every page. -/
def blockSources : Block → List (Nat × Nat)
  | .identity => []
  | .hostIf => sourcesHostIf
  | .hearth => sourcesHearth
  | .bellows => sourcesBellows
  | .quench => sourcesQuench
  | .configuration => sourcesConfiguration
  | .faultSummary => sourcesFaultSummary
  | .timebase => []
  | .topology => []
  | .queueCfg => []
  | .queueBell => []
  | .sequences => []
  | .msix => []
  | .baseControl => sourcesBaseControl
  | .lpddr => sourcesLpddr
  | .sharedBuffer => sourcesSharedBuffer
  | .chainPort => sourcesChainPort
  | .bridge => sourcesBridge
  | .baseThermal => sourcesThermal
  | .basePower => sourcesPower
  | .aggregator => sourcesAggregator
  | .tongs => sourcesTongs
  | .tileControl => sourcesTileControl
  | .tcc => sourcesTcc
  | .matrixCore => sourcesMatrixCore
  | .vectorCore => sourcesVectorCore
  | .sliceCtl => sourcesSliceCtl
  | .layerCtl => sourcesLayerCtl
  | .tileThermal => sourcesThermal
  | .tilePower => sourcesPower
  | .fabric => sourcesFabric
  | .temper => sourcesTemper

/-- Whether an offset of a page is one of a descriptor's registers. -/
def RegDesc.covers (d : RegDesc) (off : Nat) : Bool :=
  d.off ≤ off && off < d.off + d.stride * d.count && (off - d.off) % d.stride = 0

/-- The descriptor of a block-specific register. -/
def regDesc (b : Block) (off : Nat) : Option RegDesc := (blockRegs b).find? (·.covers off)

/-- Reset class of a source (R427); sources 30 and 31 are on every page (R453). Reserved sources read 0. -/
def sourceClass (b : Block) (s : Nat) : Nat :=
  if s = 30 then 2 else if s = 31 then 0
  else match (blockSources b).find? (·.1 = s) with
    | some x => x.2
    | none => 0

/-- Whether a source is defined on a page of a block type. -/
def sourceDefined (b : Block) (s : Nat) : Bool := s = 30 || s = 31 || (blockSources b).any (·.1 = s)

/-- Reset reaction of a reset class (R429). -/
def classReaction (c : Nat) : Nat := if c = 1 then 0x01 else if c = 2 then 0x05 else 0

/-- Reset value of FLT_CLASS0 (w = 0) or FLT_CLASS1 (w = 1). -/
def classWord (b : Block) (w : Nat) : Nat :=
  (List.range 16).foldl (fun x j => x + sourceClass b (16 * w + j) * 4 ^ j) 0

/-- Reset value of FLT_REACTn. -/
def reactWord (b : Block) (n : Nat) : Nat :=
  (List.range 4).foldl (fun x j => x + classReaction (sourceClass b (4 * n + j)) * 256 ^ j) 0

end Sys2Proof.Machine
end

