-- ==== Sys2Proof/Machine/State.lean ====
section
/-!
DEFINITION. The state of the block as plain data, the ways a command stops, and the state at reset.
Reset values that the spec does not give are named in log 2 and log 6.
-/

namespace Sys2Proof.Machine

open Sys2Proof

/-- Why the machine stops. No command of this block stops it: a fault of the spec is a sticky bit (R427). -/
inductive Fault where
  /-- Raised by nothing: kept so that the type is closed and has a name. Safe. -/
  | none
  deriving DecidableEq, Repr

/-- Why a command has no meaning here. -/
inductive Refusal where
  /-- Answered by an arm of exec whose command has no meaning yet. Safe. -/
  | notModelled (mnemonic : String)
  /-- A message of a protocol whose effect the spec does not give (R348). Raised by SIDEBAND_MESSAGE. Safe. -/
  | unknownMessage
  deriving DecidableEq, Repr

/-- Bytes of the module (log 1): `cells` in one canonical form, an unlisted byte reads 0. `good` holds the lines of
128 bytes, by address div 128, whose stored check word is the CRC of R259 or R285; the stored check word of every other line
is the complement of that CRC, a poison check word (R260, R262, R287): nothing writes a third value, so this is the check word
of every line (`Memory.checkWord`). `badPar` holds words, by address div 4, with persistent bad parity (R298). Bytes in `undef` have no
content the spec states; they read as free values of the epoch. -/
structure Memory where
  cells : List Host.Cell
  good : RangeSet
  badPar : RangeSet
  undef : RangeSet
  epoch : Nat
  deriving DecidableEq, Repr

def Memory.reset : Memory := ⟨[], [], [], [], 0⟩

/-- Register space (R486 to R496): values that differ from reset, keyed by BAR0 offset; 64-bit counters by BAR0
offset; the pending half of a guarded write by page; HI latches by agent; pages in block reset. -/
structure Regs where
  vals : KMap Word32
  counters : KMap Word64
  guards : KMap (Nat × Word32)
  latches : KMap Word32
  inReset : List Nat
  /-- Block resets asked for and not started (R429, R492). -/
  resetReq : List Nat
  deriving DecidableEq, Repr

def Regs.reset : Regs := ⟨[], [], [], [], [], []⟩

/-- Cause kinds of suspect groups (R440). -/
inductive CauseKind where
  | program
  | unit
  | data
  | path
  deriving DecidableEq, Repr

/-- A mark on a step group: its tag, cause kind, page and source (R426, R440). -/
structure Mark where
  tag : Nat
  kind : CauseKind
  page : Nat
  source : Nat
  deriving DecidableEq, Repr

/-- A setting of a sticky bit, stamped by a fault aggregator (R433). -/
structure Stamp where
  page : Nat
  source : Nat
  time : Nat
  late : Bool
  forced : Bool
  cls : Nat
  react : Nat
  curop : List Word32
  /-- Tag of the marked group, 0 for none, the unique ID of its plan, and SP_PERIOD_NUM at the setting. -/
  tag : Nat
  uid : Nat
  period : Nat
  detail : List Word32
  /-- Outcome and replay hardware of the marked group (R436), once it is settled. -/
  outcome : Option (Nat × Nat)
  /-- Ahead of the queue, outside the rate: a trap to Vexondane (R429). -/
  urgent : Bool
  deriving DecidableEq, Repr

/-- Vexondane's count of clears of one source, and its storm (R430). -/
structure StormRec where
  clears : List Nat
  storm : Bool
  deriving DecidableEq, Repr

def StormRec.reset : StormRec := ⟨[], false⟩

/-- Fault handling (R424 to R450). -/
structure Flt where
  stamps : List Stamp
  marks : List Mark
  storms : KMap StormRec
  /-- Settings whose reports are written and whose bits Vexondane may clear (R430): page × 32 + source. -/
  reported : List Nat
  /-- Reports since cold power-on (R435). -/
  reports : Nat
  /-- Classes that sources had at their setting, where their FLT_CLASS was written since (R428, R493): page × 32 + source. -/
  classes : KMap Nat
  /-- Times of recent reports, for the rate of R434. -/
  times : List Nat
  /-- Settings counted but not reported, by page (R434). -/
  lost : KMap Nat
  /-- Records Hearth keeps, newest first, at most 256 (R438). -/
  records : List (List Byte)
  /-- A module-reset reaction was taken: a warm restart is due (R429). -/
  restartReq : Bool
  deriving DecidableEq, Repr

def Flt.reset : Flt := ⟨[], [], [], [], 0, [], [], [], [], false⟩

/-- Run state of a participant, as PSTATE numbers it (R132). -/
inductive RunState where
  | idle
  | running
  | waiting
  | trapped
  deriving DecidableEq, Repr

/-- What a participant waits for (R97, R115, R120, R121, R523). -/
inductive Wait where
  /-- FWAIT: scope, flag number, awaited value. -/
  | flag (module : Bool) (num : Nat) (value : Bool)
  /-- BARW or the wait half of BAR: scope, group, destination register. -/
  | barrier (module : Bool) (group : Nat) (rd : Nat)
  /-- CWAIT: participant mask, destination register. -/
  | cwait (mask : Nat) (rd : Nat)
  /-- WAITEV: event set, destination register. -/
  | event (set : Nat) (rd : Nat)
  deriving DecidableEq, Repr

/-- An outstanding XFER (R98): remote to local or local to remote, both ranges, and the flag it sets. -/
structure Xfer where
  toRemote : Bool
  tla : Bool
  remote : Nat
  loc : Nat
  len : Nat
  flag : Option Nat
  /-- Its requests have taken effect, for a later transfer of the core that meets their lines (R314). -/
  landed : Bool
  deriving DecidableEq, Repr

/-- A programmed core (R91): program counter, scalar registers, vector lanes keyed register × 64 + lane,
run state, step tag, wait and outstanding transfers. -/
structure Core where
  pc : Nat
  g : KMap Word64
  y : KMap Word32
  run : RunState
  aborted : Bool
  tag : Word32
  wait : Option Wait
  /-- A trap-reaction source stops the core at its next boundary (R128). -/
  stopReq : Bool
  xfers : List Xfer
  /-- Opcode and MOD of the instruction in progress, 0 between instructions (R134). -/
  opcode : Nat
  opmod : Nat
  /-- An instruction that could not issue: it holds every instruction behind it (R94). -/
  held : Option Instr
  /-- 0, or the loss of registers (R384) after which unlisted registers hold lost values. -/
  epoch : Nat
  deriving DecidableEq, Repr

/-- A core at reset: idle, registers zero (log 2). -/
def Core.reset : Core := ⟨0, [], [], .idle, false, 0#32, none, false, [], 0, 0, none, 0⟩

/-- A cause pending at or taken by a TCC (R129, R138). -/
inductive TrapCause where
  | fault (page source : Nat)
  | software (participant code : Nat)
  deriving DecidableEq, Repr

/-- What a TCC holds besides a core's state (R91, R129 to R131, R138, R523). -/
structure Tcc where
  halted : Bool
  /-- Only RESTART or block reset lets it run again (R96, R131). -/
  locked : Bool
  inTrap : Bool
  /-- Halted by a nested trap: Vexondane's response is due (R131, R449). -/
  nested : Bool
  epc : Nat
  cause : Nat
  /-- The second bank of G8 to G15. -/
  bank2 : KMap Word64
  pend : List TrapCause
  events : Nat
  /-- The wait that a trap interrupted; TRET goes back into it (log 12). -/
  savedWait : Option Wait
  /-- Block reset or power-on has left the TCC to start at TCC_BOOT (R138). -/
  fresh : Bool
  deriving DecidableEq, Repr

/-- A TCC at reset: halted (R138). -/
def Tcc.reset : Tcc := ⟨true, false, false, false, 0, 0, [], [], 0, none, true⟩

/-- One accumulator bank (R55, R68): 4,096 data accumulators keyed row × 16 + column, checksum and magnitude
accumulators by column. An empty bank lists nothing. -/
structure Bank where
  isOpen : Bool
  isInt : Bool
  poison : Bool
  acc : List Word32
  ck : List Word32
  ckAbs : List Word32
  deriving DecidableEq, Repr

def Bank.empty : Bank := ⟨false, false, false, [], [], []⟩

/-- An MXA that has issued, with the operand bytes present at its issue and the store offsets that they came from (R67, R101). -/
structure MxaOp where
  bank : Bool
  opening : Bool
  wfmt : Nat
  afmt : Nat
  sparse : Bool
  ring : Bool
  hold : Bool
  /-- A case of R69, R90 or R102: no bank changes. -/
  illegal : Bool
  /-- The weight tile read is poisoned (R66). -/
  poisoned : Bool
  actAt : Nat
  wgtAt : Nat
  act : List Byte
  wgt : List Byte
  tag : Word32
  deriving DecidableEq, Repr

/-- A write to a line of a core store that an MXA still reads (R67): its offset in the store, its bytes, and whether it is a store
of the core itself. -/
structure HeldWrite where
  off : Nat
  data : List Byte
  own : Bool
  deriving DecidableEq, Repr

/-- An MXR that has issued and waits internally for MXAs of its bank (R71). -/
structure MxrOp where
  bank : Bool
  keep : Bool
  ofmt : Nat
  oaddr : Nat
  tag : Word32
  /-- Checksum control at issue (R80). -/
  ckEn : Bool
  tol : Nat
  deriving DecidableEq, Repr

/-- A weight tile in the ring (R65, R66). -/
structure RingTile where
  data : List Byte
  units : Nat
  poisoned : Bool
  uses : Nat
  deriving DecidableEq, Repr

/-- A stream descriptor of a core, in 128-byte units of its slice, and the tiles already served (R104). -/
structure StreamDesc where
  first : Nat
  tsize : Nat
  count : Nat
  served : Nat
  tag : Word32
  deriving DecidableEq, Repr

/-- The array of a matrix core (R55 to R71). -/
structure MatrixCore where
  bankA : Bank
  bankB : Bank
  cur : Option MxaOp
  waiting : Option MxaOp
  mxrs : List MxrOp
  ring : List RingTile
  descs : List StreamDesc
  /-- Writes that the store holds, in arrival order (R67). -/
  heldW : List HeldWrite
  deriving DecidableEq, Repr

def MatrixCore.reset : MatrixCore := ⟨.empty, .empty, none, none, [], [], [], []⟩

/-- A barrier group (R121 to R124): masks over participants or tiles. `owed` lists members whose generation ended
before their BARW, with its status. -/
structure BarGroup where
  members : Nat
  arrived : Nat
  held : Nat
  gen : Nat
  pend : Option Nat
  owed : KMap Nat
  deriving DecidableEq, Repr

def BarGroup.reset : BarGroup := ⟨0, 0, 0, 0, none, []⟩

/-- A participant registered with the flag or barrier logic: for a flag, `value` is the awaited value; for a barrier it
says that the wait is for the generation after the current one. `ready` is the status once the wait is granted. `saved` marks the
wait that a trap of the TCC interrupted (R129, log 12). -/
structure Waiter where
  core : Nat
  module : Bool
  /-- 0 for a flag, 1 for a barrier. -/
  barrier : Bool
  num : Nat
  value : Bool
  ready : Option Nat
  saved : Bool
  deriving DecidableEq, Repr

/-- A chain barrier's state at this module (R365, R378). -/
structure ChainBar where
  arrived : Nat
  waitRel : Bool
  /-- A configuration write held while MB(4+g) has arrivals. -/
  pend : Option Nat
  deriving DecidableEq, Repr

def ChainBar.reset : ChainBar := ⟨0, false, none⟩

/-- Synchronisation state (R119): tile flags keyed tile × 256 + flag, module flags, barrier groups keyed
tile × 16 + group, module groups, chain barriers, and the waiters. -/
structure Sync where
  tf : List Nat
  mf : List Nat
  tb : KMap BarGroup
  mb : KMap BarGroup
  cb : KMap ChainBar
  waiters : List Waiter
  deriving DecidableEq, Repr

def Sync.reset : Sync := ⟨[], [], [], [], [], []⟩

/-- Status of an access (R32, R268, R298): good, poisoned, or an address that does not exist. -/
inductive ASt where
  | ok
  | poison
  | error
  deriving DecidableEq, Repr

/-- A command of a submission queue that runs on: which pair and CID to complete, and what it is (R336, R338). -/
structure DmaCmd where
  pair : Nat
  cid : Nat
  toHost : Bool
  hostAddr : Nat
  da : Nat
  len : Nat
  deriving DecidableEq, Repr

/-- A queue pair (R334, R335, R341, R342). Entries are their 64 bytes. -/
structure QPair where
  en : Bool
  stopped : Bool
  sqHead : Nat
  sqTail : Nat
  cqHead : Nat
  cqTail : Nat
  phase : Bool
  /-- Entries written up to the tail and not fetched, oldest first, and which of them answers its fetch with an error (R335). -/
  waiting : List (List Byte)
  fail : Option Nat
  /-- Entries fetched and not started, oldest first (R335, R336). -/
  fetched : List (List Byte)
  /-- Commands that complete in fetch order, from the oldest that has not posted on: CID, and status and words where it is done
  (R336). -/
  opens : List (Nat × Option (Nat × List Nat))
  /-- Entries written to the completion queue in host memory, by slot. -/
  posted : KMap (List Byte)
  /-- Completions held for a full queue, at most 64 (R342). -/
  held : List (List Byte)
  /-- Completions lost since the last CQ_LOST event. -/
  lost : Nat
  /-- Entries written and not yet signalled, and the time of the oldest (R344). -/
  unsig : Nat
  oldest : Nat
  deriving DecidableEq, Repr

def QPair.reset : QPair := ⟨false, false, 0, 0, 0, 0, true, [], none, [], [], [], [], 0, 0, 0⟩

/-- An access that waits for a half that Quench holds and that nothing but its command holds (R317, R420), as its command gave it. -/
inductive HeldAccess where
  | wholeWrite (t : Fin 12) (n : Fin 32) (line : BitVec 24) (data : List Byte) (who : Leaf) (tag : BitVec 32)
  | narrowWrite (t : Fin 12) (n : Fin 32) (line : BitVec 24) (off : Fin 128) (data : List Byte) (who : Leaf) (tag : BitVec 32)
  | lineRead (t : Fin 12) (n : Fin 32) (line : BitVec 24) (who : Leaf) (tag : BitVec 32) (flips : List (Fin 1056))
  | register (ag : Agent) (off : BitVec 26) (v : BitVec 32)
  | bar0 (off : BitVec 26) (size : Fin 9) (data : Option (List Byte))
  | bar4 (bar2 : Bool) (off : BitVec 48) (len : Nat) (data : Option (List Byte))
  deriving DecidableEq, Repr

/-- A device write that waits for a back-invalidate of its line (R330). An engine that stalls until then waits with no
data of its own here. -/
structure BiSnp where
  line : Nat
  since : Nat
  da : Nat
  data : List Byte
  tag : Nat
  deriving DecidableEq, Repr

/-- How an access of the host completes on the link (R332, R333): successfully, with EP set, with Completer Abort status, or
with Unsupported Request status. -/
inductive CplStatus where
  | success
  | poisoned
  | completerAbort
  | unsupported
  deriving DecidableEq, Repr

/-- The host port (R326 to R348). -/
structure HostPort where
  pairs : KMap QPair
  /-- The pair whose turn comes next in the fetch of entries (R335). -/
  turn : Nat
  /-- Vectors with a pending message (R344). -/
  msixPend : List Nat
  /-- Messages sent, counted by vector. -/
  msixSent : KMap Nat
  /-- Function Mask of the MSI-X capability. -/
  fnMask : Bool
  dmas : List DmaCmd
  linkUp : Bool
  /-- PERST_N low, hot reset or link down in force. -/
  perst : Bool
  /-- Bytes the module wrote to host memory. -/
  hostMem : KMap Byte
  /-- Size of BAR4 as a power of two (R328). -/
  bar4Log : Nat
  /-- Lines of LPDDR5X the host may hold, oldest first (R330). -/
  snoop : List Nat
  bisnps : List BiSnp
  hdm : Bool
  /-- Host memory lines of 64 bytes in the device coherence cache (R327). -/
  cache : List Nat
  /-- What the last host read returned: data and status (R333). -/
  rdata : List Byte
  rstat : CplStatus
  /-- Completer Aborts of posted writes that AER has recorded (R333). -/
  aborts : Nat
  /-- DSMAS ranges of the CDAT (R329): device address and length by region. -/
  cdat : List (Nat × Nat)
  deriving DecidableEq, Repr

def HostPort.reset : HostPort := ⟨[], 0, [], [], false, [], false, false, [], 36, [], [], true, [], [], .success, 0, []⟩

/-- Where a step group of the current period stands (R175, R179). -/
inductive GroupFate where
  | running
  | committed
  | dropped
  deriving DecidableEq, Repr

/-- A replay or re-run in progress (R442, R443): the first unit by core number, or none for a group re-run,
the replay unit's UNIT_PHY, and whether it is the same hardware. -/
structure Replay where
  unit : Option Nat
  hw : Nat
  sameHw : Bool
  since : Nat
  /-- A result line of it differs from the line in place; result lines written so far (R442). -/
  differ : Bool
  lines : Nat
  /-- Marks of its group when it started (R444). -/
  seen : List Mark
  /-- Pieces of a re-run that have not started again, by core (R443). -/
  todo : List Nat
  deriving DecidableEq, Repr

/-- A step group of the current period (R170, R174, R175). The tag has REPLAY clear. -/
structure StepGroup where
  tag : Nat
  slot : Nat
  lane : Bool
  num : Nat
  /-- Sequence indices, and the column of each (R173). -/
  members : List Nat
  columns : List Nat
  /-- Tiles whose part has ended, with the offset from S_k (R183). -/
  ends : KMap Nat
  fate : GroupFate
  /-- No commit point under R441 or R444. -/
  noCommit : Bool
  replays : List Replay
  /-- Pieces already replayed, by core number, and whether the group was re-run (R446). -/
  replayed : List Nat
  rerun : Bool
  /-- A fenced unit was used (R448). -/
  fenced : Bool
  /-- Commit decision seen on a chain (R368, R449). -/
  chainCommit : Option Nat
  /-- Upstream segments whose REPORT has come (R368). -/
  chainReports : List Nat
  /-- Marks that a replay or re-run has settled (R444). -/
  resolved : List Mark
  /-- A replay on other hardware differed: the group is to be re-run with it (R444). -/
  needRerun : Bool
  /-- Outcome and replay hardware of the last resolution, as R436 numbers them. -/
  outcome : Nat
  hwUnit : Nat
  /-- On a chain: this segment's part has passed its checks, with the token and output bytes of each member (R368). -/
  passed : Bool
  outs : List (Nat × List Byte)
  /-- A segment whose pools could not serve a member: it runs no part of the group (R366). -/
  unserved : Bool
  /-- Tokens of the step of each member (R170, R366). -/
  tokens : List Nat
  /-- Result lines that the first run has written, by participant, tile × 41 + number (R442). -/
  wrote : KMap Nat
  /-- The pieces started: entry PC and G1, by core (R441, R442). -/
  starts : KMap (Nat × Nat)
  /-- UNIT_PHY of the replay hardware substituted for a core (R443, R444). -/
  subst : KMap Nat
  deriving DecidableEq, Repr

/-- Sequence commands accepted and waiting for the admission cutoff (R168, R172). -/
inductive SeqCmdKind where
  | opened
  | release
  | suspend
  | resume
  | finish
  deriving DecidableEq, Repr

/-- Periods, step groups and admission (R171 to R185). -/
structure Sched where
  /-- SP_PERIOD_NUM and S_k. -/
  num : Nat
  start : Nat
  /-- Length in ns of the period in progress. -/
  len : Nat
  inPeriod : Bool
  /-- Start of the next period, once it is fixed. -/
  next : Option Nat
  /-- Admission for the next period is done. -/
  admitted : Bool
  groups : List StepGroup
  /-- Admission records of the last four periods: period number, tags and members (R174). -/
  records : List (Nat × List (Nat × List Nat))
  /-- Sequence commands accepted for the next admission cutoff, and those accepted between its instant and its event, which are for
  the one after (R172, R400). -/
  cmds : List (Nat × SeqCmdKind)
  later : List (Nat × SeqCmdKind)
  /-- Groups of chain plans whose part has passed and whose decision has not come (R180): with the period's number and
  end. -/
  awaiting : List (Nat × Nat × StepGroup)
  /-- Groups that ADMIT frames named for the next period (R366). -/
  early : List StepGroup
  /-- SP_PF_MAXp of slots 0 to 3 and SP_DROP_LIMIT, as the last admission cutoff found them (R504). -/
  limits : List Nat
  /-- Replay spares that run a piece, by `spareId`: the registers that it starts with (R441, R442). -/
  spares : KMap Core
  deriving DecidableEq, Repr

def Sched.reset : Sched := ⟨0, 0, 0, false, none, false, [], [], [], [], [], [], [], []⟩

/-- Timebase and references (R379 to R399). -/
structure Clock where
  /-- The timebase in ns, modulo 2^64. -/
  now : Nat
  /-- Trim owed to coming ticks, in 10^-9 ns (R398). -/
  trimAcc : Int
  /-- Slew still to be made, in ns (R371). -/
  slew : Int
  /-- REFCLK ticks until the next one that may slew. -/
  slewWait : Nat
  /-- Timebase held still: ns of offset still to absorb (R371). -/
  hold : Nat
  /-- A load of the timebase waits for the next tick (R502). -/
  loadReq : Bool
  deriving DecidableEq, Repr

def Clock.reset : Clock := ⟨0, 0, 0, 0, 0, false⟩

/-- A merge- or gather-buffer entry (R265, R288): the line by device address div 128, the valid bytes by offset in the
line, the step tag and the time of the last byte, and whether it is leaving by RMW. -/
structure GEntry where
  line : Nat
  bytes : KMap Byte
  tag : Nat
  time : Nat
  rmw : Bool
  deriving DecidableEq, Repr

/-- A line read that waits for its re-read or for its golden copy (R268): whether it came over the private bonds (R20). -/
structure ReadWait where
  line : Nat
  bond : Bool
  tag : Nat
  flips : List Nat
  golden : Bool
  deriving DecidableEq, Repr

/-- A line delivered by a controller, with the status of the access (R32). -/
structure Delivery where
  line : Nat
  data : List Byte
  st : ASt
  deriving DecidableEq, Repr

/-- A slice controller (R258 to R279): merge buffer, waiting reads, last delivery, bond-group error counters and repair
bonds used by group, refreshes owed and time of the last refresh by layer × 16 + bank, and the refresh epoch. -/
structure SliceSt where
  mb : List GEntry
  reads : List ReadWait
  delivered : Option Delivery
  bonds : KMap Nat
  repairs : KMap Nat
  owed : KMap Nat
  lastRef : KMap Nat
  epoch : Nat
  deriving DecidableEq, Repr

def SliceSt.reset : SliceSt := ⟨[], [], none, [], [], [], [], 0⟩

/-- An LPDDR5X channel: direction of the last transfer, next bank to refresh, time of the last REFpb since the channel operates
(R291), the time of the last request and power-down (R292), the four loss counters at the start of the window of R296, and the
check lines in the check cache, last used first, each with whether it is to be written back (R286). -/
structure LpChan where
  writing : Bool
  refBank : Nat
  lastRef : Option Nat
  lastReq : Nat
  down : Bool
  window : List Nat
  cache : List (Nat × Bool)
  deriving DecidableEq, Repr

def LpChan.reset : LpChan := ⟨false, 0, none, 0, false, [], []⟩

/-- An LPDDR5X controller (R284 to R296); `epoch` is the time from which its channels operate (R291, R292). -/
structure LpSt where
  gb : List GEntry
  chans : KMap LpChan
  delivered : Option Delivery
  epoch : Nat
  deriving DecidableEq, Repr

def LpSt.reset : LpSt := ⟨[], [], none, 0⟩

/-- An open reduction of an adder (R302). -/
structure OpenRed where
  dst : Nat
  len : Nat
  ccount : Nat
  fmt : Nat
  next : Nat
  tag : Nat
  /-- On a group re-run: the target before contributor 0 (R443). -/
  before : List Byte
  deriving DecidableEq, Repr

/-- A range of device addresses held for a plan slot (R153): [lo, hi). -/
structure HeldRange where
  slot : Nat
  lo : Nat
  hi : Nat
  deriving DecidableEq, Repr

/-- A golden-backed range (R153): bonded [lo, lo + len), its copy at `copy`. -/
structure GoldenRange where
  slot : Nat
  lo : Nat
  len : Nat
  copy : Nat
  deriving DecidableEq, Repr

/-- An arbiter output (R320): credit and census of each input, the time at which a flit last waited on it (R319), the input
granted last and the census that its flit was stamped with. -/
structure Arbiter where
  credit : List Int
  census : List Nat
  seen : List (Option Nat)
  granted : Option Nat
  stamp : Nat
  deriving DecidableEq, Repr

def Arbiter.reset : Arbiter := ⟨[], [], [], none, 0⟩

/-- A request in a seam FIFO (R317): its requester, its step tag, the time at which it entered, and whether it has set WAKE_SLOW. -/
structure SeamReq where
  who : Leaf
  tag : Nat
  since : Nat
  slow : Bool
  deriving DecidableEq, Repr

/-- Where a flit was lost (R310, R322): on a segment of a tile, 0 west mesh, 1 east mesh, 2 seam, 3 bond, where its parity failed
twice, or on a bridge that went down. -/
inductive FlitPlace where
  | seg (t g : Nat)
  | bridge (x : Nat)
  deriving DecidableEq, Repr

/-- A flit that is delivered poisoned (R310, R322): its requester, none for one that is no participant of the tile, and where it was
lost. -/
structure BadFlit where
  who : Option Leaf
  place : FlitPlace
  deriving DecidableEq, Repr

/-- Storage controllers and what they hold: slices by tile × 32 + slice, LPDDR5X controllers by package, open
reductions by adder (slices first, then 384 + package, then 400 + base die), held image ranges, golden-backed ranges,
NBU-owned ranges, arbiter outputs by `ArbOut.key`, the seam FIFOs toward the halves by tile × 2 + half, the accesses whose requests
wait in them (R420), the time at which a half was last busy and that of the first request or wake latched for it, keyed alike,
poisoned flits, fenced base dies. -/
structure Storage where
  slices : KMap SliceSt
  /-- The last word delivered by each shared buffer. -/
  sbOut : KMap Delivery
  lps : KMap LpSt
  adders : KMap (List OpenRed)
  held : List HeldRange
  golden : List GoldenRange
  owned : List HeldRange
  arbs : KMap Arbiter
  seam : KMap (List SeamReq)
  waits : List HeldAccess
  idleSince : KMap Nat
  wakeSince : KMap Nat
  badFlits : List BadFlit
  baseFenced : List Nat
  deriving DecidableEq, Repr

def Storage.reset : Storage := ⟨[], [], [], [], [], [], [], [], [], [], [], [], [], []⟩

/-- A unit's record (R447, R457): strikes, condemned, quarantined, ACTIVE time of the last completed test (R451), timebase of the last
pass, result of the last test (0 none, 1 pass, 2 transient, 3 fail), and a test asked for by RUN_NOW. -/
structure UnitRec where
  strikes : Nat
  condemned : Bool
  quarantined : Bool
  tested : Nat
  lastPass : Nat
  result : Nat
  runNow : Bool
  deriving DecidableEq, Repr

def UnitRec.reset : UnitRec := ⟨0, false, false, 0, 0, 0, false⟩

/-- A test in progress on a tile (R451, R452): the unit, the start and whether it is the second run. -/
structure TestRun where
  unit : Nat
  start : Nat
  second : Bool
  deriving DecidableEq, Repr

/-- States of a plan slot, in the order of R140. -/
inductive SlotState where
  | empty
  | loading
  | loaded
  | active
  | degraded
  | reloading
  | failed
  deriving DecidableEq, Repr

/-- Number of a slot state (R343). -/
def SlotState.code : SlotState → Nat
  | .empty => 0 | .loading => 1 | .loaded => 2 | .active => 3 | .degraded => 4 | .reloading => 5 | .failed => 6

/-- A region record of a manifest (R146). -/
structure Region where
  kind : Nat
  tile : Nat
  fill : Bool
  kv : Bool
  owned : Bool
  addr : Nat
  len : Nat
  deriving DecidableEq, Repr

/-- A CODE record (R148); `data` is the image offset of its program. -/
structure CodeRec where
  tile : Nat
  part : Nat
  vmask : Nat
  off : Nat
  len : Nat
  entry : Nat
  crc : Nat
  data : Nat
  deriving DecidableEq, Repr

/-- A WEIGHTS record (R149). -/
structure WeightRec where
  tile : Nat
  slice : Nat
  vmask : Nat
  golden : Bool
  nbLayout : Bool
  soff : Nat
  len : Nat
  data : Nat
  crc : Nat
  deriving DecidableEq, Repr

/-- A VARIANTS record (R157). -/
structure LayerVar where
  layer : Nat
  array : Bool
  nbu : Bool
  nbMax : Nat
  concMin : Nat
  deriving DecidableEq, Repr

/-- A VARIANT_REQ record (R160). -/
structure VarReq where
  id : Nat
  reload : Bool
  tiles : Nat
  mc : List Nat
  vc : List Nat
  deriving DecidableEq, Repr

/-- An expert of a DISPATCH record (R181): its tile, its matrix cores, its vector cores, and its program in the core store. -/
structure DispExpert where
  tile : Nat
  mcFirst : Nat
  mcCount : Nat
  vcMask : Nat
  entry : Nat
  deriving DecidableEq, Repr

/-- A DISPATCH record (R181). -/
structure DispRec where
  layer : Nat
  topk : Nat
  route : Nat
  experts : List DispExpert
  deriving DecidableEq, Repr

/-- A CHAIN record (R164). -/
structure ChainRec where
  index : Nat
  count : Nat
  node : Nat
  layerFirst : Nat
  layerLast : Nat
  upNode : Nat
  upPort : Nat
  downPort : Nat
  downNode : Nat
  tSeg : Nat
  xferBytes : Nat
  deriving DecidableEq, Repr

/-- A manifest (R146). -/
structure Manifest where
  tMin : Nat
  pFloor : Nat
  seqMax : Nat
  activeMax : Nat
  chunkMax : Nat
  kvPage : Nat
  kvBonded : Nat
  kvLpddr : Nat
  listMax : Nat
  pcb : Nat
  regions : List Region
  deriving DecidableEq, Repr

def Manifest.empty : Manifest := ⟨0, 0, 0, 0, 0, 0, 0, 0, 0, 0, []⟩

/-- A command whose completion is due later: queue pair and CID, and whether it has completed as ABORTED (R334). -/
structure Ticket where
  pair : Nat
  cid : Nat
  gone : Bool
  deriving DecidableEq, Repr

/-- A plan slot (R140) and what is read from its image. `fromPeriod` is the period from which `pin` holds, `pinOld` the
pin before it (R159). `used` lists the KV pages that page lists name (R191). -/
structure PlanSlot where
  state : SlotState
  imageDa : Nat
  imageSize : Nat
  uid : Nat
  man : Manifest
  code : List CodeRec
  weights : List WeightRec
  layers : List LayerVar
  reqs : List VarReq
  sbuf : List (Nat × Nat × Nat)
  disp : List DispRec
  chain : Option ChainRec
  variant : Nat
  pin : Nat
  pinOld : Nat
  pinFrom : Nat
  held : Bool
  used : List Nat
  load : Option Ticket
  /-- A channel that a load uses and that was mapped out before step 8, as package × 4 + channel (R155, 0x16). -/
  lostChan : Option Nat
  unload : Option Ticket
  /-- A switch or a failure that is due at the next period start (R162, R163). -/
  doomed : Bool
  /-- Code of a failed chain activation (R165). -/
  chainCode : Nat
  /-- What the head has collected of the segments of a chain plan (R165). -/
  segs : List ChainSeg
  /-- Period start from which a chain plan is active (R165). -/
  activeFrom : Option Nat
  /-- Hmax of a chain plan in ns, for decisions of one frame, and its latency bound in ns (R372, R373). -/
  hmax : Nat
  bound : Nat
  /-- A segment of the chain plan left ACTIVE, and the head has not repeated the check of code 0x15 since (R165). -/
  chainStop : Bool
  deriving DecidableEq, Repr

def PlanSlot.reset : PlanSlot :=
  ⟨.empty, 0, 0, 0, .empty, [], [], [], [], [], [], none, 0, 0, 0, 0, false, [], none, none, none, false, 0, [], none, 0, 0, false⟩

/-- States of a sequence, numbered as R167. -/
inductive SeqState where
  | free
  | ready
  | active
  | suspended
  | stalled
  | ended
  | failed
  deriving DecidableEq, Repr

/-- Number of a sequence state (R167). -/
def SeqState.code : SeqState → Nat
  | .free => 0 | .ready => 1 | .active => 2 | .suspended => 3 | .stalled => 4 | .ended => 5 | .failed => 6

/-- An entry of the sequence table (R167). `since` is the period of the last commit or open (R173); `opening` marks an
entry assigned by a SEQ_OPEN that has not taken effect, `ending` a SEQ_END that has been accepted. -/
structure SeqRec where
  state : SeqState
  slot : Nat
  kind : Nat
  prio : Nat
  lastDrop : Nat
  dropRun : Nat
  committed : Nat
  kvLen : Nat
  lastToken : Nat
  stepLimit : Nat
  stopToken : Nat
  cq : Nat
  column : Nat
  group : Nat
  placed : Bool
  inputDa : Nat
  inputLen : Nat
  plist : Nat
  outDa : Nat
  outSize : Nat
  outHead : Nat
  since : Nat
  opening : Bool
  ending : Bool
  /-- The plan was unloaded: the entry names pages of no plan (R156). -/
  orphan : Bool
  /-- On a segment that is not the head: input tokens that the head has still to send, from the image of the OPEN (R367). -/
  left : Nat
  deriving DecidableEq, Repr

def SeqRec.reset : SeqRec :=
  ⟨.free, 0, 0, 0, 0, 0, 0, 0, 0, 0, 0, 0, 0, 0, false, 0, 0, 0, 0, 0, 0, 0, false, false, false, 0⟩

/-- A running walk (R199): its command line, the list descriptor as it was read at the start and whether it failed its
complement, the next logical page and the deliveries made. -/
structure WalkRun where
  cmd : List Byte
  desc : List Byte
  bad : Bool
  page : Nat
  n : Nat
  /-- What was found at `page`, once it has been read (R199): its DA, or none where it is delivered poisoned. -/
  found : Option (Option Nat)
  deriving DecidableEq, Repr

/-- A contribution of a REDUCE that an adder refused (R302), or of a chain frame (R364): the tile and flag to set, if
any, and the time of the first refusal. -/
structure Contribution where
  tile : Nat
  flag : Option Nat
  data : List Byte
  dst : Nat
  len : Nat
  cidx : Nat
  ccount : Nat
  fmt : Nat
  tag : Nat
  since : Nat
  /-- The chain command this frame is a part of: source node and CMD_ID (R361). -/
  chain : Option (Nat × Nat)
  deriving DecidableEq, Repr

/-- A DMA engine as one tile sees it (R201, R300): command lines queued and running. `sends` counts SEND commands whose
last frame is not acknowledged. -/
structure Tongs where
  walkQ : List (List Byte)
  walks : List WalkRun
  walkDone : Nat
  memQ : List (List Byte)
  reds : List Contribution
  sends : Nat
  memDone : Nat
  deriving DecidableEq, Repr

def Tongs.reset : Tongs := ⟨[], [], 0, [], [], 0, 0⟩

/-- An accumulator set of a near-bank unit (R212): lanes × columns, keyed lane × 16 + column, and the check
accumulators. -/
structure NbSet where
  isOpen : Bool
  isInt : Bool
  poison : Bool
  acc : List Word32
  c : List Word32
  cabs : List Word32
  deriving DecidableEq, Repr

def NbSet.empty : NbSet := ⟨false, false, false, [], [], []⟩

/-- A line that a near-bank unit has still to write back (R224): slice, bank, bank line and bytes. -/
structure NbWrite where
  n : Nat
  b : Nat
  line : Nat
  data : List Byte
  deriving DecidableEq, Repr

/-- A descriptor or scan of a layer control, queued or running (R230): its command line, NL_CK as it stood at its start
(R220), the lines streamed by bank index, and the lines it has still to write back. `final` says that a descriptor's results are
delivered. -/
structure NbItem where
  scan : Bool
  cmd : List Byte
  ck : Nat
  prog : KMap Nat
  wb : List NbWrite
  final : Bool
  deriving DecidableEq, Repr

/-- A layer control (R228 to R230): queue and running items in queue order, descriptors completed, the bank index that is next
in the round robin (R229), and by bank index the time of its last preemption (R231). -/
structure NbLayer where
  queue : List NbItem
  run : List NbItem
  done : Nat
  turn : Nat
  stopped : KMap Nat
  deriving DecidableEq, Repr

def NbLayer.reset : NbLayer := ⟨[], [], 0, 0, []⟩

/-- The running scan of a tile (R245, R247): its command, candidates by slice × 16 + query, slices poisoned, blocks
filtered by slice, and slices whose list is written. -/
structure ScanRun where
  cmd : List Byte
  lists : KMap (List (Word32 × Nat))
  poison : List Nat
  blocks : KMap Nat
  written : List Nat
  deriving DecidableEq, Repr

/-- A tile scan sequencer (R247). -/
structure Sequencer where
  queue : List (List Byte)
  run : Option ScanRun
  done : Nat
  deriving DecidableEq, Repr

def Sequencer.reset : Sequencer := ⟨[], none, 0⟩

/-- Engines: Tongs by tile, FILLs that run by base die (DA and length, R264), contributions of chain frames by base die
(R364), layer controls by tile × 8 + layer, the operand register files by
((tile × 8 + layer) × 32 + slice) × 16 + bank with the entries taken last, at most 16 of 16 columns (R212), accumulator
sets by ((tile × 8 + layer) × 32 + slice) × 32 + bank × 2 + set, scan sequencers by tile. -/
structure Engines where
  tongs : KMap Tongs
  fills : KMap (Nat × Nat)
  remote : KMap (List Contribution)
  layers : KMap NbLayer
  files : KMap (List (List Nat))
  sets : KMap NbSet
  scans : KMap Sequencer
  deriving DecidableEq, Repr

def Engines.reset : Engines := ⟨[], [], [], [], [], [], []⟩

/-- A frame that a port has sent and that is not acknowledged (R354): how often it was resent, and the tile and flag of
the SEND whose last frame it is (R362); a tile without a flag only ends the command; and its CRC trailer (R353). -/
structure TxFrame where
  frame : Frame
  resent : Nat
  last : Option (Nat × Option Nat)
  crc : BitVec 32
  deriving DecidableEq, Repr

/-- A chain port (R351 to R358, R370): replay buffer, next LSEQ of both directions, frames received and not handled,
frames to pass through, and the exchanges with |θ| ≤ 20 ns in a row. -/
structure Port where
  tx : List TxFrame
  txSeq : Nat
  rxSeq : Nat
  inbox : List Frame
  transit : List Frame
  /-- Frames that wait: while the port retrains, for a credit of their channel, or for the replay buffer (R352, R354, R358). -/
  held : List TxFrame
  sync1 : Option Nat
  good : Nat
  locked : Bool
  /-- A SYNC_REQ has come: the neighbour is a child in the chain tree (R356). -/
  child : Bool
  /-- The IDENT, ACK or NAK sent last (R354, R355). -/
  link : Option TxFrame
  deriving DecidableEq, Repr

def Port.reset : Port := ⟨[], 0, 0, [], [], [], none, 0, false, false, none⟩

/-- What a segment answered to an OPEN of a chain plan (R367): none yet, accepted, or refused with a reason and the
lowest FREE index it named. -/
structure SegAnswer where
  node : Nat
  accept : Option Bool
  reason : Nat
  index : Nat
  deriving DecidableEq, Repr

/-- A SEQ_OPEN of a chain plan in progress at the head (R367). -/
structure ChainOpen where
  pair : Nat
  cid : Nat
  slot : Nat
  index : Nat
  round : Nat
  since : Nat
  entry : SeqRec
  answers : List SegAnswer
  deriving DecidableEq, Repr

/-- A command of ACT or CMB frames that is landing (R361): source node, CMD_ID, bytes landed or applied, bytes in total,
and the tile and flag to set where RFS is 1. -/
structure Landing where
  src : Nat
  id : Nat
  bytes : Nat
  total : Nat
  flag : Option (Nat × Nat)
  deriving DecidableEq, Repr

/-- Part of a COMMIT decision (R368): group tag, and the bytes so far by continuation index. -/
structure Decision where
  tag : Nat
  parts : KMap (List Byte)
  deriving DecidableEq, Repr

/-- A piece that this module replays as a chain peer (R369): the port of its request, the requester's node and request ID, the plan
slot, the participant, the step tag, and the result lines so far. -/
structure PeerReplay where
  port : Nat
  src : Nat
  id : Nat
  slot : Nat
  part : Nat
  tag : Nat
  lines : List (Nat × List Byte)
  deriving DecidableEq, Repr

/-- A command of data frames that passes through (R357): source node, CMD_ID, its port, and the bytes still to come. -/
structure Flow where
  src : Nat
  id : Nat
  port : Nat
  left : Nat
  deriving DecidableEq, Repr

/-- The chain (R351 to R378): ports, the descriptor's expected neighbour node and port by port, the route table, ports'
rotation by route entry, and what the chain plans need. -/
structure Chain where
  ports : KMap Port
  expect : KMap (Nat × Nat)
  routes : List (Nat × Nat × Nat)
  turn : KMap Nat
  cmdId : Nat
  landings : List Landing
  opens : List ChainOpen
  decisions : List Decision
  /-- Tags of groups of recent periods for which a DROP, or a COMMIT, was sent or received here (R368, R449). -/
  drops : List Nat
  commits : List Nat
  /-- Transitions of a segment's entries that wait for a cutoff (R367): period, index, kind. -/
  waits : List (Nat × Nat × SeqCmdKind)
  peers : List PeerReplay
  flows : List Flow
  deriving DecidableEq, Repr

def Chain.reset : Chain := ⟨[], [], [], [], 0, [], [], [], [], [], [], [], []⟩

/-- What a die holds for the power budget (R391 to R394), in 1/8 W: the grant that takes effect at the next epoch; the last
REPORT (MEAS, FLAGS) and REQUEST (REQ, FLOOR) of each requester; what it has granted and not yet sent; the epochs since the
last good GRANT; the ARR step that a tile is changing to; whether an emergency grant holds it (R415), and whether the grant for
the next epoch had come before it (R421); and the energy below 1 mJ that CNT_TP_MJ does not show yet, in 1/8 mJ (R404). -/
structure Budget where
  next : Option Nat
  reports : KMap (Nat × Nat)
  requests : KMap (Nat × Nat)
  shares : KMap Nat
  missed : Nat
  target : Option Nat
  emergency : Bool
  before : Bool
  energy : Nat
  deriving DecidableEq, Repr

def Budget.reset : Budget := ⟨none, [], [], [], 0, none, false, false, 0⟩

/-- Bellows, power and input (R383 to R397): the state being entered; by state, the last instant at which a shallower one
was permitted (R386); the armed wake; the trigger and cause of the wake in progress; blocks on their way to a parked state
or back, by page, with the state they go to and a request that is latched (R396); budgets by die (base die a, 0x10 + tile
t, 0x80 for Quench); the last budget epoch; laggards of the last evaluation (R183). -/
structure Power where
  entering : Option Nat
  shallow : KMap Nat
  armed : Option Nat
  waking : Option (Nat × Nat)
  blocks : KMap (Nat × Option Nat)
  budgets : KMap Budget
  epoch : Nat
  lagging : List Nat
  /-- The main converters are on. -/
  mainOn : Bool
  /-- Time spent in sleep states so far, and the instant from which the module sleeps now (R451). -/
  slept : Nat
  sleepFrom : Option Nat
  deriving DecidableEq, Repr

def Power.reset : Power := ⟨none, [], none, none, [], [], 0, [], false, 0, none⟩

/-- Readings of one hot spot and what Quench keeps of it (R408 to R413), in 1/64 °C: kept value, the
rise since the last evaluation, the two readings, their states (0 GOOD, 1 SUSPECT, 2 FAILED) and evaluations without
departing, GUARD. The bias is in 1/2048 °C. -/
structure HotSpot where
  value : Int
  bias : Int
  rate : Int
  r0 : Int
  r1 : Int
  st0 : Nat
  st1 : Nat
  calm0 : Nat
  calm1 : Nat
  guard : Bool
  deriving DecidableEq, Repr

def HotSpot.reset : HotSpot := ⟨0, 0, 0, 0, 0, 0, 0, 0, 0, false⟩

/-- An air hot spot (R410, R412), in 1/64 °C: its last two readings, the sensors that have FAILED (bits 0 and 1), and the rise of its
value since the last evaluation. -/
structure AirSpot where
  r0 : Int
  r1 : Int
  bad : Nat
  rate : Int
  deriving DecidableEq, Repr

def AirSpot.reset : AirSpot := ⟨0, 0, 0, 0⟩

/-- Quench (R405 to R420): hot spots by page × 64 + index; the air hot spots; evaluations made; the time of the last warning rate; the times from which every hot spot has been 10 K below its limit, and every
diode below 100 °C; the raw cap last computed; halves held (R420); THERM_TRIP_N asserted (R414). -/
structure Quench where
  spots : KMap HotSpot
  inlet : AirSpot
  outlet : AirSpot
  evals : Nat
  lastWarn : Nat
  cool : Option Nat
  below : Option Nat
  raw : Int
  holding : Bool
  tripped : Bool
  /-- Power of the nodes for the epoch in progress, in 2^-13 W, and the counters as the last epoch left them (R407). -/
  powers : KMap Nat
  counted : KMap (BitVec 64)
  /-- Θ in 10^-5 × 2^-16 K/W, and T_sink of the evaluations of the last 100 ms, the latest first, in 1/64 °C (R416). -/
  theta : Int
  sinks : List Int
  /-- The computed temperature of each of the 1,789 nodes without its bias, in 2^-16 of 1/64 °C, 0 where none is listed, and the
  forecast of each with its bias, in 1/64 °C (R406 to R409). -/
  temps : List Int
  forecasts : List Int
  /-- C_th in W (R417). -/
  capTh : Int
  deriving DecidableEq, Repr

def Quench.reset : Quench :=
  ⟨[], .reset, .reset, 0, 0, none, none, 0, false, false, [], [], 3500 * 65536, [], [], [], 0xFFFF⟩

/-- States of a TAP controller (R522, IEEE 1149.1). -/
inductive TapCtrl where
  | reset | idle | selectDr | captureDr | shiftDr | exit1Dr | pauseDr | exit2Dr | updateDr
  | selectIr | captureIr | shiftIr | exit1Ir | pauseIr | exit2Ir | updateIr
  deriving DecidableEq, Repr

/-- A base die's TAP (R522): its 8-bit instruction register, none where Test-Logic-Reset has selected IDCODE, and the register that
shifts, the next bit to leave first. -/
structure Tap where
  ir : Option (BitVec 8)
  sr : List Bool
  deriving DecidableEq, Repr

/-- The test access port (R520 to R522): the state in which every TAP of the chain stands, the TAPs from TDI to TDO, and what TDO
has shown while it was driven. -/
structure TestPort where
  ctrl : TapCtrl
  taps : List Tap
  tdo : List Bool
  deriving DecidableEq, Repr

/-- Every TAP in Test-Logic-Reset, TDO high-impedance. -/
def TestPort.reset : TestPort := ⟨.reset, List.replicate 4 ⟨none, []⟩, []⟩

/-- Bring-up, repair and service (R348, R458 to R479, R515 to R518). -/
structure Service where
  /-- Configuration flash: slots A and B, `none` where erased (R460), and the slot selected, B for true (R462). -/
  flashA : Option FlashSlot
  flashB : Option FlashSlot
  current : Option Bool
  /-- SEQ of the image the module runs from. -/
  running : Nat
  /-- SETTINGS of the last bring-up (R461, R491): SEQ of their image, BAR0 offsets and values. -/
  settings : Nat × List (Nat × Nat)
  /-- Identity and revisions blown at package test (R22, R481, R498). -/
  fuse : Fuse
  /-- Physical positions hidden at the last bring-up (R22, R470): tile, vector core, position. -/
  hidden : List (Nat × Bool × Nat)
  /-- Spare rows, spare columns and repair bonds switched in, as REPAIR_MAP entries (R272, R470). -/
  spared : List RepairEntry
  /-- An interface that did not train, and a unit that failed the bring-up test as UNIT_LOG (R459). -/
  untrained : Option Nat
  selftest : Option Nat
  /-- TEST_EN_N was low at cold power-on (R521). -/
  test : Bool
  port : TestPort
  /-- A warm restart asked for by MOD_RST_N or by MAINT RESTART, with its FLAGS (R472). -/
  restart : Option Nat
  /-- FLAGS of the repair pass in progress (R471), where there is one. -/
  repairs : List Nat
  /-- REPAIR_MAP entries waiting for the next image (R295, R476). -/
  newRep : List RepairEntry
  /-- Image writes due: the section type each replaces, and its bytes where a command staged them (R463, R464). -/
  writes : List (Nat × Option (List Byte))
  /-- FW_VER of a FIRMWARE section staged over PLDM. -/
  staged : Option Nat
  /-- Map-outs in progress: package and channel (R295). -/
  mapouts : List (Nat × Nat)
  /-- Tile cycles by tile: whether the tile was fenced, and the FLAGS (R476). -/
  cycles : KMap (Bool × Nat)
  /-- A warm restart waits at step 2 for the rise of MOD_RST_N; MOD_RST_N is low (R517). -/
  heldReset : Bool
  modRst : Bool
  /-- PWR_EN is high; the time of its last fall; a rise is waiting (R515). -/
  pwrEn : Bool
  fell : Nat
  riseWaits : Bool
  /-- PERST_N is low (R514). -/
  perstPin : Bool
  /-- READY or HELD has been reached since the last rise of PWR_EN (R518). -/
  upOnce : Bool
  /-- Sideband (R348): SLOT_ID (R510), the dynamic I3C address, the endpoint ID, PLDM sensors, PLDM events pending, and what
  the last message returned. -/
  strap : Nat
  i3c : Nat
  eid : Nat
  sensors : List Nat
  events : Nat
  reply : List Byte
  deriving DecidableEq, Repr

def Service.reset : Service where
  flashA := none
  flashB := none
  current := none
  running := 0
  settings := (0, [])
  fuse := ⟨0#128, 0#64, 1#8, [], [], [], []⟩
  hidden := []
  spared := []
  untrained := none
  selftest := none
  test := false
  port := .reset
  restart := none
  repairs := []
  newRep := []
  writes := []
  staged := none
  mapouts := []
  cycles := []
  heldReset := false
  modRst := false
  pwrEn := false
  fell := 0
  riseWaits := false
  perstPin := false
  upOnce := false
  strap := 0
  i3c := 0
  eid := 0
  sensors := []
  events := 0
  reply := []

/-- The whole state of the block. -/
structure State where
  /-- Commands that wait, first in, first out. -/
  pending : List Instr
  /-- Bytes, check words and parity of all storage. -/
  mem : Memory
  /-- Register space. -/
  regs : Regs
  /-- Fault handling. -/
  flt : Flt
  /-- Participants by `coreId`; an unlisted core is at reset. -/
  cores : KMap Core
  /-- Tile control cores by tile; an unlisted one is at reset. -/
  tccs : KMap Tcc
  /-- Arrays by tile × 32 + core; an unlisted one is at reset. -/
  mcs : KMap MatrixCore
  /-- Flags and barriers. -/
  sync : Sync
  /-- Host port. -/
  host : HostPort
  /-- Timebase and references. -/
  clock : Clock
  /-- Periods and step groups. -/
  sched : Sched
  /-- Storage controllers. -/
  store : Storage
  /-- Records of units by tile × 512 + unit index (R455); an unlisted one is at reset. -/
  units : KMap UnitRec
  /-- Temper's tests in progress, by tile. -/
  tests : KMap TestRun
  /-- Plan slots 0 to 3; an unlisted one is EMPTY. -/
  plans : KMap PlanSlot
  /-- The sequence table by index; an unlisted entry is FREE. -/
  seqs : KMap SeqRec
  /-- Engines: Tongs, near-bank units, scans. -/
  eng : Engines
  /-- Chain ports and chain plans. -/
  chain : Chain
  /-- Power states, budgets and input. -/
  power : Power
  /-- The thermal governor. -/
  quench : Quench
  /-- Bring-up, repair and service. -/
  svc : Service
  /-- Free values drawn so far: the model's own counter (log 5). -/
  free : Nat
  deriving DecidableEq, Repr

/-- The state right after reset: every field at the value the spec states, or at the value its log names. -/
def State.reset : State where
  pending := []
  mem := .reset
  regs := .reset
  flt := .reset
  cores := []
  tccs := []
  mcs := []
  sync := .reset
  host := .reset
  clock := .reset
  sched := .reset
  store := .reset
  units := []
  tests := []
  plans := []
  seqs := []
  eng := .reset
  chain := .reset
  power := .reset
  quench := .reset
  svc := .reset
  free := 0

/-- The state with its field `pending` replaced. -/
def State.setPending (s : State) (x : List Instr) : State :=
  { s with pending := x }

/-- The state with its field `mem` replaced. -/
def State.setMem (s : State) (x : Memory) : State :=
  { s with mem := x }

/-- The state with its field `regs` replaced. -/
def State.setRegs (s : State) (x : Regs) : State :=
  { s with regs := x }

/-- The state with its field `flt` replaced. -/
def State.setFlt (s : State) (x : Flt) : State :=
  { s with flt := x }

/-- The state with its field `cores` replaced. -/
def State.setCores (s : State) (x : KMap Core) : State :=
  { s with cores := x }

/-- The state with its field `tccs` replaced. -/
def State.setTccs (s : State) (x : KMap Tcc) : State :=
  { s with tccs := x }

/-- The state with its field `mcs` replaced. -/
def State.setMcs (s : State) (x : KMap MatrixCore) : State :=
  { s with mcs := x }

/-- The state with its field `sync` replaced. -/
def State.setSync (s : State) (x : Sync) : State :=
  { s with sync := x }

/-- The state with its field `host` replaced. -/
def State.setHost (s : State) (x : HostPort) : State :=
  { s with host := x }

/-- The state with its field `clock` replaced. -/
def State.setClock (s : State) (x : Clock) : State :=
  { s with clock := x }

/-- The state with its field `sched` replaced. -/
def State.setSched (s : State) (x : Sched) : State :=
  { s with sched := x }

/-- The state with its field `store` replaced. -/
def State.setStore (s : State) (x : Storage) : State :=
  { s with store := x }

/-- The state with its field `units` replaced. -/
def State.setUnits (s : State) (x : KMap UnitRec) : State :=
  { s with units := x }

/-- The state with its field `tests` replaced. -/
def State.setTests (s : State) (x : KMap TestRun) : State :=
  { s with tests := x }

/-- The state with its field `plans` replaced. -/
def State.setPlans (s : State) (x : KMap PlanSlot) : State :=
  { s with plans := x }

/-- The state with its field `seqs` replaced. -/
def State.setSeqs (s : State) (x : KMap SeqRec) : State :=
  { s with seqs := x }

/-- The state with its field `eng` replaced. -/
def State.setEng (s : State) (x : Engines) : State :=
  { s with eng := x }

/-- The state with its field `chain` replaced. -/
def State.setChain (s : State) (x : Chain) : State :=
  { s with chain := x }

/-- The state with its field `power` replaced. -/
def State.setPower (s : State) (x : Power) : State :=
  { s with power := x }

/-- The state with its field `quench` replaced. -/
def State.setQuench (s : State) (x : Quench) : State :=
  { s with quench := x }

/-- The state with its field `svc` replaced. -/
def State.setSvc (s : State) (x : Service) : State :=
  { s with svc := x }

/-- The state with its field `free` replaced. -/
def State.setFree (s : State) (x : Nat) : State :=
  { s with free := x }

end Sys2Proof.Machine
end

