-- ==== Sys2Proof/Machine/Ops.lean ====
section
/-!
DEFINITION. The named operations over memory, registers, counters, free values and fault sources that every meaning
uses.
-/

namespace Sys2Proof.Machine

open Sys2Proof

/-- The outcome type of a meaning. -/
abbrev Out := Host.Outcome State Fault Refusal

/-! Free values (log 5). -/

/-- A fresh free choice, and the state after it is drawn. -/
def drawBool (s : State) : Bool × State := (Config.freeBool s.free, s.setFree (s.free + 1))

/-- A fresh free 64-bit value, and the state after it is drawn. -/
def drawWord64 (s : State) : Word64 × State := (Config.freeWord64 s.free, s.setFree (s.free + 1))

/-- A fresh free 32-bit value, and the state after it is drawn. -/
def drawWord (s : State) : Word32 × State := (Config.freeWord s.free, s.setFree (s.free + 1))

/-! Memory: bytes, in the canonical form of `Memory.wf`. -/

/-- The byte at an address. -/
def Memory.readByte (m : Memory) (a : Nat) : Byte :=
  if rmem m.undef a then Config.freeByte m.epoch a else kget 0#8 m.cells a

/-- The memory with one byte written. -/
def Memory.writeByte (m : Memory) (a : Nat) (b : Byte) : Memory :=
  { m with cells := kput 0#8 m.cells a b, undef := rdel m.undef a (a + 1) }

/-- The n bytes from an address on. -/
def Memory.readBytes (m : Memory) (a : Nat) : Nat → List Byte
  | 0 => []
  | n + 1 => m.readByte a :: m.readBytes (a + 1) n

/-- The memory with bytes written from an address on. -/
def Memory.writeBytes (m : Memory) (a : Nat) : List Byte → Memory
  | [] => m
  | b :: l => (m.writeByte a b).writeBytes (a + 1) l

/-- The little-endian number of n bytes at an address (R14). -/
def Memory.readNat (m : Memory) (a n : Nat) : Nat := leNat (m.readBytes a n)

/-- The memory with n zero bytes from an address on. -/
def Memory.zeroRange (m : Memory) (a n : Nat) : Memory :=
  { m with cells := keraseRange m.cells a (a + n), undef := rdel m.undef a (a + n) }

/-- The memory with the content of a range undefined. -/
def Memory.loseRange (m : Memory) (a n : Nat) : Memory :=
  { m with undef := radd m.undef a (a + n), epoch := m.epoch + 1 }

/-- The memory with the lines that a range touches carrying right check words, or poison check words. -/
def Memory.markGood (m : Memory) (a n : Nat) : Memory :=
  { m with good := radd m.good (a / 128) (divUp (a + n) 128) }

def Memory.markPoison (m : Memory) (a n : Nat) : Memory :=
  { m with good := rdel m.good (a / 128) (divUp (a + n) 128) }

/-- Whether the line that holds an address carries a right check word. -/
def Memory.lineGood (m : Memory) (a : Nat) : Bool := rmem m.good (a / 128)

/-- The CRC of a line's 128 data bytes with the word that places it: the slice offset div 128 in bonded memory (R259), the
device address div 128 in LPDDR5X (R285). -/
def lineCrc (da : Nat) (data : List Byte) : Nat :=
  match daKind da with
  | .bonded _ _ o => crc32c (data ++ leBytes 4 (o / 128))
  | _ => crc32c (data ++ leBytes 8 (da / 128))

/-- The stored check word of the line that holds an address (R260, R285). -/
def Memory.checkWord (m : Memory) (da : Nat) : Nat :=
  let c := lineCrc da (m.readBytes (da / 128 * 128) 128)
  if m.lineGood da then c else c ^^^ 0xFFFFFFFF

/-- Bytes with some bits inverted, numbered from bit 0 of the first byte on. -/
def flipBits (data : List Byte) (bits : List Nat) : List Byte :=
  ((List.range data.length).zip data).map fun x =>
    x.2 ^^^ BitVec.ofNat 8 (maskOf ((bits.filter fun b => b / 8 = x.1).map (· % 8)))

/-- A line as a read finds it that differs from what is stored in some bits, 0 to 1,023 of the data and 1,024 to 1,055 of the
check word: its data, and whether its check word matches (R260, R285). -/
def Memory.readLine (m : Memory) (da : Nat) (bits : List Nat) : List Byte × Bool :=
  let d := m.readBytes (da / 128 * 128) 128
  if bits.isEmpty then (d, m.lineGood da)
  else
    let d := flipBits d (bits.filter (· < 1024))
    let c := m.checkWord da ^^^ maskOf ((bits.filter (1024 ≤ ·)).map (· - 1024))
    (d, lineCrc da d = c)

/-- The memory with persistent bad parity set or cleared on the words of a range. -/
def Memory.setParity (m : Memory) (a n : Nat) (bad : Bool) : Memory :=
  { m with badPar := if bad then radd m.badPar (a / 4) (divUp (a + n) 4) else rdel m.badPar (a / 4) (divUp (a + n) 4) }

/-- Whether a word of a range has persistent bad parity. -/
def Memory.parityBad (m : Memory) (a n : Nat) : Bool := rmeets m.badPar (a / 4) (divUp (a + n) 4)

/-- The canonical form: addresses strictly rising, no entry equal to what an unlisted byte reads as. -/
abbrev Memory.wf (m : Memory) : Prop :=
  kSortedFrom 0 m.cells = true ∧ ∀ c ∈ m.cells, c.2 ≠ 0#8

/-- Bytes of the state at a memory key. -/
def readBytes (s : State) (a n : Nat) : List Byte := s.mem.readBytes a n

def writeBytes (s : State) (a : Nat) (l : List Byte) : State := s.setMem (s.mem.writeBytes a l)

/-! Registers (R486 to R491). -/

/-- Reset value of a stored register. -/
def regReset (off : Nat) : Nat :=
  let page := off / 0x1000
  let o := off % 0x1000
  match pageBlock page with
  | none => 0
  | some b =>
    if o = 0x028 then classWord b 0
    else if o = 0x02C then classWord b 1
    else if 0x030 ≤ o && o < 0x070 && o % 8 = 0 then reactWord b ((o - 0x030) / 8)
    else if b = .queueCfg && 0x100 ≤ o && o < 0x700 then
      let q := (o - 0x100) / 0x18
      if (o - 0x100) % 0x18 = 0x14 then q
      else if (o - 0x100) % 0x18 = 0x10 && q = 0 then 0x2000000
      else 0
    else if b = .basePower && o = 0x08C then 0
    else if b = .basePower && o = 0x090 then 0xA0
    else if b = .msix then (if page = 16 && o % 16 = 12 then 1 else 0)
    else match regDesc b o with
      | some d => d.reset
      | none => 0

/-- The stored value of a register, as a number. -/
def regGet (s : State) (off : Nat) : Nat :=
  match kfind s.regs.vals off with
  | some w => w.toNat
  | none => regReset off

/-- The state with a register stored; a value equal to reset is not listed. -/
def regSet (s : State) (off v : Nat) : State :=
  let w := BitVec.ofNat 32 v
  let vals := if w.toNat = regReset off then kerase s.regs.vals off else kinsert s.regs.vals off w
  s.setRegs { s.regs with vals := vals }

/-- A register of a page. -/
def pget (s : State) (page off : Nat) : Nat := regGet s (regOff page off)

def pset (s : State) (page off v : Nat) : State := regSet s (regOff page off) v

/-- The state with bits of a register of a page set. -/
def psetBits (s : State) (page off mask : Nat) : State := pset s page off (pget s page off ||| mask)

/-- The state with bits of a register of a page cleared. -/
def pclrBits (s : State) (page off mask : Nat) : State :=
  pset s page off (pget s page off &&& (0xFFFFFFFF - mask % 0x100000000))

/-- Offset of the counter control register of a block, where it has one (R88). -/
def cntCtl : Block → Option Nat
  | .matrixCore => some 0xAC
  | .vectorCore => some 0x90
  | .layerCtl => some 0xAC
  | .sliceCtl => some 0xA0
  | .lpddr => some 0xBC
  | .sharedBuffer => some 0x94
  | .fabric => some 0x98
  | .bridge => some 0x8C
  | .chainPort => some 0xA8
  | _ => none

/-- Whether the counters of a page hold their values (FREEZE, R88). -/
def cntFrozen (s : State) (page : Nat) : Bool :=
  match (pageBlock page).bind cntCtl with
  | some o => bitOf (pget s page o) 1
  | none => false

/-- A counter of a page. -/
def cntGet (s : State) (page off : Nat) : Nat := (kget 0#64 s.regs.counters (regOff page off)).toNat

/-- The state with a counter of a page advanced, modulo 2^64 (R88). -/
def count (s : State) (page off n : Nat) : State :=
  if cntFrozen s page then s
  else
    let v := BitVec.ofNat 64 (cntGet s page off + n)
    s.setRegs { s.regs with counters := kput 0#64 s.regs.counters (regOff page off) v }

/-- The loss windows of an LPDDR5X controller whose counters are cleared: they count from the clear on (R296). DESIGN CHOICE
(log 23). -/
def clearWindows (s : State) (page : Nat) : State :=
  match pagePlace page with
  | .base a i =>
    if 1 ≤ i && i ≤ 4 then
      let l := kget LpSt.reset s.store.lps (4 * a + (i - 1))
      let chans := (l.chans.map fun c => (c.1, { c.2 with window := [] })).filter fun c => c.2 != .reset
      s.setStore { s.store with lps := kput .reset s.store.lps (4 * a + (i - 1)) { l with chans := chans } }
    else s
  | _ => s

/-- The state with every counter of a page 0. -/
def cntClear (s : State) (page : Nat) : State :=
  clearWindows (s.setRegs { s.regs with
    counters := keraseRange s.regs.counters (regOff page 0) (regOff (page + 1) 0) }) page

/-- Revision of a base die or of a tile: 1 AB1 or FT1, 2 AB2 or FT2 (R481, R491). -/
def baseRev (s : State) (a : Nat) : Nat := ((s.svc.fuse.bases[a]?).map BitVec.toNat).getD 2
def tileRev (s : State) (t : Nat) : Nat := ((s.svc.fuse.tiles[t]?).map BitVec.toNat).getD 2

/-- Whether the intersection of R482 removes MXFP6 and the near-bank INT16: a tile of revision FT1 is in the package
(R481). -/
def oldTile (s : State) : Bool := (List.range 12).any fun t => tileRev s t = 1

/-- BLK_CAP of a page (R90, R137, R236), the intersection over every die (R482). -/
def capWord (s : State) (page : Nat) : Nat :=
  let v := regReset (regOff page 0x008)
  match pageBlock page with
  | some .matrixCore => if oldTile s then setBitN v 1 false else v
  | some .layerCtl => if oldTile s then setBitN v 1 false else v
  | _ => v

/-! Fault sources (R424 to R433). -/

/-- Class of a source now (R428). -/
def faultClass (s : State) (page src : Nat) : Nat :=
  fld (pget s page (if src < 16 then 0x028 else 0x02C)) (2 * (src % 16) + 1) (2 * (src % 16))

/-- Reactions of a source now (R429). -/
def faultReact (s : State) (page src : Nat) : Nat :=
  fld (pget s page (0x030 + 8 * (src / 4))) (8 * (src % 4) + 7) (8 * (src % 4))

/-- Whether a source's sticky bit is set. -/
def sticky (s : State) (page src : Nat) : Bool := bitOf (pget s page 0x020) src

/-- The pages with a sticky bit set, each with its FLT_STICKY. -/
def stickyPages (s : State) : List (Nat × Nat) :=
  s.regs.vals.filterMap fun p =>
    if p.1 % 0x1000 = 0x020 && p.2 != 0#32 && (pageBlock (p.1 / 0x1000)).isSome then
      some (p.1 / 0x1000, p.2.toNat)
    else none

/-- Every source whose sticky bit is set. -/
def stickySources (s : State) : List (Nat × Nat) :=
  (stickyPages s).flatMap fun p => (setBits p.2 32).map fun src => (p.1, src)

/-- The class of a source that is set: a change of FLT_CLASS applies from its next setting (R428, R493). -/
def settingClass (s : State) (page src : Nat) : Nat :=
  if sticky s page src then (kfind s.flt.classes (page * 32 + src)).getD (faultClass s page src) else faultClass s page src

/-- Whether a FATAL source is set somewhere: the hold of R425. -/
def fatalHold (s : State) : Bool := (stickySources s).any fun x => settingClass s x.1 x.2 = 2

/-- Level of the pin ERR_N, low while asserted (R429). -/
def errN (s : State) : Bool := !((stickySources s).any fun x => bitOf (faultReact s x.1 x.2) 2)

/-- Level of the pin ALERT_N is that of the sideband; here the live cause of a source (R427). -/
def liveBit (s : State) (page src : Nat) : Bool := bitOf (pget s page 0x070) src

/-- The state with the live level of a condition set (R427). -/
def setLive (s : State) (page src : Nat) (b : Bool) : State :=
  pset s page 0x070 (setBitN (pget s page 0x070) src b)

/-- Cause kind of a source (R440); a source that the table does not name is a PATH cause. -/
def causeKind (b : Block) (src : Nat) : CauseKind :=
  match b, src with
  | .matrixCore, 0 => .unit | .matrixCore, 6 => .unit | .matrixCore, 7 => .unit
  | .matrixCore, 4 => .data | .matrixCore, 3 => .program | .matrixCore, 8 => .program
  | .vectorCore, 2 => .unit | .vectorCore, 3 => .unit | .vectorCore, 5 => .unit
  | .vectorCore, 0 => .program | .vectorCore, 4 => .program
  | .tcc, 2 => .unit | .tcc, 0 => .program | .tcc, 3 => .program | .tcc, 4 => .program
  | .layerCtl, 0 => .unit | .layerCtl, 7 => .unit | .layerCtl, 8 => .unit | .layerCtl, 9 => .unit
  | .layerCtl, 2 => .data | .layerCtl, 4 => .program | .layerCtl, 5 => .program | .layerCtl, 6 => .program
  | .tileControl, 1 => .unit | .tileControl, 18 => .unit | .tileControl, 19 => .data
  | .tileControl, 16 => .program | .tileControl, 17 => .program
  | .sliceCtl, 2 => .data | .sliceCtl, 3 => .data | .sliceCtl, 4 => .data | .sliceCtl, 5 => .data
  | .lpddr, 1 => .data | .lpddr, 2 => .data | .lpddr, 3 => .data | .lpddr, 9 => .program
  | .sharedBuffer, 1 => .data | .sharedBuffer, 2 => .data
  | .tongs, 1 => .unit
  | .tongs, 16 => .program | .tongs, 17 => .program | .tongs, 18 => .program | .tongs, 19 => .program
  | .tongs, 23 => .program | .tongs, 24 => .program | .tongs, 25 => .program | .tongs, 26 => .program
  | .tongs, 27 => .program
  | _, _ => .path

/-- A step tag without its REPLAY bit (R174). -/
def tagBase (tag : Nat) : Nat := setBitN tag 7 false

/-- Whether a tag names a group of the current period that is neither dropped nor committed (R426). -/
def tagLive (s : State) (tag : Nat) : Bool :=
  tag != 0 && s.sched.groups.any fun g => g.tag = tagBase tag && g.fate = .running

/-- The state with a group marked suspect (R426). -/
def markGroup (s : State) (tag : Nat) (kind : CauseKind) (page src : Nat) : State :=
  if tagLive s tag then
    let mk : Mark := ⟨tag, kind, page, src⟩
    if s.flt.marks.contains mk then s else s.setFlt { s.flt with marks := s.flt.marks ++ [mk] }
  else s

/-- Every live group marked suspect, of those that a predicate picks. -/
def markWhere (s : State) (p : StepGroup → Bool) (kind : CauseKind) (page src : Nat) : State :=
  foldList (fun g st => if p g then markGroup st g.tag kind page src else st) s.sched.groups s

/-- Whether a vector is masked in the MSI-X table or by the Function Mask (R344). -/
def vecMasked (s : State) (v : Nat) : Bool := s.host.fnMask || bitOf (regGet s (0x10000 + 16 * v + 12)) 0

/-- The state after a message of a vector falls due (R344). -/
def msixSignal (s : State) (v : Nat) : State :=
  if vecMasked s v then
    if s.host.msixPend.contains v then s else s.setHost { s.host with msixPend := s.host.msixPend ++ [v] }
  else s.setHost { s.host with msixSent := kput 0 s.host.msixSent v (kget 0 s.host.msixSent v + 1) }

/-- Vector of the interrupt-reaction faults of a page (R344). -/
def faultVector (page : Nat) : Nat :=
  match pagePlace page with
  | .base a _ => 193 + a
  | .tile t _ => 197 + t
  | _ => 192

/-- Number of the aggregator of a page: its base die, or 4 for module pages (R433). -/
def aggregatorOf (page : Nat) : Nat :=
  match pagePlace page with
  | .base a _ => a
  | .tile t _ => t / 3
  | _ => 4

/-- Page on which an aggregator reports. -/
def aggregatorPage (a : Nat) : Nat := faPage (if a = 4 then 0 else a)

/-- Offsets of the current-operation registers of a block (R433). -/
def curopOffs : Block → List Nat
  | .matrixCore => [0x098, 0x09C]
  | .vectorCore => [0x088, 0x08C]
  | .tongs => [0x240, 0x244]
  | .layerCtl => [0x098, 0x09C]
  | .tileControl => [0x708, 0x70C]
  | .sliceCtl => [0x094, 0x098, 0x09C]
  | .lpddr => [0x0B0, 0x0B4, 0x0B8]
  | .sharedBuffer => [0x084, 0x088, 0x08C]
  | .fabric => [0x090, 0x094]
  | .bridge => [0x084, 0x088]
  | .chainPort => [0x0A0, 0x0A4]
  | _ => []

/-- The state with the current-operation registers of a page set, in offset order. -/
def setCurop (s : State) (page : Nat) (ws : List Nat) : State :=
  match pageBlock page with
  | some b => foldList (fun (x : Nat × Nat) st => pset st page x.1 x.2) ((curopOffs b).zip ws) s
  | none => s

/-- A TCC, a participant, an array; and the state with one replaced. -/
def tccOf (s : State) (t : Nat) : Tcc := kget .reset s.tccs t
def setTcc (s : State) (t : Nat) (x : Tcc) : State := s.setTccs (kput .reset s.tccs t x)

def coreOf (s : State) (c : Nat) : Core := kget .reset s.cores c
def setCore (s : State) (c : Nat) (x : Core) : State := s.setCores (kput .reset s.cores c x)

def mcOf (s : State) (t n : Nat) : MatrixCore := kget .reset s.mcs (t * 32 + n)
def setMc (s : State) (t n : Nat) (x : MatrixCore) : State := s.setMcs (kput .reset s.mcs (t * 32 + n) x)

/-- MC_CUROP0 and MC_CUROP1 (R87): the MXA in the array, else the MXR in progress, else idle with the step tag of
the participant (R116). DESIGN CHOICE: an MXA that has issued and waits for its ring tile does not show (log 122). -/
def mcCurop (s : State) (t n : Nat) : List Nat :=
  let m := mcOf s t n
  match m.cur, m.mxrs with
  | some o, _ =>
    [0x40 + b2n o.bank * 2 ^ 8 + o.wfmt * 2 ^ 9 + o.afmt * 2 ^ 13 + b2n o.sparse * 2 ^ 17 + b2n o.ring * 2 ^ 18,
      o.tag.toNat]
  | none, r :: _ => [0x41 + b2n r.bank * 2 ^ 8, r.tag.toNat]
  | none, [] => [0, (coreOf s (coreId t n)).tag.toNat]

/-- VC_CUROP0 and VC_CUROP1 (R134): the oldest unfinished instruction is an outstanding XFER, where there is one, else the
instruction in progress. DESIGN CHOICE: so too on an IDLE core whose XFER is still outstanding (log 122). -/
def vcCurop (s : State) (t p : Nat) : List Nat :=
  let k := coreOf s (coreId t p)
  [if k.xfers.isEmpty then k.opcode + k.opmod * 2 ^ 8 else 0x28, k.tag.toNat]

/-- SC_CUROP of a slice controller between the operations that a command performs (R280): a read that waits for its golden copy or
its re-read, else an RMW that is due, else a FILL that has a part in the slice. DESIGN CHOICE: in this order (log 12). -/
def scCurop (s : State) (t n : Nat) : List Nat :=
  let x := kget SliceSt.reset s.store.slices (t * 32 + n)
  match x.reads, x.mb.find? GEntry.rmw with
  | r :: _, _ => [if r.golden then 7 else if r.bond then 1 else 2, r.line * 128, r.tag]
  | [], some e => [5, e.line * 128 - sliceBase t n, e.tag]
  | [], none =>
    match s.eng.fills.find? fun f => f.2.1 < sliceBase t n + sliceBytes && sliceBase t n < f.2.1 + f.2.2 with
    | some f => [6, (max f.2.1 (sliceBase t n) - sliceBase t n) / 128 * 128, 0]
    | none => [0, 0, 0]

/-- The current-operation registers of a page, in offset order (R433). -/
def curopWords (s : State) (page : Nat) : List Nat :=
  match pagePlace page with
  | .tile t i =>
    if 2 ≤ i && i < 34 then mcCurop s t (i - 2)
    else if 34 ≤ i && i < 42 then vcCurop s t (i - 2)
    else
      let ws := (((tileBlock i).map curopOffs).getD []).map (pget s page)
      if 42 ≤ i && i < 74 && ws.all (· = 0) then scCurop s t (i - 42) else ws
  | _ => (((pageBlock page).map curopOffs).getD []).map (pget s page)

/-- Step tag that the current-operation registers of a page hold: their last word (R426). -/
def curopTag (s : State) (page : Nat) : Nat := ((curopWords s page).getLast?).getD 0

/-- The row of a bonded line as a row-log entry spells it in bits 23 to 3 (R280). -/
def rowKey (o : Nat) : Nat := offLayer o * 2 ^ 3 + offBank o * 2 ^ 6 + offBankLine o / 8 * 2 ^ 10

/-- The row-log entry that holds the row of a line. -/
def rowLogEntry (s : State) (page o : Nat) : Option Nat :=
  (List.range 16).find? fun i =>
    let v := pget s page (0x100 + 8 * i)
    bitOf v 0 && fld v 23 3 * 8 = rowKey o

/-- DETAIL registers of a source (R436): for the failures that the row log counts, the entry of the row of the line that the
current-operation registers name. DEDUCED (log 121). -/
def detailOffs (s : State) (page src : Nat) : Block → List Nat
  | .matrixCore => if src = 0 then [0x0A4, 0x0A8] else []
  | .layerCtl => if src = 0 then [0x0A4, 0x0A8] else []
  | .sliceCtl =>
    if src = 1 || src = 2 || src = 3 || src = 4 || src = 6 then
      match rowLogEntry s page ((curopWords s page).getD 1 0) with
      | some i => [0x100 + 8 * i, 0x104 + 8 * i]
      | none => []
    else []
  | .tileThermal => [0x084, 0x088, 0x08C, 0x090]
  | .baseThermal => [0x084, 0x088, 0x08C, 0x090]
  | _ => []

/-- Whether a pending cause takes in another (R129): one per fault source, and one per participant's software trap. -/
def TrapCause.merges : TrapCause → TrapCause → Bool
  | .fault p a, .fault q b => p = q && a = b
  | .software p _, .software q _ => p = q
  | _, _ => false

/-- The state with a cause pending at a TCC; a cause that recurs while it is pending merges with the pending entry (R129). -/
def tccCause (s : State) (t : Nat) (c : TrapCause) : State :=
  let k := tccOf s t
  if k.pend.any fun x => x.merges c then s else setTcc s t { k with pend := k.pend ++ [c] }

/-- The trap reaction of a tile page: the TCC, and a running core on its own page (R127, R128). -/
def trapReaction (s : State) (page src : Nat) : State :=
  match pagePlace page with
  | .tile t i =>
    let s := tccCause s t (.fault i src)
    if 2 ≤ i && i < 42 then
      let c := coreId t (i - 2)
      let k := coreOf s c
      if k.run = .running || k.run = .waiting then setCore s c { k with stopReq := true } else s
    else s
  | _ => s

/-- Unique ID of the plan of a step tag's slot (R436); 0 for tag 0. -/
def tagUid (s : State) (tag : Nat) : Nat := if tag = 0 then 0 else (kget .reset s.plans (fld tag 6 5)).uid

/-- Whether the queue of an aggregator is full (R433). -/
def stampsFull (s : State) (page : Nat) : Bool :=
  64 ≤ (s.flt.stamps.filter fun x => aggregatorOf x.page = aggregatorOf page && !x.late).length

/-- The stamp of a setting (R433), and the aggregator's registers. -/
def stampSetting (s : State) (page src tag : Nat) (forced : Bool) : State :=
  let fa := aggregatorPage (aggregatorOf page)
  let b := (pageBlock page).getD .identity
  let st : Stamp := {
    page := page, source := src, time := s.clock.now, late := stampsFull s page, forced := forced,
    cls := faultClass s page src, react := faultReact s page src,
    curop := (curopWords s page).map (BitVec.ofNat 32),
    tag := tag, uid := tagUid s tag, period := s.sched.num, outcome := none, detail := (detailOffs s page src b).map fun o => BitVec.ofNat 32 (pget s page o),
    urgent := bitOf (faultReact s page src) 1 && (match pagePlace page with | .tile _ _ => false | _ => true) }
  let s := s.setFlt { s.flt with stamps := s.flt.stamps ++ [st], classes := kerase s.flt.classes (page * 32 + src) }
  let s := count s fa 0x800 1
  let s := pset s fa 0x0C0 (page + src * 2 ^ 16)
  let s := pset s fa 0x0C4 (s.clock.now % 2 ^ 32)
  pset s fa 0x0C8 (s.clock.now / 2 ^ 32)

/-- The reactions of a source, taken once at its setting (R429). The pin is the level `errN`. -/
def takeReactions (s : State) (page src : Nat) : State :=
  let r := faultReact s page src
  let s := if bitOf r 0 then
      let s := msixSignal s (faultVector page)
      if faultClass s page src = 2 then msixSignal s 209 else s
    else s
  let s := if bitOf r 1 then trapReaction s page src else s
  let s := match pagePlace page with
    | .module _ => s
    | _ => if bitOf r 3 && !s.regs.resetReq.contains page then
        s.setRegs { s.regs with resetReq := s.regs.resetReq ++ [page] } else s
  if bitOf r 4 then s.setFlt { s.flt with restartReq := true } else s

/-- A sticky bit that sets: it is stamped, and its reactions are taken (R429, R433). -/
def newSetting (s : State) (page src tag : Nat) (forced : Bool) : State :=
  takeReactions (stampSetting (psetBits s page 0x020 (2 ^ src)) page src tag forced) page src

/-- FA_STAMP_OVF of the aggregator of a page (R433). -/
def stampOverflow (s : State) (page : Nat) : State :=
  let fa := aggregatorPage (aggregatorOf page)
  if sticky s fa 0 then s else newSetting s fa 0 0 false

/-- A source set from a cause, which marks the group of a tag (R426, R429, R433): where its rule names that group, whatever class the
source has now; else where its class is CONTAINED. Without nesting. -/
def setSource (s : State) (page src tag : Nat) (named forced : Bool) : State :=
  match pageBlock page with
  | none => s
  | some b =>
    if !sourceDefined b src then s
    else
      let suspect := (named && decide (sourceClass b src = 1)) || settingClass s page src = 1
      let live := tagLive s tag
      let s := if suspect then markGroup s tag (causeKind b src) page src else s
      if sticky s page src then s
      else
        let full := stampsFull s page
        let s := newSetting s page src (if suspect && live then tag else 0) forced
        if full then stampOverflow s page else s

/-- A TCC halted by a nested trap (R131). -/
def nestTcc (s : State) (t : Nat) : State :=
  let k := tccOf s t
  let s := setTcc s t { k with halted := true, locked := true, nested := true }
  let s := psetBits s (tccPage t) 0x098 1
  setSource s (tccPage t) 3 (coreOf s (coreId t 40)).tag.toNat true false

/-- A source raised from a cause or forced, marking as setSource says. A trap-reaction source of a TCC's own page while it is in a
trap is a nested trap (R131). -/
def raiseWith (s : State) (page src tag : Nat) (named forced : Bool) : State :=
  let was := sticky s page src
  let s' := setSource s page src tag named forced
  match pagePlace page with
  | .tile t 1 =>
    if !was && bitOf (faultReact s page src) 1 && (tccOf s t).inTrap then nestTcc s' t else s'
  | _ => s'

/-- A source raised under a rule that names the group of a tag (R426); tag 0 marks nothing. -/
def raiseTag (s : State) (page src tag : Nat) : State := raiseWith s page src tag true false

/-- A source raised under a rule that names no group (R426): where its class is CONTAINED it marks the group whose tag the page's
current-operation registers hold. -/
def raise (s : State) (page src : Nat) : State := raiseWith s page src (curopTag s page) false false

/-- A condition that starts: its live level and its source (R427). -/
def raiseLive (s : State) (page src : Nat) : State := raise (setLive s page src true) page src

/-- Whether a page is in block reset (R492). -/
def inReset (s : State) (page : Nat) : Bool := s.regs.inReset.contains page

/-- Half of the block of a tile page: 0 west, 1 east; none for the seam strip and for layer controls (R8). -/
def pageHalf (i : Nat) : Option Nat :=
  if 2 ≤ i && i < 42 then ptHalf (i - 2) else if 42 ≤ i && i < 74 then some ((i - 42) / 16) else none

/-- Whether a tile is on its way to RETAIN or OFF: its halves are being gated (R318, R395). -/
def tileGating (s : State) (t : Nat) : Bool := pget s (tilePage t 0) 0x01C = 4 || pget s (tilePage t 0) 0x01C = 6

/-- Whether a half is GATED, or is being gated: its requests complete poisoned (R315, R318). -/
def halfGated (s : State) (t h : Nat) : Bool :=
  fld (pget s (tilePage t 84) 0x084) (4 * h + 2) (4 * h) = 4 || tileGating s t

/-- Whether a tile's state of service keeps its pages from the tile: FENCED, PARKED, RESETTING or OUT (R489). -/
def tileAway (s : State) (t : Nat) : Bool :=
  let st := fld (pget s (tilePage t 0) 0x780) 2 0
  st = 2 || st = 3 || st = 6 || st = 7

/-- Whether writes to a page are applied (R489). -/
def pageServes (s : State) (page : Nat) : Bool :=
  match pagePlace page with
  | .tile t i =>
    !(tileAway s t || s.store.baseFenced.contains (tileDie t) || (pageHalf i).any (halfGated s t))
  | .base a _ => !s.store.baseFenced.contains a
  | .module _ => true
  | .unmapped => false

/-- GATED_ACCESS for a register access to a block of a GATED half (R318). -/
def gatedPage (s : State) (page tag : Nat) : State :=
  match pagePlace page with
  | .tile t i =>
    if !tileAway s t && !s.store.baseFenced.contains (tileDie t) && (pageHalf i).any (halfGated s t) then
      raiseTag s (tilePage t 84) 3 tag
    else s
  | _ => s

/-- A write to a block-specific register: discarded while the unit does not serve its page (R489), with GATED_ACCESS where its half
is gated (R318), and while the page is in block reset (R492). -/
def blockWrite (s : State) (page : Nat) (f : State → State) : State :=
  if inReset s page then s else if !pageServes s page then gatedPage s page 0 else f s

/-- A plan slot, and the state with it replaced. -/
def planOf (s : State) (i : Nat) : PlanSlot := kget .reset s.plans i
def setPlan (s : State) (i : Nat) (x : PlanSlot) : State := s.setPlans (kput .reset s.plans i x)

end Sys2Proof.Machine
end

