-- ==== Sys2Proof/Machine/Operands.lean ====
section
/-!
DEFINITION. Operations shared by the instructions of the programmed cores (R91 to R97): registers, issue, the program
counter, illegal cases and own-store addresses.
-/

namespace Sys2Proof.Machine

open Sys2Proof

/-- The core that an instruction names. -/
abbrev cid (t : Fin 12) (p : Fin 41) : Nat := coreId t.val p.val

/-- Whether register i of a participant lies in the TCC's second bank now (R129). -/
def bankTwo (s : State) (t p i : Nat) : Bool := p = 40 && 8 ≤ i && (tccOf s t).inTrap

/-- What a scalar register that is not listed holds: 0, or a lost value after a sleep that loses it (R384). -/
def lostG (epoch i : Nat) : Word64 := if epoch = 0 then 0#64 else Config.lostWord64 epoch i

/-- A register put into a map whose unlisted registers hold 0, or lost values. -/
def putReg {α : Type} [DecidableEq α] (epoch : Nat) (d : α) (m : KMap α) (i : Nat) (v : α) : KMap α :=
  if epoch = 0 then kput d m i v else kinsert m i v

/-- G[i]; G0 reads as 0 (R91). -/
def getG (s : State) (t p i : Nat) : Word64 :=
  let k := coreOf s (coreId t p)
  if i = 0 then 0#64
  else if bankTwo s t p i then kget (lostG k.epoch (coreId t p * 64 + 32 + i)) (tccOf s t).bank2 i
  else kget (lostG k.epoch (coreId t p * 64 + i)) k.g i

/-- The state with G[i] written; writes to G0 are discarded (R91). -/
def setG (s : State) (t p i : Nat) (v : Word64) : State :=
  if i = 0 then s
  else if bankTwo s t p i then
    let k := tccOf s t
    setTcc s t { k with bank2 := putReg (coreOf s (coreId t p)).epoch 0#64 k.bank2 i v }
  else
    let k := coreOf s (coreId t p)
    setCore s (coreId t p) { k with g := putReg k.epoch 0#64 k.g i v }

/-- State code of a half of a tile (R315, R323): 0 AWAKE, 1 GOING_DOWN, 2 DOWN, 3 PENDING_ON, 4 GATED. -/
def halfState (s : State) (t h : Nat) : Nat :=
  if h = 0 then fld (pget s (tilePage t 84) 0x084) 2 0 else fld (pget s (tilePage t 84) 0x084) 6 4

/-- Whether the half of a participant is AWAKE; the seam strip always is (R315). -/
def ptAwake (s : State) (t p : Nat) : Bool :=
  match ptHalf p with
  | some h => halfState s t h = 0
  | none => true

/-- The program counter set. -/
def setPc (s : State) (t p pc : Nat) : State :=
  let k := coreOf s (coreId t p)
  setCore s (coreId t p) { k with pc := pc % 2 ^ 64 }

/-- The program counter moved past one instruction (R92). -/
def nextPc (s : State) (t p : Nat) : State := setPc s t p ((coreOf s (coreId t p)).pc + 8)

/-- Whether a participant is ready for the instruction at its PC (R94, R96, R128, R129, R138): it runs, waits for nothing, its PC
lies in its store, its half is AWAKE, and no trap or halt is due first. -/
def ready (s : State) (t p : Nat) : Bool :=
  let k := coreOf s (coreId t p)
  k.run = .running && k.wait = none && !k.stopReq && k.pc < storeSize p && ptAwake s t p &&
  (p != 40 || (!(tccOf s t).halted && ((tccOf s t).inTrap || (tccOf s t).pend = [])))

/-- Whether a participant can issue an instruction now: it is ready, and no instruction before this one is held (R94). -/
def canIssue (s : State) (t p : Nat) : Bool := ready s t p && (coreOf s (coreId t p)).held = none

/-- The instruction counted (R135, R139) and shown as the current operation (R134). -/
def noteIssue (s : State) (t p op md : Nat) : State :=
  let k := coreOf s (coreId t p)
  let s := setCore s (coreId t p) { k with opcode := op, opmod := md, held := none }
  if p = 40 then count s (tccPage t) 0x800 1
  else if 32 ≤ p then count s (ptPage t p) 0x800 1
  else s

/-- The instruction in progress is finished, unless the participant now waits in it (R134). -/
def noteEnd (s : State) (t p : Nat) : State :=
  let k := coreOf s (coreId t p)
  if k.wait.isSome then s else setCore s (coreId t p) { k with opcode := 0, opmod := 0 }

/-- An instruction issued by a participant, where it can issue; else nothing changes (log 4). -/
def issue (s : State) (t p op md : Nat) (f : State → State) : State :=
  if canIssue s t p then noteEnd (f (noteIssue s t p op md)) t p else s

/-- An instruction that issues only under a condition: while it does not hold, the instruction is held, and with it every
instruction behind it (R94). It issues when it is commanded again and the condition holds (log 4). -/
def issueWhen (s : State) (i : Instr) (t p op : Nat) (free : Bool) (f : State → State) : State :=
  let k := coreOf s (coreId t p)
  if !ready s t p || (k.held != none && k.held != some i) then s
  else if free then noteEnd (f (noteIssue s t p op 0)) t p
  else setCore s (coreId t p) { k with held := some i }

/-- Number of the PROG_ERR source on a participant's page (R89, R136, R139). -/
def progErrSource (p : Nat) : Nat := if p < 32 then 3 else 0

/-- Step tag that a fault of a participant's page marks: none on the TCC page, which holds no tag (R426). -/
def ptTag (s : State) (t p : Nat) : Nat := if p = 40 then 0 else curopTag s (ptPage t p)

/-- PROG_ERR raised on a participant's page. -/
def progErr (s : State) (t p : Nat) : State := raiseTag s (ptPage t p) (progErrSource p) (ptTag s t p)

/-- An illegal instruction: PROG_ERR, and nothing else but the PC (R95). -/
def illegal (s : State) (t p : Nat) : State := nextPc (progErr s t p) t p

/-- ADDR_ERR raised on a participant's page (R98). -/
def addrErr (s : State) (t p : Nat) : State :=
  raiseTag s (ptPage t p) (if p < 32 then 8 else 4) (ptTag s t p)

/-- G[GA] + sext(IMM32), modulo 2^64. -/
def effAddr (s : State) (t p : Nat) (f : SFields) : Nat := (getG s t p f.ga.toNat + sext32 f.imm).toNat

/-- Operand B of R97: G[GB] + sext(IMM32), modulo 2^64. -/
def operandB (s : State) (t p : Nat) (f : SFields) : Word64 := getG s t p f.gb.toNat + sext32 f.imm

/-- Key in the state's memory of an offset in a participant's own store (R99). -/
def storeKey (t p off : Nat) : Nat := tlaKey t (storeTla p + off)

/-- Whether a range of n bytes at an offset meets a line of a store. -/
def meetsLine (off n line : Nat) : Bool := 0 < n && off / 128 ≤ line && line ≤ (off + n - 1) / 128

/-- Whether an MXA that has issued may still read a line of its core store (R67): it is in the array or waits. The ring's tiles are
held by the ring itself (log 15). -/
def MatrixCore.reads (m : MatrixCore) (line : Nat) : Bool :=
  let of (o : Option MxaOp) : Bool := match o with
    | some x => meetsLine x.actAt x.act.length line || (!x.ring && meetsLine x.wgtAt x.wgt.length line)
    | none => false
  of m.cur || of m.waiting

/-- Bytes written inside one line of a participant's store; the store of a matrix core holds a write to a line that an MXA still
reads (R67, R99). -/
def storePut (s : State) (t p off : Nat) (data : List Byte) (own : Bool) : State :=
  if p < 32 && (mcOf s t p).reads (off / 128) then
    let m := mcOf s t p
    setMc s t p { m with heldW := m.heldW ++ [⟨off, data, own⟩] }
  else writeBytes s (storeKey t p off) data

/-- The pieces of [a, a + n) by line: address and length, for fuel lines. -/
def linePieces : Nat → Nat → Nat → List (Nat × Nat)
  | 0, _, _ => []
  | k + 1, a, n =>
    if n = 0 then []
    else
      let m := min n (128 - a % 128)
      (a, m) :: linePieces k (a + m) (n - m)

/-- The pieces of [a, a + n) by line. -/
def pieces (a n : Nat) : List (Nat × Nat) := linePieces (n / 128 + 2) a n

/-- Bytes written to a participant's store, line by line. -/
def storeWrite (s : State) (t p off : Nat) (data : List Byte) (own : Bool) : State :=
  foldList (fun x st => storePut st t p x.1 ((data.drop (x.1 - off)).take x.2) own) (pieces off data.length) s

/-- The held writes of a core store land, in arrival order (R67). -/
def landHeld (s : State) (t n : Nat) : State :=
  let m := mcOf s t n
  foldList (fun w st => writeBytes st (storeKey t n w.off) w.data) m.heldW (setMc s t n { m with heldW := [] })

/-- Whether a participant has a store of its own that the core store still holds: it is not complete (R97, R125). -/
def storeHeld (s : State) (t p : Nat) : Bool := p < 32 && (mcOf s t p).heldW.any HeldWrite.own

/-- Whether every earlier load, store and XFER of a participant is complete and visible (R97, R125). -/
def settled (s : State) (t p : Nat) : Bool := (coreOf s (coreId t p)).xfers = [] && !storeHeld s t p

/-- Whether a range of a participant's own store meets one of its own stores that is still held: a load of it waits (log 13). -/
def loadHeld (s : State) (t p off n : Nat) : Bool :=
  p < 32 && (mcOf s t p).heldW.any fun w => w.own && w.off < off + n && off < w.off + w.data.length

/-- Whether [a, a + n) lies wholly inside a participant's store (R96). -/
def inStore (p a n : Nat) : Bool := a + n ≤ storeSize p

/-- An instruction that writes one value to GD (R97). -/
def aluOp (t : Fin 12) (p : Fin 41) (f : SFields) (op : Nat) (g : Word64 → Word64 → Word64) (s : State) : State :=
  issue s t p op 0 fun s =>
    nextPc (setG s t p f.gd.toNat (g (getG s t p f.ga.toNat) (operandB s t p f))) t p

/-- Target of a branch: PC + 8 × sext(IMM32) (R97). -/
def branchTarget (pc : Nat) (f : SFields) : Nat := (BitVec.ofNat 64 pc + 8#64 * sext32 f.imm).toNat

/-- A branch taken or not. -/
def branchTo (s : State) (t p : Nat) (f : SFields) (taken : Bool) : State :=
  if taken then setPc s t p (branchTarget (coreOf s (coreId t p)).pc f) else nextPc s t p

/-- A conditional branch on G[GA] and G[GB] (R97). -/
def condBranch (t : Fin 12) (p : Fin 41) (f : SFields) (op : Nat) (c : Word64 → Word64 → Bool) (s : State) : State :=
  issue s t p op 0 fun s => branchTo s t p f (c (getG s t p f.ga.toNat) (getG s t p f.gb.toNat))

/-- The wait of a participant that goes on waiting. -/
def enterWait (s : State) (c : Nat) (w : Wait) : State :=
  let k := coreOf s c
  setCore s c { k with run := .waiting, wait := some w }

/-- A participant whose wait is over: running, past the instruction that waited, which is finished (R134). -/
def endWait (s : State) (t p : Nat) : State :=
  let k := coreOf s (coreId t p)
  setCore s (coreId t p) { k with run := .running, wait := none, pc := (k.pc + 8) % 2 ^ 64, opcode := 0, opmod := 0 }

/-- A TCC halted, with TCC_CTL.HALT reading 1 (R96, R97, R138). -/
def haltTcc (s : State) (t : Nat) (locked : Bool) : State :=
  let k := tccOf s t
  let s := setTcc s t { k with halted := true, locked := k.locked || locked }
  let c := coreOf s (coreId t 40)
  psetBits (setCore s (coreId t 40) { c with run := .idle }) (tccPage t) 0x098 1

end Sys2Proof.Machine
end

