-- ==== Sys2Proof/Machine/Routes.lean ====
section
/-!
DEFINITION. The paths of the on-module fabric and the flits that they carry (R8, R17, R19, R20, R310, R313, R322).
-/

namespace Sys2Proof.Machine

open Sys2Proof

/-- A request on the fabric: its requester, and the step tag that it carries (R310, R426). -/
structure Req where
  who : Leaf
  tag : Nat

/-- Requests of the module's own sequencers, of the host, and of Tongs for a tile. -/
abbrev ownReq (tag : Nat) : Req := ⟨.vexondane, tag⟩
abbrev hostReq : Req := ⟨.host, 0⟩
abbrev tongsReq (t tag : Nat) : Req := ⟨.tongs t, tag⟩

/-- Where a requester or a target stands: its base die, and its tile and half where it has them. What stands in the seam strip is
in neither half (R8, R19). -/
structure Loc where
  die : Nat
  tile : Option Nat
  half : Option Nat

/-- The half of a slice (R19). -/
def sliceHalf (n : Nat) : Nat := n / 16

/-- The half that serves a tile-local address: none for the seam strip, by R99 and R8. -/
def tlaHalf (a : Nat) : Option Nat :=
  match tlaStore a with
  | some p => ptHalf p
  | none => some (if a < 0x800000 then 0 else 1)

/-- Where a requester stands: host traffic enters at A0, and chain traffic at the base die of its port (R8, R313). -/
def leafLoc : Leaf → Loc
  | .part t p => ⟨tileDie t, some t, ptHalf p⟩
  | .slice t n => ⟨tileDie t, some t, some (sliceHalf n)⟩
  | .tongs t => ⟨tileDie t, none, none⟩
  | .port c => ⟨portDie c, none, none⟩
  | .host => ⟨0, none, none⟩
  | .vexondane => ⟨0, none, none⟩

/-- Where a register page stands (R496, R497). -/
def pageLoc (page : Nat) : Loc :=
  match pagePlace page with
  | .tile t i => ⟨tileDie t, some t, pageHalf i⟩
  | .base a _ => ⟨a, none, none⟩
  | _ => ⟨0, none, none⟩

/-- Where the unit of a device address stands (R8, R25). -/
def daLoc (da : Nat) : Loc :=
  match daKind da with
  | .bonded t n _ => ⟨tileDie t, some t, some (sliceHalf n)⟩
  | .lpddr a _ => ⟨a, none, none⟩
  | .shared a _ => ⟨a, none, none⟩
  | .register off => pageLoc (off / 0x1000)
  | .unmapped => ⟨0, none, none⟩

/-! The bridge ring (R17, R313). A path is a list of bridges: true for the east-west one of a base die, false for the
north-south one. -/

/-- The bridges from one base die to another: east-west first, then north-south. -/
def straight (a b : Nat) : List Bool :=
  (if a % 2 = b % 2 then [] else [true]) ++ (if a / 2 = b / 2 then [] else [false])

/-- The other way round the ring A0-A1-A3-A2-A0 (R322). -/
def otherWay (a b : Nat) : List Bool :=
  match straight a b with
  | [true] => [false, true, false]
  | [false] => [true, false, true]
  | l => l.reverse

/-- The base die beyond a bridge. -/
def beyond (a : Nat) (ew : Bool) : Nat := if ew then a / 2 * 2 + (1 - a % 2) else (a + 2) % 4

/-- Page of a base die's end of a bridge (R325). -/
def bridgePage (a : Nat) (ew : Bool) : Nat := basePage a (if ew then 8 else 9)

/-- Whether no bridge of a path from a base die is down. -/
def pathUp (s : State) : Nat → List Bool → Bool
  | _, [] => true
  | a, ew :: l => !bitOf (pget s (bridgePage a ew) 0x080) 4 && pathUp s (beyond a ew) l

/-- The path from one base die to another: a path over a bridge that is down goes the other way round the ring (R322). Where that
is down too, there is none (log 83). -/
def route (s : State) (a b : Nat) : Option (List Bool) :=
  if pathUp s a (straight a b) then some (straight a b)
  else if pathUp s a (otherWay a b) then some (otherWay a b)
  else none

/-- n flits sent along a path of bridges and counted at the ends of each (R325). -/
def crossBridges (n : Nat) : Nat → List Bool → State → State
  | _, [], s => s
  | a, ew :: l, s =>
    let far := bridgePage (beyond a ew) ew
    let s := count (count s (bridgePage a ew) 0x800 n) far 0x808 n
    crossBridges n (beyond a ew) l (if l.isEmpty then s else count s far 0x810 n)

/-- n flits on their path from one place to another (R313), with the counters of R324 and R325: inside a tile they cross at most
the seam; else they leave and enter tiles by their bonds. The flag says whether there is a path. -/
def travel (s : State) (x y : Loc) (n : Nat) : Bool × State :=
  match x.tile, y.tile with
  | some t, some u =>
    if t = u then
      (true, if x.half.isSome && y.half.isSome && x.half != y.half then count s (tilePage t 84) 0x818 n else s)
    else
      match route s x.die y.die with
      | some l => (true, count (crossBridges n x.die l (count s (tilePage t 84) 0x820 n)) (tilePage u 84) 0x828 n)
      | none => (false, s)
  | some t, none =>
    match route s x.die y.die with
    | some l => (true, crossBridges n x.die l (count s (tilePage t 84) 0x820 n))
    | none => (false, s)
  | none, some u =>
    match route s x.die y.die with
    | some l => (true, count (crossBridges n x.die l s) (tilePage u 84) 0x828 n)
    | none => (false, s)
  | none, none =>
    match route s x.die y.die with
    | some l => (true, crossBridges n x.die l s)
    | none => (false, s)

/-! Poisoned flits (R310, R322). -/

/-- The segments of a tile that a path uses at one of its ends, as FB_CUROP0.SEG numbers them less 1 (R323): the mesh of the half,
the seam strip, and the bond where the path leaves the tile. -/
def endSegments (x y : Loc) : List (Nat × Nat) :=
  match x.tile with
  | none => []
  | some t =>
    (match x.half with | some h => [(t, h)] | none => []) ++ (if x.tile = y.tile && x.half = y.half then [] else [(t, 2)]) ++
      if x.tile = y.tile then [] else [(t, 3)]

/-- Whether a requester is a participant of a tile (R323). -/
def partOf (t : Nat) : Leaf → Bool
  | .part u _ => u = t
  | _ => false

/-- Number of a bridge at a base die: X01, X13, X23, X02, in this order. -/
def bridgeNum (a : Nat) (ew : Bool) : Nat := if ew then a / 2 * 2 else if a % 2 = 0 then 3 else 1

/-- The bridges of a path. -/
def pathBridges : Nat → List Bool → List Nat
  | _, [] => []
  | a, ew :: l => bridgeNum a ew :: pathBridges (beyond a ew) l

/-- The bridges that flits of a request or of its response cross, or crossed before one went down (R313, R322). -/
def usedBridges (x y : Loc) : List Nat :=
  let ways (a b : Nat) : List Nat := pathBridges a (straight a b) ++ if a = b then [] else pathBridges a (otherWay a b)
  ways x.die y.die ++ ways y.die x.die

/-- Whether a poisoned flit is one of a request on a path. -/
def BadFlit.hits (b : BadFlit) (who : Leaf) (x y : Loc) : Bool :=
  match b.place with
  | .seg t g =>
    (endSegments x y ++ endSegments y x).contains (t, g) &&
      (match b.who with
        | some w => w = who
        | none => !partOf t who)
  | .bridge n => b.who = some who && (usedBridges x y).contains n

/-- The flits of a request and of its response, n each way, between a requester and its target (R310, R313). The flag says whether
they arrive good: there is a path, and no flit of them was delivered poisoned. -/
def carry (s : State) (q : Req) (y : Loc) (n : Nat) : Bool × State :=
  let x := leafLoc q.who
  let (there, s) := travel s x y n
  if !there then (false, s)
  else
    let s := (travel s y x n).2
    match s.store.badFlits.find? fun b => b.hits q.who x y with
    | some b => (false, s.setStore { s.store with badFlits := s.store.badFlits.erase b })
    | none => (true, s)

/-- Whether a requester reaches a slice through the slice's private bonds (R20): its own matrix core. -/
def overBonds (who : Leaf) (t n : Nat) : Bool := who = .part t n && n < 32

end Sys2Proof.Machine
end

