-- ==== Sys2Proof/Machine/Bonded.lean ====
section
/-!
DEFINITION. Storage: LPDDR5X controllers (R284 to R289), slice controllers with their merge buffers, golden copies and
row logs (R258 to R271), shared buffers (R297, R298). Every function names lines by device address.
-/

namespace Sys2Proof.Machine

open Sys2Proof

/-- A source raised with the current-operation registers of its page showing the operation; the page is idle
afterwards (R433). The last word is the step tag. -/
def raiseOp (s : State) (page src : Nat) (ws : List Nat) : State :=
  setCurop (raiseTag (setCurop s page ws) page src ((ws.getLast?).getD 0)) page (ws.map fun _ => 0)

/-- 128 zero bytes. -/
def zeroLine : List Byte := List.replicate 128 0#8

/-- A list of bytes brought to a length. -/
def fitBytes (n : Nat) (l : List Byte) : List Byte := l.take n ++ List.replicate (n - l.length) 0#8

/-- Whether an address lies in a list of ranges. -/
def inRanges (rs : List HeldRange) (a : Nat) : Bool := rs.any fun r => r.lo ≤ a && a < r.hi

/-! Halves and fences. -/

/-- The state code of a half stored (R315, R323). -/
def setHalf (s : State) (t h code : Nat) : State :=
  let v := pget s (tilePage t 84) 0x084
  pset s (tilePage t 84) 0x084 (if h = 0 then setFld v 2 0 code else setFld v 6 4 code)

/-- The code a half comes up in: AWAKE, or DOWN where Quench holds every half (R420). -/
def halfUpCode (s : State) : Nat := if s.quench.holding then 2 else 0

/-- The time at which a half was last busy (R316): now. -/
def touchHalf (s : State) (t h : Nat) : State :=
  s.setStore { s.store with idleSince := kput 0 s.store.idleSince (t * 2 + h) s.clock.now }

/-- Halves that were busy until now, and the half of a participant. -/
def touchHalves (s : State) (hs : List (Nat × Nat)) : State := foldList (fun h st => touchHalf st h.1 h.2) hs s
def touchPart (s : State) (t p : Nat) : State := touchHalves s ((ptHalf p).toList.map fun h => (t, h))

/-- A request or a wake latched for a half that is not AWAKE (R317): the first one starts the wake, and a half in GOING_DOWN
passes through PENDING_ON. -/
def latchWake (s : State) (t h : Nat) : State :=
  let k := t * 2 + h
  let s := if (kfind s.store.wakeSince k).isSome then s
    else s.setStore { s.store with wakeSince := kinsert s.store.wakeSince k s.clock.now }
  if halfState s t h = 1 then setHalf s t h 3 else s

/-- WAKE_SLOW for the requests of a seam FIFO that have waited for more than 8 µs, once each (R317, R420). -/
def slowRequests (s : State) (t h : Nat) : State :=
  let k := t * 2 + h
  let l := kget [] s.store.seam k
  let late (r : SeamReq) : Bool := r.since + 8000 < s.clock.now
  let s := foldList (fun r st => if late r && !r.slow then raiseTag st (tilePage t 84) 2 r.tag else st) l s
  s.setStore { s.store with seam := kput [] s.store.seam k (l.map fun r => { r with slow := r.slow || late r }) }

/-- WAKE_SLOW for a wake that has waited for more than 8 µs with no request (R317, R420). -/
def slowWake (s : State) (t h : Nat) : State :=
  match kfind s.store.wakeSince (t * 2 + h), kget [] s.store.seam (t * 2 + h) with
  | some t0, [] => if t0 + 8000 < s.clock.now then raise s (tilePage t 84) 2 else s
  | _, _ => s

/-- A half whose clock-down is finished reaches AWAKE and its seam FIFO drains into it (R317, R324). The first request has waited
since it came. -/
def awaken (s : State) (t h : Nat) : State :=
  let k := t * 2 + h
  let pg := tilePage t 84
  let s := slowWake (slowRequests (touchHalf (setHalf s t h 0) t h) t h) t h
  let first := (kget [] s.store.seam k).head?
  let s := s.setStore { s.store with wakeSince := kerase s.store.wakeSince k, seam := kerase s.store.seam k }
  let s := count s pg (0x800 + 8 * h) 1
  match first with
  | some r => count s pg 0x810 (s.clock.now - r.since)
  | none => s

/-- A half woken by a request, a CSTART, a descriptor, a scan or a WAKE write (R317): the wake is latched, the clock-down ends
where it is in progress, and the half reaches AWAKE in the same command (log 21). A half that Quench holds stays as it is with
its wake latched (R420). -/
def wakeHalf (s : State) (t h : Nat) : State :=
  let c := halfState s t h
  if c = 0 then touchHalf s t h
  else if halfGated s t h then s
  else if s.quench.holding then latchWake s t h
  else awaken (latchWake s t h) t h

/-- Service state of a tile (R483). -/
def tileSvc (s : State) (t : Nat) : Nat := fld (pget s (tilePage t 0) 0x780) 2 0

/-- Whether a base die serves requests. -/
def baseUp (s : State) (a : Nat) : Bool := !s.store.baseFenced.contains a

/-- Whether requests to a tile are served: not parked, in reset, in test, fenced or out (R476, R478). -/
def tileUp (s : State) (t : Nat) : Bool :=
  (tileSvc s t ≤ 1 || tileSvc s t = 5) && baseUp s (tileDie t)

/-- Whether Quench holds a half, so that a request for it waits (R420). -/
def halfHeld (s : State) (h : Nat × Nat) : Bool :=
  s.quench.holding && tileUp s h.1 && halfState s h.1 h.2 != 0 && !halfGated s h.1 h.2

/-- n requests toward a half that is not AWAKE enter its seam FIFO and latch its wake (R317); those past its 64 entries wait for
credits. -/
def seamRequest (s : State) (q : Req) (t h n : Nat) : State :=
  if halfState s t h = 0 || halfGated s t h || !tileUp s t then s
  else
    let k := t * 2 + h
    let l := kget [] s.store.seam k
    latchWake (s.setStore { s.store with
      seam := kinsert s.store.seam k (l ++ List.replicate (min n (64 - l.length)) ⟨q.who, q.tag, s.clock.now, false⟩) }) t h

/-- A request of work that the module keeps and begins again: it stands once in the FIFO. -/
def seamOnce (s : State) (q : Req) (t h : Nat) : State :=
  if (kget [] s.store.seam (t * 2 + h)).any fun r => r.who = q.who && r.tag = q.tag then latchWake s t h else seamRequest s q t h 1

/-- What a request to some halves, tile and half, does: while Quench holds one of them it waits in their seam FIFOs, with its wake
latched (R420). -/
def awaitHalves (s : State) (q : Req) (hs : List (Nat × Nat)) (f : State → State) : State :=
  if hs.any (halfHeld s) then foldList (fun h st => if halfHeld st h then seamOnce st q h.1 h.2 else st) hs s else f s

/-- An access that nothing but its command holds: it waits as the command gave it, and is carried out when Quench releases the halves (R317, R420). -/
def awaitAccess (s : State) (q : Req) (hs : List (Nat × Nat)) (i : HeldAccess) (f : State → State) : State :=
  if hs.any (halfHeld s) then
    let s := foldList (fun h st => if halfHeld st h then seamRequest st q h.1 h.2 1 else st) hs s
    s.setStore { s.store with waits := s.store.waits ++ [i] }
  else f s

/-- The halves that hold the bonded memory of a range of device addresses. -/
def daHalves (a n : Nat) : List (Nat × Nat) :=
  if a < 0x9000000000 && 0 < n then
    let lo := a / (16 * sliceBytes)
    (List.range (min 24 ((a + n - 1) / (16 * sliceBytes) + 1) - lo)).map fun k => ((lo + k) / 2, (lo + k) % 2)
  else []

/-- The halves of a range of tile-local addresses (R8, R99). -/
def tlaHalves (t a n : Nat) : List (Nat × Nat) :=
  (((pieces a n).filter fun x => tlaMapped x.1).filterMap fun x => (tlaHalf x.1).map fun h => (t, h)).eraseDups

/-- A request to a half: poisoned with GATED_ACCESS where it is gated (R318), else the half wakes (R317). -/
def reachHalf (s : State) (t h tag : Nat) : Bool × State :=
  if !tileUp s t then (false, s)
  else if halfGated s t h then (false, raiseTag s (tilePage t 84) 3 tag)
  else (true, wakeHalf s t h)

/-- Whether a requester reaches a slice controller, whose half wakes: its own matrix core over the private bonds, any other over the
fabric (R20, R313, R317). -/
def sliceReach (s : State) (q : Req) (t n : Nat) : Bool × State :=
  let (up, s) := reachHalf s t (sliceHalf n) q.tag
  if !up || overBonds q.who t n then (up, s) else carry s q (daLoc (sliceBase t n)) 1

/-! LPDDR5X. -/

/-- State of channel c of a package (R305). -/
def chState (s : State) (p c : Nat) : Nat := fld (pget s (lpPage p) 0x080) (8 * c + 1) (8 * c)

/-- Channels of a region that are in service, ascending: package × 4 + channel (R28). -/
def regionChans (s : State) (a : Nat) : List Nat :=
  (List.range 16).map (fun i => a * 16 + i) |>.filter fun i => chState s (i / 4) (i % 4) = 0

/-- Addressable bytes of a region (R27). -/
def regionTop (s : State) (a : Nat) : Nat := (regionChans s a).length * chBytes

/-- Whether a region is fenced: its base die, or a channel REMAPPING (R295, R479). -/
def regionFenced (s : State) (a : Nat) : Bool :=
  !baseUp s a || (List.range 16).any fun i => chState s (4 * a + i / 4) (i % 4) = 3

/-- Channel of a region offset, package × 4 + channel, and its channel data address (R28). -/
def regionChan (s : State) (a q : Nat) : Nat × Nat :=
  let cs := regionChans s a
  let b := q / 4096
  (cs.getD (b % cs.length) 0, b / cs.length * 4096 + q % 4096)

/-- A controller, and the state with one replaced. -/
def lpOf (s : State) (p : Nat) : LpSt := kget .reset s.store.lps p
def setLp (s : State) (p : Nat) (x : LpSt) : State :=
  s.setStore { s.store with lps := kput .reset s.store.lps p x }

/-- Offset of counter k of channel c (R306). -/
def lpCnt (c k : Nat) : Nat := 0x800 + 0x40 * c + 8 * k

/-- The check cache of a channel after the check lines of [lo, hi) are used, each of 32 lines (R286): 256 check lines are kept. DESIGN
CHOICE: the one used longest ago is written back and leaves (log 84). -/
def useChecks (l : List (Nat × Bool)) (lo hi : Nat) (write : Bool) : List (Nat × Bool) :=
  let new := (List.range (min 256 (hi - lo))).map fun i => (hi - 1 - i, write || l.contains (hi - 1 - i, true))
  (new ++ l.filter fun x => x.1 < lo || hi ≤ x.1).take 256

/-- The charges of n lines of the check lines [lo, hi) transferred on a channel one after the other (R296), which leaves power-down: 8
cycles of data each, the turnaround from the other direction, and 32 cycles for each activate to a bank whose open row differs.
DESIGN CHOICE: how many of the n meet one is a free value, since the spec maps no line to a bank and row (log 23). -/
def lpMoved (s : State) (ch n lo hi : Nat) (write : Bool) : State :=
  let p := ch / 4
  let c := ch % 4
  let l := lpOf s p
  let k := kget LpChan.reset l.chans c
  let (w, s) := drawWord s
  let s := count s (lpPage p) (lpCnt c 1) (8 * n)
  let s := if k.writing = write then s else count s (lpPage p) (lpCnt c 2) (if write then 8 else 16)
  let s := count s (lpPage p) (lpCnt c 3) (32 * (w.toNat % (n + 1)))
  let k := { k with writing := write, down := false, lastReq := s.clock.now, cache := useChecks k.cache lo hi write }
  setLp s p { l with chans := kput .reset l.chans c k }

/-- The charges of one line transferred at a channel data address. -/
def lpCharge (s : State) (ch cda : Nat) (write : Bool) : State := lpMoved s ch 1 (cda / 4096) (cda / 4096 + 1) write

/-- The charges of the interleave blocks [b0, b1) of a region, all their lines transferred in address order (R28). -/
def lpBulk (s : State) (a b0 b1 : Nat) (write : Bool) : State :=
  let cs := regionChans s a
  foldList (fun j st =>
    let lo := divUp (b0 - j) cs.length
    let hi := divUp (b1 - j) cs.length
    if lo < hi then lpMoved st (cs.getD j 0) (32 * (hi - lo)) lo hi write else st) (List.range cs.length) s

/-- Current-operation words of an LPDDR5X operation (R305). -/
def lpOp (ch op cda tag : Nat) : List Nat := [ch % 4 + op * 4, cda / 128, tag]

/-- One uncorrectable line counted for its channel, with CH_DEGRADE at the threshold (R289). -/
def lpUncCount (s : State) (ch op cda tag : Nat) : State :=
  let p := ch / 4
  let c := ch % 4
  let v := pget s (lpPage p) 0x090
  let n := min 255 (fld v (8 * c + 7) (8 * c) + 1)
  let s := pset s (lpPage p) 0x090 (setFld v (8 * c + 7) (8 * c) n)
  let thr := max 1 (fld (pget s (lpPage p) 0x08C) 15 8)
  if n = thr then raiseOp s (lpPage p) 4 (lpOp ch op cda tag) else s

/-- A read that finds what is stored, with no event on its way. -/
def plainRead : LpRead := ⟨[], [], 0#8, false⟩

/-- A line that stays bad after its re-read (R289, step 2). -/
def lpLineLost (s : State) (op tag ch cda : Nat) : State :=
  lpUncCount (raiseOp s (lpPage (ch / 4)) 1 (lpOp ch op cda tag)) ch op cda tag

/-- A parity error of a line's word in the check cache (R286, R307): LP_GB_PAR, and the line gets a poison check word. -/
def lpCheckPar (s : State) (op tag da ch cda : Nat) (par : Bool) : State :=
  if par then raiseOp (s.setMem (s.mem.markPoison da 128)) (lpPage (ch / 4)) 3 (lpOp ch op cda tag) else s

/-- A line of LPDDR5X read and checked (R289), merge state aside: link ECC first, then the check, one re-read, and zeros with
poison where the line stays bad. -/
def lpCheckedLine (s : State) (op tag a q : Nat) (r : LpRead) : (List Byte × ASt) × State :=
  let da := regionBase a + q / 128 * 128
  let (ch, cda) := regionChan s a q
  let pg := lpPage (ch / 4)
  let s := lpCheckPar (lpCharge s ch cda false) op tag da ch cda r.par
  let s := if r.lecc = 0#8 then s else count s pg (lpCnt (ch % 4) 6) r.lecc.toNat
  let first := s.mem.readLine da (r.flips.map Fin.val)
  if first.2 then ((first.1, .ok), s)
  else
    let s := lpCharge s ch cda false
    let second := s.mem.readLine da (r.again.map Fin.val)
    if second.2 then
      ((second.1, .ok), raiseOp (count s pg (lpCnt (ch % 4) 7) 1) pg 0 (lpOp ch op cda tag))
    else
      ((zeroLine, .poison), lpLineLost s op tag ch cda)

/-- A whole line written with a good check word, or with a poison one. -/
def putLine (s : State) (da : Nat) (data : List Byte) (good : Bool) : State :=
  let m := s.mem.writeBytes da data
  s.setMem (if good then m.markGood da 128 else m.markPoison da 128)

/-- The valid bytes of an entry over a line's bytes. -/
def mergeBytes (base : List Byte) (bytes : KMap Byte) : List Byte :=
  bytes.foldl (fun l b => l.set b.1 b.2) base

/-- A gather-buffer entry written out by read-modify-write, and freed (R267, R288). A line that fails its check is read once more
and counted (R289). An entry with a parity error leaves its line with a poison check word (R307). -/
def lpMerge (s : State) (p : Nat) (e : GEntry) (par : Bool) : State :=
  let l := lpOf s p
  let s := setLp s p { l with gb := l.gb.filter fun x => x.line != e.line }
  let da := e.line * 128
  let a := p / 4
  let (ch, cda) := regionChan s a (da - regionBase a)
  let good := s.mem.lineGood da
  let s := lpCharge s ch cda false
  let s := if good then s else lpUncCount (lpCharge s ch cda false) ch 3 cda e.tag
  let s := count (lpCharge s ch cda true) (lpPage p) (lpCnt (ch % 4) 5) 1
  let s := putLine s da (mergeBytes (readBytes s da 128) e.bytes) (good && !par)
  let s := if par then raiseOp s (lpPage p) 3 (lpOp ch 3 cda e.tag) else s
  if good then s else raiseOp s (lpPage p) 2 (lpOp ch 3 cda e.tag)

def lpRmw (s : State) (p : Nat) (e : GEntry) : State := lpMerge s p e false

/-- The entry of a line leaves by RMW, where there is one: a read reaches the line (R266). -/
def lpFlush (s : State) (p line : Nat) : State :=
  match (lpOf s p).gb.find? fun e => e.line = line with
  | some e => lpRmw s p e
  | none => s

/-- Every entry of a controller leaves by RMW. -/
def lpFlushAll (s : State) (p : Nat) : State := foldList (fun e st => lpRmw st p e) (lpOf s p).gb s

/-- A line of LPDDR5X read for an operation (R305): 1 a read, 4 an adder's. -/
def lpReadLine (s : State) (op tag a q : Nat) (r : LpRead) : (List Byte × ASt) × State :=
  let (ch, _) := regionChan s a q
  lpCheckedLine (lpFlush s (ch / 4) ((regionBase a + q) / 128)) op tag a q r

/-- A whole line of LPDDR5X written (R288). -/
def lpWriteLine (s : State) (a q : Nat) (data : List Byte) : State :=
  let da := regionBase a + q / 128 * 128
  let (ch, cda) := regionChan s a q
  let l := lpOf s (ch / 4)
  let s := setLp s (ch / 4) { l with gb := l.gb.filter fun e => e.line != da / 128 }
  putLine (lpCharge s ch cda true) da data true

/-- The bytes of a narrow write as a map from their offset in the line. -/
def narrowBytes (off : Nat) (data : List Byte) : KMap Byte := (List.range' off data.length).zip data

/-- The entry written longest ago. -/
def oldestEntry (l : List GEntry) : Option GEntry :=
  l.foldl (fun b e => match b with
    | none => some e
    | some x => if e.time < x.time then some e else some x) none

/-- Whether a timed window of some µs, 0 applied as 1, that an entry opened at t0 is over (R15, R401): an event at its end comes
after it. -/
def lapsed (s : State) (t0 us : Nat) : Bool := t0 + 1000 * max 1 us ≤ s.clock.now

/-- LP_CFG.GB_TIMEOUT of a package, and SC_CFG.MB_TIMEOUT of a slice, in µs (R266, R288). -/
def gbTime (s : State) (p : Nat) : Nat := fld (pget s (lpPage p) 0x08C) 7 0
def mbTime (s : State) (t n : Nat) : Nat := fld (pget s (scPage t n) 0x080) 15 8

/-- A buffer with a narrow write of a line taken in; the entry moves to the end, the last written. -/
def gatherInto (l : List GEntry) (line off tag now : Nat) (data : List Byte) : List GEntry :=
  let old := ((l.find? fun e => e.line = line).map GEntry.bytes).getD []
  let bytes := (narrowBytes off data).foldl (fun m b => kinsert m b.1 b.2) old
  (l.filter fun e => e.line != line) ++ [⟨line, bytes, tag, now, false⟩]

/-- A narrow write to LPDDR5X (R288, R265): it enters the buffer of 64 entries; a complete line is written whole. An entry whose
timeout is over has left. -/
def lpWriteNarrow (s : State) (tag a q : Nat) (data : List Byte) : State :=
  let da := regionBase a + q
  let line := da / 128
  let (ch, _) := regionChan s a q
  let p := ch / 4
  let s := match (lpOf s p).gb.find? fun e => e.line = line && lapsed s e.time (gbTime s p) with
    | some e => lpRmw s p e
    | none => s
  let l := lpOf s p
  let has := l.gb.any fun e => e.line = line
  let s := if !has && 64 ≤ l.gb.length then
      match oldestEntry l.gb with
      | some e => lpRmw s p e
      | none => s
    else s
  let l := lpOf s p
  let gb := gatherInto l.gb line (da % 128) tag s.clock.now data
  let s := setLp s p { l with gb := gb }
  match gb.getLast? with
  | some e => if e.bytes.length = 128 then lpWriteLine s a (line * 128 - regionBase a) (e.bytes.map Prod.snd) else s
  | none => s

/-- Bytes written to LPDDR5X inside one line, whatever the host holds. -/
def lpPut (s : State) (tag a q : Nat) (data : List Byte) : State :=
  if data.length = 128 then lpWriteLine s a q data else lpWriteNarrow s tag a q data

/-- A line that the host may hold is back-invalidated (R330): it leaves the snoop filter, and writes that wait for it
land first. -/
def snoopOut (s : State) (line : Nat) : State :=
  let held := s.host.snoop.contains line
  let ws := s.host.bisnps.filter fun w => w.line = line
  let s := if held || !ws.isEmpty then s.setHost { s.host with
      snoop := s.host.snoop.filter (· != line), bisnps := s.host.bisnps.filter fun w => w.line != line } else s
  let s := if held && ws.isEmpty then count s (modPage 1) 0x810 1 else s
  foldList (fun w st =>
    match daKind w.da with
    | .lpddr a q => if w.data.isEmpty then st else lpPut st w.tag a q w.data
    | _ => st) ws s

/-- Bytes written to LPDDR5X by the device: the line is back-invalidated first; the answer comes in the same command
(log 21). -/
def lpDeviceWrite (s : State) (tag a q : Nat) (data : List Byte) : State :=
  lpPut (snoopOut s ((regionBase a + q) / 128)) tag a q data

/-! Bonded memory. -/

/-- A slice controller, and the state with one replaced. -/
def sliceOf (s : State) (t n : Nat) : SliceSt := kget .reset s.store.slices (t * 32 + n)
def setSlice (s : State) (t n : Nat) (x : SliceSt) : State :=
  s.setStore { s.store with slices := kput .reset s.store.slices (t * 32 + n) x }

/-- Operation of a read by SC_CUROP0 (R20, R280): 1 over the private bonds, 2 over the fabric. -/
def readOp (bond : Bool) : Nat := if bond then 1 else 2

/-- Current-operation words of a slice operation on the line at slice offset o (R280). -/
def scOp (op o tag : Nat) : List Nat := [op, o / 128 * 128, tag]

/-- A row-log entry field (R280). -/
def rlog (s : State) (t n i : Nat) : Nat := pget s (scPage t n) (0x100 + 8 * i)

/-- A failure of an operation logged by row (R271): kind 1 golden-corrected, 2 unbacked, 3 RMW poisoned. -/
def rowLog (s : State) (t n o op kind tag : Nat) : State :=
  let key := rowKey o
  let find := rowLogEntry s (scPage t n) o
  let free := (List.range 16).find? fun i => !bitOf (rlog s t n i) 0
  match find.or free with
  | none => raiseOp s (scPage t n) 7 (scOp op o tag)
  | some i =>
    let v := if find.isSome then rlog s t n i else 0
    let cnt := min 255 (fld v 31 24 + 1)
    let s := pset s (scPage t n) (0x100 + 8 * i) (1 + max kind (fld v 2 1) * 2 + key + cnt * 2 ^ 24)
    let s := pset s (scPage t n) (0x104 + 8 * i) (s.clock.now / 2 ^ 10)
    let thr := max 1 (fld (pget s (scPage t n) 0x084) 3 0)
    if cnt = thr then raiseOp s (scPage t n) 6 (scOp op o tag) else s

/-- The golden copy of the line at a bonded address, where a resident plan backs it (R153). -/
def goldenOf (s : State) (da : Nat) : Option Nat :=
  (s.store.golden.find? fun g => g.lo ≤ da && da < g.lo + g.len).map fun g => g.copy + (da - g.lo)

/-- An access to the unmapped tail of an LPDDR5X region (R307, source 9). -/
def lpTail (s : State) (a tag : Nat) : State := raiseTag s (lpPage (4 * a)) 9 tag

/-- A golden copy read by R289 for slice controller Tt.Sn, over the fabric; a fenced region, an address outside the addressable
part or a lost flit fails the fetch. -/
def goldenLine (s : State) (tag t n g : Nat) : (List Byte × ASt) × State :=
  let (ok, s) := carry s ⟨.slice t n, tag⟩ (daLoc g) 1
  match daKind g with
  | .lpddr a q =>
    if !ok || regionFenced s a then ((zeroLine, .poison), s)
    else if regionTop s a ≤ q then ((zeroLine, .error), lpTail s a tag)
    else lpReadLine s 1 tag a q plainRead
  | _ => ((zeroLine, .error), s)

/-- The golden copy of a bad line fetched and delivered, or its failure (R268, steps 2 and 3). -/
def goldenStep (s : State) (tag t n o g : Nat) : (List Byte × ASt) × State :=
  let pg := scPage t n
  let ((d, st), s) := goldenLine s tag t n g
  if st = .ok then
    let s := count s pg 0x828 1
    ((d, .ok), raiseOp (rowLog s t n o 7 1 tag) pg 1 (scOp 7 o tag))
  else
    let s := count s pg 0x830 1
    ((zeroLine, .poison), raiseOp (rowLog s t n o 7 2 tag) pg 3 (scOp 7 o tag))

/-- A line that is still bad after its re-read (R268, steps 2 and 3). -/
def badLine (s : State) (bond : Bool) (tag t n o : Nat) : (List Byte × ASt) × State :=
  match goldenOf s (sliceBase t n + o) with
  | some g => goldenStep s tag t n o g
  | none =>
    let s := count s (scPage t n) 0x830 1
    ((zeroLine, .poison), raiseOp (rowLog s t n o (readOp bond) 2 tag) (scPage t n) 2 (scOp (readOp bond) o tag))

/-- A merge-buffer entry written out by read-modify-write, and freed (R266, R267). -/
def sliceRmw (s : State) (t n : Nat) (e : GEntry) : State :=
  let x := sliceOf s t n
  let s := touchHalf (setSlice s t n { x with mb := x.mb.filter fun y => y.line != e.line }) t (sliceHalf n)
  let da := e.line * 128
  let o := da - sliceBase t n
  let pg := scPage t n
  let s := count (count s pg 0x818 1) pg 0x808 1
  if s.mem.lineGood da then putLine s da (mergeBytes (readBytes s da 128) e.bytes) true
  else
    let raw := readBytes s da 128
    let poisoned (s : State) : State :=
      let s := putLine s da (mergeBytes raw e.bytes) false
      raiseOp (rowLog s t n o 5 3 e.tag) pg 4 (scOp 5 o e.tag)
    match goldenOf s da with
    | some g =>
      let ((d, st), s) := goldenLine s e.tag t n g
      if st = .ok then
        let s := raiseOp (rowLog (count s pg 0x828 1) t n o 5 1 e.tag) pg 1 (scOp 7 o e.tag)
        putLine s da (mergeBytes d e.bytes) true
      else poisoned (raiseOp (count s pg 0x830 1) pg 3 (scOp 7 o e.tag))
    | none => poisoned s

/-- A merge-buffer entry with a parity error leaves: its line is written with a poison check word (R282). -/
def sliceParity (s : State) (t n : Nat) (e : GEntry) : State :=
  let x := sliceOf s t n
  let s := touchHalf (setSlice s t n { x with mb := x.mb.filter fun y => y.line != e.line }) t (sliceHalf n)
  let da := e.line * 128
  let pg := scPage t n
  let s := count (count s pg 0x818 1) pg 0x808 1
  raiseOp (putLine s da (mergeBytes (readBytes s da 128) e.bytes) false) pg 5 (scOp 5 (da - sliceBase t n) e.tag)

/-- The entry of a line leaves by RMW, where there is one (R266). -/
def sliceFlush (s : State) (t n line : Nat) : State :=
  match (sliceOf s t n).mb.find? fun e => e.line = line with
  | some e => sliceRmw s t n e
  | none => s

/-- Every entry of a slice leaves by RMW. -/
def sliceFlushAll (s : State) (t n : Nat) : State := foldList (fun e st => sliceRmw st t n e) (sliceOf s t n).mb s

/-- The entries of one layer and bank leave by RMW: a near-bank unit is granted a row of the bank (R266). -/
def sliceFlushBank (s : State) (t n l b : Nat) : State :=
  foldList (fun e st => sliceRmw st t n e)
    ((sliceOf s t n).mb.filter fun e =>
      let o := e.line * 128 - sliceBase t n
      offLayer o = l && offBank o = b) s

/-- A bonded line read by an agent, over the private bonds or the fabric, whole with its checks (R268). -/
def sliceReadLine (s : State) (bond : Bool) (tag t n o : Nat) : (List Byte × ASt) × State :=
  let o := o / 128 * 128
  let da := sliceBase t n + o
  let s := sliceFlush s t n (da / 128)
  let s := count s (scPage t n) 0x800 1
  if s.mem.lineGood da then ((readBytes s da 128, .ok), s) else badLine s bond tag t n o

/-- A whole bonded line written (R260, R266). -/
def sliceWriteLine (s : State) (t n o : Nat) (data : List Byte) : State :=
  let da := sliceBase t n + o / 128 * 128
  let x := sliceOf s t n
  let s := setSlice s t n { x with mb := x.mb.filter fun e => e.line != da / 128 }
  putLine (count s (scPage t n) 0x808 1) da data true

/-- A narrow write to bonded memory (R265, R266). An entry whose timeout is over, or which is in RMW, leaves first. -/
def sliceWriteNarrow (s : State) (tag t n o : Nat) (data : List Byte) : State :=
  let da := sliceBase t n + o
  let line := da / 128
  let s := match (sliceOf s t n).mb.find? fun e => e.line = line && (e.rmw || lapsed s e.time (mbTime s t n)) with
    | some e => sliceRmw s t n e
    | none => s
  let x := sliceOf s t n
  let has := x.mb.any fun e => e.line = line
  let s := if !has && 32 ≤ x.mb.length then
      match oldestEntry x.mb with
      | some e => sliceRmw s t n e
      | none => s
    else s
  let x := sliceOf s t n
  let mb := gatherInto x.mb line (da % 128) tag s.clock.now data
  let s := setSlice s t n { x with mb := mb }
  match mb.getLast? with
  | some e =>
    if e.bytes.length = 128 then
      sliceWriteLine (count s (scPage t n) 0x810 1) t n (line * 128 - sliceBase t n) (e.bytes.map Prod.snd)
    else s
  | none => s

/-- A slice controller that starts again after its bonds are trained: a group whose counter reached 16 is switched to a
repair bond, of which it has two (R273), and refresh starts at a fresh epoch (R274). -/
def trainedSlice (s : State) (t n : Nat) : State :=
  let x := sliceOf s t n
  let bad := x.bonds.filter fun g => 16 ≤ g.2 && kget 0 x.repairs g.1 < 2
  setSlice s t n { SliceSt.reset with
    epoch := s.clock.now
    bonds := x.bonds.filter fun g => !bad.contains g
    repairs := bad.foldl (fun m g => kinsert m g.1 (kget 0 m g.1 + 1)) x.repairs }

/-! Shared buffer. -/

/-- A persistent parity error of a shared-buffer word (R298, step 2): SB_PAR_UNC and SB_PAR_LAST. -/
def sbBad (s : State) (a o op tag : Nat) : State :=
  let pg := sbPage a
  let s := pset s pg 0x080 (o / 4 * 4 + 2 ^ 31)
  raiseOp s pg 1 [op, o, tag]

/-- n bytes of a shared buffer read for an operation (R308: 1 a read, 4 an adder's), inside one line (R297, R298). A bad word reads
as zeros with poison (log 14), and SB_PAR_LAST keeps the last one. -/
def sbRead (s : State) (op tag a o n : Nat) : (List Byte × ASt) × State :=
  let da := sbBase a + o
  let s := count s (sbPage a) 0x800 1
  if s.mem.parityBad da n then
    let bytes := (List.range n).map fun i => if s.mem.parityBad (da + i) 1 then 0#8 else s.mem.readByte (da + i)
    let w := (((List.range n).filter fun i => s.mem.parityBad (da + i) 1).getLast?).getD 0
    ((bytes, .poison), sbBad s a (o + w) op tag)
  else ((readBytes s da n, .ok), s)

/-- Bytes written to a shared buffer, inside one line (R298): a word covered whole becomes good; a bad word covered in
part stays bad, with SB_PAR_UNC. -/
def sbWrite (s : State) (tag a o : Nat) (data : List Byte) : State :=
  let da := sbBase a + o
  let n := data.length
  let s := count s (sbPage a) 0x808 1
  let lo := divUp da 4 * 4
  let hi := (da + n) / 4 * 4
  let head := da % 4 != 0 && s.mem.parityBad da 1
  let tail := (da + n) % 4 != 0 && da / 4 != (da + n) / 4 && s.mem.parityBad (da + n - 1) 1
  let headTail := da % 4 = 0 && da / 4 = (da + n) / 4 && 0 < n && s.mem.parityBad da 1
  let m := s.mem.writeBytes da data
  let s := s.setMem (if lo < hi then m.setParity lo (hi - lo) false else m)
  let s := if head || headTail then sbBad s a o 2 tag else s
  if tail then sbBad s a (o + n - 1) 2 tag else s

end Sys2Proof.Machine
end

