-- ==== Sys2Proof/Machine/Access.lean ====
section
/-!
DEFINITION. Accesses of an agent by device address and by tile-local address (R25 to R32, R99): every access is served
line by line, in ascending address.
-/

namespace Sys2Proof.Machine

open Sys2Proof

/-- The worse of two statuses. -/
def ASt.worse : ASt → ASt → ASt
  | .error, _ => .error
  | _, .error => .error
  | .poison, _ => .poison
  | _, .poison => .poison
  | _, _ => .ok

/-- The address-error source of a requester (R32, R333): a participant's, or the host's for a read or for a write, with the Completer
Abort that a posted write leaves for AER; no other requester has one. -/
def reqAddrErr (s : State) (who : Leaf) (write : Bool) : State :=
  match who with
  | .part t p => addrErr s t p
  | .host =>
    if write then
      let s := raiseTag s (modPage 1) 0 0
      s.setHost { s.host with aborts := s.host.aborts + 1 }
    else raiseTag s (modPage 1) 1 0
  | _ => s

/-- What a requester's write leaves on its own page: its address-error source where the write met no address or a held range (R32,
R153). -/
def reqWrite (who : Leaf) (x : ASt × State) : State := if x.1 = .error then reqAddrErr x.2 who true else x.2

/-! Result lines of replays (R442, R443). -/

/-- The state with a group replaced, by its tag. -/
def setGroup (s : State) (x : StepGroup) : State :=
  s.setSched { s.sched with groups := s.sched.groups.map fun y => if y.tag = x.tag then x else y }

/-- The running group of the work of a requester; the host and Vexondane work for no group. -/
def workGroup (s : State) (q : Req) : Option StepGroup :=
  if q.who = .host || q.who = .vexondane then none
  else s.sched.groups.find? fun g => g.tag = tagBase q.tag && g.fate = .running

/-- Whether a physical position of a tile is hidden: by the fuse map or by the REPAIR_MAP (R22, R470). -/
def posHidden (s : State) (t : Nat) (vc : Bool) (pos : Nat) : Bool := s.svc.hidden.contains (t, vc, pos)

/-- Good positions of the matrix cores of a half, ascending: 16 are exposed, and a seventeenth is the spare (R22, R23). -/
def mcPool (s : State) (t h : Nat) : List Nat :=
  ((List.range 17).map (17 * h + ·)).filter fun x => !posHidden s t false x

/-- Good positions of the vector cores of the halves, and whether the seam position 4 serves one of them: the west half
first where both lack a core (R22; log 6). -/
def vcPool (s : State) (t : Nat) : List Nat × List Nat × Bool :=
  let w := [0, 1, 2, 3].filter fun x => !posHidden s t true x
  let e := [5, 6, 7, 8].filter fun x => !posHidden s t true x
  if posHidden s t true 4 then (w, e, true)
  else if w.length < 4 then (w ++ [4], e, true)
  else if e.length < 4 then (w, 4 :: e, true)
  else (w, e, false)

/-- Physical position of a logical core: ascending within its half, without the hidden ones (R23). -/
def physPos (s : State) (t p : Nat) : Nat :=
  if p < 16 then (mcPool s t 0).getD p 0xFF
  else if p < 32 then (mcPool s t 1).getD (p - 16) 0xFF
  else if p < 36 then (vcPool s t).1.getD (p - 32) 0xFF
  else (vcPool s t).2.1.getD (p - 36) 0xFF

/-- Whether a core is exposed (R22, R23): its half has that many good positions. -/
def exposed (s : State) (t p : Nat) : Bool := p < 40 && physPos s t p != 0xFF

/-- UNIT_PHY of a participant of a tile (R437). -/
def unitPhy (t pos : Nat) : Nat := t + pos * 2 ^ 8

/-- The replay of a group that a requester's lines belong to: the re-run, where one runs, else the replay on the requester's hardware
or of its own piece, else, for a chain port, the replay by the chain peer, else the first piece replay. DEDUCED (log 98). -/
def replayOf (s : State) (g : StepGroup) (who : Leaf) : Option Replay :=
  let own (r : Replay) : Bool := match who, r.unit with
    | .part t p, some k => k / 32 = ptPage t p || r.hw = unitPhy t (physPos s t p)
    | .port _, some _ => r.hw = unitPhy 0x80 0xFF
    | _, _ => false
  ((g.replays.find? fun r => r.unit.isNone).or (g.replays.find? own)).or g.replays.head?

/-- A result line noted: one more of the first run, or compared for its replay; a write that differs and belongs to no replay here
marks the part for re-run (R443). The flag says whether the line is withheld: a piece replay writes none (R442). -/
def noteLine (s : State) (q : Req) (differs : Bool) : Bool × State :=
  match workGroup s q, q.who with
  | none, _ => (false, s)
  | some g, who =>
    if bitOf q.tag 7 then
      match replayOf s g who with
      | none => (false, setGroup s { g with needRerun := g.needRerun || differs })
      | some r =>
        let r' := { r with differ := r.differ || differs, lines := r.lines + 1 }
        (r.unit.isSome, setGroup s { g with replays := g.replays.map fun x => if x = r then r' else x })
    else
      match who with
      | .part t p => (false, setGroup s { g with wrote := kput 0 g.wrote (coreId t p) (kget 0 g.wrote (coreId t p) + 1) })
      | _ => (false, s)

/-- Bytes in place at a device address, inside one line, with those that wait in a merge or gather buffer. -/
def inPlace (s : State) (da n : Nat) : List Byte :=
  let waiting (l : List GEntry) : KMap Byte := ((l.find? fun e => e.line = da / 128).map GEntry.bytes).getD []
  let bytes := match daKind da with
    | .bonded t m _ => waiting (sliceOf s t m).mb
    | .lpddr a o => waiting (lpOf s ((regionChan s a o).1 / 4)).gb
    | _ => []
  ((mergeBytes (readBytes s (da / 128 * 128) 128) bytes).drop (da % 128)).take n

/-- The piece of a chain peer's requester that a participant runs here (R369). -/
def peerPiece (s : State) (q : Req) : Option PeerReplay :=
  match q.who with
  | .part t p => if bitOf q.tag 7 then s.chain.peers.find? fun x => x.part = coreId t p && tagBase x.tag = tagBase q.tag else none
  | _ => none

/-- A result line of a requester written by a target that it reached, or withheld (R442); one of a piece that a chain peer runs is kept
for the requester's module (R369). -/
def putResult (s : State) (q : Req) (da : Nat) (data : List Byte) (put : State → State) : ASt × State :=
  match peerPiece s q with
  | some x =>
    (.ok, s.setChain { s.chain with peers := s.chain.peers.map fun y => if y = x then { y with lines := y.lines ++ [(da, data)] } else y })
  | none =>
    let (withheld, s) := noteLine s q (inPlace s da data.length != data)
    (.ok, if withheld then s else put s)

/-- n bytes read at a device address, inside one line, for a requester (R20, R25, R32, R313). -/
def chunkRead (s : State) (q : Req) (da n : Nat) : (List Byte × ASt) × State :=
  let zeros := List.replicate n 0#8
  match daKind da with
  | .bonded t m o =>
    let (up, s) := sliceReach s q t m
    if !up then ((zeros, .poison), s)
    else
      let ((d, st), s) := sliceReadLine s (overBonds q.who t m) q.tag t m o
      (((d.drop (o % 128)).take n, st), s)
  | .lpddr a o =>
    if regionFenced s a then ((zeros, .poison), s)
    else if regionTop s a ≤ o then ((zeros, .error), lpTail s a q.tag)
    else
      let (up, s) := carry s q (daLoc da) 1
      if !up then ((zeros, .poison), s)
      else
        let ((d, st), s) := lpReadLine s 1 q.tag a o plainRead
        (((d.drop (o % 128)).take n, st), s)
  | .shared a o =>
    let (up, s) := if baseUp s a then carry s q (daLoc da) 1 else (false, s)
    if up then sbRead s 1 q.tag a o n else ((zeros, .poison), s)
  | .register _ => ((zeros, .error), s)
  | .unmapped => ((zeros, .error), s)

/-- Bytes written at a device address, inside one line, no byte of them held. -/
def chunkPut (s : State) (q : Req) (da : Nat) (data : List Byte) : ASt × State :=
  match daKind da with
  | .bonded t m o =>
    let (up, s) := sliceReach s q t m
    if !up then (.poison, s)
    else putResult s q da data fun s =>
      if data.length = 128 then sliceWriteLine s t m o data else sliceWriteNarrow s q.tag t m o data
  | .lpddr a o =>
    if regionFenced s a then (.poison, s)
    else if regionTop s a ≤ o then (.error, lpTail s a q.tag)
    else
      let (up, s) := carry s q (daLoc da) 1
      if up then putResult s q da data fun s => lpDeviceWrite s q.tag a o data else (.poison, s)
  | .shared a o =>
    let (up, s) := if baseUp s a then carry s q (daLoc da) 1 else (false, s)
    if up then putResult s q da data fun s => sbWrite s q.tag a o data else (.poison, s)
  | .register _ => (.error, s)
  | .unmapped => (.error, s)

/-- Single bytes written one after the other; the bytes in held ranges are discarded (R98, R153). -/
def putUnheld (s : State) (q : Req) : Nat → List Byte → ASt × State
  | _, [] => (.error, s)
  | da, b :: l =>
    if inRanges s.store.held da then putUnheld s q (da + 1) l
    else putUnheld (chunkPut s q da [b]).2 q (da + 1) l

/-- Bytes written at a device address, inside one line; a write that meets a held range is an error (R153). -/
def chunkWrite (s : State) (q : Req) (da : Nat) (data : List Byte) : ASt × State :=
  if (List.range data.length).any fun i => inRanges s.store.held (da + i) then putUnheld s q da data
  else chunkPut s q da data

/-- A range read piece by piece. -/
def readPieces (rd : State → Nat → Nat → (List Byte × ASt) × State) :
    List (Nat × Nat) → State → (List Byte × ASt) × State
  | [], s => (([], .ok), s)
  | (a, n) :: l, s =>
    let ((d, st), s) := rd s a n
    let ((ds, st'), s) := readPieces rd l s
    ((d ++ ds, st.worse st'), s)

/-- A range written piece by piece. -/
def writePieces (wr : State → Nat → List Byte → ASt × State) :
    List (Nat × Nat) → List Byte → State → ASt × State
  | [], _, s => (.ok, s)
  | (a, n) :: l, d, s =>
    let (st, s) := wr s a (d.take n)
    let (st', s) := writePieces wr l (d.drop n) s
    (st.worse st', s)

/-- n bytes read at a device address (R25). -/
def daRead (s : State) (q : Req) (a n : Nat) : (List Byte × ASt) × State :=
  readPieces (fun s a n => chunkRead s q a n) (pieces a n) s

/-- Bytes written at a device address. -/
def daWrite (s : State) (q : Req) (a : Nat) (data : List Byte) : ASt × State :=
  writePieces (fun s a d => chunkWrite s q a d) (pieces a data.length) data s

/-- Where a tile-local address stands (R8, R99). -/
def tlaLoc (t a : Nat) : Loc := ⟨tileDie t, some t, tlaHalf a⟩

/-- Whether a requester reaches a tile-local address, after its half wakes (R313, R317). -/
def tlaReach (s : State) (q : Req) (t a : Nat) : Bool × State :=
  let (up, s) := match tlaHalf a with
    | some h => reachHalf s t h q.tag
    | none => (tileUp s t, s)
  if up then carry s q (tlaLoc t a) 1 else (false, s)

/-- n bytes read at a tile-local address, inside one line. -/
def tlaChunkRead (s : State) (q : Req) (t a n : Nat) : (List Byte × ASt) × State :=
  if !tlaMapped a then ((List.replicate n 0#8, .error), s)
  else
    let (up, s) := tlaReach s q t a
    if up then ((readBytes s (tlaKey t a) n, .ok), s) else ((List.replicate n 0#8, .poison), s)

/-- Whether a write to a tile-local address belongs to a piece replay and does not go to the requester's own store: it is discarded
(R442). -/
def tlaWithheld (s : State) (q : Req) (t a : Nat) : Bool :=
  bitOf q.tag 7 && (match q.who, tlaStore a with | .part u p, some r => u != t || p != r | .part _ _, none => true | _, _ => false) &&
    ((peerPiece s q).isSome || match workGroup s q with
      | some g => (replayOf s g q.who).any fun r => r.unit.isSome
      | none => false)

/-- Bytes written at a tile-local address, inside one line. -/
def tlaChunkWrite (s : State) (q : Req) (t a : Nat) (data : List Byte) : ASt × State :=
  if !tlaMapped a then (.error, s)
  else
    let (up, s) := tlaReach s q t a
    if !up then (.poison, s)
    else if tlaWithheld s q t a then (.ok, s)
    else match tlaStore a with
      | some p => (.ok, storePut s t p (a - storeTla p) data false)
      | none => (.ok, writeBytes s (tlaKey t a) data)

/-- n bytes read at a tile-local address. -/
def tlaRead (s : State) (q : Req) (t a n : Nat) : (List Byte × ASt) × State :=
  readPieces (fun s a n => tlaChunkRead s q t a n) (pieces a n) s

/-- Bytes written at a tile-local address. -/
def tlaWrite (s : State) (q : Req) (t a : Nat) (data : List Byte) : ASt × State :=
  writePieces (fun s a d => tlaChunkWrite s q t a d) (pieces a data.length) data s

/-! Zeros written by Tongs (R152, R264). -/

/-- The part of a range in one bonded slice written with zero lines whose check words are right, by the Tongs of its base die; a
gathering entry that it covers is discarded (R264, R266). The flag says whether the part is written. -/
def fillSlice (s : State) (da n i : Nat) : Bool × State :=
  let t := i / 32
  let m := i % 32
  let lo := max da (sliceBase t m)
  let hi := min (da + n) (sliceBase t m + sliceBytes)
  if hi ≤ lo then (true, s)
  else
    let (up, s) := sliceReach s (tongsReq t 0) t m
    if !up then (false, s)
    else
      let x := sliceOf s t m
      let s := setSlice s t m { x with mb := x.mb.filter fun e => e.line < lo / 128 || hi / 128 ≤ e.line }
      let k := (hi - lo) / 128
      let s := count (count s (scPage t m) 0x808 k) (scPage t m) 0x850 k
      (true, s.setMem ((s.mem.zeroRange lo (hi - lo)).markGood lo (hi - lo)))

/-- Whole zero lines written by the Tongs of a base die from a device address on, or to a tile from a tile-local address on. -/
def zeroLines (s : State) (a n : Nat) (tile : Option Nat) : State :=
  foldList (fun k st =>
    match tile with
    | some t => (tlaWrite st (tongsReq t 0) t (a + 128 * k) zeroLine).2
    | none => (daWrite st (tongsReq (3 * (daLoc a).die) 0) (a + 128 * k) zeroLine).2) (List.range (n / 128)) s

/-- Zeros written to a FILL region by the method of its KIND (R152): a bonded region lies within one slice. -/
def fillRegion (s : State) (r : Region) : State :=
  if !r.fill then s
  else if r.kind = 1 then (fillSlice s r.addr r.len (r.addr / sliceBytes)).2
  else zeroLines s r.addr r.len (if r.kind = 4 then some r.tile else none)

/-- The bytes that a transfer of a requester would read now from its remote range, without the effects of the read. -/
def peekRemote (s : State) (q : Req) (t : Nat) (x : Xfer) (off n : Nat) : List Byte :=
  (if x.tla then tlaRead s q t (x.remote + off) n else daRead s q (x.remote + off) n).1.1

/-- The outstanding transfers of a tile's participants that write a range of tile-local addresses, each with the key of its
participant and the address that its range begins at (R98, R100). -/
def tlaWriters (s : State) (t a n : Nat) : List (Nat × Xfer × Nat) :=
  (kslice s.cores (coreId t 0) (coreId (t + 1) 0)).flatMap fun c =>
    c.2.xfers.filterMap fun x =>
      let dst := if x.toRemote then x.remote else storeTla (c.1 % 41) + x.loc
      if !x.landed && (!x.toRemote || x.tla) && dst < a + n && a < dst + x.len then some (c.1, x, dst) else none

/-- What a transfer that writes tile-local addresses leaves in the n bytes at an offset of its range. -/
def xferValue (s : State) (t c : Nat) (x : Xfer) (off n : Nat) : List Byte :=
  if x.toRemote then readBytes s (storeKey t (c % 41) (x.loc + off)) n
  else peekRemote s ⟨.part t (c % 41), if c % 41 = 40 then 0 else (coreOf s c).tag.toNat⟩ t x off n

/-- One 8-byte word of the core's own store as a load sees it under the outstanding transfers that write it (R100): before or
after each, a free choice for each word. -/
def wordUnderXfer (s : State) (t p w : Nat) : List Byte × State :=
  (tlaWriters s t (storeTla p + w) 8).foldl (fun r y =>
    let (b, s) := drawBool r.2
    (if b then xferValue s t y.1 y.2.1 (storeTla p + w - y.2.2) 8 else r.1, s)) (readBytes s (storeKey t p w) 8, s)

/-- A load of n bytes (at most 8, aligned) from the core's own store (R97, R100). -/
def loadUnderXfer (s : State) (t p a n : Nat) : List Byte × State :=
  let (d, s) := wordUnderXfer s t p (a / 8 * 8)
  ((d.drop (a % 8)).take n, s)

/-- The words of [a, a + 8n) as a load sees them. -/
def wordsUnderXfer (s : State) (t p : Nat) : Nat → Nat → List Byte × State
  | _, 0 => ([], s)
  | a, n + 1 =>
    let (d, s) := wordUnderXfer s t p a
    let (ds, s) := wordsUnderXfer s t p (a + 8) n
    (d ++ ds, s)

/-- A range of the core's own store as a load sees it (R100). -/
def loadRange (s : State) (t p a n : Nat) : List Byte × State :=
  if tlaWriters s t (storeTla p + a / 8 * 8) (divUp (a % 8 + n) 8 * 8) = [] then (readBytes s (storeKey t p a) n, s)
  else
    let (d, s) := wordsUnderXfer s t p (a / 8 * 8) (divUp (a % 8 + n) 8)
    ((d.drop (a % 8)).take n, s)

end Sys2Proof.Machine
end

