-- ==== Sys2Proof/Machine/SyncOps.lean ====
section
/-!
DEFINITION. The flag and barrier logic (R119 to R125), shared by core instructions, register writes, engines and chain
frames.
-/

namespace Sys2Proof.Machine

open Sys2Proof

/-- The value of a flag: a tile flag of tile t, or a module flag (R119, R120). -/
def flagVal (s : State) (module : Bool) (t num : Nat) : Bool :=
  if module then s.sync.mf.contains num else s.sync.tf.contains (t * 256 + num)

/-- Whether a waiter awaits a value of a flag. -/
def Waiter.awaits (w : Waiter) (module : Bool) (t num : Nat) (v : Bool) : Bool :=
  !w.barrier && w.module == module && w.num = num && w.value == v && (module || w.core / 41 = t)

/-- A list with a member, or without it. -/
def putMember (l : List Nat) (k : Nat) (v : Bool) : List Nat :=
  if v then (if l.contains k then l else k :: l) else l.filter (· != k)

/-- A flag set or cleared; every waiter that awaits the new value is granted, were it to change again at once
(R120). -/
def setFlag (s : State) (module : Bool) (t num : Nat) (v : Bool) : State :=
  let y := s.sync
  let ws := y.waiters.map fun w => if w.awaits module t num v then { w with ready := some 0 } else w
  if module then s.setSync { y with mf := putMember y.mf num v, waiters := ws }
  else s.setSync { y with tf := putMember y.tf (t * 256 + num) v, waiters := ws }

/-- The waiter entry of a participant, and the state without it or with a new one. The wait that a trap interrupted has an entry of
its own, which these leave alone (R129, log 12). -/
def Waiter.ofCore (w : Waiter) (c : Nat) : Bool := w.core = c && !w.saved

def waiterOf (s : State) (c : Nat) : Option Waiter := s.sync.waiters.find? fun w => w.ofCore c

def dropWaiter (s : State) (c : Nat) : State :=
  s.setSync { s.sync with waiters := s.sync.waiters.filter fun w => !w.ofCore c }

def addWaiter (s : State) (w : Waiter) : State :=
  let s := dropWaiter s w.core
  s.setSync { s.sync with waiters := s.sync.waiters ++ [w] }

/-- The waiter entry of a TCC put aside at a trap, or taken back at the return from it. -/
def saveWaiter (s : State) (c : Nat) (saved : Bool) : State :=
  s.setSync { s.sync with waiters := s.sync.waiters.map fun w => if w.core = c then { w with saved := saved } else w }

/-- Every waiter entry of a participant dropped. -/
def dropWaiters (s : State) (c : Nat) : State :=
  s.setSync { s.sync with waiters := s.sync.waiters.filter fun w => w.core != c }

/-- A barrier group of a tile, or of the module (R119), and the state with one replaced. -/
def barOf (s : State) (module : Bool) (t g : Nat) : BarGroup :=
  if module then kget .reset s.sync.mb g else kget .reset s.sync.tb (t * 16 + g)

def setBar (s : State) (module : Bool) (t g : Nat) (b : BarGroup) : State :=
  if module then s.setSync { s.sync with mb := kput .reset s.sync.mb g b }
  else s.setSync { s.sync with tb := kput .reset s.sync.tb (t * 16 + g) b }

/-- The participant that a member number of a group names: itself, or the TCC of a tile (R119). -/
def memberCore (module : Bool) (t m : Nat) : Nat := if module then coreId m 40 else coreId t m

/-- The member number of a participant in a group; none where it cannot be a member (R119). -/
def memberNum (module : Bool) (t p : Nat) : Option Nat :=
  if module then (if p = 40 then some t else none) else some p

/-- A granted wait of a participant ends: GD takes the status of a barrier wait, and the core goes on. -/
def finishWait (s : State) (c status : Nat) : State :=
  let k := coreOf s c
  let s := dropWaiter s c
  match k.wait with
  | some (.barrier _ _ rd) => endWait (setG s (c / 41) (c % 41) rd (BitVec.ofNat 64 status)) (c / 41) (c % 41)
  | some _ => endWait s (c / 41) (c % 41)
  | none => s

/-- The wait of a barrier waiter is over: released at once while it waits, else marked (R128, R129). -/
def grantBarrier (s : State) (w : Waiter) (status : Nat) : State :=
  if (coreOf s w.core).run = .waiting && !w.saved then finishWait s w.core status
  else
    let ws := s.sync.waiters.map fun x => if x.core = w.core && x.saved = w.saved then { x with ready := some status } else x
    s.setSync { s.sync with waiters := ws }

/-- Whether a waiter awaits a generation of a group: the current one, or the one after. -/
def Waiter.waitsFor (w : Waiter) (module : Bool) (t g : Nat) (next : Bool) : Bool :=
  w.barrier && w.module == module && w.num = g && w.value == next && w.ready.isNone &&
  (module || w.core / 41 = t)

/-- The members of a mask, at most 41. -/
def maskMembers (m : Nat) : List Nat := setBits m 41

/-- The current generation of a group ends with a status, 0 completed or 1 aborted (R121, R123, R124): the count
advances, arrivals clear, a held mask applies, held arrivals of members count for the new generation and those of
others are dropped, waiters are released. -/
def endGeneration (s : State) (module : Bool) (t g status : Nat) : State :=
  let b := barOf s module t g
  let members := b.pend.getD b.members
  let cur := s.sync.waiters.filter fun w => w.waitsFor module t g false
  let later := s.sync.waiters.filter fun w => w.waitsFor module t g true
  let memberOf (w : Waiter) : Nat := if module then w.core / 41 else w.core % 41
  let waiting := cur.map memberOf
  let owe := (maskMembers b.arrived).filter fun m => !waiting.contains m && !bitOf b.held m
  let owed := owe.foldl (fun o m => kinsert o m status) b.owed
  let keep := b.held &&& members
  let s := setBar s module t g
    { members := members, arrived := keep, held := 0, gen := (b.gen + 1) % 2 ^ 16, pend := none, owed := owed }
  let turn (w : Waiter) : Waiter :=
    if Waiter.waitsFor w module t g true && bitOf keep (memberOf w) then { w with value := false } else w
  let s := s.setSync { s.sync with waiters := s.sync.waiters.map turn }
  let s := foldList (fun w st => grantBarrier st w status) cur s
  foldList (fun w st => if bitOf keep (memberOf w) then st else grantBarrier st w 2) later s

/-- An arrival of a member: counted, or held where it has arrived in this generation (R122). DESIGN CHOICE: R122 speaks of a second
arrival; a third in the same generation merges with the one that is held (log 86). -/
def arrive (s : State) (module : Bool) (t g m : Nat) : State :=
  let b := barOf s module t g
  let b := { b with owed := kerase b.owed m }
  if bitOf b.arrived m then setBar s module t g { b with held := setBitN b.held m true }
  else setBar s module t g { b with arrived := setBitN b.arrived m true }

/-- A member mask written: held while the current generation has an arrival (R124). DESIGN CHOICE: R124 releases a participant that
a held mask leaves out; one that waits in BARW without having arrived, when a mask that applies at once leaves it out, goes on
waiting (log 87). -/
def writeMembers (s : State) (module : Bool) (t g members : Nat) : State :=
  let b := barOf s module t g
  if b.arrived = 0 then setBar s module t g { b with members := members }
  else setBar s module t g { b with pend := some members }

/-- Whether every member of a group has arrived in the current generation, and it has members. -/
def allArrived (b : BarGroup) : Bool := b.members != 0 && b.members &&& b.arrived = b.members

end Sys2Proof.Machine
end

