-- ==== Sys2Proof/Machine/Transfer.lean ====
section
/-!
DEFINITION. Block transfers, flags and barriers of the cores (R97 to R100, R120 to R125).
-/

namespace Sys2Proof.Machine

open Sys2Proof

/-- Whether the requests of two transfers of one core meet on a line of the remote side (R314). -/
def Xfer.meets (x y : Xfer) : Bool := x.tla == y.tla && x.remote < y.remote + y.len && y.remote < x.remote + x.len

/-- The tile and half of each line of a transfer's remote range that lies in a half. -/
def Xfer.lineHalves (x : Xfer) (t : Nat) : List (Nat × Nat) :=
  (List.range (x.len / 128)).filterMap fun k =>
    let a := x.remote + 128 * k
    if x.tla then (if tlaMapped a then (tlaHalf a).map fun h => (t, h) else none)
    else match daKind a with
      | .bonded u m _ => some (u, sliceHalf m)
      | _ => none

/-- The halves that a transfer targets. -/
def Xfer.halves (x : Xfer) (t : Nat) : List (Nat × Nat) := (x.lineHalves t).eraseDups

/-- The step tag of a participant's requests. -/
def partReq (s : State) (t p : Nat) : Req := ⟨.part t p, if p = 40 then 0 else (coreOf s (coreId t p)).tag.toNat⟩

/-- XFER (R98): it issues while fewer than four are outstanding, and its requests leave; the copy happens at its completion. DESIGN
CHOICE: a transfer of length 0 whose local address lies outside the store is illegal like any other (log 88). -/
def execXfer (t : Fin 12) (p : Fin 41) (f : SFields) (s : State) : Out :=
  .next (issueWhen s (.xfer t p f) t p 0x28 ((coreOf s (cid t p)).xfers.length < 4) fun s =>
      let len := (getG s t p f.gb.toNat).toNat / 128 * 128
      let loc := (getG s t p f.gd.toNat).toNat / 128 * 128
      let remote := (getG s t p f.ga.toNat).toNat / 128 * 128
      if inStore p loc len then
        let x : Xfer := ⟨f.flags.getLsbD 0, f.flags.getLsbD 2, remote, loc, len,
          if f.flags.getLsbD 1 then some (f.imm.toNat % 256) else none, false⟩
        let k := coreOf s (cid t p)
        let s := nextPc (setCore s (cid t p) { k with xfers := k.xfers ++ [x] }) t p
        let lines := x.lineHalves t
        foldList (fun h st => seamRequest st (partReq st t p) h.1 h.2 (lines.count h)) (x.halves t) s
      else illegal s t p)

/-- The copy of a transfer, line by line (R98). -/
def xferCopy (s : State) (t p : Nat) (x : Xfer) : ASt × State :=
  let q := partReq s t p
  if x.toRemote then
    let d := readBytes s (storeKey t p x.loc) x.len
    if x.tla then tlaWrite s q t x.remote d else daWrite s q x.remote d
  else
    let ((d, st), s) := if x.tla then tlaRead s q t x.remote x.len else daRead s q x.remote x.len
    (st, storeWrite s t p x.loc d false)

/-- A transfer takes effect, with ADDR_ERR where part of its remote range is not there (R98). -/
def xferLand (s : State) (t p : Nat) (x : Xfer) : State :=
  if x.landed then s
  else
    let (st, s) := xferCopy s t p x
    if st = .error then addrErr s t p else s

/-- The transfers of a list that must take effect before the last of it, by index: those that meet it on a remote line, and those that
meet one of these (R314). -/
def landOrder (xs : List Xfer) : List Nat :=
  ((List.range (xs.length - 1)).foldr (fun n l =>
    if (xs[n]?).any fun y => l.any fun m => (xs[m]?).any y.meets then n :: l else l) [xs.length - 1]).dropLast

/-- The outstanding transfers of a core that an access of it must follow take effect, of the first n of them (R314). -/
def landBefore (s : State) (t p : Nat) (x : Xfer) (n : Nat) : State :=
  foldList (fun m st =>
    let k := coreOf st (coreId t p)
    match k.xfers[m]? with
    | some y =>
      if y.landed then st
      else
        let st := xferLand st t p y
        let k := coreOf st (coreId t p)
        setCore st (coreId t p) { k with xfers := k.xfers.set m { y with landed := true } }
    | none => st) (landOrder ((coreOf s (coreId t p)).xfers.take n ++ [x])) s

/-- An access of a TCC to a device address outside its instruction's own transfers: its earlier requests to the line take effect first
(R314). -/
def landLine (s : State) (t da : Nat) : State :=
  landBefore s t 40 ⟨true, false, da / 128 * 128, 0, 128, none, false⟩ (coreOf s (coreId t 40)).xfers.length

/-- Whether a range of tile-local addresses has a line of a core store that an MXA still reads, so that a write of it has not landed
(R67). -/
def tlaBusy (s : State) (t a n : Nat) : Bool :=
  (List.range 32).any fun c =>
    let lo := storeTla c
    a < lo + 0x200000 && lo < a + n &&
      (pieces a n).any fun x => lo ≤ x.1 && x.1 < lo + 0x200000 && (mcOf s t c).reads ((x.1 - lo) / 128)

/-- Whether a write to a range of tile-local addresses waits in a core store (R67). -/
def tlaWaits (s : State) (t a n : Nat) : Bool :=
  (List.range 32).any fun c => (mcOf s t c).heldW.any fun w =>
    storeTla c + w.off < a + n && a < storeTla c + w.off + w.data.length

/-- Whether a transfer cannot be complete yet: Quench holds a half that it runs in or targets (R420), or an MXA still reads a line
that it writes, so that its write would wait or waits (R67, R125). -/
def xferStuck (s : State) (t p : Nat) (x : Xfer) : Bool :=
  let a := if x.toRemote then x.remote else storeTla p + x.loc
  (s.quench.holding && 0 < x.len && ((ptHalf p).isSome || x.halves t != [])) ||
  ((!x.toRemote || x.tla) && if x.landed then tlaWaits s t a x.len else tlaBusy s t a x.len)

/-- XFER_COMPLETE (R98, R125): one outstanding transfer completes, after the earlier ones of the core that meet it have taken effect
(R314); one with FS sets its flag only after every earlier transfer and store of the core. -/
def execXferComplete (t : Fin 12) (p : Fin 41) (i : Fin 4) (s : State) : Out :=
  .next (match (coreOf s (cid t p)).xfers[i.val]? with
    | none => s
    | some x =>
      if (x.flag.isSome && (i.val != 0 || storeHeld s t p)) || xferStuck s t p x then s
      else
        let s := xferLand (landBefore s t p x i) t p x
        let k := coreOf s (cid t p)
        let s := setCore s (cid t p) { k with xfers := k.xfers.eraseIdx i.val }
        let s := touchHalves (touchPart s t p) (x.halves t)
        let s := if 32 ≤ p.val && p.val < 40 then count s (ptPage t p) 0x820 x.len else s
        match x.flag with
        | some n => setFlag s false t n true
        | none => s)

/-- The flag that an instruction names: none where a module flag number is above 63 (R97). -/
def flagNum (f : SFields) : Option Nat :=
  let n := f.imm.toNat % 256
  if f.flags.getLsbD 0 && 63 < n then none else some n

/-- An instruction issued as a release: it is held until every earlier load, store and XFER is complete (R125). -/
def issueRelease (s : State) (i : Instr) (t p op : Nat) (g : State → State) : State :=
  issueWhen s i t p op (settled s t p) g

/-- FSET and FCLR (R97, R120, R125). -/
def flagOp (i : Instr) (t : Fin 12) (p : Fin 41) (f : SFields) (op : Nat) (v : Bool) (s : State) : State :=
  issueRelease s i t p op fun s =>
    match flagNum f with
    | some n => nextPc (setFlag s (f.flags.getLsbD 0) t n v) t p
    | none => illegal s t p

def execFset (t : Fin 12) (p : Fin 41) (f : SFields) (s : State) : Out := .next (flagOp (.fset t p f) t p f 0x30 true s)
def execFclr (t : Fin 12) (p : Fin 41) (f : SFields) (s : State) : Out := .next (flagOp (.fclr t p f) t p f 0x31 false s)

/-- FWAIT (R97, R120): the core waits; a flag that already holds the value grants the wait. -/
def execFwait (t : Fin 12) (p : Fin 41) (f : SFields) (s : State) : Out :=
  .next (issue s t p 0x32 0 fun s =>
    match flagNum f with
    | some n =>
      let m := f.flags.getLsbD 0
      let v := f.flags.getLsbD 1
      let ready := if flagVal s m t n = v then some 0 else none
      addWaiter (enterWait s (cid t p) (.flag m n v)) ⟨cid t p, m, false, n, v, ready, false⟩
    | none => illegal s t p)

/-- FWAIT_RELEASE (R120): a granted flag wait ends. -/
def execFwaitRelease (t : Fin 12) (p : Fin 41) (s : State) : Out :=
  let k := coreOf s (cid t p)
  .next (match k.run, k.wait, waiterOf s (cid t p) with
    | .waiting, some (.flag _ _ _), some w => if w.ready.isSome then finishWait s (cid t p) 0 else s
    | _, _, _ => s)

/-- FTST (R97). -/
def execFtst (t : Fin 12) (p : Fin 41) (f : SFields) (s : State) : Out :=
  .next (issue s t p 0x33 0 fun s =>
    match flagNum f with
    | some n => nextPc (setG s t p f.gd.toNat (BitVec.ofNat 64 (b2n (flagVal s (f.flags.getLsbD 0) t n)))) t p
    | none => illegal s t p)

/-- The group and member number of a barrier instruction: none for a module group above 7 (R97); the member number is
none for a participant that is no member (R122). -/
def barTarget (s : State) (t p : Nat) (f : SFields) : Option (Nat × Option Nat) :=
  let m := f.flags.getLsbD 0
  let g := f.imm.toNat % 16
  if m && 7 < g then none
  else some (g, (memberNum m t p).filter fun n => bitOf (barOf s m t g).members n)

/-- The wait half of a barrier instruction by a member (R121): a generation it arrived in and that has ended is
returned at once. -/
def barWait (s : State) (t p : Nat) (f : SFields) (g m : Nat) : State :=
  let md := f.flags.getLsbD 0
  let b := barOf s md t g
  match kfind b.owed m with
  | some st =>
    nextPc (setG (setBar s md t g { b with owed := kerase b.owed m }) t p f.gd.toNat (BitVec.ofNat 64 st)) t p
  | none =>
    addWaiter (enterWait s (coreId t p) (.barrier md g f.gd.toNat)) ⟨coreId t p, md, true, g, bitOf b.held m, none, false⟩

/-- BARA (R121, R122, R125). -/
def execBara (t : Fin 12) (p : Fin 41) (f : SFields) (s : State) : Out :=
  .next (issueRelease s (.bara t p f) t p 0x34 fun s =>
    match barTarget s t p f with
    | some (g, some m) => nextPc (arrive s (f.flags.getLsbD 0) t g m) t p
    | _ => illegal s t p)

/-- BARW (R121, R122): a participant outside the mask gets status 2 and PROG_ERR. -/
def execBarw (t : Fin 12) (p : Fin 41) (f : SFields) (s : State) : Out :=
  .next (issue s t p 0x35 0 fun s =>
    match barTarget s t p f with
    | some (g, some m) => barWait s t p f g m
    | some (_, none) => nextPc (setG (progErr s t p) t p f.gd.toNat 2#64) t p
    | none => illegal s t p)

/-- BAR (R97): BARA followed by BARW. -/
def execBar (t : Fin 12) (p : Fin 41) (f : SFields) (s : State) : Out :=
  .next (issueRelease s (.bar t p f) t p 0x36 fun s =>
    match barTarget s t p f with
    | some (g, some m) => barWait (arrive s (f.flags.getLsbD 0) t g m) t p f g m
    | _ => illegal s t p)

/-- TF_SET, TF_CLR (R132) and MF_SET, MF_CLR (R133): register writes. -/
def tfSetWrite (t : Fin 12) (flag : BitVec 8) (s : State) : State :=
  blockWrite s (tilePage t 0) fun s => setFlag s false t flag.toNat true

def tfClrWrite (t : Fin 12) (flag : BitVec 8) (s : State) : State :=
  blockWrite s (tilePage t 0) fun s => setFlag s false t flag.toNat false

def mfSetWrite (flag : BitVec 6) (s : State) : State :=
  blockWrite s (basePage 0 0) fun s => setFlag s true 0 flag.toNat true

def mfClrWrite (flag : BitVec 6) (s : State) : State :=
  blockWrite s (basePage 0 0) fun s => setFlag s true 0 flag.toNat false

/-- TB_MEMBERS_WRITE (R124, R132): one half of the mask of 41 participants. -/
def tbMembersWrite (t : Fin 12) (g : Fin 16) (high : Bool) (v : BitVec 32) (s : State) : State :=
  let b := barOf s false t g
  let old := b.pend.getD b.members
  let new := if high then old % 2 ^ 32 + v.toNat % 2 ^ 9 * 2 ^ 32 else old / 2 ^ 32 * 2 ^ 32 + v.toNat
  blockWrite s (tilePage t 0) fun s => writeMembers s false t g new

/-- MB_MEMBERS_WRITE (R124, R133). -/
def mbMembersWrite (g : Fin 8) (v : BitVec 12) (s : State) : State :=
  blockWrite s (basePage 0 0) fun s => writeMembers s true 0 g v.toNat

/-- TB_ABORT (R123). -/
def tbAbortWrite (t : Fin 12) (g : Fin 16) (s : State) : State :=
  blockWrite s (tilePage t 0) fun s => endGeneration s false t g 1

end Sys2Proof.Machine
end

