-- ==== Sys2Proof/Machine/Units.lean ====
section
/-!
DEFINITION. Units, strikes and quarantine (R447, R455), tests in progress (R451), and physical positions (R22, R23).
-/

namespace Sys2Proof.Machine

open Sys2Proof

/-- The record of a unit, and the state with it replaced. -/
def unitOf (s : State) (t u : Nat) : UnitRec := kget .reset s.units (t * 512 + u)
def setUnit (s : State) (t u : Nat) (x : UnitRec) : State := s.setUnits (kput .reset s.units (t * 512 + u) x)

/-- The state of a tile's service changed (R483), with its time. -/
def setSvc (s : State) (t code : Nat) : State :=
  let pg := tilePage t 0
  let s := pset s pg 0x780 (setFld (pget s pg 0x780) 2 0 code)
  pset s pg 0x784 (s.clock.now / 2 ^ 20)

/-- The reason of a departure from service (R483). -/
def setSvcReason (s : State) (t r : Nat) : State :=
  pset s (tilePage t 0) 0x780 (setFld (pget s (tilePage t 0) 0x780) 15 8 r)

/-- A unit condemned: by its strikes, or by Temper (R447, R452). -/
def condemn (s : State) (t u : Nat) : State := setUnit s t u { unitOf s t u with condemned := true }

/-- A strike counted on a unit, which condemns it at the programmed number (R444, R447). -/
def strike (s : State) (t u : Nat) : State :=
  let r := unitOf s t u
  let n := min 15 (r.strikes + 1)
  let s := setUnit s t u { r with strikes := n }
  let s := raiseTag s (tilePage t 0) 2 0
  if max 1 (fld (pget s (tilePage t 0) 0x740) 3 0) ≤ n then condemn s t u else s

/-- A CSTART, descriptor or scan names a unit under test: the test is abandoned without a result (R451). -/
def abandonTest (s : State) (t u : Nat) : State :=
  match kfind s.tests t with
  | some x => if x.unit = u then s.setTests (kerase s.tests t) else s
  | none => s

/-- A participant started with a program (R116): the PC, G1 and the step tag; its half wakes, and a test of it ends. -/
def startProgram (s : State) (t p pc g1 tag : Nat) : State :=
  let k := coreOf s (coreId t p)
  let s := setCore s (coreId t p) { k with
    pc := pc, g := putReg k.epoch 0#64 k.g 1 (BitVec.ofNat 64 g1), run := .running, aborted := false, tag := BitVec.ofNat 32 tag
    wait := none, stopReq := false, opcode := 0, opmod := 0, held := none }
  let s := match ptHalf p with | some h => wakeHalf s t h | none => s
  abandonTest s t p

/-- Unit index of the NBU group of slice n, layer l (R455). -/
def nbUnit (l n : Nat) : Nat := 64 + 32 * l + n

/-- Exposed matrix and vector cores of a tile (R498). -/
def exposedMc (s : State) (t : Nat) : Nat := ((List.range 32).filter (exposed s t)).length
def exposedVc (s : State) (t : Nat) : Nat := ((List.range 8).filter fun n => exposed s t (32 + n)).length

/-- The configuration image in the current slot (R462). -/
def currentImage (s : State) : Option ConfigImage :=
  match s.svc.current with
  | some true => s.svc.flashB.map FlashSlot.image
  | some false => s.svc.flashA.map FlashSlot.image
  | none => none

/-- Number of a replay spare: a tile's matrix-core positions, then the vector core of its seam (R22, R441). -/
def spareId (t u pos : Nat) : Nat := t * 35 + if u < 32 then pos else 34

/-- Registers of a core at the start of a piece's replay: G1 as the first run had it, G2 to G15 zero (R442, item 2). -/
def replayCore (k : Core) (pc g1 tag : Nat) : Core :=
  let g := (List.range 14).foldl (fun g i => putReg k.epoch 0#64 g (i + 2) 0#64) k.g
  { k with
    pc := pc, g := putReg k.epoch 0#64 g 1 (BitVec.ofNat 64 g1), run := .running, aborted := false
    tag := BitVec.ofNat 32 (tag + 2 ^ 7), wait := none, stopReq := false, opcode := 0, opmod := 0, held := none }

/-- The piece of a core of a group started again, with the REPLAY bit (R442, R443): on a participant, or on a spare, by the position
that UNIT_PHY names. -/
def startReplay (s : State) (g : StepGroup) (t u pos : Nat) : State :=
  match kfind g.starts (coreId t u) with
  | none => s
  | some (pc, g1) =>
    let same := (if u < 32 then List.range 32 else (List.range 8).map (32 + ·)).find? fun c => physPos s t c = pos
    match same with
    | some c =>
      let s := setCore s (coreId t c) (replayCore (coreOf s (coreId t c)) pc g1 g.tag)
      let s := match ptHalf c with | some h => wakeHalf s t h | none => s
      abandonTest s t c
    | none => s.setSched { s.sched with spares := kinsert s.sched.spares (spareId t u pos) (replayCore .reset pc g1 g.tag) }

/-- The position on which the piece of a core runs in a re-run: its own, or that of the hardware substituted for it (R443). -/
def rerunPos (s : State) (g : StepGroup) (t u : Nat) : Nat :=
  match kfind g.subst (coreId t u) with
  | some phy => phy / 2 ^ 8 % 2 ^ 8
  | none => physPos s t u

/-- Whether the hardware at a position can start a piece: a participant there is IDLE (R116). -/
def posIdle (s : State) (t u pos : Nat) : Bool :=
  (if u < 32 then List.range 32 else (List.range 8).map (32 + ·)).all fun c =>
    physPos s t c != pos || decide ((coreOf s (coreId t c)).run = .idle)

/-- One piece of a group's re-run started, where its hardware is free (R443). -/
def rerunPiece (s : State) (tag c : Nat) : State :=
  match s.sched.groups.find? fun g => g.tag = tag with
  | none => s
  | some g =>
    let t := c / 41
    let u := c % 41
    if !posIdle s t u (rerunPos s g t u) then s
    else
      let s := startReplay s g t u (rerunPos s g t u)
      setGroup s { g with replays := g.replays.map fun r => { r with todo := r.todo.filter (· != c) } }

/-- The pieces of re-runs that have not started again, started where their hardware is free (R443). -/
def rerunPieces (s : State) : State :=
  let l := s.sched.groups.flatMap fun g => if g.fate = .running then g.replays.flatMap fun r => r.todo.map fun c => (g.tag, c) else []
  foldList (fun (x : Nat × Nat) st => rerunPiece st x.1 x.2) l s

/-- The slice whose stream a matrix core reads: that of the core whose piece it replays, over the tile fabric, else its own (R442,
item 3). -/
def streamSlice (s : State) (t n : Nat) (tag : Nat) : Nat :=
  let first (r : Replay) : Option Nat := match r.unit with
    | some k => match pagePlace (k / 32) with
      | .tile u i => if u = t && 2 ≤ i && i < 34 && r.hw = unitPhy t (physPos s t n) then some (i - 2) else none
      | _ => none
    | none => none
  match (if bitOf tag 7 then s.sched.groups.find? fun g => g.tag = tagBase tag else none) with
  | some g => (g.replays.findSome? first).getD n
  | none => n

end Sys2Proof.Machine
end

