-- ==== Sys2Proof/Machine/Array.lean ====
section
/-!
DEFINITION. The arithmetic of a matrix array: operand tiles, tree sums, banks, the checksum comparison and the readout
(R55 to R63, R68 to R80).
-/

namespace Sys2Proof.Machine

open Sys2Proof

/-- log2 of K per MXA (R57). -/
def mxaLogK (wfmt : Nat) (sparse : Bool) : Nat :=
  (match fmtClass wfmt with | 16 => 5 | 8 => 6 | _ => 7) + b2n sparse

def mxaK (wfmt : Nat) (sparse : Bool) : Nat := 2 ^ mxaLogK wfmt sparse

/-- Segments of a weight tile (R59): row bytes, offsets of IDX, SCALE and CK, and the total. -/
structure TileShape where
  rb : Nat
  idx : Nat
  scale : Nat
  ck : Nat
  total : Nat
  deriving DecidableEq, Repr

/-- The shape of a weight tile (R59). -/
def tileShape (wfmt : Nat) (sparse : Bool) : TileShape :=
  let k := mxaK wfmt sparse
  let rb := (if sparse then k / 2 else k) * fmtWidth wfmt / 8
  let idx := 256 * rb
  let scale := idx + (if sparse then 256 * (k / 8) else 0)
  let ck := scale + (if fmtMx wfmt then 256 * (k / 32) else 0)
  ⟨rb, idx, scale, ck, ck + 4 * k⟩

/-- Bytes of one column of an activation tile, and of the whole tile with its scales (R63). -/
def actColBytes (afmt k : Nat) : Nat := k * fmtWidth afmt / 8

def actBytes (afmt k : Nat) : Nat :=
  let d := 16 * actColBytes afmt k
  if fmtMx afmt then divUp d 128 * 128 + 16 * (k / 32) else d

/-- Element i of width w packed in a number (R36). -/
def packedElem (bits w i : Nat) : Nat := (bits >>> (w * i)) % 2 ^ w

/-- Elements packed into a number, element 0 lowest (R36). -/
def packElems (w : Nat) : List Nat → Nat
  | [] => 0
  | e :: l => e % 2 ^ w + 2 ^ w * packElems w l

/-- An operand element of a data cell: absent where pruned or in a malformed group (R60, R72). -/
structure Elem where
  raw : Nat
  scale : Nat
  deriving DecidableEq, Repr

/-- Whether an index code of a 2:4 group is legal (R60). -/
def idxLegal (c : Nat) : Bool := c % 4 < c / 4

/-- The weights of a row by logical position (R59 to R61, R72). -/
def weightRow (wfmt : Nat) (sparse : Bool) (tile : List Byte) (r : Nat) : List (Option Elem) :=
  let sh := tileShape wfmt sparse
  let k := mxaK wfmt sparse
  let w := fmtWidth wfmt
  let row := leNat ((tile.drop (r * sh.rb)).take sh.rb)
  let idx := leNat ((tile.drop (sh.idx + r * (k / 8))).take (k / 8))
  let sc (i : Nat) : Nat :=
    if fmtMx wfmt then (tile.getD (sh.scale + r * (k / 32) + i / 32) 0#8).toNat else 127
  (List.range k).map fun i =>
    if !sparse then some ⟨packedElem row w i, sc i⟩
    else
      let g := i / 4
      let c := packedElem idx 4 g
      if !idxLegal c then none
      else if c % 4 = i % 4 then some ⟨packedElem row w (2 * g), sc i⟩
      else if c / 4 = i % 4 then some ⟨packedElem row w (2 * g + 1), sc i⟩
      else none

/-- Malformed index groups of a row (R72). -/
def rowBadIdx (wfmt : Nat) (sparse : Bool) (tile : List Byte) (r : Nat) : Nat :=
  if !sparse then 0
  else
    let k := mxaK wfmt sparse
    let idx := leNat ((tile.drop ((tileShape wfmt sparse).idx + r * (k / 8))).take (k / 8))
    ((List.range (k / 4)).filter fun g => !idxLegal (packedElem idx 4 g)).length

/-- The activations of a column by logical position (R63). -/
def actCol (afmt k : Nat) (tile : List Byte) (j : Nat) : List Elem :=
  let cb := actColBytes afmt k
  let col := leNat ((tile.drop (j * cb)).take cb)
  let so := divUp (16 * cb) 128 * 128
  (List.range k).map fun i =>
    ⟨packedElem col (fmtWidth afmt) i,
      if fmtMx afmt then (tile.getD (so + j * (k / 32) + i / 32) 0#8).toNat else 127⟩

/-- Whether an element is a zero for gating: its encoding is zero, and its scale is no NaN (R73). -/
def Elem.zero (code : Nat) (e : Elem) : Bool :=
  e.scale != 0xFF && e.raw % 2 ^ (fmtWidth code - (if fmtGroup code = some .i8 || fmtGroup code = some .i4 then 0 else 1)) = 0

/-- Whether an element is finite (R73). -/
def Elem.finite (code : Nat) (e : Elem) : Bool :=
  match fmtGroup code with
  | some .i8 => true
  | some .i4 => true
  | _ => match elemVal code e.raw e.scale with | .fin _ _ _ => true | _ => false

/-- The product of a data cell (R39, R43). -/
def cellProduct (wfmt afmt : Nat) (int : Bool) (w : Option Elem) (a : Elem) : Word32 :=
  match w with
  | none => 0#32
  | some w =>
    if int then
      BitVec.ofInt 32 (sext (fmtWidth wfmt) w.raw * sext (fmtWidth afmt) a.raw)
    else f32Product (elemVal wfmt w.raw w.scale) (elemVal afmt a.raw a.scale)

/-- The tree sum of a bank kind (R41, R43). -/
def bankSum (int : Bool) (k : Nat) (l : List Word32) : Word32 :=
  treeSum (if int then (· + ·) else f32Add) k l

/-- Whether the accumulators of a format are INT32 (R38). -/
def fmtInt (c : Nat) : Bool := ((fmtGroup c).map FmtGroup.isInt).getD false

/-- The tree sums of the 4,096 data cells, row × 16 + column (R58). -/
def mxaData (o : MxaOp) : List Word32 :=
  let k := mxaK o.wfmt o.sparse
  let int := fmtInt o.wfmt
  let cols := (List.range 16).map (actCol o.afmt k o.act)
  (List.range 256).flatMap fun r =>
    let ws := weightRow o.wfmt o.sparse o.wgt r
    cols.map fun as => bankSum int (mxaLogK o.wfmt o.sparse) ((ws.zip as).map fun (w, a) => cellProduct o.wfmt o.afmt int w a)

/-- The products of the checksum row of a column, or their magnitudes, summed (R62). -/
def mxaCheck (o : MxaOp) (mag : Bool) : List Word32 :=
  let k := mxaK o.wfmt o.sparse
  let int := fmtInt o.wfmt
  let sh := tileShape o.wfmt o.sparse
  let cs := (List.range k).map fun i => BitVec.ofNat 32 (leNat ((o.wgt.drop (sh.ck + 4 * i)).take 4))
  (List.range 16).map fun j =>
    bankSum int (mxaLogK o.wfmt o.sparse) ((cs.zip (actCol o.afmt k o.act j)).map fun (c, a) =>
      if int then BitVec.ofInt 32 (c.toInt * sext (fmtWidth o.afmt) a.raw)
      else
        let p := f32Product (f32Val c) (elemVal o.afmt a.raw a.scale)
        if mag then f32Abs p else p)

/-- Slots gated by a zero weight and by a zero activation, over the data rows (R73, R74). DESIGN CHOICE: R74 does not place the
unused stored elements of a malformed group; the model gates none of them, and counts two of the group's positions as pruned
(log 89). -/
def mxaGated (o : MxaOp) : Nat × Nat :=
  let k := mxaK o.wfmt o.sparse
  let cols := (List.range 16).map (actCol o.afmt k o.act)
  (List.range 256).foldl (fun acc r =>
    let ws := weightRow o.wfmt o.sparse o.wgt r
    cols.foldl (fun acc as =>
      (ws.zip as).foldl (fun (x : Nat × Nat) (p : Option Elem × Elem) =>
        match p with
        | (none, _) => x
        | (some w, a) =>
          if w.zero o.wfmt && a.finite o.afmt then (x.1 + 1, x.2)
          else if a.zero o.afmt && w.finite o.wfmt then (x.1, x.2 + 1)
          else x) acc) acc) (0, 0)

/-- A bank after an MXA (R42, R66, R68, R69). -/
def bankAfter (b : Bank) (o : MxaOp) : Bank :=
  let int := fmtInt o.wfmt
  let opens := o.opening || !b.isOpen || b.isInt != int
  let add := fun (x y : Word32) => if int then x + y else f32Add x y
  let join (old new : List Word32) : List Word32 := if opens then new else (old.zip new).map fun (x, y) => add x y
  { isOpen := true
    isInt := int
    poison := o.poisoned || (!opens && b.poison)
    acc := join b.acc (mxaData o)
    ck := join b.ck (mxaCheck o false)
    ckAbs := if int then List.replicate 16 0#32 else join b.ckAbs (mxaCheck o true) }

/-- Whether a continuing MXA meets an open bank of the other kind (R69). -/
def kindClash (b : Bank) (o : MxaOp) : Bool := !o.opening && b.isOpen && b.isInt != fmtInt o.wfmt

/-- The data accumulators of a column, by row. -/
def bankCol (b : Bank) (j : Nat) : List Word32 := (List.range 256).map fun r => b.acc.getD (r * 16 + j) 0#32

/-- The outcome of the comparison of one column (R75 to R77): skipped, passed, or failed with D and B. -/
inductive ColCheck where
  | skip
  | pass
  | fail (d b : Word32)
  deriving DecidableEq, Repr

/-- The comparison of a column (R75 to R77). -/
def colCheck (bk : Bank) (tol j : Nat) : ColCheck :=
  let col := bankCol bk j
  let c := bk.ck.getD j 0#32
  if bk.isInt then
    let s := col.foldl (· + ·) 0#32
    if c = s then .pass else .fail (c - s) 0#32
  else
    let s := treeSum f32Add 8 col
    let sa := treeSum f32Add 8 (col.map f32Abs)
    let ca := bk.ckAbs.getD j 0#32
    let d := f32Abs (f32Sub c s)
    let m := f32Add ca sa
    if !(f32Finite c && f32Finite ca && f32Finite s && f32Finite sa && f32Finite d && f32Finite m &&
        col.all f32Finite) then .skip
    else
      let b := f32Of (fvScale (-(tol : Int)) (f32Val m))
      if d.toNat ≤ b.toNat then .pass else .fail d b

/-- The output code that an MXR applies (R70). -/
def mxrCode (b : Bank) (ofmt : Nat) : Nat :=
  let fl := ofmt ≤ 4 || ofmt = 0xD
  let it := ofmt = 0xA || ofmt = 0xB || ofmt = 0xE
  if !b.isOpen then (if fl || it then ofmt else 0xD)
  else if b.isInt then (if it then ofmt else 0xA)
  else if fl then ofmt
  else 0xD

/-- Bytes of an MXR output (R103). -/
def mxrBytes (code : Nat) : Nat := 16 * 256 * fmtWidth code / 8

/-- The output of a bank in the activation-tile layout (R63, R70). -/
def mxrOut (b : Bank) (code : Nat) : List Byte :=
  let w := fmtWidth code
  (List.range 16).flatMap fun j =>
    leBytes (32 * w) (packElems w ((bankCol b j).map fun x =>
      if !b.isOpen then 0 else if b.isInt then i32ToOut code x else f32ToOut code x))

end Sys2Proof.Machine
end

