-- ==== Sys2Proof/Machine/RegValues.lean ====
section
/-!
DEFINITION. The values of registers as they are applied (R428, R429, R432, R487), and SETTINGS (R461).
-/

namespace Sys2Proof.Machine

open Sys2Proof

/-! Values as they are applied (R432, R487). -/

/-- Whether a number names a unit (R455). -/
def unitOk (u : Nat) : Bool := u ≤ 40 || (64 ≤ u && u < 320)

/-- The value after a write, by the access code of each field: RW and RWG take the value, W1C clears. -/
def maskedWord (d : RegDesc) (old v : Nat) : Nat :=
  let take := d.rw ||| d.rwg
  (((old &&& (0xFFFFFFFF - take)) ||| (v &&& take)) &&& (0xFFFFFFFF - (v &&& d.w1c)))

/-- A field of a value raised to 1 where it is 0. -/
def atLeastOne (v hi lo : Nat) : Nat := if fld v hi lo = 0 then setFld v hi lo 1 else v

/-- A field of a value clamped to a range. -/
def clampFld (v hi lo a b : Nat) : Nat := setFld v hi lo (clampN a b (fld v hi lo))

/-- QN_CFG as applied (R422). -/
def clampQuench (v : Nat) : Nat :=
  let act := clampN 0x20 0xFF (fld v 19 12)
  setFld (setFld (clampFld v 3 0 0 8) 19 12 act) 11 4 (clampN 0x10 act (fld v 11 4))

/-- The value of a block-specific register as it is applied (R432 and the register tables). -/
def clampWord (b : Block) (o v : Nat) : Nat :=
  match b, o with
  | .matrixCore, 0x080 => clampFld v 4 0 6 20
  | .layerCtl, 0x088 => clampFld v 3 0 1 8
  | .layerCtl, 0x090 => clampFld v 4 0 6 20
  | .sliceCtl, 0x080 => atLeastOne v 15 8
  | .sliceCtl, 0x084 => atLeastOne v 3 0
  | .lpddr, 0x08C => atLeastOne (atLeastOne v 7 0) 15 8
  | .tongs, 0x340 => atLeastOne v 15 0
  | .fabric, 0x088 => atLeastOne v 15 0
  | .tileControl, 0x740 => atLeastOne v 3 0
  | .tileControl, 0x758 | .temper, 0x08C => if unitOk (v % 512) then v else setFld v 8 0 0
  | .baseControl, _ => if 0x460 ≤ o && o < 0x470 then atLeastOne v 27 16 else v
  | .tileThermal, 0x080 => clampFld v 5 0 0 33
  | .baseThermal, 0x080 => clampFld v 5 0 0 2
  | .bellows, 0x080 => clampFld v 2 0 0 4
  | .bellows, 0x08C => atLeastOne (atLeastOne v 15 0) 31 16
  | .bellows, 0x090 => atLeastOne v 15 0
  | .quench, 0x080 => clampFld v 10 0 400 1100
  | .quench, 0x088 => clampQuench v
  | .tilePower, 0x090 => clampFld v 15 0 120 960
  | .basePower, 0x090 => clampFld v 15 0 160 1280
  | .temper, 0x084 => clampFld v 9 0 1 600
  | .sequences, 0x084 => clampFld v 24 0 25000 25000000
  | .sequences, 0x0A0 => atLeastOne v 7 0
  | .sequences, 0x0A4 => clampFld (atLeastOne v 15 0) 22 16 50 100
  | .sequences, _ => if 0x0B0 ≤ o && o < 0x0C0 then clampFld v 4 0 0 16 else v
  | .queueCfg, _ =>
    if (o - 0x100) % 0x18 = 0x14 then clampFld v 7 0 0 191
    else if (o - 0x100) % 0x18 = 0x10 then atLeastOne (atLeastOne v 11 0) 23 12
    else v
  | _, _ => v

/-- FLT_CLASS as applied (R428): a class of 3 is the reset class, and a reset class of FATAL stays. -/
def clampClass (b : Block) (w v : Nat) : Nat :=
  (List.range 16).foldl (fun x j =>
    let src := 16 * w + j
    let r := sourceClass b src
    let c := fld v (2 * j + 1) (2 * j)
    x + (if !sourceDefined b src then 0 else if r = 2 || c = 3 then r else c) * 4 ^ j) 0

/-- FLT_REACT as applied (R427, R429): defined sources, bits 4 to 0, no block reset on a module page. -/
def clampReact (b : Block) (page n v : Nat) : Nat :=
  let keep := match pagePlace page with | .module _ => 0x17 | _ => 0x1F
  (List.range 4).foldl (fun x j =>
    x + (if sourceDefined b (4 * n + j) then fld v (8 * j + 7) (8 * j) &&& keep else 0) * 256 ^ j) 0

/-! HI_B4_BASE (R328). -/

/-- The host-interface page. -/
def hiPage : Nat := modPage 1

/-- Device address of an offset of BAR4 (R328, R349). -/
def bar4Base (s : State) : Nat := fld (pget s hiPage 0x084) 31 30 * 2 ^ 30 + fld (pget s hiPage 0x088) 15 0 * 2 ^ 32

/-- HI_B4_BASE at the greatest legal value not above a base (R328): a multiple of the size of BAR4, with the whole window below the
end of LPDDR5X. -/
def placeBar4 (s : State) (base : Nat) : State :=
  let size := 2 ^ s.host.bar4Log
  let base := min (base / size * size) (2 ^ 41 - size)
  pset (pset s hiPage 0x084 (base % 2 ^ 32)) hiPage 0x088 (base / 2 ^ 32)

/-- HI_B4_BASE (R328): rounded down to a multiple of the BAR4 size with the whole window below the end of LPDDR5X. -/
def bar4Write (s : State) (hi : Bool) (v : Nat) : State :=
  let old := bar4Base s
  let new := if hi then old % 2 ^ 32 + v % 2 ^ 16 * 2 ^ 32 else old / 2 ^ 32 * 2 ^ 32 + fld v 31 30 * 2 ^ 30
  placeBar4 s new

/-! The error-record ring (R500, R501). -/

/-- Bytes of A0's shared buffer. -/
def sbSize : Nat := 0x4000000

/-- SLOTS as applied: at least 1, and the ring within A0's shared buffer. -/
def clampSlots (da v : Nat) : Nat := clampN 1 (max 1 (min 0xFFF ((sbSize - da) / 384 - 1))) v

/-- Offset of the ring in A0's shared buffer. -/
def ringOff (s : State) : Nat := fld (pget s (modPage 6) 0x090) 27 7 * 128

/-- FS_RING_DA_LO: discarded while EN is 1; clamped so that two slots fit, and SLOTS follows. -/
def ringDaWrite (s : State) (v : Nat) : State :=
  let cfg := pget s (modPage 6) 0x094
  if bitOf cfg 16 then s
  else
    let s := pset s (modPage 6) 0x090 (min (fld v 27 7 * 128) ((sbSize - 768) / 128 * 128))
    if fld cfg 11 0 = 0 then s else pset s (modPage 6) 0x094 (setFld cfg 11 0 (clampSlots (ringOff s) (fld cfg 11 0)))

/-- FS_RING_CFG: SLOTS is discarded while EN is 1; EN from 0 to 1 sets HEAD and TAIL to 0. -/
def ringCfgWrite (s : State) (v : Nat) : State :=
  let old := pget s (modPage 6) 0x094
  let slots := if bitOf old 16 then fld old 11 0 else clampSlots (ringOff s) (fld v 11 0)
  let s := pset s (modPage 6) 0x094 (slots + fld v 17 16 * 2 ^ 16)
  if bitOf v 16 && !bitOf old 16 then pset (pset s (modPage 6) 0x098 0) (modPage 6) 0x09C 0 else s

/-- FS_RING_TAIL: a TAIL ahead of HEAD is applied as HEAD. DEDUCED: ahead means that HEAD − TAIL, modulo 2^32, is not below
2^31 (log 44). -/
def ringTailWrite (s : State) (v : Nat) : State :=
  let head := pget s (modPage 6) 0x098
  pset s (modPage 6) 0x09C (if (head + 2 ^ 32 - v) % 2 ^ 32 < 2 ^ 31 then v else head)

/-! SETTINGS: reset values for registers that the configuration image names (R461, R491). -/

/-- A value of SETTINGS as it applies to a register: what starts something (HI_Q_CFG.EN, SP_CTRL.RUN) stays 0. DEDUCED
(log 47). -/
def settingMask (b : Block) (o v : Nat) : Nat :=
  match b with
  | .queueCfg => if (o - 0x100) % 0x18 = 0x10 then setBitN v 24 false else v
  | .sequences => if o = 0x080 then setBitN v 0 false else v
  | _ => v

/-- MC_WRING_SIZE as applied for a base (R86): 0, or within its range and the store. -/
def ringSize (base v : Nat) : Nat :=
  let x := fld v 20 7 * 128
  if x = 0 then 0 else min (clampN 0x14000 0x100000 x) (0x200000 - base)

/-- MC_WRING_SIZE, or MC_WRING_BASE with which the size stays within the store (R86). -/
def putRing (s : State) (pg : Nat) (size : Bool) (v : Nat) : State :=
  if size then pset s pg 0x090 (ringSize (pget s pg 0x08C) v)
  else
    let x := fld v 20 7 * 128
    pset (pset s pg 0x08C x) pg 0x090 (min (pget s pg 0x090) (0x200000 - x))

/-- The members of a barrier group named by SETTINGS. -/
def settingMembers (s : State) (module : Bool) (t g new : Nat) : State :=
  setBar s module t g { barOf s module t g with members := new }

/-- A register at its value of SETTINGS: RW and RWG fields, as a write would be applied. -/
def placeSetting (s : State) (page o v : Nat) : State :=
  match pageBlock page, pagePlace page with
  | none, _ => s
  | some .msix, _ => s
  | some b, place =>
    if o = 0x028 then pset s page o (clampClass b 0 v)
    else if o = 0x02C then pset s page o (clampClass b 1 v)
    else if 0x030 ≤ o && o < 0x070 then (if o % 8 = 0 then pset s page o (clampReact b page ((o - 0x030) / 8) v) else s)
    else match b, place, regDesc b o with
      | .tileControl, .tile t _, some d =>
        if 0x440 ≤ o && o < 0x4C0 then
          let old := (barOf s false t ((o - 0x440) / 8)).members
          settingMembers s false t ((o - 0x440) / 8)
            (if o % 8 = 0 then old / 2 ^ 32 * 2 ^ 32 + v else old % 2 ^ 32 + v % 2 ^ 9 * 2 ^ 32)
        else if d.rw = 0 && d.rwg = 0 then s
        else pset s page o (clampWord b o (maskedWord d (pget s page o) v))
      | .baseControl, .base 0 _, some d =>
        if 0x420 ≤ o && o < 0x440 then settingMembers s true 0 ((o - 0x420) / 4) (v % 2 ^ 12)
        else if d.rw = 0 then s
        else pset s page o (clampWord b o (maskedWord d (pget s page o) v))
      | .baseControl, _, _ => s
      | .matrixCore, _, some d =>
        if o = 0x08C || o = 0x090 then putRing s page (o = 0x090) v
        else if d.rw = 0 && d.rwg = 0 then s
        else pset s page o (clampWord b o (maskedWord d (pget s page o) v))
      | .hostIf, _, some d =>
        if o = 0x084 || o = 0x088 then bar4Write s (o = 0x088) v
        else if d.rw = 0 && d.rwg = 0 then s
        else pset s page o (clampWord b o (maskedWord d (pget s page o) v))
      | .faultSummary, _, some d =>
        if o = 0x090 then ringDaWrite s v
        else if o = 0x094 then ringCfgWrite s v
        else if o = 0x09C then ringTailWrite s v
        else if d.rw = 0 && d.rwg = 0 then s
        else pset s page o (clampWord b o (maskedWord d (pget s page o) v))
      | _, _, some d =>
        if d.rw = 0 && d.rwg = 0 then s
        else pset s page o (clampWord b o (maskedWord d (pget s page o) (settingMask b o v)))
      | _, _, none => s

/-- The settings of the pages [lo, lo + n) at offsets from `o` on, with BLK_SEQ (R491). -/
def applySettings (s : State) (lo n o : Nat) : State :=
  foldList (fun (x : Nat × Nat) st => pset (placeSetting st (x.1 / 0x1000) (x.1 % 0x1000) x.2) (x.1 / 0x1000) 0x00C s.svc.settings.1)
    (s.svc.settings.2.filter fun x => regOff lo o ≤ x.1 && x.1 < regOff (lo + n) 0) s

end Sys2Proof.Machine
end

