-- ==== Sys2Proof/Machine/Matrix.lean ====
section
/-!
DEFINITION. The matrix instructions and the weight ring (R64 to R71, R101 to R105). Operand bytes are taken at issue
or, from the ring, at the start (R67, log 13).
-/

namespace Sys2Proof.Machine

open Sys2Proof

/-- Matrix core n as a participant. -/
abbrev mcPart (n : Fin 32) : Fin 41 := ⟨n.val, by omega⟩

/-- Operand address of R102: ((G[reg] >> 7) + ADDR) mod 2^14 units of 128 bytes. -/
def opAddr (s : State) (t n reg addr : Nat) : Nat := ((getG s t n reg).toNat / 128 + addr) % 2 ^ 14 * 128

/-- Bit i of BLK_CAP of a page (R90, R137). -/
def blkCap (s : State) (page i : Nat) : Bool := bitOf (capWord s page) i

/-- Whether every feature that an MXA uses is present (R90). -/
def mxaFeatures (s : State) (t n : Nat) (f : MxaFields) : Bool :=
  let pg := mcPage t n
  let use (c : Nat) : Bool := f.wfmt.toNat = c || f.afmt.toNat = c
  (!f.sparse || blkCap s pg 0) && (!(use 7 || use 8) || blkCap s pg 1) && (!use 9 || blkCap s pg 2) &&
  (!use 0xB || blkCap s pg 3) && (!(f.ring || f.hold) || blkCap s pg 4)

/-- Size in bytes of the weight ring as applied (R86). -/
def ringBytes (s : State) (t n : Nat) : Nat := pget s (mcPage t n) 0x090

/-- The operation that an MXA issues, with the operands present now; illegal in the cases of R69, R90 and R102. -/
def mxaOp (s : State) (t n : Nat) (f : MxaFields) : MxaOp × State :=
  let w := f.wfmt.toNat
  let a := f.afmt.toNat
  let pair := (fmtGroup w).isSome && fmtGroup w = fmtGroup a
  let aa := opAddr s t n f.areg.toNat f.aaddr.toNat
  let wa := opAddr s t n f.wreg.toNat f.waddr.toNat
  let al := actBytes a (mxaK w f.sparse)
  let wl := (tileShape w f.sparse).total
  let bad := !pair || !mxaFeatures s t n f || !inStore n aa al || (!f.ring && !inStore n wa wl) ||
    (f.ring && ringBytes s t n = 0)
  let (act, s) := if bad then ([], s) else loadRange s t n aa al
  let (wgt, s) := if bad || f.ring then ([], s) else loadRange s t n wa wl
  ({ bank := f.bank, opening := f.opening, wfmt := w, afmt := a, sparse := f.sparse, ring := f.ring, hold := f.hold
     illegal := bad, poisoned := false, actAt := aa, wgtAt := wa, act := act, wgt := wgt
     tag := (coreOf s (coreId t n)).tag }, s)

/-- A source of an array raised with the tag of an operation. -/
def mcRaise (s : State) (t n src : Nat) (tag : Word32) : State := raiseTag s (mcPage t n) src tag.toNat

/-- The head tile enters the array with an MXA, or is released where its size does not match (R65, R102). -/
def ringStart (s : State) (t n : Nat) (o : MxaOp) : State :=
  let m := mcOf s t n
  match m.ring with
  | [] => setMc s t n { m with waiting := some o }
  | h :: rest =>
    if h.units * 128 = (tileShape o.wfmt o.sparse).total then
      setMc s t n { m with cur := some { o with wgt := h.data, poisoned := h.poisoned }, waiting := none }
    else
      let s := setMc s t n { m with cur := some { o with illegal := true }, waiting := none, ring := rest }
      mcRaise s t n 3 o.tag

/-- MXA (R58, R64, R65, R71, R101): it is held while an earlier MXA is in the array or waits. -/
def execMxa (t : Fin 12) (n : Fin 32) (f : MxaFields) (s : State) : Out :=
  let m := mcOf s t n
  .next (issueWhen s (.mxa t n f) t n 0x40 (m.cur.isNone && m.waiting.isNone) fun s =>
      let (o, s) := mxaOp s t n f
      let s := nextPc s t n
      let m := mcOf s t n
      if o.illegal then mcRaise (setMc s t n { m with cur := some o }) t n 3 o.tag
      else if o.ring then ringStart s t n o
      else setMc s t n { m with cur := some o })

/-- MXA_START (R65): a waiting MXA starts when the head tile is eligible, in a half that is AWAKE (R315). -/
def execMxaStart (t : Fin 12) (n : Fin 32) (s : State) : Out :=
  let m := mcOf s t n
  .next (match m.waiting, m.ring with
    | some o, _ :: _ => if ptAwake s t n then ringStart s t n o else s
    | _, _ => s)

/-- A bank of an array. -/
def MatrixCore.bankOf (m : MatrixCore) (b : Bool) : Bank := if b then m.bankB else m.bankA

def MatrixCore.setBank (m : MatrixCore) (b : Bool) (x : Bank) : MatrixCore :=
  if b then { m with bankB := x } else { m with bankA := x }

/-- The counters of a comparison outcome (R77, R78). -/
def countCheck (s : State) (t n : Nat) (c : ColCheck) : State :=
  match c with
  | .pass => count s (mcPage t n) 0x840 1
  | .fail _ _ => count s (mcPage t n) 0x848 1
  | .skip => count s (mcPage t n) 0x850 1

/-- The comparison of all columns of a bank (R75 to R78): counters, CK_NONFINITE, and the lowest failing column. -/
def compareBank (s : State) (t n : Nat) (b : Bank) (r : MxrOp) : State :=
  let pg := mcPage t n
  let cs := (List.range 16).map (colCheck b r.tol)
  let s := foldList (fun c st => countCheck st t n c) cs s
  let s := if cs.contains .skip then mcRaise s t n 1 r.tag else s
  match (List.range 16).find? fun j => match cs.getD j .pass with | .fail _ _ => true | _ => false with
  | none => s
  | some j =>
    match cs.getD j .pass with
    | .fail d bb =>
      let s := pset s pg 0x0A0 (j + b2n r.bank * 16 + 32)
      let s := pset (pset s pg 0x0A4 d.toNat) pg 0x0A8 bb.toNat
      mcRaise s t n 0 r.tag
    | _ => s

/-- An MXR that is legal carried out: comparison, readout and the bank's new state (R66, R70). An emptied bank stays poisoned until
its next opening MXA. -/
def mxrLegal (s : State) (t n : Nat) (r : MxrOp) (code : Nat) : State :=
  let pg := mcPage t n
  let m := mcOf s t n
  let b := m.bankOf r.bank
  let s := setMc s t n { m with mxrs := r :: m.mxrs }
  let s := if b.poison then mcRaise s t n 4 r.tag else s
  let s := if b.isOpen && r.ckEn then compareBank s t n b r else count s pg 0x850 16
  let s := storeWrite s t n r.oaddr (mxrOut b code) false
  let s := count s pg 0x808 1
  let m := mcOf s t n
  let m := { m with mxrs := m.mxrs.drop 1 }
  setMc s t n (if r.keep then m else m.setBank r.bank { Bank.empty with poison := b.poison })

/-- An MXR carried out. DEDUCED (log 111): where a waiting MXA turned out illegal, so that the code applied needs more of the store
than it has, it is illegal and does nothing but set PROG_ERR (R95, R103). -/
def mxrRun (s : State) (t n : Nat) (r : MxrOp) : State :=
  let code := mxrCode ((mcOf s t n).bankOf r.bank) r.ofmt
  if inStore n r.oaddr (mxrBytes code) then mxrLegal s t n r code else mcRaise s t n 3 r.tag

/-- The MXRs of a bank that wait carried out, in order. -/
def mxrDrain (s : State) (t n : Nat) (bank : Bool) : State :=
  let m := mcOf s t n
  let due := m.mxrs.filter fun r => r.bank == bank
  let s := setMc s t n { m with mxrs := m.mxrs.filter fun r => r.bank != bank }
  foldList (fun r st => mxrRun st t n r) due s

/-- The ring after an MXA has read its head tile (R65, R85). -/
def ringAfter (s : State) (t n : Nat) (hold : Bool) (ring : List RingTile) : List RingTile :=
  match ring with
  | [] => []
  | h :: rest =>
    let cfg := pget s (mcPage t n) 0x088
    let lim := if fld cfg 5 2 = 0 then 16 else fld cfg 5 2
    let uses := h.uses + 1
    if !hold || (bitOf cfg 1 && lim ≤ uses) then rest else { h with uses := uses } :: rest

/-- The MXA in the array ends (R65, R66, R68, R69, R72, R74), before the MXRs that wait for it. DESIGN CHOICE: a PROG_ERR MXA of
sparse weights counts no pruned position either (R74, log 90). -/
def mxaDone (s : State) (t n : Nat) : State :=
  let m := mcOf s t n
  let pg := mcPage t n
  match m.cur with
  | none => s
  | some o =>
    let s := count (count s pg 0x800 1) pg 0x810 32
    if o.illegal then setMc s t n { mcOf s t n with cur := none }
    else
      let b := m.bankOf o.bank
      let clash := kindClash b o
      let k := mxaK o.wfmt o.sparse
      let s := if clash then s
        else
          let (zw, za) := if bitOf (pget s pg 0x088) 0 then (0, 0) else mxaGated o
          let s := count s pg 0x820 (4096 * (if o.sparse then k / 2 else k))
          let s := count (count s pg 0x828 zw) pg 0x830 za
          if o.sparse then count s pg 0x838 (4096 * (k / 2)) else s
      let bad := ((List.range 256).map (rowBadIdx o.wfmt o.sparse o.wgt)).foldl (· + ·) 0
      let s := count s pg 0x858 bad
      let s := if clash then mcRaise s t n 3 o.tag else s
      let s := if 0 < bad then mcRaise s t n 2 o.tag else s
      let s := if o.poisoned then mcRaise s t n 4 o.tag else s
      let m := mcOf s t n
      let ring := if o.ring then ringAfter s t n o.hold m.ring else m.ring
      setMc s t n { (m.setBank o.bank (bankAfter b o)) with cur := none, ring := ring }

/-- What a parity error does to the MXA in the array (R89). DESIGN CHOICE: a word of the store that stays bad leaves the operands that
came from the store free, since the spec states no value for it (log 78). -/
def upsetOperands (s : State) (t n : Nat) (o : MxaOp) (up : Option MxaUpset) : State :=
  match up with
  | some .storeOnce => mcRaise s t n 5 o.tag
  | some .storeStays =>
    let free (k : Nat) (l : List Byte) : List Byte := (List.range l.length).map fun i => Config.freeByte s.free (k + i)
    let s := s.setFree (s.free + 1)
    let o := { o with act := free 0 o.act, wgt := if o.ring then o.wgt else free o.act.length o.wgt }
    mcRaise (setMc s t n { mcOf s t n with cur := some o }) t n 6 o.tag
  | _ => s

/-- A parity error of an accumulator poisons the bank (R89). DESIGN CHOICE: its accumulators are free (log 78). -/
def upsetBank (s : State) (t n : Nat) (o : MxaOp) (up : Option MxaUpset) : State :=
  match up with
  | some .accumulator =>
    let m := mcOf s t n
    let b := m.bankOf o.bank
    let b := { b with poison := true, acc := (List.range b.acc.length).map (Config.lostWord s.free) }
    mcRaise (setMc (s.setFree (s.free + 1)) t n (m.setBank o.bank b)) t n 7 o.tag
  | _ => s

/-- The MXA in the array ends; the writes that the core store held for it land, and the MXRs that waited for it write after them
(R67, R71). -/
def mxaFinish (s : State) (t n : Nat) (up : Option MxaUpset) : State :=
  match (mcOf s t n).cur with
  | none => s
  | some o =>
    let s := mxaDone (upsetOperands s t n o up) t n
    mxrDrain (landHeld (upsetBank s t n o up) t n) t n o.bank

/-- MXA_END (R58, R68): `up` is a parity error that the MXA met. In a half that is not AWAKE the array does not run (R315). -/
def execMxaEnd (t : Fin 12) (n : Fin 32) (up : Option MxaUpset) (s : State) : Out :=
  .next (if ptAwake s t n then mxaFinish s t n up else s)

/-- MXR (R70, R71, R103): at once, or when the MXA of its bank has ended. The size of its output follows from the bank that it will
find: empty behind an MXR of the bank that does not keep it. -/
def execMxr (t : Fin 12) (n : Fin 32) (f : MxrFields) (s : State) : Out :=
  .next (issue s t n 0x41 0 fun s =>
    let m := mcOf s t n
    let oa := opAddr s t n f.oreg.toNat f.oaddr.toNat
    let ck := pget s (mcPage t n) 0x080
    let r : MxrOp := ⟨f.bank, f.keep, f.ofmt.toNat, oa, (coreOf s (coreId t n)).tag, bitOf ck 8, fld ck 4 0⟩
    let busy := match m.cur, m.waiting with
      | some o, _ => o.bank == f.bank
      | none, some o => o.bank == f.bank
      | none, none => false
    let bank : Bank :=
      if m.mxrs.any fun x => x.bank == f.bank && !x.keep then .empty
      else match m.cur.or m.waiting with
        | some o => if busy && !o.illegal then { (m.bankOf f.bank) with isOpen := true, isInt := fmtInt o.wfmt }
          else m.bankOf f.bank
        | none => m.bankOf f.bank
    if !inStore n oa (mxrBytes (mxrCode bank f.ofmt.toNat)) then illegal s t n
    else
      let s := nextPc s t n
      if busy then setMc s t n { mcOf s t n with mxrs := m.mxrs ++ [r] } else mxrRun s t n r)

/-- WSTRM (R104): it issues while fewer than eight descriptors are queued. -/
def execWstrm (t : Fin 12) (n : Fin 32) (f : WstrmFields) (s : State) : Out :=
  .next (issueWhen s (.wstrm t n f) t n 0x42 ((mcOf s t n).descs.length < 8) fun s =>
      let cnt := f.count.toNat + 1
      let sz := f.tsize.toNat
      let first := (getG s t n f.sreg.toNat).toNat / 128 + f.soff.toNat
      if sz = 0 || sliceBytes / 128 < first + cnt * sz then illegal s t n
      else
        let s := nextPc s t n
        let m := mcOf s t n
        setMc s t n { m with descs := m.descs ++ [⟨first, sz, cnt, 0, (coreOf s (coreId t n)).tag⟩] })

/-- RING_TILE_ELIGIBLE (R65, R66, R104): the next tile of the first descriptor enters the ring while the ring can take
it whole; while Quench holds the slice's half the stream waits (R420). Its place in the ring's region is open, so the region's bytes
are undefined (log 15). -/
def execRingTileEligible (t : Fin 12) (n : Fin 32) (s : State) : Out :=
  let m := mcOf s t n
  .next (match m.descs with
    | [] => s
    | d :: rest =>
      let used := (m.ring.map RingTile.units).foldl (· + ·) 0
      if ringBytes s t n / 128 < used + d.tsize then s
      else
        let sl := streamSlice s t n d.tag.toNat
        awaitHalves s ⟨.part t n, d.tag.toNat⟩ [(t, sliceHalf sl)] fun s =>
        let ((data, st), s) := daRead s ⟨.part t n, d.tag.toNat⟩ (sliceBase t sl + (d.first + d.served * d.tsize) * 128) (d.tsize * 128)
        let base := pget s (mcPage t n) 0x08C
        let s := s.setMem (s.mem.loseRange (storeKey t n base) (ringBytes s t n))
        let m := mcOf s t n
        let descs := if d.served + 1 = d.count then rest else { d with served := d.served + 1 } :: rest
        let s := setMc s t n { m with ring := m.ring ++ [⟨data, d.tsize, st != .ok, 0⟩], descs := descs }
        touchHalf s t (sliceHalf sl))

/-- The ring and the descriptors discarded (R105). -/
def ringFlush (s : State) (t n : Nat) : State := touchHalf (setMc s t n { mcOf s t n with ring := [], descs := [] }) t (sliceHalf n)

/-- WFLUSH (R105): held while an MXA reads the ring; one that waits for a tile has not started and reads nothing (R117). -/
def execWflush (t : Fin 12) (n : Fin 32) (s : State) : Out :=
  let reads := match (mcOf s t n).cur with | some o => o.ring && !o.illegal | none => false
  .next (issueWhen s (.wflush t n) t n 0x43 (!reads) fun s => ringFlush (nextPc s t n) t n)

/-- What an abort does to an array (R117): a waiting MXA and the MXRs that wait for it are abandoned, the MXA that reads
the ring completes, and the ring is flushed. -/
def mcAbort (s : State) (t n : Nat) : State :=
  let m := mcOf s t n
  let s := match m.waiting with
    | some o =>
      let s := setMc s t n { m with waiting := none, mxrs := m.mxrs.filter fun r => r.bank != o.bank }
      if m.cur.isNone then landHeld s t n else s
    | none => s
  let s := match (mcOf s t n).cur with
    | some o => if o.ring && !o.illegal then mxaFinish s t n none else s
    | none => s
  ringFlush s t n

/-- MC_WRING_WRITE (R86): taken while the ring is empty and no ring-sourced MXA waits, and clamped; else PROG_ERR.
DESIGN CHOICE: a descriptor that waits or whose next tile still fills does not count as content of the ring (log 122). -/
def mcWringWrite (t : Fin 12) (n : Fin 32) (size : Bool) (v : BitVec 32) (s : State) : State :=
  let m := mcOf s t n
  let pg := mcPage t n
  let reads := match m.cur with | some o => o.ring && !o.illegal | none => false
  blockWrite s pg fun s =>
    if m.ring != [] || m.waiting.isSome || reads then mcRaise s t n 3 (coreOf s (coreId t n)).tag else putRing s pg size v.toNat

end Sys2Proof.Machine
end

