-- ==== Sys2Proof/Machine/Vector.lean ====
section
/-!
DEFINITION. The vector instructions (R46, R47, R107 to R113). Lanes are FP32 or INT32 patterns.
-/

namespace Sys2Proof.Machine

open Sys2Proof

/-- Vector core v as a participant (R115). -/
abbrev vcPart (v : Fin 8) : Nat := 32 + v.val

/-- The 64 lanes of Y[r]. -/
def getY (s : State) (t p r : Nat) : List Word32 :=
  let k := coreOf s (coreId t p)
  (List.range 64).map fun i =>
    kget (if k.epoch = 0 then 0#32 else Config.lostWord k.epoch (coreId t p * 2048 + r * 64 + i)) k.y (r * 64 + i)

/-- The state with Y[r] written. -/
def setY (s : State) (t p r : Nat) (l : List Word32) : State :=
  let k := coreOf s (coreId t p)
  setCore s (coreId t p) { k with y := (List.range 64).foldl (fun y i => putReg k.epoch 0#32 y (r * 64 + i) (l.getD i 0#32)) k.y }

/-- A vector instruction whose fields are allowed, or an illegal one (R95). -/
def vop (t : Fin 12) (v : Fin 8) (f : VFields) (op : Nat) (ok : State → Bool) (g : State → State) (s : State) : State :=
  issue s t (vcPart v) op f.md.toNat fun s =>
    if ok s then nextPc (g s) t (vcPart v) else illegal s t (vcPart v)

/-- A vector instruction with MOD 0 (R107) that writes YD from YA, YB and YC, lane by lane. -/
def laneOp (t : Fin 12) (v : Fin 8) (f : VFields) (op : Nat) (g : Word32 → Word32 → Word32 → Word32) (s : State) :
    State :=
  vop t v f op (fun _ => f.md = 0#4) (fun s =>
    let p := vcPart v
    let a := getY s t p f.ya.toNat
    let b := getY s t p f.yb.toNat
    let c := getY s t p f.yc.toNat
    setY s t p f.yd.toNat ((a.zip (b.zip c)).map fun (x, y, z) => g x y z)) s

/-- A vector instruction with MOD 0 that writes YD from all lanes of YA and YB. -/
def crossOp (t : Fin 12) (v : Fin 8) (f : VFields) (op : Nat) (g : List Word32 → List Word32 → List Word32)
    (s : State) : State :=
  vop t v f op (fun _ => f.md = 0#4) (fun s =>
    let p := vcPart v
    setY s t p f.yd.toNat (g (getY s t p f.ya.toNat) (getY s t p f.yb.toNat))) s

/-- G[GA] + sext(IMM24), modulo 2^64. -/
def vecAddr (s : State) (t p : Nat) (f : VFields) : Nat := (getG s t p f.ga.toNat + sext24 f.imm).toNat

/-- Addresses of the elements of a strided access, modulo 2^64 (R109). -/
def strideAddrs (a stride : Nat) : List Nat := (List.range 64).map fun i => (a + i * stride) % 2 ^ 64

/-- Whether a VLD or VST of a format outside MX is allowed (R96, R109): a stride with a 4-bit format is not. -/
def vmemOk (s : State) (t p : Nat) (f : VFields) : Bool :=
  let w := fmtWidth f.md.toNat
  let stride := (getG s t p f.gb.toNat).toNat
  let a := vecAddr s t p f
  if stride = 0 then inStore p a (8 * w)
  else w != 4 && (strideAddrs a stride).all fun x => inStore p x (w / 8)

/-- Whether an MX VLD or VMXQ is allowed: both blocks and both scale bytes lie in the store (R96, R109, R110). -/
def vmxOk (s : State) (t p : Nat) (f : VFields) : Bool :=
  fmtMx f.md.toNat && blkCap s (ptPage t p) 2 && inStore p (vecAddr s t p f) (8 * fmtWidth f.md.toNat) &&
  inStore p (getG s t p f.gb.toNat).toNat 2

/-- The raw elements that a VLD reads (R109). -/
def vldRaw (s : State) (t p : Nat) (f : VFields) : List Nat × State :=
  let w := fmtWidth f.md.toNat
  let stride := (getG s t p f.gb.toNat).toNat
  let a := vecAddr s t p f
  if fmtMx f.md.toNat || stride = 0 then
    let (d, s) := loadRange s t p a (8 * w)
    ((List.range 64).map (packedElem (leNat d) w), s)
  else
    (strideAddrs a stride).foldr (fun x (r : List Nat × State) =>
      let (d, s) := loadRange r.2 t p x (w / 8)
      (leNat d :: r.1, s)) ([], s)

/-- VLD (R108, R109). -/
def execVld (t : Fin 12) (v : Fin 8) (f : VFields) (s : State) : Out :=
  let p := vcPart v
  let c := f.md.toNat
  .next (vop t v f 0x60 (fun s => if fmtMx c then vmxOk s t p f else c != 0xF && vmemOk s t p f) (fun s =>
    let (raw, s) := vldRaw s t p f
    let (sc, s) := if fmtMx c then loadRange s t p (getG s t p f.gb.toNat).toNat 2 else ([127#8, 127#8], s)
    setY s t p f.yd.toNat (((List.range 64).zip raw).map fun (i, x) =>
      elemToF32 c x (sc.getD (i / 32) 127#8).toNat)) s)

/-- VST (R108, R109): an MX format or 0xF is illegal. DESIGN CHOICE: strided elements that overlap are written by ascending lane, so
the highest lane stands (log 91). -/
def execVst (t : Fin 12) (v : Fin 8) (f : VFields) (s : State) : Out :=
  let p := vcPart v
  let c := f.md.toNat
  .next (vop t v f 0x61 (fun s => !fmtMx c && c != 0xF && vmemOk s t p f) (fun s =>
    let w := fmtWidth c
    let stride := (getG s t p f.gb.toNat).toNat
    let a := vecAddr s t p f
    let out := (getY s t p f.ya.toNat).map (f32ToOut c)
    if stride = 0 then writeBytes s (storeKey t p a) (leBytes (8 * w) (packElems w out))
    else foldList (fun (x : Nat × Nat) st => writeBytes st (storeKey t p x.1) (leBytes (w / 8) x.2))
      ((strideAddrs a stride).zip out) s) s)

/-- VMXQ (R110). -/
def execVmxq (t : Fin 12) (v : Fin 8) (f : VFields) (s : State) : Out :=
  let p := vcPart v
  let c := f.md.toNat
  .next (vop t v f 0x62 (fun s => vmxOk s t p f) (fun s =>
    let y := getY s t p f.ya.toNat
    let (x0, e0) := mxQuantise c (y.take 32)
    let (x1, e1) := mxQuantise c (y.drop 32)
    let w := fmtWidth c
    let s := writeBytes s (storeKey t p (vecAddr s t p f)) (leBytes (8 * w) (packElems w (e0 ++ e1)))
    writeBytes s (storeKey t p (getG s t p f.gb.toNat).toNat) [BitVec.ofNat 8 x0, BitVec.ofNat 8 x1]) s)

/-- VADD, VSUB, VMUL, VFMA (R46, R108). -/
def execVadd (t : Fin 12) (v : Fin 8) (f : VFields) (s : State) : Out :=
  .next (laneOp t v f 0x68 (fun a b _ => f32Add a b) s)
def execVsub (t : Fin 12) (v : Fin 8) (f : VFields) (s : State) : Out :=
  .next (laneOp t v f 0x69 (fun a b _ => f32Sub a b) s)
def execVmul (t : Fin 12) (v : Fin 8) (f : VFields) (s : State) : Out :=
  .next (laneOp t v f 0x6A (fun a b _ => f32Mul a b) s)
def execVfma (t : Fin 12) (v : Fin 8) (f : VFields) (s : State) : Out := .next (laneOp t v f 0x6B f32Fma s)

/-- A lane value that a selection returns: subnormals flushed, NaN canonical (R46, R111). DEDUCED (log 16). -/
def selected (w : Word32) : Word32 := if f32IsNan w then f32Nan else f32Flush w

/-- VMAX and VMIN (R111): YA's value where the two rank equal. -/
def execVmax (t : Fin 12) (v : Fin 8) (f : VFields) (s : State) : Out :=
  .next (laneOp t v f 0x6C (fun a b _ => selected (if f32Rank a < f32Rank b then b else a)) s)
def execVmin (t : Fin 12) (v : Fin 8) (f : VFields) (s : State) : Out :=
  .next (laneOp t v f 0x6D (fun a b _ => selected (if f32Rank b < f32Rank a then b else a)) s)

/-- VBC (R108). -/
def execVbc (t : Fin 12) (v : Fin 8) (f : VFields) (s : State) : Out :=
  .next (vop t v f 0x6E (fun _ => f.md = 0#4) (fun s =>
    setY s t (vcPart v) f.yd.toNat (List.replicate 64 ((getG s t (vcPart v) f.ga.toNat).setWidth 32))) s)

/-- VABS and VNEG (R108). -/
def execVabs (t : Fin 12) (v : Fin 8) (f : VFields) (s : State) : Out :=
  .next (laneOp t v f 0x6F (fun a _ _ => f32Abs a) s)
def execVneg (t : Fin 12) (v : Fin 8) (f : VFields) (s : State) : Out :=
  .next (laneOp t v f 0x70 (fun a _ _ => f32Neg a) s)

/-- A transcendental instruction, with its 64 lane results counted (R46, R135). -/
def tuOp (t : Fin 12) (v : Fin 8) (f : VFields) (op : Nat) (g : Word32 → Word32) (s : State) : State :=
  vop t v f op (fun _ => f.md = 0#4) (fun s =>
    let p := vcPart v
    count (setY s t p f.yd.toNat ((getY s t p f.ya.toNat).map g)) (ptPage t p) 0x818 64) s

/-- VEXP2, VRCP, VRSQ (R46). -/
def execVexp2 (t : Fin 12) (v : Fin 8) (f : VFields) (s : State) : Out := .next (tuOp t v f 0x71 f32Exp2 s)
def execVrcp (t : Fin 12) (v : Fin 8) (f : VFields) (s : State) : Out := .next (tuOp t v f 0x72 f32Rcp s)
def execVrsq (t : Fin 12) (v : Fin 8) (f : VFields) (s : State) : Out := .next (tuOp t v f 0x73 f32Rsqrt s)

/-- VSEL (R108). -/
def execVsel (t : Fin 12) (v : Fin 8) (f : VFields) (s : State) : Out :=
  .next (laneOp t v f 0x74 (fun a b c => if c != 0#32 then a else b) s)

/-- The comparison of VCMP (R111): with a NaN only ≠ holds. -/
def vcmpHolds (md : Nat) (a b : Word32) : Bool :=
  let nan := f32IsNan a || f32IsNan b
  match md with
  | 0 => !nan && f32Rank a = f32Rank b
  | 1 => !nan && f32Rank a < f32Rank b
  | 2 => !nan && f32Rank a ≤ f32Rank b
  | _ => nan || f32Rank a != f32Rank b

/-- VCMP (R111): MOD 0 to 3. -/
def execVcmp (t : Fin 12) (v : Fin 8) (f : VFields) (s : State) : Out :=
  .next (vop t v f 0x75 (fun _ => f.md.toNat ≤ 3) (fun s =>
    let p := vcPart v
    setY s t p f.yd.toNat (((getY s t p f.ya.toNat).zip (getY s t p f.yb.toNat)).map fun (a, b) =>
      if vcmpHolds f.md.toNat a b then 0xFFFFFFFF#32 else 0#32)) s)

/-- VIADD (R108). -/
def execViadd (t : Fin 12) (v : Fin 8) (f : VFields) (s : State) : Out :=
  .next (laneOp t v f 0x76 (fun a b _ => a + b) s)

/-- VIOTA (R108). -/
def execViota (t : Fin 12) (v : Fin 8) (f : VFields) (s : State) : Out :=
  .next (vop t v f 0x77 (fun _ => f.md = 0#4) (fun s =>
    let g := (getG s t (vcPart v) f.ga.toNat).toNat
    setY s t (vcPart v) f.yd.toNat ((List.range 64).map fun i => BitVec.ofNat 32 (g + i))) s)

/-- VF2I and VI2F (R108). -/
def execVf2i (t : Fin 12) (v : Fin 8) (f : VFields) (s : State) : Out :=
  .next (laneOp t v f 0x78 (fun a _ _ => BitVec.ofInt 32 (f32ToInt 32 a)) s)
def execVi2f (t : Fin 12) (v : Fin 8) (f : VFields) (s : State) : Out :=
  .next (laneOp t v f 0x79 (fun a _ _ => intToF32 a.toInt) s)

/-- VRSUM (R47). -/
def execVrsum (t : Fin 12) (v : Fin 8) (f : VFields) (s : State) : Out :=
  .next (crossOp t v f 0x80 (fun a _ => List.replicate 64 (treeSum f32Add 6 a)) s)

/-- The value of the first-ranked lane, the lowest-numbered among equals (R111). -/
def firstRanked : List Word32 → Word32
  | [] => 0#32
  | a :: l => l.foldl (fun b x => if f32Rank b < f32Rank x then x else b) a

/-- VRMAX (R111). -/
def execVrmax (t : Fin 12) (v : Fin 8) (f : VFields) (s : State) : Out :=
  .next (crossOp t v f 0x81 (fun a _ => List.replicate 64 (selected (firstRanked a))) s)

/-- VPERM (R108). -/
def execVperm (t : Fin 12) (v : Fin 8) (f : VFields) (s : State) : Out :=
  .next (crossOp t v f 0x82 (fun a b => b.map fun i => a.getD (i.toNat % 64) 0#32) s)

/-- Whether a register number names a pair (R107). -/
def pairOk (r : BitVec 5) : Bool := !r.getLsbD 0

/-- The rotation of one pair of values (R112). -/
def ropePair (x0 x1 c sn : Word32) : Word32 × Word32 :=
  (f32Fma x0 c (f32Neg (f32Mul x1 sn)), f32Fma x1 c (f32Mul x0 sn))

/-- VROPE (R112): MOD 0 interleaved, MOD 1 split over pairs. -/
def execVrope (t : Fin 12) (v : Fin 8) (f : VFields) (s : State) : Out :=
  let p := vcPart v
  .next (vop t v f 0x84 (fun s => blkCap s (ptPage t p) 0 && f.md.toNat ≤ 1 &&
      (f.md = 0#4 || (pairOk f.ya && pairOk f.yd))) (fun s =>
    let a := getY s t p f.ya.toNat
    let b := getY s t p f.yb.toNat
    let c := getY s t p f.yc.toNat
    let at' (l : List Word32) (i : Nat) : Word32 := l.getD i 0#32
    if f.md = 0#4 then
      setY s t p f.yd.toNat ((List.range 32).flatMap fun i =>
        let (u, w) := ropePair (at' a (2 * i)) (at' a (2 * i + 1)) (at' b (2 * i)) (at' c (2 * i))
        [u, w])
    else
      let a1 := getY s t p (f.ya.toNat + 1)
      let r := (List.range 64).map fun i => ropePair (at' a i) (at' a1 i) (at' b i) (at' c i)
      setY (setY s t p f.yd.toNat (r.map Prod.fst)) t p (f.yd.toNat + 1) (r.map Prod.snd)) s)

/-- The candidates of a pair: values and unsigned indices (R113). -/
def pairCands (s : State) (t p r : Nat) : List (Word32 × Nat) :=
  (getY s t p r).zip ((getY s t p (r + 1)).map BitVec.toNat)

/-- A pair written from candidates. -/
def setPair (s : State) (t p r : Nat) (l : List (Word32 × Nat)) : State :=
  setY (setY s t p r (l.map Prod.fst)) t p (r + 1) (l.map fun x => BitVec.ofNat 32 x.2)

/-- VSORT (R113). -/
def execVsort (t : Fin 12) (v : Fin 8) (f : VFields) (s : State) : Out :=
  let p := vcPart v
  .next (vop t v f 0x88 (fun s => blkCap s (ptPage t p) 1 && f.md = 0#4 && pairOk f.ya && pairOk f.yd) (fun s =>
    setPair s t p f.yd.toNat (candSort (pairCands s t p f.ya.toNat))) s)

/-- VTKM (R113). -/
def execVtkm (t : Fin 12) (v : Fin 8) (f : VFields) (s : State) : Out :=
  let p := vcPart v
  .next (vop t v f 0x89 (fun s => blkCap s (ptPage t p) 1 && f.md = 0#4 && pairOk f.ya && pairOk f.yb && pairOk f.yd)
    (fun s => setPair s t p f.yd.toNat
      ((candSort (pairCands s t p f.ya.toNat ++ pairCands s t p f.yb.toNat)).take 64)) s)

end Sys2Proof.Machine
end

