-- ==== Sys2Proof/Machine/Control.lean ====
section
/-!
DEFINITION. Control instructions of the TCC but LDG and STG, traps, tile events and the halt of a TCC (R115 to R117,
R127 to R131, R138, R523).
-/

namespace Sys2Proof.Machine

open Sys2Proof

/-- A control instruction of the TCC. -/
def tccOp (t : Fin 12) (op : Nat) (g : State → State) (s : State) : State := issue s t 40 op 0 g

/-- The participant number in G[GA][5:0]. -/
def namedPart (s : State) (t : Nat) (f : SFields) : Nat := (getG s t 40 f.ga.toNat).toNat % 64

/-- The participant mask in G[GA][40:0], without the TCC's bit (R115). -/
def namedMask (s : State) (t : Nat) (f : SFields) : List Nat := setBits (getG s t 40 f.ga.toNat).toNat 40

/-- The piece that a participant starts for a group of the period: its first run's entry PC and G1 (R441, R442). -/
def noteStart (s : State) (t p pc g1 tag : Nat) : State :=
  s.setSched { s.sched with groups := s.sched.groups.map fun g =>
    if g.tag = tag then { g with starts := kinsert g.starts (coreId t p) (pc, g1) } else g }

/-- CSTART (R116, R317, R451). DESIGN CHOICE: the PC is a multiple of 8 (R91), so bits [2:0] of G[GB] are ignored as JR ignores
them; ABORTED clears when the next program starts (R134, log 92). -/
def execCstart (t : Fin 12) (f : SFields) (s : State) : Out :=
  .next (tccOp t 0xC0 (fun s =>
    let p := namedPart s t f
    let k := coreOf s (coreId t p)
    let gated := (ptHalf p).any (halfGated s t)
    if 40 ≤ p || k.run != .idle || gated then illegal s t 40
    else
      let pc := (getG s t 40 f.gb.toNat).toNat / 8 * 8
      let g1 := (getG s t 40 f.gd.toNat).toNat
      let s := noteStart (startProgram s t p pc g1 f.imm.toNat) t p pc g1 f.imm.toNat
      nextPc (count s (tccPage t) 0x810 1) t 40) s)

/-- The participants of a list whose last program ended aborted, as a mask. -/
def abortedMask (s : State) (t : Nat) (ps : List Nat) : Nat :=
  maskOf (ps.filter fun p => (coreOf s (coreId t p)).aborted)

/-- Whether every participant of a list is IDLE. -/
def allIdle (s : State) (t : Nat) (ps : List Nat) : Bool := ps.all fun p => (coreOf s (coreId t p)).run = .idle

/-- CWAIT (R115). -/
def execCwait (t : Fin 12) (f : SFields) (s : State) : Out :=
  .next (tccOp t 0xC1 (fun s =>
    let ps := namedMask s t f
    if allIdle s t ps then nextPc (setG s t 40 f.gd.toNat (BitVec.ofNat 64 (abortedMask s t ps))) t 40
    else enterWait s (coreId t 40) (.cwait (maskOf ps) f.gd.toNat)) s)

/-- CWAIT_RELEASE (R115). -/
def execCwaitRelease (t : Fin 12) (s : State) : Out :=
  let k := coreOf s (coreId t 40)
  .next (match k.run, k.wait with
    | .waiting, some (.cwait m rd) =>
      let ps := setBits m 40
      if allIdle s t ps then endWait (setG s t 40 rd (BitVec.ofNat 64 (abortedMask s t ps))) t 40 else s
    | _, _ => s)

/-- The program of a participant ended as aborted (R96, R117): it leaves its wait, an array abandons what has not started and is
flushed. -/
def endAborted (s : State) (t p : Nat) : State :=
  let k := coreOf s (coreId t p)
  let s := dropWaiter s (coreId t p)
  let s := setCore s (coreId t p) { k with
    run := .idle, aborted := true, wait := none, stopReq := false, opcode := 0, opmod := 0, held := none }
  touchPart (if p < 32 then mcAbort s t p else s) t p

/-- A participant that an abort names, an IDLE one too (R117, log 17). -/
def abortPart (s : State) (t p : Nat) : State := count (endAborted s t p) (tccPage t) 0x818 1

/-- A participant aborted where it has a program to abort. -/
def abortRunning (s : State) (t p : Nat) : State :=
  if (coreOf s (coreId t p)).run = .idle then s else abortPart s t p

/-- PC_OUT_OF_STORE (R96): PROG_ERR; the program ends as if it had been aborted, and the TCC halts until RESTART. -/
def execPcOutOfStore (t : Fin 12) (p : Fin 41) (s : State) : Out :=
  let k := coreOf s (cid t p)
  .next (if k.run = .running && storeSize p ≤ k.pc && (p.val != 40 || !(tccOf s t).halted) then
      let s := progErr s t p
      if p.val = 40 then haltTcc s t true else endAborted s t p
    else s)

/-- CABORT (R117). -/
def execCabort (t : Fin 12) (f : SFields) (s : State) : Out :=
  .next (tccOp t 0xC2 (fun s =>
    nextPc (foldList (fun p st => abortPart st t p) (namedMask s t f) s) t 40) s)

/-- A participant that resumes: it runs, or goes back into the wait it was stopped in; a wait granted meanwhile is
released at once (R128, R129). -/
def resumePart (s : State) (c : Nat) (w : Option Wait) : State :=
  let k := coreOf s c
  match w with
  | none => setCore s c { k with run := .running, wait := none }
  | some w =>
    let s := setCore s c { k with run := .waiting, wait := some w }
    match waiterOf s c with
    | some x => match x.ready with
      | some st => finishWait s c st
      | none => s
    | none => s

/-- CRESUME (R128). -/
def execCresume (t : Fin 12) (f : SFields) (s : State) : Out :=
  .next (tccOp t 0xC3 (fun s =>
    let p := namedPart s t f
    let k := coreOf s (coreId t p)
    if 40 ≤ p || k.run != .trapped then illegal s t 40
    else resumePart (nextPc s t 40) (coreId t p) k.wait) s)

/-- Whether one pending cause is taken before another (R130). -/
def TrapCause.before : TrapCause → TrapCause → Bool
  | .fault p a, .fault q b => p < q || (p = q && a < b)
  | .fault _ _, .software _ _ => true
  | .software _ _, .fault _ _ => false
  | .software p _, .software q _ => p < q

/-- The cause that is taken next (R130). -/
def nextCause (l : List TrapCause) : Option TrapCause :=
  l.foldl (fun b c => match b with
    | none => some c
    | some x => if TrapCause.before c x then some c else some x) none

/-- TCC_CAUSE of a cause (R138). -/
def TrapCause.word : TrapCause → Nat
  | .fault p src => p * 2 + src * 2 ^ 8
  | .software p code => 1 + p * 2 + code * 2 ^ 16

/-- The TCC enters the trap of its next pending cause (R129): the second bank is in use while IN_TRAP is 1. The wait that it leaves
is put aside with what has granted it (log 12). -/
def enterTrap (s : State) (t : Nat) (c : TrapCause) (epc : Nat) (saved : Option Wait) : State :=
  let k := tccOf s t
  let s := setTcc s t { k with
    inTrap := true, epc := epc, cause := TrapCause.word c, pend := k.pend.filter (· != c), savedWait := saved }
  let x := coreOf s (coreId t 40)
  let tvec := fld (pget s (tccPage t) 0x080) 18 3 * 8
  let s := setCore s (coreId t 40) { x with pc := tvec, run := .running, wait := none, opcode := 0, opmod := 0, held := none }
  count (if k.inTrap then s else saveWaiter s (coreId t 40) true) (tccPage t) 0x808 1

/-- TRET (R130). -/
def execTret (t : Fin 12) (_f : SFields) (s : State) : Out :=
  .next (tccOp t 0xC6 (fun s =>
    let k := tccOf s t
    if !k.inTrap then illegal s t 40
    else
      match nextCause k.pend with
      | some c => enterTrap s t c k.epc k.savedWait
      | none =>
        let s := setTcc s t { k with inTrap := false, savedWait := none }
        let s := saveWaiter (dropWaiter (setPc s t 40 k.epc) (coreId t 40)) (coreId t 40) false
        resumePart s (coreId t 40) k.savedWait) s)

/-- WAITEV (R523). -/
def execWaitev (t : Fin 12) (f : SFields) (s : State) : Out :=
  .next (tccOp t 0xC7 (fun s =>
    let set := f.imm.toNat % 8
    let k := tccOf s t
    let hit := k.events &&& set
    if set = 0 then illegal s t 40
    else if hit != 0 then
      nextPc (setG (setTcc s t { k with events := k.events - hit }) t 40 f.gd.toNat (BitVec.ofNat 64 hit)) t 40
    else enterWait s (coreId t 40) (.event set f.gd.toNat)) s)

/-- WAITEV_RELEASE (R523). -/
def execWaitevRelease (t : Fin 12) (s : State) : Out :=
  let x := coreOf s (coreId t 40)
  .next (match x.run, x.wait with
    | .waiting, some (.event set rd) =>
      let k := tccOf s t
      let hit := k.events &&& set
      if hit = 0 then s
      else endWait (setG (setTcc s t { k with events := k.events - hit }) t 40 rd (BitVec.ofNat 64 hit)) t 40
    | _, _ => s)

/-- A tile event raised (R523): 0 PERIOD_START, 1 HOST_SIGNAL, 2 REPLAY_REQUEST. -/
def tileEvent (s : State) (t ev : Nat) : State :=
  let k := tccOf s t
  setTcc s t { k with events := k.events ||| 2 ^ ev }

/-- CORE_SOURCE_TRAP (R128): a core on whose page a trap-reaction source was set stops at its next boundary, or at
once in a wait. -/
def execCoreSourceTrap (t : Fin 12) (p : Fin 40) (s : State) : Out :=
  let c := coreId t p
  let k := coreOf s c
  .next (if k.stopReq && (k.run = .running || k.run = .waiting) then
      setCore s c { k with run := .trapped, stopReq := false, held := none }
    else s)

/-- TCC_CTL.HALT written (R138): 1 halts at the next boundary; 0 lets the TCC run, unless only RESTART does.
DESIGN CHOICE: a TCC that waits shows HALTED at once, and its wait may end while it is halted (log 122). -/
def haltWrite (s : State) (t : Nat) (halt : Bool) : State :=
  let k := tccOf s t
  let x := coreOf s (coreId t 40)
  if halt then psetBits (setTcc s t { k with halted := true }) (tccPage t) 0x098 1
  else if k.locked then s
  else
    let s := pclrBits (setTcc s t { k with halted := false, fresh := false }) (tccPage t) 0x098 1
    let s := if x.run = .idle then setCore s (coreId t 40) { x with run := .running } else s
    if k.fresh then setPc s t 40 (fld (pget s (tccPage t) 0x09C) 18 3 * 8) else s

/-- TCC_HALT_WRITE (R138). -/
def tccHaltReg (t : Fin 12) (halt : Bool) (s : State) : State :=
  blockWrite s (tccPage t) fun s => haltWrite s t halt

/-- TCC_CTL.RESTART (R138, R523): IN_TRAP, every pending cause and the pending events clear; the PC takes TCC_BOOT. -/
def tccRestart (s : State) (t : Nat) : State :=
  let k := tccOf s t
  let s := dropWaiters s (coreId t 40)
  let s := setTcc s t { k with inTrap := false, pend := [], events := 0, locked := false, nested := false, savedWait := none, fresh := false }
  let x := coreOf s (coreId t 40)
  setCore s (coreId t 40) { x with
    pc := fld (pget s (tccPage t) 0x09C) 18 3 * 8, wait := none, opcode := 0, opmod := 0, held := none
    run := if x.run = .waiting then .running else x.run }

/-- TCC_RESTART (R138). -/
def tccRestartWrite (t : Fin 12) (s : State) : State :=
  blockWrite s (tccPage t) fun s => tccRestart s t

/-- Groups of a plan with a program on a tile have no commit point any more. -/
def spoilTile (s : State) (t : Nat) : State :=
  let used (g : StepGroup) : Bool := (kget .reset s.plans g.slot).code.any fun c => c.tile = t
  s.setSched { s.sched with
    groups := s.sched.groups.map fun g => if g.fate = .running && used g then { g with noCommit := true } else g }

/-- Vexondane's response to a nested trap (R449): every participant aborted, RESTART, HALT 0, one strike on the TCC. -/
def nestResponse (s : State) (t : Nat) : State :=
  let s := foldList (fun p st => abortPart st t p) (List.range 40) s
  let s := haltWrite (tccRestart s t) t false
  spoilTile (strike s t 40) t

/-- TCC_TRAP_ENTRY (R127, R129): at an instruction boundary of a TCC that is not halted and not in a trap. A wait is
left, and TRET goes back into it (log 12). A TCC that a nested trap halted gets the response of R449. -/
def execTccTrapEntry (t : Fin 12) (s : State) : Out :=
  let k := tccOf s t
  let x := coreOf s (coreId t 40)
  .next (if k.nested then nestResponse s t
    else match nextCause k.pend with
      | some c => if k.halted || k.inTrap then s else enterTrap s t c x.pc x.wait
      | none => s)

end Sys2Proof.Machine
end

