-- ==== Sys2Proof/Machine/HostQ.lean ====
section
/-!
DEFINITION. Queue pairs: completions, events, interrupts, doorbells and the start of a command (R334 to R344, R458).
-/

namespace Sys2Proof.Machine

open Sys2Proof

/-- A record of n bytes with little-endian fields (offset, size, value) set in it; the rest is 0. -/
def record (n : Nat) (fs : List (Nat × Nat × Nat)) : List Byte :=
  fs.foldl (fun l f => l.take f.1 ++ leBytes f.2.1 f.2.2 ++ l.drop (f.1 + f.2.1)) (List.replicate n 0#8)

/-- A field of a record. -/
def field (l : List Byte) (off n : Nat) : Nat := leNat ((l.drop off).take n)

/-- Offset in register space of a configuration register of pair q (R350). -/
def qReg (q off : Nat) : Nat := regOff (modPage 9) (0x100 + 0x18 * q + off)

/-- A pair, and the state with it replaced. -/
def pairOf (s : State) (q : Nat) : QPair := kget .reset s.host.pairs q
def setPair' (s : State) (q : Nat) (x : QPair) : State :=
  s.setHost { s.host with pairs := kput .reset s.host.pairs q x }

/-- Entries of the SQ and of the CQ of a pair (R350). -/
def sqSize (s : State) (q : Nat) : Nat := max 1 (fld (regGet s (qReg q 0x10)) 11 0) + 1
def cqSize (s : State) (q : Nat) : Nat := max 1 (fld (regGet s (qReg q 0x10)) 23 12) + 1

/-- CQ_OVF and SQ_ERR of a pair (R350), W1C bits of page 10. -/
def qStatBit (s : State) (q bit : Nat) : State := psetBits s (modPage 10) (0x080 + 0x10 * q + 8) (2 ^ bit)

/-- A completion discarded and counted (R342, R346). -/
def cqLost (s : State) (q : Nat) : State :=
  let x := pairOf s q
  count (setPair' s q { x with lost := x.lost + 1 }) (modPage 1) 0x800 1

/-- Entries of a CQ that the host has not consumed. -/
def cqDepth (s : State) (q : Nat) : Nat :=
  let x := pairOf s q
  (x.cqTail + cqSize s q - x.cqHead) % cqSize s q

/-- Whether a CQ is full: its tail stands one behind its head. DEDUCED (log 18). -/
def cqFull (s : State) (q : Nat) : Bool := cqDepth s q + 1 = cqSize s q

/-- The vector of a CQ signalled (R344). -/
def cqSignal (s : State) (q : Nat) : State :=
  let s := setPair' s q { pairOf s q with unsig := 0 }
  msixSignal s (min 191 (fld (regGet s (qReg q 0x14)) 7 0))

/-- Whether the coalescing window of a CQ has ended: COAL_US after its oldest unsignalled entry (R344, R400). -/
def coalesceDue (s : State) (q : Nat) : Bool :=
  let irq := regGet s (qReg q 0x14)
  bitOf irq 24 && (pairOf s q).unsig != 0 && (pairOf s q).oldest + fld irq 23 16 * 1000 ≤ s.clock.now

/-- An entry written at the tail with its PHASE, and the interrupt it is due (R341, R344). A window that has ended is signalled
before. -/
def cqWrite (s : State) (q : Nat) (e : List Byte) : State :=
  let s := if coalesceDue s q then cqSignal s q else s
  let x := pairOf s q
  let e := e.set 7 (BitVec.ofNat 8 (b2n x.phase))
  let wrap := x.cqTail + 1 = cqSize s q
  let s := setPair' s q { x with
    posted := kinsert x.posted x.cqTail e
    cqTail := if wrap then 0 else x.cqTail + 1
    phase := if wrap then !x.phase else x.phase
    oldest := if x.unsig = 0 then s.clock.now else x.oldest
    unsig := x.unsig + 1 }
  let irq := regGet s (qReg q 0x14)
  let cnt := fld irq 15 8
  if bitOf irq 24 && (cnt = 0 || cnt ≤ cqDepth s q) then cqSignal s q else s

/-- An entry posted (R342): discarded on a disabled pair, held for a full CQ, lost when the hold is full. -/
def cqPost (s : State) (q : Nat) (e : List Byte) : State :=
  let x := pairOf s q
  if !x.en then count s (modPage 1) 0x800 1
  else if cqFull s q || x.held != [] then
    if x.held.length < 64 then setPair' s q { x with held := x.held ++ [e] }
    else raise (qStatBit (cqLost s q) q 24) (modPage 1) 4
  else cqWrite s q e

/-- A command completion posted (R341). -/
def completeNow (s : State) (q cid status : Nat) (d : List Nat) : State :=
  cqPost s q (record 64 [(1, 1, status), (2, 2, cid), (4, 1, q), (8, 8, s.clock.now),
    (0x10, 4, d.getD 0 0), (0x14, 4, d.getD 1 0), (0x18, 4, d.getD 2 0)])

/-- Completions of a pair posted as far as they are due in fetch order (R336). -/
def flushDone (q : Nat) : List (Nat × Option (Nat × List Nat)) → State → State
  | (cid, some (status, d)) :: l, s => flushDone q l (completeNow (setPair' s q { pairOf s q with opens := l }) q cid status d)
  | _, s => s

/-- A result put at the oldest open command of a CID; behind the open ones where none has it. -/
def putDone (cid : Nat) (r : Nat × List Nat) : List (Nat × Option (Nat × List Nat)) → List (Nat × Option (Nat × List Nat))
  | [] => [(cid, some r)]
  | x :: l => if x.1 = cid && x.2.isNone then (cid, some r) :: l else x :: putDone cid r l

/-- The completion of a command that completes in fetch order: while an earlier one of its queue is open it waits (R336). -/
def complete (s : State) (q cid status : Nat) (d : List Nat) : State :=
  let x := pairOf s q
  if x.opens.isEmpty then completeNow s q cid status d
  else
    let l := putDone cid (status, d) x.opens
    flushDone q l (setPair' s q { x with opens := l })

/-- A command of a pair that completes later, in its turn (R336). -/
def keepOpen (s : State) (q cid : Nat) : State :=
  setPair' s q { pairOf s q with opens := (pairOf s q).opens ++ [(cid, none)] }

/-- The pairs that take events (R342). -/
def evtPairs (s : State) : List Nat :=
  (List.range 64).filter fun q => (pairOf s q).en && bitOf (regGet s (qReg q 0x10)) 25

/-- Pieces of a list, n at a time, with fuel. -/
def chunksOf {α : Type} (n : Nat) : Nat → List α → List (List α)
  | 0, _ => []
  | k + 1, l => if l.isEmpty then [] else l.take n :: chunksOf n k (l.drop n)

/-- An event with its sequence indices, posted to one CQ (R341 to R343). -/
def postEvent (s : State) (q evt : Nat) (fs : List (Nat × Nat × Nat)) (seqs : List Nat) : State :=
  let cs := chunksOf 24 (seqs.length + 1) seqs
  let s := cqPost s q (record 64 ([(0, 1, 3), (1, 1, evt), (2, 2, cs.length), (8, 8, s.clock.now)] ++ fs))
  foldList (fun (x : Nat × List Nat) st =>
    cqPost st q (record 64 ([(0, 1, 4), (2, 2, x.1)] ++ ((List.range x.2.length).zip x.2).map fun y => (8 + 2 * y.1, 2, y.2))))
    ((List.range cs.length).zip cs) s

/-- An event posted to every CQ that takes events. -/
def event (s : State) (evt : Nat) (fs : List (Nat × Nat × Nat)) (seqs : List Nat) : State :=
  foldList (fun q st => postEvent st q evt fs seqs) (evtPairs s) s

/-- Service state of the module (R458, R499): 0 STARTING, 1 HELD, 2 READY, 3 REPAIR, 4 NO_CONFIG. -/
def svcState (s : State) : Nat := fld (pget s (modPage 5) 0x080) 2 0

/-- Which commands of the table of R458 a command belongs to. -/
inductive CmdClass where
  | load
  | held
  | nop
  | other
  deriving DecidableEq, Repr

/-- Whether a command runs in the service state (R458). -/
def cmdServed (st : Nat) : CmdClass → Bool
  | .load => st = 2
  | .other => st = 2
  | .held => st = 2 || st = 1
  | .nop => st != 0

/-- Whether a submission entry spells a command (R337): its OPC, its CID and its operands by offset, size and value. Reserved bytes
are the host's to keep at 0 (log 113). -/
def spells (e : List Byte) (opc : Nat) (cid : BitVec 16) (fs : List (Nat × Nat × Nat)) : Bool :=
  field e 0 1 = opc && field e 2 2 = cid.toNat && fs.all fun f => field e f.1 f.2.1 = f.2.2

/-- Whether the module loads or unloads now (R151, R156). -/
def loadBusy (s : State) : Bool := (List.range 4).any fun i => (planOf s i).state = .loading || (planOf s i).unload.isSome

/-- The status of a LOAD_PLAN that the module does not serve: BUSY before NOT_READY (R155). -/
def loadRefusal (s : State) (e : List Byte) : Nat × List Nat :=
  let slot := field e 0x18 1
  if loadBusy s || (slot < 4 && (planOf s slot).state != .empty) then (0x01, [slot]) else (0x02, [])

/-- The oldest fetched command of a pair starts (R336, R458): nothing where its entry spells another command (log 4). Of those not
served, LOAD_PLAN, UNLOAD_PLAN and DMA complete in any order. -/
def hostCmd (q : Fin 64) (cid : BitVec 16) (opc : Nat) (fs : List (Nat × Nat × Nat)) (c : CmdClass) (f : State → State)
    (s : State) : State :=
  let x := pairOf s q
  match x.fetched with
  | e :: l =>
    if !x.en || x.stopped || !spells e opc cid fs then s
    else
      let s := setPair' s q { x with fetched := l }
      if cmdServed (svcState s) c then f s
      else
        let post := if [0x01, 0x02, 0x20].contains opc then completeNow else complete
        let r := if c = .load then loadRefusal s e else (0x41, [])
        post s q cid.toNat r.1 r.2
  | [] => s

/-- A MAINT command starts (R337, R474). -/
def maintCmd (q : Fin 64) (cid : BitVec 16) (oper : Nat) (fs : List (Nat × Nat × Nat)) (f : State → State) (s : State) : State :=
  hostCmd q cid 0x30 ((0x08, 1, oper) :: fs) .held f s

/-- NOP_COMMAND (R337). -/
def execNopCommand (q : Fin 64) (cid : BitVec 16) (s : State) : Out :=
  .next (hostCmd q cid 0x3F [] .nop (fun s => complete s q cid.toNat 0 []) s)

/-- Whether an operation code of R337 names a command. -/
def opcKnown (opc : Nat) : Bool := [0x01, 0x02, 0x03, 0x04, 0x10, 0x11, 0x12, 0x13, 0x14, 0x20, 0x30, 0x3F].contains opc

/-- INVALID_OPCODE (R337): an unknown OPC, or a MAINT whose OPER names no operation (R474). -/
def execInvalidOpcode (q : Fin 64) (cid : BitVec 16) (opc oper : BitVec 8) (s : State) : Out :=
  .next (if opc = 0x30#8 && (oper = 0#8 || 8#8 < oper) then
      maintCmd q cid oper.toNat [] (fun s => complete s q cid.toNat 0x41 [0x08]) s
    else if opcKnown opc.toNat then s
    else hostCmd q cid opc.toNat [] .nop (fun s => complete s q cid.toNat 0x40 []) s)

/-- Lines taken into the device coherence cache of 256 KiB, where CXL is negotiated (R327, R349). DESIGN CHOICE: the lines used
longest ago leave (log 84). -/
def cacheFill (s : State) (addr n : Nat) : State :=
  if bitOf (pget s (modPage 1) 0x080) 9 then
    let k := min 4096 (divUp (addr % 64 + n) 64)
    let new := (List.range k).map fun i => addr / 64 + i
    s.setHost { s.host with cache := (new ++ s.host.cache.filter fun a => !new.contains a).take 4096 }
  else s

/-- The oldest waiting entry of an SQ fetched; one that answers with an error or poisoned data stops the queue instead (R335). -/
def fetchOne (s : State) (q : Nat) : State :=
  let x := pairOf s q
  match x.waiting with
  | [] => s
  | e :: l =>
    if x.fail = some 0 then raise (qStatBit (setPair' s q { x with stopped := true }) q 25) (modPage 1) 5
    else
      let base := regGet s (qReg q 0) + regGet s (qReg q 4) * 2 ^ 32
      let s := setPair' s q { x with
        waiting := l, fail := x.fail.map (· - 1), fetched := x.fetched ++ [e], sqHead := (x.sqHead + 1) % sqSize s q }
      cacheFill s (base + 64 * x.sqHead) 64

/-- The pair that the fetch takes an entry from: the first in turn, in order of q, that has entries waiting (R335). -/
def fetchTurn (s : State) : Option Nat :=
  ((List.range 64).map fun k => (s.host.turn + k) % 64).find? fun q =>
    (pairOf s q).en && !(pairOf s q).stopped && !(pairOf s q).waiting.isEmpty

/-- Entries fetched one at a time from each queue that has entries waiting, in round-robin order, with fuel (R335). -/
def fetchEntries : Nat → State → State
  | 0, s => s
  | k + 1, s =>
    match fetchTurn s with
    | none => s
    | some q =>
      let s := fetchOne s q
      fetchEntries k (s.setHost { s.host with turn := (q + 1) % 64 })

/-- Entries of an SQ from its tail up to a new one (R335). -/
def newEntries (n tail v : Nat) : Nat := (v + n - tail) % n

/-- SQ_TAIL (R335): the entries that the host has written up to the new tail wait, and are fetched; entry `bad` of them, counted from
the head, answers with an error. A tail outside the queue stops it. DESIGN CHOICE: a fetch takes no time (log 101). -/
def sqTail (q : Fin 64) (tail : BitVec 12) (entries : List (List Byte)) (bad : Option (BitVec 12)) (s : State) : State :=
  let x := pairOf s q
  if !x.en || x.stopped then s
  else if sqSize s q ≤ tail.toNat then qStatBit (setPair' s q { x with stopped := true }) q 25
  else
    let n := newEntries (sqSize s q) x.sqTail tail.toNat
    let l := (List.range n).map fun i => entries.getD i (List.replicate 64 0#8)
    let s := setPair' s q { x with sqTail := tail.toNat, waiting := x.waiting ++ l, fail := bad.map BitVec.toNat }
    fetchEntries (((List.range 64).map fun p => (pairOf s p).waiting.length).sum) s

/-- Held completions written while the CQ has room, with fuel (R342). -/
def cqDrain (s : State) (q : Nat) : Nat → State
  | 0 => s
  | k + 1 =>
    let x := pairOf s q
    match x.held with
    | [] => s
    | e :: l => if cqFull s q then s else cqDrain (cqWrite (setPair' s q { x with held := l }) q e) q k

/-- CQ_HEAD (R341): entries up to the new head are consumed. A head outside the queue is ignored (log 19). -/
def cqHeadWrite (q : Fin 64) (head : BitVec 12) (s : State) : State :=
  let x := pairOf s q
  if x.en && head.toNat < cqSize s q then setPair' s q { x with cqHead := head.toNat } else s

/-- CQ_ROOM_POST (R342): a CQ with room takes its held completions; where some were lost, one CQ_LOST
event goes to every CQ that takes events. -/
def execCqRoomPost (q : Fin 64) (s : State) : Out :=
  .next (if !(pairOf s q).en || cqFull s q then s
    else
      let s := cqDrain s q 64
      let x := pairOf s q
      if x.lost != 0 && x.held = [] && !cqFull s q then
        event (setPair' s q { x with lost := 0 }) 4 [(0x14, 4, x.lost)] []
      else s)

/-- The completion of a command that was due later: none where the command has completed as ABORTED (R334). -/
def completeTicket (s : State) (k : Ticket) (status : Nat) (d : List Nat) : State :=
  if k.gone then s else completeNow s k.pair k.cid status d

/-- IRQ_COALESCE_TIMEOUT (R344). -/
def execIrqCoalesceTimeout (q : Fin 64) (s : State) : Out :=
  .next (if coalesceDue s q then cqSignal s q else s)

/-- Whether the cause of a vector is still pending (R344): a CQ that names it has entries beyond its head, or a source
with the interrupt reaction is set on one of its pages. DEDUCED (log 20). -/
def vecCause (s : State) (v : Nat) : Bool :=
  if v < 192 then
    (List.range 64).any fun q =>
      let irq := regGet s (qReg q 0x14)
      (pairOf s q).en && bitOf irq 24 && min 191 (fld irq 7 0) = v && cqDepth s q != 0
  else
    (stickySources s).any fun x => bitOf (faultReact s x.1 x.2) 0 &&
      (faultVector x.1 = v || (v = 209 && settingClass s x.1 x.2 = 2))

/-- A pending message of an unmasked vector sent (R344). -/
def msixRelease (s : State) (v : Nat) : State :=
  if s.host.msixPend.contains v && !vecMasked s v then
    let s' := s.setHost { s.host with msixPend := s.host.msixPend.filter (· != v) }
    if vecCause s v then msixSignal s' v else s'
  else s

/-- MSIX_UNMASK (R344): the Mask bit of a vector, or the Function Mask, is written: to 1 it masks, to 0 it unmasks. -/
def msixUnmask (v : Option (Fin 256)) (mask : Bool) (s : State) : State :=
  match v with
    | some v =>
      if mask then regSet s (0x10000 + 16 * v.val + 12) (setBitN (regGet s (0x10000 + 16 * v.val + 12)) 0 true)
      else msixRelease (regSet s (0x10000 + 16 * v.val + 12) (setBitN (regGet s (0x10000 + 16 * v.val + 12)) 0 false)) v
    | none =>
      if mask then s.setHost { s.host with fnMask := true } else
      let s := s.setHost { s.host with fnMask := false }
      foldList (fun v st => msixRelease st v) s.host.msixPend s

end Sys2Proof.Machine
end

