-- ==== Sys2Proof/Machine/Image.lean ====
section
/-!
DEFINITION. Plauth images: their parts as read from memory, and the fit check of R155 over them (R142 to R149, R157,
R160, R164, R181).
-/

namespace Sys2Proof.Machine

open Sys2Proof

/-- A refusal: code and details (R155). -/
structure Refuse where
  code : Nat
  d : List Nat
  deriving DecidableEq, Repr

/-- The detail word that names nothing (R155). -/
def noSect : Nat := 0xFFFFFFFF

/-- A check that fails refuses. -/
def check (ok : Bool) (code : Nat) (d : List Nat) : Option Refuse := if ok then none else some ⟨code, d⟩

/-- The first failure of a list of checks. -/
def firstFail : List (Option Refuse) → Option Refuse
  | [] => none
  | some r :: _ => some r
  | none :: l => firstFail l

/-- A section of the section table (R144), with its bytes. -/
structure Sect where
  type : Nat
  count : Nat
  off : Nat
  size : Nat
  crc : Nat
  bytes : List Byte
  deriving DecidableEq, Repr

/-- A section-table entry (R144). -/
def parseSect (e : List Byte) : Sect := ⟨field e 0 2, field e 4 4, field e 8 8, field e 0x10 8, field e 0x18 4, []⟩

/-- Whether the second half of a guarded record is the complement of the first (R439). -/
def guarded (l : List Byte) (n : Nat) : Bool := (l.drop n).take n = (l.take n).map fun b => ~~~b

/-- A manifest (R146). -/
def parseManifest (b : List Byte) : Manifest :=
  { tMin := field b 0 4, pFloor := field b 4 2, seqMax := field b 6 2, activeMax := field b 8 2
    chunkMax := field b 0x0A 2, kvPage := field b 0x0C 4, kvBonded := field b 0x10 8, kvLpddr := field b 0x18 8
    listMax := field b 0x20 4, pcb := field b 0x24 8
    regions := (List.range (min (field b 0x2C 4) (b.length / 24))).map fun i =>
      let r := (b.drop (0x30 + 24 * i)).take 24
      ⟨field r 0 1, field r 1 1, bitOf (field r 2 2) 0, bitOf (field r 2 2) 1, bitOf (field r 2 2) 2, field r 8 8,
        field r 0x10 8⟩ }

/-- CODE records of a section, from a position on (R148): each with the offset of its program. -/
def parseCode (off : Nat) (b : List Byte) : Nat → Nat → List CodeRec
  | 0, _ => []
  | k + 1, p =>
    let r := (b.drop p).take 32
    let len := field r 8 4
    ⟨field r 0 1, field r 1 1, field r 2 2, field r 4 4, len, field r 0x0C 4, field r 0x10 4, off + p + 32⟩ ::
      parseCode off b k (p + divUp (32 + len) 128 * 128)

/-- Whether the CODE records of a section lie inside it. -/
def codeFits (b : List Byte) : Nat → Nat → Bool
  | 0, p => p ≤ b.length
  | k + 1, p => p + 32 ≤ b.length && codeFits b k (p + divUp (32 + field ((b.drop p).take 32) 8 4) 128 * 128)

/-- A WEIGHTS record (R149). -/
def parseWeight (b : List Byte) (i : Nat) : WeightRec :=
  let r := (b.drop (48 * i)).take 48
  ⟨field r 0 1, field r 1 1, field r 2 2, bitOf (field r 4 2) 0, bitOf (field r 4 2) 1, field r 8 8, field r 0x10 8,
    field r 0x18 8, field r 0x20 4⟩

/-- A VARIANTS record (R157). -/
def parseLayer (b : List Byte) (i : Nat) : LayerVar :=
  let r := (b.drop (8 * i)).take 8
  ⟨field r 0 2, bitOf (field r 2 1) 0, bitOf (field r 2 1) 1, field r 3 1, field r 4 1⟩

/-- A VARIANT_REQ record (R160). -/
def parseReq (b : List Byte) (i : Nat) : VarReq :=
  let r := (b.drop (64 * i)).take 64
  ⟨field r 0 1, field r 1 1 = 1, field r 2 2, (List.range 12).map (fun t => field r (4 + 4 * t) 4),
    (List.range 12).map fun t => field r (0x34 + t) 1⟩

/-- SBUF_INIT records of a section (R145): DA, length and image offset of the bytes. -/
def parseSbuf (off : Nat) (b : List Byte) : Nat → Nat → List (Nat × Nat × Nat)
  | 0, _ => []
  | k + 1, p =>
    let len := field ((b.drop p).take 16) 8 8
    (field ((b.drop p).take 8) 0 8, len, off + p + 16) :: parseSbuf off b k (p + divUp (16 + len) 128 * 128)

/-- Whether the SBUF_INIT records of a section lie inside it. -/
def sbufFits (b : List Byte) : Nat → Nat → Bool
  | 0, p => p ≤ b.length
  | k + 1, p => p + 16 ≤ b.length && sbufFits b k (p + divUp (16 + field ((b.drop p).take 16) 8 8) 128 * 128)

/-- A CHAIN record (R164). -/
def parseChain (b : List Byte) : ChainRec :=
  ⟨field b 0 1, field b 1 1, field b 2 2, field b 4 2, field b 6 2, field b 8 2, field b 0x0A 1, field b 0x0B 1, field b 0x0C 2,
    field b 0x10 4, field b 0x14 4⟩

/-- DISPATCH records of a section, from a position on (R181). -/
def parseDisp (b : List Byte) : Nat → Nat → List DispRec
  | 0, _ => []
  | k + 1, p =>
    let r := b.drop p
    let n := field r 2 2
    ⟨field r 0 2, field r 4 1, field r 8 8, (List.range n).map fun e =>
      ⟨field r (0x10 + 8 * e) 1, field r (0x11 + 8 * e) 1, field r (0x12 + 8 * e) 1, field r (0x13 + 8 * e) 1,
        field r (0x14 + 8 * e) 4⟩⟩ :: parseDisp b k (p + 16 + 8 * n)

/-- Whether the DISPATCH records of a section lie inside it. -/
def dispFits (b : List Byte) : Nat → Nat → Bool
  | 0, p => p ≤ b.length
  | k + 1, p => p + 16 ≤ b.length && dispFits b k (p + 16 + 8 * field (b.drop p) 2 2)

/-- An image as read: header, sections, and their records with section and record numbers. -/
structure Image where
  hdr : List Byte
  table : List Byte
  sects : List Sect
  deriving DecidableEq, Repr

/-- Sections of a type, with their numbers. -/
def Image.ofType (m : Image) (ty : Nat) : List (Nat × Sect) :=
  ((List.range m.sects.length).zip m.sects).filter fun x => x.2.type = ty

/-- Records tagged with section and record number. -/
def numbered {α : Type} (i : Nat) (l : List α) : List (Nat × Nat × α) :=
  ((List.range l.length).zip l).map fun x => (i, x.1, x.2)

def Image.codes (m : Image) : List (Nat × Nat × CodeRec) :=
  (m.ofType 2).flatMap fun x => numbered x.1 (parseCode x.2.off x.2.bytes x.2.count 0)

def Image.weightRecs (m : Image) : List (Nat × Nat × WeightRec) :=
  (m.ofType 3).flatMap fun x => numbered x.1 ((List.range x.2.count).map (parseWeight x.2.bytes))

def Image.layerRecs (m : Image) : List (Nat × Nat × LayerVar) :=
  (m.ofType 4).flatMap fun x => numbered x.1 ((List.range x.2.count).map (parseLayer x.2.bytes))

def Image.reqRecs (m : Image) : List (Nat × Nat × VarReq) :=
  (m.ofType 5).flatMap fun x => numbered x.1 ((List.range x.2.count).map (parseReq x.2.bytes))

def Image.dispRecs (m : Image) : List (Nat × Nat × DispRec) :=
  (m.ofType 6).flatMap fun x => numbered x.1 (parseDisp x.2.bytes x.2.count 0)

def Image.sbufRecs (m : Image) : List (Nat × Nat × Nat × Nat × Nat) :=
  (m.ofType 7).flatMap fun x => numbered x.1 (parseSbuf x.2.off x.2.bytes x.2.count 0)

def Image.manifest (m : Image) : Manifest :=
  match m.ofType 1 with
  | x :: _ => parseManifest x.2.bytes
  | [] => .empty

def Image.chainRec (m : Image) : Option ChainRec := ((m.ofType 8).head?).map fun x => parseChain x.2.bytes

/-- REQ_CAP (R147). -/
def Image.reqCap (m : Image) : Nat := field m.hdr 0x18 8

/-! Places. -/

/-- Whether two half-open ranges share an element. -/
def overlaps (a al b bl : Nat) : Bool := a < b + bl && b < a + al && al != 0 && bl != 0

/-- The tile-local range of the store or SRAM that holds an address: first byte and end (R99). -/
def tlaRoom (a : Nat) : Nat × Nat :=
  match tlaStore a with
  | some p => (storeTla p, storeTla p + storeSize p)
  | none => (0, 0x1000000)

/-- Whether a region's first byte lies in the memory of its kind (R146). -/
def regionHome (s : State) (r : Region) : Bool :=
  match r.kind, daKind r.addr with
  | 1, .bonded _ _ _ => true
  | 2, .lpddr a q => q < regionTop s a
  | 3, .shared _ _ => true
  | 4, _ => tlaMapped r.addr
  | _, _ => false

/-- Whether a record of bytes lies inside a region of a kind. -/
def insideRegion (m : Manifest) (kind tile a n : Nat) : Bool :=
  m.regions.any fun r => r.kind = kind && (kind != 4 || r.tile = tile) && r.addr ≤ a && a + n ≤ r.addr + r.len

/-- Regions of a kind of every resident plan. -/
def residentRegions (s : State) (kind : Nat) : List Region :=
  s.plans.flatMap fun p => if p.2.state = .empty then [] else p.2.man.regions.filter fun r => r.kind = kind

/-- Whether two records may land at the same place (R160): one serves RELOAD variants only, all above every variant of
the other. -/
def mayShare (reqs : List VarReq) (a b : Nat) : Bool :=
  let above (x y : Nat) : Bool :=
    (setBits x 16).all fun v =>
      (reqs.any fun q => q.id = v && q.reload) && (setBits y 16).all fun w => w < v
  above a b || above b a

/-- Pairs of records, earlier with later. -/
def pairsOf {α : Type} : List α → List (α × α)
  | [] => []
  | a :: l => l.map (fun b => (a, b)) ++ pairsOf l

/-- Whether two golden-backed or owned ranges are adjacent. -/
def mergedCount (rs : List (Nat × Nat × Nat)) : Nat :=
  (rs.filter fun r => !(rs.any fun q => q.1 + q.2.1 = r.1 && q.2.2 + q.2.1 = r.2.2)).length

/-! Units in service (R161). -/

/-- Whether a unit is quarantined. -/
def quarantined (s : State) (t u : Nat) : Bool := (unitOf s t u).quarantined

/-- Whether a tile is in service for a plan (R161). -/
def tileServes (s : State) (t : Nat) : Bool := tileSvc s t = 0 && !quarantined s t 40 && baseUp s (tileDie t)

/-- Whether a participant is exposed and not quarantined. -/
def partServes (s : State) (t p : Nat) : Bool :=
  tileServes s t && exposed s t p && !quarantined s t p

/-- The participants that a variant names on a tile. -/
def reqParts (v : VarReq) (t : Nat) : List Nat :=
  setBits (v.mc.getD t 0) 32 ++ (setBits (v.vc.getD t 0) 8).map (32 + ·)

/-- Whether a variant uses a tile. -/
def reqTile (v : VarReq) (t : Nat) : Bool := bitOf v.tiles t || !(reqParts v t).isEmpty

/-- The first unmet unit of a variant (R161), as tile × 0x100 + participant. -/
def reqUnmet (s : State) (v : VarReq) : Option Nat :=
  ((List.range 12).filter (reqTile v)).findSome? fun t =>
    if !tileServes s t then some (t * 0x100 + 40)
    else ((reqParts v t).find? fun p => !partServes s t p).map fun p => t * 0x100 + p

/-- The usable variant with the lowest ID from a number on (R161, R162). -/
def usableFrom (s : State) (reqs : List VarReq) (lo : Nat) : Option VarReq :=
  reqs.find? fun v => lo ≤ v.id && (reqUnmet s v).isNone

/-! The fit check (R155). -/

/-- The checks of the header that come before the table's order (R155, items 2 to 5). -/
def checkHeader (m : Image) (size : Nat) : Option Refuse :=
  let h := m.hdr
  let n := field h 0x14 2
  let t := field h 0x20 8
  let mans := m.ofType 1
  firstFail [
    check (field h 0 4 = 0x48544C50 && guarded h 64) 0x03 [noSect, noSect],
    check (field h 4 2 = 0x0100 && field h 6 2 = 0x0080) 0x04 [field h 4 2],
    check (field h 8 8 = size) 0x05 [noSect, noSect, field h 8 8 % 2 ^ 32],
    check (2 ≤ n && n ≤ 64 && t % 128 = 0 && t + 32 * n ≤ size && mans.length = 1 &&
      mans.all fun x => x.2.off + x.2.size ≤ size) 0x05 [noSect, noSect],
    check (crc32 (m.table ++ (mans.flatMap fun x => x.2.bytes)) = field h 0x10 4) 0x03 [noSect, noSect]]

/-- Whether the records that a section counts lie inside it (R144 to R149, R157, R160, R164, R181). -/
def recordsFit (x : Sect) : Bool :=
  match x.type with
  | 1 => 0x30 + 24 * field x.bytes 0x2C 4 ≤ x.size
  | 2 => codeFits x.bytes x.count 0
  | 3 => 48 * x.count ≤ x.size
  | 4 => 8 * x.count ≤ x.size
  | 5 => 64 * x.count ≤ x.size && x.count ≤ 16
  | 6 => dispFits x.bytes x.count 0
  | 7 => sbufFits x.bytes x.count 0
  | 8 => 24 ≤ x.size
  | _ => true

/-- The bytes of a section that its CRC covers: without the weight data that WEIGHTS records point to (R144). -/
def crcBytes (m : Image) (x : Sect) : List Byte :=
  let data := m.weightRecs.map fun w => (w.2.2.data, w.2.2.data + w.2.2.len)
  ((List.range x.bytes.length).zip x.bytes).filterMap fun (i, b) =>
    if data.any fun d => d.1 ≤ x.off + i && x.off + i < d.2 then none else some b

/-- The section checks: CRC of each, alignment, place, overlap, type, and the sections that must be there
(R144, R145). DESIGN CHOICE: a section that lies outside the image, whose bytes cannot be read, is refused for its place and not for
its CRC (log 118). -/
def checkSects (m : Image) (size : Nat) : Option Refuse :=
  let l := (List.range m.sects.length).zip m.sects
  let known (ty : Nat) : Bool := (1 ≤ ty && ty ≤ 8) || 0x8000 ≤ ty
  let one (ty : Nat) : Bool := (m.ofType ty).length = 1
  firstFail [
    firstFail (l.map fun x => check (x.2.type ≥ 0x8000 || size < x.2.off + x.2.size || crc32 (crcBytes m x.2) = x.2.crc) 0x03 [x.1, noSect]),
    firstFail (l.map fun x => check (known x.2.type && x.2.off % 128 = 0 && x.2.off + x.2.size ≤ size &&
      (x.2.type != 1 && x.2.type != 8 || x.2.count = 1) && recordsFit x.2) 0x05 [x.1, noSect]),
    firstFail ((pairsOf l).map fun (x, y) => check (!overlaps x.2.off x.2.size y.2.off y.2.size) 0x05 [y.1, noSect]),
    check (one 4 && one 5 && (m.ofType 2) != [] && (m.ofType 3) != [] && (m.ofType 8).length ≤ 1) 0x05 [noSect, noSect]]

/-- The manifest and its regions (R146, R190). -/
def checkManifest (s : State) (m : Image) : Option Refuse :=
  let i := ((m.ofType 1).head?.map Prod.fst).getD 0
  let f := m.manifest
  let kvB := f.regions.filter fun r => r.kv && r.kind = 1
  let kvS := f.regions.filter fun r => r.kv && r.kind = 3
  firstFail ([
    check (f.tMin % 40 = 0 && 1000000 ≤ f.tMin && f.tMin ≤ 1000000000 && 1 ≤ f.seqMax && f.seqMax ≤ 4096 &&
      f.activeMax ≤ 256 && 1 ≤ f.chunkMax && f.chunkMax ≤ 2048 && f.kvPage % 8192 = 0 &&
      1 ≤ f.listMax && f.listMax ≤ 2 ^ 28) 0x05 [i, 0]] ++
    (numbered i f.regions).map (fun (a, b, r) =>
      check (1 ≤ r.kind && r.kind ≤ 4 && (if r.kind = 4 then r.tile < 12 else r.tile = 0) && r.addr % 128 = 0 &&
        r.len % 128 = 0 && r.len != 0 && regionHome s r) 0x05 [a, b]) ++
    (pairsOf f.regions).map (fun (a, b) =>
      check (a.kind != b.kind || (a.kind = 4 && a.tile != b.tile) || !overlaps a.addr a.len b.addr b.len) 0x05 [i, 0]) ++
    (pairsOf kvB).map (fun (a, b) => check (a.addr / sliceBytes != b.addr / sliceBytes) 0x05 [i, 0]) ++
    [check (f.kvPage = 0 || kvS.length = 1) 0x05 [i, 0]])

/-- A port of a CHAIN record and the node that it faces: 0xFF and 0xFFFF at the end of the chain, else a port and a node
(R164). -/
def chainEnd (last : Bool) (port node : Nat) : Bool :=
  if last then port = 0xFF && node = 0xFFFF else port < 8 && node != 0xFFFF

/-- Whether an NBU_OWNED region and a GOLDEN record meet (R225). -/
def goldenOwned (m : Manifest) (w : WeightRec) : Bool :=
  w.golden && m.regions.any fun r => r.owned && r.kind = 1 && overlaps (sliceBase w.tile w.slice + w.soff) w.len r.addr r.len

/-- The records of every other section (R145, R148, R149, R157, R160, R164, R181, R216, R225). DESIGN CHOICE: LAYER_FIRST and LAYER_LAST
of a CHAIN record are to be in order and at most 1,023 (log 118). -/
def checkRecords (m : Image) (size : Nat) : Option Refuse :=
  let f := m.manifest
  let reqs := m.reqRecs.map fun x => x.2.2
  firstFail (
    (m.codes.map fun (a, b, c) =>
      check (c.tile < 12 && c.part ≤ 40 && c.off % 8 = 0 && c.len % 8 = 0 &&
        (storeSize c.part < c.off + c.len || insideRegion f 4 c.tile (storeTla c.part + c.off) c.len)) 0x05 [a, b]) ++
    (m.weightRecs.map fun (a, b, w) =>
      check (w.tile < 12 && w.slice < 32 && w.soff % 128 = 0 && w.len % 128 = 0 && w.data % 128 = 0 &&
        w.soff + w.len ≤ sliceBytes && (!w.nbLayout || (w.soff % 0x4000 = 0 && w.len % 0x4000 = 0)) &&
        w.data + w.len ≤ size && insideRegion f 1 0 (sliceBase w.tile w.slice + w.soff) w.len && !goldenOwned f w) 0x05 [a, b]) ++
    (m.layerRecs.map fun (a, b, v) =>
      check (v.layer ≤ 1023 && v.array && 1 ≤ v.nbMax && v.nbMax ≤ 4 && 1 ≤ v.concMin && v.concMin ≤ 8) 0x05 [a, b]) ++
    (m.reqRecs.map fun (a, b, v) => check (v.id ≤ 15 && (v.id != 0 || !v.reload) && v.tiles < 4096) 0x05 [a, b]) ++
    ((m.ofType 5).flatMap fun x => (List.range x.2.count).map fun i => check (field x.2.bytes (64 * i + 1) 1 ≤ 1) 0x05 [x.1, i]) ++
    ((m.reqRecs.zip (m.reqRecs.drop 1)).map fun (x, y) => check (x.2.2.id < y.2.2.id) 0x05 [y.1, y.2.1]) ++
    [check ((reqs.head?.map VarReq.id) = some 0) 0x05 [((m.ofType 5).head?.map Prod.fst).getD 0, 0]] ++
    (m.dispRecs.map fun (a, b, d) =>
      check (d.layer ≤ 1023 && 1 ≤ d.experts.length && d.experts.length ≤ 256 && 1 ≤ d.topk && d.topk ≤ 8 &&
        insideRegion f 3 0 d.route 1 &&
        d.experts.all fun x => x.tile < 12 && 1 ≤ x.mcCount && x.mcFirst + x.mcCount ≤ 32) 0x05 [a, b]) ++
    (m.sbufRecs.map fun (a, b, r) => check (r.2.1 != 0 && insideRegion f 3 0 r.1 r.2.1) 0x05 [a, b]) ++
    ((m.ofType 8).map fun x =>
      let c := parseChain x.2.bytes
      check (2 ≤ c.count && c.index < c.count && c.layerFirst ≤ c.layerLast && c.layerLast ≤ 1023 &&
        chainEnd (c.index = 0) c.upPort c.upNode && chainEnd (c.index + 1 = c.count) c.downPort c.downNode) 0x05 [x.1, 0]) ++
    ((pairsOf m.codes).map fun (x, y) =>
      let c := x.2.2
      let d := y.2.2
      check (c.tile != d.tile || c.part != d.part || !overlaps c.off c.len d.off d.len || mayShare reqs c.vmask d.vmask)
        0x05 [y.1, y.2.1]) ++
    ((pairsOf m.weightRecs).map fun (x, y) =>
      let c := x.2.2
      let d := y.2.2
      check (c.tile != d.tile || c.slice != d.slice || !overlaps c.soff c.len d.soff d.len ||
        mayShare reqs c.vmask d.vmask) 0x05 [y.1, y.2.1]))

/-- The limits of the slice controllers' range tables (R280), counted after merging. -/
def checkRanges (s : State) (m : Image) : Option Refuse :=
  let sl := (List.range 12).flatMap fun t => (List.range 32).map fun n => (t, n)
  let base := field m.hdr 0 0
  firstFail (sl.map fun (t, n) =>
    let lo := sliceBase t n
    let g := (m.weightRecs.filterMap fun (_, _, w) =>
        if w.golden && w.tile = t && w.slice = n then some (lo + w.soff, w.len, base + w.data) else none) ++
      (s.store.golden.filterMap fun g =>
        if lo ≤ g.lo && g.lo < lo + sliceBytes then some (g.lo, g.len, g.copy + 2 ^ 50) else none)
    let o := (m.manifest.regions.filterMap fun r =>
        if r.owned && r.kind = 1 && lo ≤ r.addr && r.addr < lo + sliceBytes then some (r.addr, r.len, r.addr) else none) ++
      (s.store.owned.filterMap fun r =>
        if lo ≤ r.lo && r.lo < lo + sliceBytes then some (r.lo, r.hi - r.lo, r.lo) else none)
    check (mergedCount g ≤ 256 && mergedCount o ≤ 64) 0x05 [((m.ofType 1).head?.map Prod.fst).getD 0, 0])

/-- Whether a word of a matrix-core program is an MXA whose operands form no pair of R38 (check 0x07). -/
def badPair (w : Nat) : Bool :=
  w % 256 = 0x40 && !((fmtGroup (fld w 13 10)).isSome && fmtGroup (fld w 13 10) = fmtGroup (fld w 17 14))

/-- The first bad operand pair of a matrix-core program (R155, 0x07). DEDUCED: the weights of an NBU variant are 16-bit elements in the
bank layout (R149), which are of one of the three formats, so that no image fails that half of the check (log 94). -/
def checkPairs (m : Image) : Option Refuse :=
  firstFail (m.codes.map fun (i, _, c) =>
    if 32 ≤ c.part then none
    else
      let sec := (m.sects.getD i ⟨0, 0, 0, 0, 0, []⟩)
      let prog := (sec.bytes.drop (c.data - sec.off)).take c.len
      match (List.range (c.len / 8)).find? fun j => badPair (field prog (8 * j) 8) with
      | some j => some ⟨0x07, [c.tile * 0x100 + c.part, 8 * j]⟩
      | none => none)

/-- A bonded region against its slice and the resident plans (R155, 0x09). -/
def checkBonded (s : State) (m : Image) : Option Refuse :=
  firstFail ((m.manifest.regions.filter fun r => r.kind = 1).map fun r =>
    let t := r.addr / tileBytes
    let n := r.addr % tileBytes / sliceBytes
    let unit := t * 0x100 + n
    let e := r.addr - sliceBase t n + r.len
    match (residentRegions s 1).find? fun q => overlaps r.addr r.len q.addr q.len with
    | some q => if sliceBytes < e then some ⟨0x09, [unit, e, sliceBytes]⟩
        else some ⟨0x09, [unit, e, max r.addr q.addr - sliceBase t n]⟩
    | none => check (e ≤ sliceBytes) 0x09 [unit, e, sliceBytes])

/-- A store's refusal code: 0x0A for a matrix core, 0x0B for the others (R155). -/
def storeCode (a : Nat) : Nat :=
  match tlaStore a with
  | some p => if p < 32 then 0x0A else 0x0B
  | none => 0x0B

/-- Tile-store regions and CODE records against their store and the resident plans (R155, 0x0A and 0x0B). DESIGN CHOICE: the limit of an
overlap is the first byte in the store that both hold (log 118). -/
def checkStores (s : State) (m : Image) (code : Nat) : Option Refuse :=
  let regs := (m.manifest.regions.filter fun r => r.kind = 4).map fun r => (r.tile, r.addr, r.len)
  let codes := m.codes.map fun (_, _, c) => (c.tile, storeTla c.part + c.off, c.len)
  firstFail ((regs ++ codes).map fun (t, a, n) =>
    let (lo, hi) := tlaRoom a
    let unit := match tlaStore a with | some p => t * 0x100 + p | none => 0xFFFF
    if storeCode a != code then none
    else if hi < a + n then some ⟨code, [unit, a + n - lo, hi - lo]⟩
    else
      match (residentRegions s 4).find? fun q => q.tile = t && overlaps a n q.addr q.len with
      | some q => some ⟨code, [unit, a + n - lo, max a q.addr - lo]⟩
      | none => none)

/-- The error-record ring while it is enabled (R501): DA and length. -/
def ringRange (s : State) : Nat × Nat :=
  let cfg := pget s (modPage 6) 0x094
  let slots := max 1 (fld cfg 11 0) + 1
  (sbBase 0 + fld (pget s (modPage 6) 0x090) 27 7 * 128, if bitOf cfg 16 then 384 * slots else 0)

/-- Shared-buffer regions and the plan control block (R155, 0x0C). DESIGN CHOICE: for one in no shared buffer the base die is given as 0xFFFF
(log 118). -/
def checkShared (s : State) (m : Image) : Option Refuse :=
  let l := (m.manifest.regions.filter fun r => r.kind = 3).map (fun r => (r.addr, r.len)) ++ [(m.manifest.pcb, 256)]
  let taken := (residentRegions s 3).map (fun r => (r.addr, r.len)) ++
    (s.plans.filterMap fun p => if p.2.state = .empty then none else some (p.2.man.pcb, 256)) ++ [ringRange s]
  firstFail (l.map fun (a, n) =>
    match daKind a with
    | .shared b o =>
      check (o + n ≤ 0x4000000 && taken.all fun q => !overlaps a n q.1 q.2) 0x0C [b, a % 2 ^ 32]
    | _ => some ⟨0x0C, [0xFFFF, a % 2 ^ 32]⟩)

/-- LPDDR5X regions and the image range, which is held where a record is golden (R153; R155, 0x0D). -/
def checkLpddr (s : State) (m : Image) (da size : Nat) : Option Refuse :=
  let taken := (residentRegions s 2).map (fun r => (r.addr, r.len)) ++ s.store.held.map fun h => (h.lo, h.hi - h.lo)
  let mine := (m.manifest.regions.filter fun r => r.kind = 2).map fun r => (r.addr, r.len)
  let held := if m.weightRecs.any fun x => x.2.2.golden then [(da, size)] else []
  firstFail ((mine.map fun (a, n) =>
    match daKind a with
    | .lpddr b q =>
      check (q + n ≤ regionTop s b && (taken ++ held).all fun x => !overlaps a n x.1 x.2) 0x0D [b, a % 2 ^ 32]
    | _ => some ⟨0x0D, [0xFFFF, a % 2 ^ 32]⟩) ++
    [check (taken.all fun x => !overlaps da size x.1 x.2) 0x0D [(da - 0x10000000000) / 0x4000000000, da % 2 ^ 32]])

/-- Sum of a field over the resident plans. -/
def residentSum (s : State) (f : Manifest → Nat) : Nat :=
  (s.plans.map fun p => if p.2.state = .empty then 0 else f p.2.man).foldl (· + ·) 0

/-- Pages that fit the KV regions of a kind (R155, 0x0F). -/
def kvFit (m : Manifest) (kind : Nat) : Nat :=
  if m.kvPage = 0 then 0
  else ((m.regions.filter fun r => r.kv && r.kind = kind).map fun r => r.len / m.kvPage).foldl (· + ·) 0

/-- The programmed period length in ns (R171). -/
def periodLen (s : State) : Nat := clampN 25000 25000000 (fld (pget s (modPage 11) 0x084) 24 0) * 40

/-- The remaining checks of the table, in its order (R155); 0x14 and 0x15 belong to chain activation. -/
def checkFit (s : State) (m : Image) (da size slot : Nat) : Option Refuse :=
  let f := m.manifest
  let features := fld (pget s (modPage 0) 0x0A0) 8 0
  let missing := (List.range 64).find? fun b => bitOf m.reqCap b && (9 ≤ b || !bitOf features b)
  let reqs := m.reqRecs.map fun x => x.2.2
  let kvBytes (kind : Nat) : Nat := ((f.regions.filter fun r => r.kv && r.kind = kind).map Region.len).foldl (· + ·) 0
  let total := 180 + f.pFloor + residentSum s Manifest.pFloor
  let cap := fld (pget s (modPage 4) 0x080) 10 0
  let seqs := f.seqMax + residentSum s Manifest.seqMax
  let acts := f.activeMax + residentSum s Manifest.activeMax
  firstFail [
    checkSects m size, checkManifest s m, checkRecords m size, checkRanges s m,
    (match missing with | some b => some ⟨0x06, [b, 0xFFFF, features]⟩ | none => none),
    checkPairs m,
    (match usableFrom s reqs 0, reqs with
      | none, v :: _ => some ⟨0x08, [(reqUnmet s v).getD 0]⟩
      | _, _ => none),
    checkBonded s m, checkStores s m 0x0A, checkStores s m 0x0B, checkShared s m, checkLpddr s m da size,
    check (seqs ≤ 4096 && acts ≤ 256) 0x0E [seqs, acts],
    check (f.kvBonded * f.kvPage ≤ kvBytes 1) 0x0F [0, kvFit f 1],
    check (f.kvLpddr * f.kvPage ≤ kvBytes 2) 0x0F [1, kvFit f 2],
    check (f.tMin ≤ periodLen s) 0x10 [f.tMin, periodLen s],
    check (total ≤ cap) 0x11 [total, cap],
    check (slot < 4) 0x12 []]

end Sys2Proof.Machine
end

