-- ==== Sys2Proof/Machine/Sleep.lean ====
section
/-!
DEFINITION. Power states of the module: what a sleep state loses and saves, and the wake (R383 to R389).
-/

namespace Sys2Proof.Machine

open Sys2Proof

/-- The Bellows page. -/
def pwrPage : Nat := modPage 3

/-- PWR_STAT.STATE: 0 ACTIVE, 1 IDLE, 2 DOZE, 3 SLUMBER, 4 HEARTH (R383). -/
def pState (s : State) : Nat := fld (pget s pwrPage 0x094) 2 0

/-- Time spent in the present power state, in whole µs (R403). -/
def countPower (s : State) (t0 t1 : Nat) : State :=
  let n := t1 / 1000 - t0 / 1000
  if n = 0 then s else count s pwrPage (0x800 + 8 * pState s) n

/-- A field of PWR_STAT replaced. -/
def setPwrStat (s : State) (hi lo v : Nat) : State := pset s pwrPage 0x094 (setFld (pget s pwrPage 0x094) hi lo v)

/-- Whether the main converters feed the module. A module that has not been powered counts as powered by its reset. -/
def powered (s : State) : Bool := s.power.mainOn

/-- The registers of core c of a module lost (R91, R384): its program counter holds a lost value within its store, and unlisted
registers hold lost values from here on. DEDUCED: run state, tag and the registers of its page are kept (log 120). -/
def lostCore (e c : Nat) (x : Core) : Core :=
  { x with pc := 8 * ((Config.lostWord64 e (16 + c)).toNat % (storeSize (c % 41) / 8)), g := [], y := [], epoch := e }

/-- Every core's registers lost (R384); arrays and rings are empty. -/
def loseRegs (s : State) : State :=
  let e := s.free + 1
  let s := s.setFree e
  let s := s.setCores ((List.range 492).map fun c => (c, lostCore e c (coreOf s c)))
  let s := foldList (fun k st => landHeld st (k / 32) (k % 32)) (s.mcs.map Prod.fst) s
  (s.setTccs (s.tccs.map fun k => (k.1, { k.2 with bank2 := [] }))).setMcs []

/-- A range of bytes copied, as it stands. -/
def Memory.copyRange (m : Memory) (src dst n : Nat) : Memory :=
  let und := rinter m.undef src (src + n)
  { m with
    cells := (kslice m.cells src (src + n)).foldl (fun l c => kinsert l (c.1 - src + dst) c.2)
      (keraseRange m.cells dst (dst + n))
    undef := und.foldl (fun u r => radd u (r.1 - src + dst) (r.2 - src + dst)) (rdel m.undef dst (dst + n)) }

/-- The stores that HEARTH saves, in the order of the save area: key in memory, bytes, tile and participant (R388). -/
def savedStores : List (Nat × Nat × Nat × Nat) :=
  (List.range 12).flatMap fun t => (List.range 41).map fun p => (tlaKey t (storeTla p), storeSize p, t, p)

/-- The save area (R388): its first DA, where PWR_SAVE.EN is 1. -/
def saveArea (s : State) : Option Nat :=
  if bitOf (pget s pwrPage 0x09C) 31 then
    some (fld (pget s pwrPage 0x098) 31 12 * 4096 + fld (pget s pwrPage 0x09C) 15 0 * 2 ^ 32)
  else none

/-- Bytes of the save area. -/
def saveBytes : Nat := 0x36600000

/-- Whether a range lies wholly in the addressable part of one LPDDR5X region (R27). -/
def inLpddr (s : State) (da n : Nat) : Bool :=
  match daKind da with
  | .lpddr a q => q + n ≤ regionTop s a
  | _ => false

/-- The lines of the save area transferred (R286, R296). -/
def saveMoved (s : State) (da : Nat) (write : Bool) : State :=
  match daKind da with
  | .lpddr a q => lpBulk s a (q / 4096) ((q + saveBytes) / 4096) write
  | _ => s

/-- Every store written to the save area (R388): lines that the host may hold are back-invalidated first (R330), and the area's lines
become good. -/
def saveStores (s : State) (da : Nat) : State :=
  let lines := (s.host.snoop ++ s.host.bisnps.map (·.line)).filter fun l => da / 128 ≤ l && l < (da + saveBytes) / 128
  let s := foldList (fun l st => snoopOut st l) lines s
  let s := saveMoved s da true
  let step (x : Nat × Nat × Nat × Nat) (a : Nat × Memory) : Nat × Memory :=
    (a.1 + x.2.1, (a.2.copyRange x.1 a.1 x.2.1).markGood a.1 x.2.1)
  s.setMem (foldList step savedStores (da, s.mem)).2

/-- A line of the save area that fails its check, and its re-read (R289). -/
def saveLost (s : State) (line : Nat) : State :=
  match daKind (line * 128) with
  | .lpddr a q =>
    let (ch, cda) := regionChan s a q
    lpLineLost (lpCharge s ch cda false) 1 0 ch cda
  | _ => s

/-- One store restored; lines that are not good read as zeros (R289), set SAVE_FAIL and doom the plans with code in it
(R388). -/
def restoreStore (s : State) (src key n t p : Nat) : State :=
  let m := s.mem.copyRange src key n
  let s := s.setMem m
  if rcovers m.good (src / 128) ((src + n) / 128) then s
  else
    let bad := m.good.foldl (fun b r => rdel b r.1 r.2) [(src / 128, (src + n) / 128)]
    let s := s.setMem (bad.foldl (fun m r => m.zeroRange (r.1 * 128 - src + key) ((r.2 - r.1) * 128)) m)
    let s := foldList (fun (r : Nat × Nat) st => foldList (fun i st => saveLost st (r.1 + i)) (List.range (r.2 - r.1)) st) bad s
    let s := raise s pwrPage 2
    s.setPlans (s.plans.map fun x =>
      if x.2.code.any fun c => c.tile = t && c.part = p then (x.1, { x.2 with doomed := true }) else x)

/-- Every store restored from the save area. -/
def restoreStores (s : State) (da : Nat) : State :=
  (foldList (fun (x : Nat × Nat × Nat × Nat) (a : Nat × State) =>
    (a.1 + x.2.1, restoreStore a.2 a.1 x.1 x.2.1 x.2.2.1 x.2.2.2)) savedStores (da, saveMoved s da false)).2

/-- Every half in service put into a state (R384); fenced and parked tiles, and tiles gated by a request (R395), keep theirs. -/
def setHalves (s : State) (code : Nat) : State :=
  foldList (fun t st => setHalf (setHalf st t 0 code) t 1 code)
    ((List.range 12).filter fun t => tileUp s t && pget s (tilePage t 0) 0x01C = 0) s

/-- Every merge buffer, or every gather buffer, written out (R266, R276, R288). -/
def flushSlices (s : State) : State :=
  foldList (fun k st => sliceFlushAll st (k / 32) (k % 32)) (s.store.slices.map Prod.fst) s

def flushLp (s : State) : State := foldList (fun p st => lpFlushAll st p) (s.store.lps.map Prod.fst) s

/-- The LPDDR5X channels in self-refresh, or operating from now on: no refresh has been issued since, and none is in power-down
(R291, R292). -/
def lpEpoch (s : State) : State :=
  foldList (fun p st =>
    let l := lpOf st p
    setLp st p { l with
      chans := l.chans.map fun c => (c.1, { c.2 with lastRef := none, down := false }), epoch := st.clock.now })
    (List.range 16) s

/-- Self-refresh of a tile's slices begun, after their merge buffers and owed refreshes, or left at a fresh epoch (R276). -/
def tileRefresh (s : State) (t : Nat) (on : Bool) : State :=
  foldList (fun n st =>
    let st := if on then sliceFlushAll st t n else st
    let x := sliceOf st t n
    let pg := scPage t n
    let st := count st pg 0x838 ((x.owed.map Prod.snd).foldl (· + ·) 0)
    let st := setSlice st t n { x with owed := [], lastRef := [], epoch := st.clock.now }
    pset st pg 0x08C (setBitN (setFld (pget st pg 0x08C) 18 16 0) 1 on)) (List.range 32) s

/-- Every slice in self-refresh, or out of it; a tile gated by a request stays in it (R276, R384, R395). -/
def selfRefresh (s : State) (on : Bool) : State :=
  foldList (fun t st => tileRefresh st t on)
    ((List.range 12).filter fun t => on || pget s (tilePage t 0) 0x01C != 2 && pget s (tilePage t 0) 0x01C != 3) s

/-- Tile SRAM of every tile lost: it reads 0 after the wake (R384, R385). -/
def loseSram (s : State) : State :=
  s.setMem ((List.range 12).foldl (fun m t => m.zeroRange (tlaKey t 0) 0x1000000) s.mem)

/-- The stores lost once they are saved. -/
def loseStores (s : State) : State :=
  s.setMem ((List.range 12).foldl (fun m t => m.loseRange (tlaKey t 0x1000000) 0x4880000) s.mem)

/-- What a sleep state does once its entry completes (R384, R388). -/
def enterSleep (s : State) (st : Nat) : State :=
  let s := if 2 ≤ st then lpEpoch (flushLp s) else s
  let s := if st = 2 then setHalves s 2 else s
  let s := if 3 ≤ st then loseRegs (selfRefresh s true) else s
  let s := if st = 4 then match saveArea s with
      | some da => saveStores s da
      | none => s
    else s
  let s := if st = 4 then loseStores s else s
  let s := if 3 ≤ st then loseSram (setHalves s 4) else s
  let s := s.setPower { s.power with sleepFrom := some s.clock.now }
  setPwrStat (setPwrStat s 2 0 st) 3 3 0

/-- The halves AWAKE again, each a wake that its tile counts (R324, R384). -/
def wakeHalves (s : State) : State :=
  let t := setHalves s (halfUpCode s)
  foldList (fun k st => if halfState s (k / 2) (k % 2) != 0 && halfState t (k / 2) (k % 2) = 0 then
    count st (tilePage (k / 2) 84) (0x800 + 8 * (k % 2)) 1 else st) (List.range 24) t

/-- FILL regions of resident plans in tile SRAM zeroed (R385): they read 0 already. Halves AWAKE again, stores
restored. -/
def leaveSleep (s : State) : State :=
  let st := pState s
  let s := if 2 ≤ st then lpEpoch (wakeHalves s) else s
  let s := if 3 ≤ st then selfRefresh s false else s
  if st = 4 then match saveArea s with
    | some da => restoreStores s da
    | none => s
  else s

/-- A wake trigger with its cause (R389): latched during entry, without effect while ACTIVE or waking. -/
def wakeTrigger (s : State) (cause : Nat) : State :=
  match s.power.entering, s.power.waking with
  | some _, _ =>
    if bitOf (pget s pwrPage 0x094) 4 then s
    else count (setPwrStat (setPwrStat s 4 4 1) 15 12 cause) pwrPage 0x830 1
  | none, some _ => s
  | none, none =>
    if pState s = 0 then s
    else
      let s := s.setPower { s.power with waking := some (s.clock.now, cause), armed := none }
      setPwrStat (setPwrStat s 3 3 1) 15 12 cause

/-- Bound of the wake of a state in ns (R383). -/
def wakeBound (st : Nat) : Nat := match st with
  | 1 => 200 | 2 => 25000 | 3 => 1500000 | 4 => 40000000 | _ => 0

/-- Bound of the entry of a state in ns (R383). -/
def entryBound (st : Nat) : Nat := match st with
  | 1 => 100 | 2 => 10000 | 3 => 1000000 | 4 => 20000000 | _ => 0

/-- SP_CTRL.RUN. -/
def running (s : State) : Bool := bitOf (pget s (modPage 11) 0x080) 0

/-- The start of the next period, where one follows (R171). -/
def nextStart (s : State) : Option Nat :=
  match s.sched.next with
  | some x => some x
  | none => if running s && s.sched.inPeriod then some (s.sched.start + s.sched.len) else none

/-- Whether a timed wake has passed its deadline, 40 µs before the next period start (R387, R390). -/
def pastDeadline (s : State) (cause : Nat) : Bool :=
  cause = 3 && (match nextStart s with
    | some t => decide (t - 40000 < s.clock.now)
    | none => false)

/-- The wake in progress reaches ACTIVE (R389): restored, with WAKE_LATE past its bound. -/
def wakeDone (s : State) : State :=
  match s.power.waking with
  | none => s
  | some (t0, cause) =>
    let late := decide (t0 + wakeBound (pState s) < s.clock.now) || pastDeadline s cause
    let s := leaveSleep s
    let s := s.setPower { s.power with
      waking := none, sleepFrom := none, slept := s.power.slept + (s.clock.now - s.power.sleepFrom.getD s.clock.now) }
    let s := setPwrStat (setPwrStat s 2 0 0) 3 3 0
    let s := count s pwrPage 0x828 1
    if late then raise s pwrPage 0 else s

/-- The module woken for an access (R347): the access waits, and is served in the same command (log 21). -/
def wakeFor (s : State) (cause : Nat) : State :=
  if pState s = 0 && s.power.entering = none then s
  else
    let s := match s.power.entering with
      | some st =>
        let s := wakeTrigger s cause
        enterSleep (s.setPower { s.power with entering := none }) st
      | none => s
    wakeDone (wakeTrigger (setPwrStat s 4 4 0) cause)

/-- The half of a page's block woken for an access (R489, R317). -/
def pageWake (s : State) (page : Nat) : State :=
  match pagePlace page with
  | .tile t i => match pageHalf i with
    | some h => wakeHalf s t h
    | none => s
  | _ => s

/-- An access to a page: a sleeping module wakes first (R486, R389), and so does a half that is DOWN. -/
def reach (s : State) (page : Nat) : State := pageWake (wakeFor s 1) page

/-- What PWR_SAVE holds after a change (R388, R403): its area while EN is 1; EN falls where the area does not lie in one
region. -/
def refreshSave (s : State) : State :=
  let rest := s.store.held.filter (·.slot != 4)
  match saveArea s with
  | some da =>
    if inLpddr s da saveBytes then s.setStore { s.store with held := rest ++ [⟨4, da, da + saveBytes⟩] }
    else pset (s.setStore { s.store with held := rest }) pwrPage 0x09C (setBitN (pget s pwrPage 0x09C) 31 false)
  | none => s.setStore { s.store with held := rest }

/-- The save area given up where it lies in a region that is remapped (R390). -/
def dropSave (s : State) (a : Nat) : State :=
  match (saveArea s).map daKind with
  | some (.lpddr b _) =>
    if a = b then refreshSave (pset s pwrPage 0x09C (setBitN (pget s pwrPage 0x09C) 31 false)) else s
  | _ => s

/-- SQ_TAIL (R335), which wakes the module (R389). -/
def execSqTail (q : Fin 64) (tail : BitVec 12) (entries : List (List Byte)) (bad : Option (BitVec 12)) (s : State) : Out :=
  .next (sqTail q tail entries bad (wakeFor s 2))

/-- CQ_HEAD (R341), which wakes the module (R389). -/
def execCqHead (q : Fin 64) (head : BitVec 12) (s : State) : Out := .next (cqHeadWrite q head (wakeFor s 2))

/-- MSIX_UNMASK (R344), a register write (R486). -/
def execMsixUnmask (v : Option (Fin 256)) (mask : Bool) (s : State) : Out := .next (msixUnmask v mask (wakeFor s 1))

end Sys2Proof.Machine
end

