-- ==== Sys2Proof/Machine/Plans.lean ====
section
/-!
DEFINITION. Plan slots: load, unload, pinning, signals and RELOAD placement (R140 to R165, R339).
-/

namespace Sys2Proof.Machine

open Sys2Proof

/-- Slots of resident plans. -/
def residentSlots (s : State) : List Nat := (List.range 4).filter fun i => (planOf s i).state != .empty

/-- A slot's state changed with its PLAN_STATE event and its field of SP_PLAN_STATE (R140, R343). When it becomes
FAILED, its sequences that are neither FREE nor ENDED become FAILED (R140, R168). -/
def setSlotState (s : State) (i : Nat) (st : SlotState) (code : Nat) : State :=
  let s := setPlan s i { planOf s i with state := st }
  let s := pset s (modPage 11) 0x0C0 (setFld (pget s (modPage 11) 0x0C0) (4 * i + 3) (4 * i) st.code)
  let s := if st = .failed then
      s.setSeqs (s.seqs.map fun x =>
        if x.2.slot = i && x.2.state != .free && x.2.state != .ended then (x.1, { x.2 with state := .failed }) else x)
    else s
  event s 3 [(0x10, 1, i), (0x11, 1, st.code), (0x12, 1, code)] []

/-- An image read by Vexondane (R151, step 3): header, section table, sections but tool metadata. -/
def readImage (s : State) (da size : Nat) : Image × State :=
  let ((h, _), s) := daRead s (ownReq 0) da 128
  let n := min 64 (field h 0x14 2)
  let toff := field h 0x20 8
  let ((t, _), s) := if toff + 32 * n ≤ size then daRead s (ownReq 0) (da + toff) (32 * n) else (([], .ok), s)
  let heads := (List.range (t.length / 32)).map fun i => parseSect ((t.drop (32 * i)).take 32)
  let (l, s) := foldList (fun (x : Sect) (a : List Sect × State) =>
    if x.off + x.size ≤ size && x.type < 0x8000 then
      let ((b, _), s) := daRead a.2 (ownReq 0) (da + x.off) x.size
      (a.1 ++ [{ x with bytes := b }], s)
    else (a.1 ++ [x], a.2)) heads ([], s)
  (⟨h, t, l⟩, s)

/-- Check 0x0D of the image range, before a byte is read (R155, item 1). -/
def checkRange (s : State) (da size : Nat) : Option Refuse :=
  match daKind da with
  | .lpddr a q =>
    check (q + size ≤ regionTop s a) 0x0D [a, max da (regionBase a + regionTop s a) % 2 ^ 32]
  | _ => some ⟨0x0D, [0xFFFF, da % 2 ^ 32]⟩

/-- This module's node number (R503). -/
def ownNode (s : State) : Nat := fld (pget s (modPage 8) 0x080) 15 0

/-- Whether a named port leads to a named neighbour (R164): none is 0xFF and 0xFFFF. -/
def portLeads (s : State) (port node : Nat) : Bool :=
  if port = 0xFF then node = 0xFFFF
  else port < 8 && fld (pget s (cpPage port) 0x08C) 2 0 = 2 && fld (pget s (cpPage port) 0x08C) 31 16 = node

/-- Check 0x13 (R155, R164). -/
def checkChain (s : State) (c : Option ChainRec) : Option Refuse :=
  match c with
  | none => none
  | some c => check (c.node = ownNode s && portLeads s c.upPort c.upNode && portLeads s c.downPort c.downNode) 0x13
      [c.node, ownNode s]

/-- A plan slot as LOADING leaves it, from the parsed image (R151, step 4). -/
def loadedSlot (m : Image) (v : VarReq) (q cid da size pin : Nat) : PlanSlot :=
  { PlanSlot.reset with
    state := .loading, imageDa := da, imageSize := size, uid := field m.hdr 0x28 8, man := m.manifest
    code := m.codes.map fun x => x.2.2
    weights := m.weightRecs.map fun x => x.2.2
    layers := m.layerRecs.map fun x => x.2.2
    reqs := m.reqRecs.map fun x => x.2.2
    sbuf := m.sbufRecs.map fun x => (x.2.2.1, x.2.2.2.1, x.2.2.2.2)
    disp := m.dispRecs.map fun x => x.2.2
    chain := m.chainRec, variant := v.id, pin := pin, pinOld := pin, load := some ⟨q, cid, false⟩ }

/-- The first check of the operands of LOAD_PLAN that fails: the byte offset of the operand (R337). -/
def loadOperand (da slot pin : Nat) : Option Nat :=
  if da % 4096 != 0 then some 0x08
  else if !(slot < 4 || slot = 0xF) then some 0x18
  else if 3 < pin then some 0x19
  else none

/-- Steps 3 and 4 of a load (R151, R155). -/
def loadPlan (s : State) (q cid da size slot pin : Nat) : State :=
  let s := wakeFor s 6
  match loadOperand da slot pin with
  | some o => completeNow s q cid 0x41 [o]
  | none =>
    if loadBusy s || (slot < 4 && (planOf s slot).state != .empty) then completeNow s q cid 0x01 [slot]
    else
      match checkRange s da size with
      | some r => completeNow s q cid r.code r.d
      | none =>
        let (m, s) := readImage s da size
        let free := (List.range 4).find? fun i => (planOf s i).state = .empty
        let dest := if slot < 4 then slot else free.getD 4
        let refuse := firstFail [checkHeader m size, checkFit s m da size dest, checkChain s m.chainRec]
        match refuse, usableFrom s (m.reqRecs.map fun x => x.2.2) 0 with
        | some r, _ => completeNow s q cid r.code r.d
        | none, none => completeNow s q cid 0x08 [0]
        | none, some v =>
          let s := setPlan s dest (loadedSlot m v q cid da size pin)
          pset s (modPage 11) 0x0C0 (setFld (pget s (modPage 11) 0x0C0) (4 * dest + 3) (4 * dest) 1)

/-- LOAD_PLAN (R151, R155). -/
def execLoadPlan (q : Fin 64) (cid : BitVec 16) (imageDa imageSize : BitVec 64) (slot pin : BitVec 8) (s : State) : Out :=
  .next (hostCmd q cid 0x01
    [(0x08, 8, imageDa.toNat), (0x10, 8, imageSize.toNat), (0x18, 1, slot.toNat), (0x19, 1, pin.toNat)] .load (fun s => loadPlan s q cid.toNat imageDa.toNat imageSize.toNat slot.toNat pin.toNat) s)

/-! Placement. -/

/-- Variants whose records a load places (R161): the selected one and every RESIDENT one above it. -/
def placedMask (p : PlanSlot) : Nat :=
  maskOf ((p.reqs.filter fun v => v.id = p.variant || (p.variant < v.id && !v.reload)).map VarReq.id)

/-- Bytes of a record read from the image by a Tongs and checked; none where they are poisoned or fail their CRC. -/
def recordBytes (s : State) (t da n crc : Nat) : Option (List Byte) × State :=
  let ((b, st), s) := daRead s (tongsReq t 0) da n
  (if st = .ok && crc32 b = crc then some b else none, s)

/-- A CODE record placed; the flag says whether it went well (R151, step 6). -/
def placeCode (s : State) (image : Nat) (c : CodeRec) : Bool × State :=
  if !tileServes s c.tile || (c.part < 40 && !partServes s c.tile c.part) then (true, s)
  else
    match recordBytes s c.tile (image + c.data) c.len c.crc with
    | (some b, s) => (true, (tlaWrite s (tongsReq c.tile 0) c.tile (storeTla c.part + c.off) b).2)
    | (none, s) => (false, s)

/-- A WEIGHTS record placed in its slice. -/
def placeWeight (s : State) (image : Nat) (w : WeightRec) : Bool × State :=
  if !tileServes s w.tile then (true, s)
  else
    match recordBytes s w.tile (image + w.data) w.len w.crc with
    | (some b, s) => (true, (daWrite s (tongsReq w.tile 0) (sliceBase w.tile w.slice + w.soff) b).2)
    | (none, s) => (false, s)

/-- Records placed in order until one fails; the number of the one that failed. -/
def placeAll {α : Type} (f : State → α → Bool × State) : List α → Nat → State → Option Nat × State
  | [], _, s => (none, s)
  | a :: l, i, s =>
    match f s a with
    | (true, s) => placeAll f l (i + 1) s
    | (false, s) => (some i, s)

/-- Golden-backed ranges of records (R153). -/
def goldenRanges (i image : Nat) (ws : List WeightRec) : List GoldenRange :=
  (ws.filter WeightRec.golden).map fun w => ⟨i, sliceBase w.tile w.slice + w.soff, w.len, image + w.data⟩

/-- The plan control block written: VSEL and its complement (R158). -/
def writePcb (s : State) (da : Nat) (vsel : List Byte) : State :=
  (daWrite s (ownReq 0) da (vsel ++ vsel.map fun b => ~~~b)).2

/-- What a slot held for its plan is released (R154, R156). -/
def releaseSlot (s : State) (i : Nat) : State :=
  let s := s.setStore { s.store with
    held := s.store.held.filter fun h => h.slot != i
    golden := s.store.golden.filter fun g => g.slot != i
    owned := s.store.owned.filter fun h => h.slot != i }
  let s := setPlan s i .reset
  pset s (modPage 11) 0x0C0 (setFld (pget s (modPage 11) 0x0C0) (4 * i + 3) (4 * i) 0)

/-- The section and record numbers of a CODE or WEIGHTS record, by its number among its kind, from the image. -/
def recordName {α : Type} (l : List (Nat × Nat × α)) (i : Nat) : List Nat :=
  match l[i]? with
  | some x => [x.1, x.2.1]
  | none => [noSect, noSect]

/-- Whether the base die of a region's memory is fenced. -/
def storeFenced (s : State) (da : Nat) : Bool :=
  match daKind da with
  | .lpddr a _ => regionFenced s a
  | .shared a _ => !baseUp s a
  | _ => false

/-- Whether a load is aborted (R155, 0x16): a channel of its regions was mapped out, or a unit it uses left service: one of its variant, or
the base die of its image, of a region or of its control block. DESIGN CHOICE: such a base die is given as 0xFFFF (log 118). -/
def loadAborted (s : State) (p : PlanSlot) : Option Nat :=
  let das := [p.imageDa, p.man.pcb] ++ (p.man.regions.filter fun r => r.kind != 4).map Region.addr
  match p.reqs.find? fun v => v.id = p.variant with
  | some v => (p.lostChan.or (reqUnmet s v)).or (if das.any (storeFenced s) then some 0xFFFF else none)
  | none => p.lostChan.or (some 0xFFFF)

/-- The regions of a refused plan: their bytes have no defined value (R154). DESIGN CHOICE: every byte of them counts as written
(log 95). -/
def loseRegions (s : State) (i : Nat) : State :=
  foldList (fun (r : Region) st =>
    st.setMem (st.mem.loseRange (if r.kind = 4 then tlaKey r.tile r.addr else r.addr) r.len)) (planOf s i).man.regions s

/-- Steps 5 to 8 of a load: the failing status, or the state after it (R151). -/
def placePlan (s : State) (i : Nat) : Option (Nat × List Nat) × State :=
  let p := planOf s i
  match loadAborted s p with
  | some u => (some (0x16, [u]), s)
  | none =>
    let (m, s) := readImage s p.imageDa p.imageSize
    let s := foldList (fun k st => foldList (fun r st => fillRegion st r) (p.man.regions.filter fun r => r.kind = k) st)
      [1, 2, 3, 4] s
    let mask := placedMask p
    let codes := m.codes.filter fun x => x.2.2.vmask &&& mask != 0
    let ws := m.weightRecs.filter fun x => x.2.2.vmask &&& mask != 0
    match placeAll (fun s (x : Nat × Nat × CodeRec) => placeCode s p.imageDa x.2.2) codes 0 s with
    | (some k, s) => (some (0x03, recordName codes k), s)
    | (none, s) =>
      match placeAll (fun s (x : Nat × Nat × WeightRec) => placeWeight s p.imageDa x.2.2) ws 0 s with
      | (some k, s) => (some (0x03, recordName ws k), s)
      | (none, s) =>
        let s := foldList (fun (x : Nat × Nat × Nat) st =>
          let ((b, _), st) := daRead st (tongsReq (3 * (daLoc x.1).die) 0) (p.imageDa + x.2.2) x.2.1
          (daWrite st (tongsReq (3 * (daLoc x.1).die) 0) x.1 b).2) p.sbuf s
        let placed := ws.map fun x => x.2.2
        let held := p.weights.any WeightRec.golden
        let s := s.setStore { s.store with
          golden := s.store.golden ++ goldenRanges i p.imageDa placed
          owned := s.store.owned ++ (p.man.regions.filter fun r => r.owned && r.kind = 1).map fun r =>
            ⟨i, r.addr, r.addr + r.len⟩
          held := s.store.held ++ (if held then [⟨i, p.imageDa, p.imageDa + p.imageSize⟩] else []) }
        let s := writePcb s p.man.pcb (List.replicate 128 0#8)
        (none, setPlan s i { planOf s i with held := held })

/-- LOAD_PLAN_DONE (R151, steps 5 to 8; R154). DESIGN CHOICE: a load and an unload post their completion and no PLAN_STATE event of R343,
which every other change of a slot's state posts (log 119). -/
def execLoadPlanDone (slot : Fin 4) (s : State) : Out :=
  let p := planOf s slot
  .next (match p.state, p.load with
    | .loading, some k =>
      match placePlan s slot with
      | (some (st, d), s) => completeTicket (releaseSlot (loseRegions s slot) slot) k st d
      | (none, s) =>
        let p := planOf s slot
        let st : SlotState := if p.chain.isSome then .loaded else .active
        let s := setPlan s slot { p with state := st, load := none }
        let s := pset s (modPage 11) 0x0C0 (setFld (pget s (modPage 11) 0x0C0) (4 * slot + 3) (4 * slot) st.code)
        completeTicket s k 0 [slot, p.variant]
    | _, _ => s)

/-! Unload. -/

/-- An unload at the instant it takes effect (R156): sequences of the plan end, the slot is EMPTY. -/
def doUnload (s : State) (i : Nat) : State :=
  let t := (planOf s i).unload
  let s := s.setSeqs (s.seqs.map fun x =>
    if x.2.slot = i && x.2.state != .free then
      (x.1, { x.2 with state := if x.2.state = .ended then .ended else .failed, orphan := true })
    else x)
  let opens (x : Nat × SeqCmdKind) : Bool := (kget .reset s.seqs x.1).slot = i && x.2 = .opened
  let s := s.setSched { s.sched with
    cmds := s.sched.cmds.filter fun x => !opens x, later := s.sched.later.filter fun x => !opens x }
  let s := s.setSeqs (s.seqs.map fun x => if x.2.slot = i && x.2.opening then (x.1, .reset) else x)
  let s := releaseSlot s i
  match t with
  | some t => completeTicket s t 0 []
  | none => s

/-- Whether a plan's steps may run: ACTIVE or DEGRADED. -/
def slotRuns (s : State) (i : Nat) : Bool := (planOf s i).state = .active || (planOf s i).state = .degraded

/-- UNLOAD_PLAN (R156). -/
def execUnloadPlan (q : Fin 64) (cid : BitVec 16) (slot : BitVec 8) (s : State) : Out :=
  .next (hostCmd q cid 0x02 [(0x08, 1, slot.toNat)] .other (fun s =>
    let i := slot.toNat
    if 4 ≤ i then completeNow s q cid.toNat 0x41 [0x08]
    else if loadBusy s then completeNow s q cid.toNat 0x01 [i]
    else if (planOf s i).state = .empty then completeNow s q cid.toNat 0 []
    else
      let s' := setPlan s i { planOf s i with unload := some ⟨q, cid.toNat, false⟩ }
      if slotRuns s i && s.sched.inPeriod then s' else doUnload s' i) s)

/-! Pinning and signals. -/

/-- The pin in force for a period (R159). -/
def pinFor (p : PlanSlot) (k : Nat) : Nat := if p.pinFrom ≤ k then p.pin else p.pinOld

/-- Whether the instant of the next admission cutoff has come, and its event has not run yet (R172, R400). -/
def cutoffPassed (s : State) : Bool :=
  !s.sched.admitted && (match nextStart s with
    | some t => decide (t ≤ s.clock.now + 20000)
    | none => false)

/-- The first period whose admission cutoff is still to come. -/
def nextCutoff (s : State) : Nat := if s.sched.admitted || cutoffPassed s then s.sched.num + 2 else s.sched.num + 1

/-- PLAN_CTL (R159, R337). An EMPTY slot has no plan to pin (log 22). -/
def execPlanCtl (q : Fin 64) (cid : BitVec 16) (slot pin : BitVec 8) (s : State) : Out :=
  .next (hostCmd q cid 0x03 [(0x08, 1, slot.toNat), (0x09, 1, pin.toNat)] .other (fun s =>
    let i := slot.toNat
    let p := planOf s i
    if 4 ≤ i || p.state = .empty then complete s q cid.toNat 0x41 [0x08]
    else if 3 < pin.toNat then complete s q cid.toNat 0x41 [0x09]
    else
      let k := nextCutoff s
      complete (setPlan s i { p with pin := pin.toNat, pinOld := pinFor p (k - 1), pinFrom := k }) q cid.toNat 0 []) s)

/-- The running variant of a plan. -/
def runningReq (p : PlanSlot) : VarReq := (p.reqs.find? fun v => v.id = p.variant).getD ⟨0, false, 0, [], []⟩

/-- Tiles that hold a plan: those its running variant uses. -/
def planTiles (p : PlanSlot) : List Nat := (List.range 12).filter (reqTile (runningReq p))

/-- PLAN_SIGNAL (R339). -/
def execPlanSignal (q : Fin 64) (cid : BitVec 16) (slot : BitVec 8) (arg : BitVec 32) (s : State) : Out :=
  .next (hostCmd q cid 0x04 [(0x08, 1, slot.toNat), (0x0C, 4, arg.toNat)] .other (fun s =>
    let i := slot.toNat
    if 4 ≤ i || !slotRuns s i then complete s q cid.toNat 0x41 [0x08]
    else
      let s := foldList (fun t st => tileEvent (pset st (tilePage t 0) 0x720 arg.toNat) t 1) (planTiles (planOf s i)) s
      complete s q cid.toNat 0 []) s)

/-! RELOAD. -/

/-- RELOAD_PLACEMENT_DONE (R162): the records of the RELOAD variant are placed; a record that fails dooms the slot. Its golden
ranges come before those that it wrote over. -/
def execReloadPlacementDone (slot : Fin 4) (s : State) : Out :=
  let p := planOf s slot
  .next (if p.state != .reloading then s
    else
      let ws := p.weights.filter fun w => bitOf w.vmask p.variant
      let cs := p.code.filter fun c => bitOf c.vmask p.variant
      match placeAll (fun s w => placeWeight s p.imageDa w) ws 0 s with
      | (some _, s) => setPlan s slot { planOf s slot with doomed := true }
      | (none, s) =>
        match placeAll (fun s c => placeCode s p.imageDa c) cs 0 s with
        | (some _, s) => setPlan s slot { planOf s slot with doomed := true }
        | (none, s) =>
          let new := goldenRanges slot p.imageDa ws
          let s := s.setStore { s.store with golden := new ++ s.store.golden.filter fun g => !new.contains g }
          setSlotState s slot .degraded 0)

end Sys2Proof.Machine
end

