-- ==== Sys2Proof/Machine/Links.lean ====
section
/-!
DEFINITION. Sending on chain links: routes, bundles and the replay buffer (R354 to R358).
-/

namespace Sys2Proof.Machine

open Sys2Proof

/-! Ports, routes and frames. -/

/-- A port, and the state with it replaced. -/
def portOf (s : State) (c : Nat) : Port := kget .reset s.chain.ports c
def setPort (s : State) (c : Nat) (x : Port) : State :=
  s.setChain { s.chain with ports := kput .reset s.chain.ports c x }

/-- CP_STAT.STATE of a port (R375): 0 DOWN, 1 TRAINING, 2 UP, 3 MISMATCH, 4 RETRAIN, 5 DISABLED. -/
def portState (s : State) (c : Nat) : Nat := fld (pget s (cpPage c) 0x08C) 2 0

def setPortState (s : State) (c code : Nat) : State :=
  pset s (cpPage c) 0x08C (setFld (pget s (cpPage c) 0x08C) 2 0 code)

/-- Whether a port is in service; while it retrains its frames wait (R352). -/
def portServes (s : State) (c : Nat) : Bool := portState s c = 2 || portState s c = 4

/-- The route of a node (R357): number of the first matching entry and its PORTMASK. -/
def routeOf (s : State) (dst : Nat) : Option (Nat × Nat) :=
  ((List.range s.chain.routes.length).zip s.chain.routes).findSome? fun x =>
    if x.2.1 ≤ dst && dst ≤ x.2.2.1 then some (x.1, x.2.2.2) else none

/-- Ports in service of the bundle towards a node, ascending. -/
def bundleOf (s : State) (dst : Nat) : List Nat :=
  match routeOf s dst with
  | some (_, m) => (setBits m 8).filter (portServes s)
  | none => []

/-- The port of the bundle towards a node that the next command uses, in rotation (R357). -/
def rotatePort (s : State) (node : Nat) : Option Nat × State :=
  match routeOf s node, bundleOf s node with
  | some (e, _), c :: cs =>
    let k := kget 0 s.chain.turn e
    ((c :: cs)[k % (cs.length + 1)]?, s.setChain { s.chain with turn := kput 0 s.chain.turn e ((k + 1) % 2 ^ 16) })
  | _, _ => (none, s)

/-- Current-operation words of a port for a frame in error (R375). -/
def frameOp (f : Frame) : List Nat := [f.type.toNat + f.src.toNat * 2 ^ 16, f.tag.toNat]

/-- Whether a frame goes on VC0 (R358, R360): every type but ACT, CMB and the replay frames. -/
def onControl (f : Frame) : Bool := !(f.type = 0x10#8 || f.type = 0x11#8 || f.type = 0x30#8 || f.type = 0x31#8)

/-- The bytes of a frame: header and payload (R359). -/
def frameBytes (f : Frame) : List Byte :=
  leBytes 1 f.type.toNat ++ leBytes 1 f.fl.toNat ++ leBytes 2 f.payload.length ++ leBytes 2 f.dst.toNat ++ leBytes 2 f.src.toNat ++
  leBytes 4 f.lseq.toNat ++ leBytes 4 f.tag.toNat ++ leBytes 8 f.addr.toNat ++ leBytes 8 f.arg.toNat ++ leBytes 8 f.ext.toNat ++ f.payload

/-- The CRC-32C trailer of a frame, over header and payload (R353). -/
def frameCrc (f : Frame) : BitVec 32 := BitVec.ofNat 32 (crc32c (frameBytes f))

/-- Bytes that a frame takes with its header and trailer (R353). -/
def frameSize (f : Frame) : Nat := 44 + f.payload.length

/-- Whether a port can send a frame now: it does not retrain, no frame of the channel waits before it, the replay buffer of 1 MiB has room
(R354), and the channel has a credit (R358). DESIGN CHOICE: a frame gives its credit back when it is acknowledged (log 116). -/
def canSend (s : State) (c : Nat) (f : Frame) : Bool :=
  let p := portOf s c
  let vc := onControl f
  portState s c != 4 && !(p.held.any fun x => onControl x.frame == vc) &&
  decide ((p.tx.map fun x => frameSize x.frame).foldl (· + ·) 0 + frameSize f ≤ 2 ^ 20) &&
  decide ((p.tx.filter fun x => onControl x.frame == vc).length < Config.vcCredits vc + 1)

/-- A frame counted and put into the replay buffer of a port under the next LSEQ, with its trailer (R353, R354); one that cannot go out
yet waits. -/
def transmit (s : State) (c : Nat) (f : Frame) (last : Option (Nat × Option Nat)) : State :=
  let p := portOf s c
  if !canSend s c f then setPort s c { p with held := p.held ++ [⟨f, 0, last, 0⟩] }
  else
    let f := { f with lseq := BitVec.ofNat 32 p.txSeq }
    let s := setPort s c { p with tx := p.tx ++ [⟨f, 0, last, frameCrc f⟩], txSeq := (p.txSeq + 1) % 2 ^ 32 }
    count (count s (cpPage c) 0x800 1) (cpPage c) 0x810 f.payload.length

/-- Flits of a frame on the module's fabric (R310). -/
def frameFlits (f : Frame) : Nat := divUp (40 + f.payload.length) 128

/-- A frame from a place on the module to a port, over the bridges that lie between (R313, R358); the flag says whether there is a path. -/
def toPort (s : State) (x : Loc) (c : Nat) (f : Frame) (last : Option (Nat × Option Nat)) : Bool × State :=
  match travel s x (leafLoc (.port c)) (frameFlits f) with
  | (true, s) => (true, transmit s c f last)
  | (false, s) => (false, s)

/-- A control frame from a place sent by the lowest port of its bundle in service; one with no port, or no path to it, is discarded with
CP_NOROUTE on a port (R357): the receiving one, or CP0 for a frame of this module. -/
def sendFrom (s : State) (x : Loc) (from' : Nat) (f : Frame) : State :=
  match bundleOf s f.dst.toNat with
  | c :: _ =>
    match toPort s x c f none with
    | (true, s) => s
    | (false, s) => raiseOp s (cpPage from') 6 (frameOp f)
  | [] => raiseOp s (cpPage from') 6 (frameOp f)

/-- A control frame from the port that received it, or from A0 for a frame of this module. -/
def sendControl (s : State) (from' : Nat) (f : Frame) : State := sendFrom s (leafLoc (.port from')) from' f

/-- A frame from this module. -/
def mkFrame (s : State) (type dst tag addr arg ext : Nat) (payload : List Byte) : Frame :=
  ⟨BitVec.ofNat 8 type, 0#8, BitVec.ofNat 16 dst, BitVec.ofNat 16 (ownNode s), 0#32, BitVec.ofNat 32 tag,
    BitVec.ofNat 64 addr, BitVec.ofNat 64 arg, BitVec.ofNat 64 ext, payload⟩

/-- A frame that the link layer itself sends to the neighbour, outside LSEQ order (R354, log 31): IDENT, ACK or NAK. -/
def transmitLink (s : State) (c type arg ext : Nat) : State :=
  let f := mkFrame s type (fld (pget s (cpPage c) 0x08C) 31 16) 0 0 arg ext []
  count (setPort s c { portOf s c with link := some ⟨f, 0, none, frameCrc f⟩ }) (cpPage c) 0x800 1

/-- IDENT: the port, the capability intersection and the descriptor's CRC (R355, R360, R482; log 33). -/
def sendIdent (s : State) (c : Nat) : State :=
  transmitLink s c 1 (c + pget s (modPage 0) 0x0A0 * 2 ^ 32) (pget s (modPage 8) 0x084)

/-- ACK of every frame received in order, or NAK with the LSEQ expected (R354). -/
def sendAck (s : State) (c : Nat) : State := transmitLink s c 2 (((portOf s c).rxSeq + 2 ^ 32 - 1) % 2 ^ 32) 0
def sendNak (s : State) (c : Nat) : State := transmitLink s c 3 (portOf s c).rxSeq 0

/-- The parent port of this module, if it has one (R355). -/
def parentPort (s : State) : Option Nat :=
  let p := fld (pget s (modPage 8) 0x080) 19 16
  if p < 8 then some p else none

/-- A module whose parent port is DOWN runs free (R371): no correction goes on. -/
def freeRun (s : State) (c : Nat) : State :=
  if parentPort s = some c then s.setClock { s.clock with slew := 0, hold := 0 } else s

/-- The ports on chain-tree links (R356): the parent port, and those whose neighbour is a child. -/
def treePorts (s : State) : List Nat :=
  (List.range 8).filter fun c => (parentPort s = some c || (portOf s c).child) && portServes s c

/-- A broadcast frame sent on every tree link but the one it came by (R356); one of this module starts at A0. -/
def broadcast (s : State) (except : Option Nat) (f : Frame) : State :=
  foldList (fun c st => (toPort st (leafLoc (.port (except.getD 0))) c { f with fl := 1#8 } none).2)
    ((treePorts s).filter fun c => some c != except) s

/-! Chain barriers (R365). -/

/-- Chain barrier group bound to a module barrier group, where it is bound (R365, R378). -/
def boundTo (s : State) (g : Nat) : Option Nat :=
  if 4 ≤ g && bitOf (pget s (basePage 0 0) (0x460 + 4 * (g - 4))) 28 then some (g - 4) else none

/-- Root and members of a chain barrier group. -/
def cbRoot (s : State) (g : Nat) : Nat := fld (pget s (basePage 0 0) (0x460 + 4 * g)) 15 0
def cbMembers (s : State) (g : Nat) : Nat := max 1 (fld (pget s (basePage 0 0) (0x460 + 4 * g)) 27 16)

def cbOf (s : State) (g : Nat) : ChainBar := kget .reset s.sync.cb g
def setCb (s : State) (g : Nat) (x : ChainBar) : State := s.setSync { s.sync with cb := kput .reset s.sync.cb g x }

/-- Generation of MB(4+g). -/
def cbGen (s : State) (g : Nat) : Nat := (barOf s true 0 (4 + g)).gen

/-- A frame of a chain barrier: the group and a generation. -/
def barFrame (s : State) (type dst g gen : Nat) : Frame := mkFrame s type dst 0 0 (g + gen * 2 ^ 16) 0 []

/-- The current generation of a module barrier group ends; a held write of the chain barrier's configuration applies (R365). -/
def endModuleGen (s : State) (g status : Nat) : State :=
  let s := endGeneration s true 0 g status
  if g < 4 then s
  else
    let s := match (cbOf s (g - 4)).pend with
      | some v => pset s (basePage 0 0) (0x460 + 4 * (g - 4)) v
      | none => s
    setCb s (g - 4) .reset

/-- The local generation of a chain barrier ends (R365). -/
def endChainGen (s : State) (g status : Nat) : State := endModuleGen s (4 + g) status

/-- The root takes an arrival of the current generation; at the member count it broadcasts BAR_REL and completes
(R365). -/
def rootArrival (s : State) (g : Nat) : State :=
  let b := cbOf s g
  let n := b.arrived + 1
  if cbMembers s g ≤ n then
    endChainGen (broadcast (setCb s g { b with arrived := n }) none (barFrame s 0x14 0xFFFF g (cbGen s g))) g 0
  else setCb s g { b with arrived := n }

/-- Every local member of MB(4+g) has arrived: BAR_ARR goes to the root (R365). -/
def chainArrive (s : State) (g : Nat) : State :=
  let b := cbOf s g
  if b.waitRel then s
  else
    let s := setCb s g { b with waitRel := true }
    if cbRoot s g = ownNode s then rootArrival s g
    else sendControl s 0 (barFrame s 0x13 (cbRoot s g) g (cbGen s g))

/-- The root aborts the current generation: BAR_ABT on every tree link (R365). -/
def rootAbort (s : State) (g : Nat) : State :=
  endChainGen (broadcast s none (barFrame s 0x15 0xFFFF g (cbGen s g))) g 1

/-- An abort of a module barrier group: of the whole chain barrier where the group is bound (R123, R365). -/
def abortModuleBar (s : State) (g : Nat) : State :=
  match boundTo s g with
  | some b =>
    if cbRoot s b = ownNode s then rootAbort s b
    else sendControl s 0 (barFrame s 0x15 (cbRoot s b) b (cbGen s b))
  | none => endModuleGen s g 1

/-- An abort of a group, of a tile or of the module (R123). -/
def abortBar (s : State) (module : Bool) (t g : Nat) : State :=
  if module then abortModuleBar s g else endGeneration s false t g 1

/-- The condition of a barrier generation is met (R121): it completes; a bound group sends its arrival instead. -/
def completeBar (s : State) (module : Bool) (t g : Nat) : State :=
  if !allArrived (barOf s module t g) then s
  else
    match (if module then boundTo s g else none) with
    | some b => chainArrive s b
    | none => if module then endModuleGen s g 0 else endGeneration s false t g 0

/-- BARRIER_COMPLETE (R121, R365). -/
def execBarrierComplete (module : Bool) (t : Fin 12) (g : Fin 16) (s : State) : Out :=
  .next (if module && 8 ≤ g.val then s else completeBar s module t g)

/-- MB_ABORT (R123, R365). -/
def mbAbortWrite (g : Fin 8) (s : State) : State :=
  blockWrite s (basePage 0 0) fun s => abortModuleBar s g

end Sys2Proof.Machine
end

