-- ==== Sys2Proof/Machine/Chains.lean ====
section
/-!
DEFINITION. Chain plans as a whole: activation, the latency bound and the travel time of decisions (R165, R372, R373).
-/

namespace Sys2Proof.Machine

open Sys2Proof

/-- Check 0x14 (R155, R165): the first segment index that disagrees, is missing or repeated. -/
def chainMismatch (c : ChainRec) (uid : Nat) (segs : List ChainSeg) : Option Nat :=
  match segs.find? fun x => x.uid.toNat != uid || x.count.toNat != c.count || c.count ≤ x.index.toNat with
  | some x => some x.index.toNat
  | none => (List.range c.count).find? fun i => (segs.filter fun x => x.index.toNat = i).length != 1

/-- The latency of a route in 1/100 ns from the CP_DELAY of each port transmitted on (R372). -/
def routeLatency (ds : List (BitVec 32)) : Nat :=
  100 * ((ds.map fun d => d.toNat + 42).foldl (· + ·) 0 + 260 * (ds.length - 1) + 400)

/-- The time in 1/100 ns in which the activation bytes of a period leave for the next segment (R372). -/
def segTransfer (x : ChainSeg) : Nat :=
  divUp (divUp x.xferBytes.toNat 4096) x.ports.toNat * (if x.x4 then 8280 else 4140)

/-- A term of each segment but the last, summed. -/
def hopSum (segs : List ChainSeg) (f : ChainSeg → Nat) : Nat :=
  (segs.map fun x => if x.index.toNat + 1 = segs.length then 0 else f x).foldl (· + ·) 0

/-- The chain latency bound in ns (R372). -/
def chainBound (segs : List ChainSeg) : Nat :=
  12000 + (segs.map fun x => x.tSeg.toNat).foldl (· + ·) 0 + divUp (hopSum segs fun x => routeLatency x.down + segTransfer x) 100

/-- The longest travel in ns of a decision of n COMMIT frames (R373): Hmax, where n is 1. -/
def decisionTravel (segs : List ChainSeg) (n : Nat) : Nat :=
  divUp (hopSum segs fun x => routeLatency x.up + 20000 + (n - 1) * 4140 * x.up.length) 100

/-- Hmax of a plan whose decisions have one frame (R373). -/
def chainHmax (segs : List ChainSeg) : Nat := decisionTravel segs 1

/-- The greatest CP_DELAY of the ports of this module's bundle to a node. -/
def bundleDelay (s : State) (node : Nat) : Nat :=
  ((bundleOf s node).map fun c => fld (pget s (cpPage c) 0x094) 15 0).foldl max 0

/-- The first delay of a route replaced by that of this module's bundle to a node, where it has a port in service. -/
def firstDelay (s : State) (node : Nat) (l : List (BitVec 32)) : List (BitVec 32) :=
  if (bundleOf s node).isEmpty then l else BitVec.ofNat 32 (bundleDelay s node) :: l.drop 1

/-- What a module knows of its own part of a chain plan's segments put in place of what was collected (R164, R372): the terms of its
CHAIN record, the ports of its bundle downstream, and its own delays. DEDUCED: of a bundle the greatest delay counts (log 115). -/
def ownSeg (s : State) (c : ChainRec) (x : ChainSeg) : ChainSeg :=
  let b := bundleOf s c.downNode
  if x.index.toNat = c.index then
    let x := { x with tSeg := BitVec.ofNat 32 c.tSeg, xferBytes := BitVec.ofNat 32 c.xferBytes }
    if b.isEmpty then x
    else { x with
      ports := BitVec.ofNat 4 b.length, x4 := b.any fun p => bitOf (pget s (cpPage p) 0x08C) 3, down := firstDelay s c.downNode x.down }
  else if x.index.toNat + 1 = c.index then { x with up := firstDelay s c.upNode x.up }
  else x

/-- A plan slot with the segments as collected, and the bound and Hmax that follow (R372, R373). -/
def bindChain (s : State) (p : PlanSlot) (segs : List ChainSeg) : PlanSlot :=
  match p.chain with
  | some c =>
    let l := segs.map (ownSeg s c)
    { p with segs := l, bound := chainBound l, hmax := chainHmax l }
  | none => p

/-- CHAIN_ACTIVATION (R165): the segments' records as the head collected them. -/
def execChainActivation (slot : Fin 4) (segs : List ChainSeg) (s : State) : Out :=
  let p := bindChain s (planOf s slot) segs
  .next (match p.state, p.chain with
    | .loaded, some c =>
      let bad := match chainMismatch c p.uid p.segs with
        | some _ => some 0x14
        | none => if periodLen s < p.bound then some 0x15 else none
      match bad with
      | some code =>
        setSlotState (setPlan s slot { p with chainCode := code }) slot .loaded code
      | none => setPlan s slot { p with chainCode := 0, activeFrom := some (s.clock.now + 1000000) }
    | _, _ => s)

/-- The latency bound of a chain plan formed again at its head (R372, R374): a bound that comes to lie above the period is posted, and
admission goes on. -/
def reboundChain (s : State) (slot : Nat) (segs : List ChainSeg) : State :=
  let p := planOf s slot
  if !(p.state = .active || p.state = .degraded) || !p.chain.any (fun c => c.index = 0) then s
  else
    let p' := bindChain s p segs
    let s := setPlan s slot p'
    if p'.bound != p.bound && s.sched.len < p'.bound then event s 3 [(0x10, 1, slot), (0x11, 1, p.state.code), (0x12, 1, 0x15)] [] else s

/-- A chain plan that a segment had stopped goes on once every segment is there again and the check of code 0x15 passes (R165). -/
def resumeChain (s : State) (slot : Nat) : State :=
  let p := planOf s slot
  if (p.state = .active || p.state = .degraded) && p.bound ≤ s.sched.len then setPlan s slot { p with chainStop := false } else s

/-- Whether a sequence of a chain plan can be admitted in consecutive periods (R373). -/
def fullRate (s : State) (slot : Nat) : Bool :=
  let p := planOf s slot
  p.chain.isNone || decide (p.bound + p.hmax + 20000 ≤ s.sched.len)

end Sys2Proof.Machine
end

