-- ==== Sys2Proof/Machine/Pages.lean ====
section
/-!
DEFINITION. KV page pools and page lists (R188 to R196, R204).
-/

namespace Sys2Proof.Machine

open Sys2Proof

/-- KV regions of a kind of a manifest, in ascending DA (R190). -/
def kvRegions (m : Manifest) (kind : Nat) : List Region :=
  sortBy (fun a b => a.addr ≤ b.addr) (m.regions.filter fun r => r.kv && r.kind = kind)

/-- Pages of a pool, lowest-numbered first (R190). -/
def poolPages (m : Manifest) (r : Region) : List Nat :=
  if m.kvPage = 0 then [] else (List.range (r.len / m.kvPage)).map fun j => r.addr + j * m.kvPage

/-- Bonded regions with the KV flag: one list each (R194). -/
def kvLists (m : Manifest) : List Region := kvRegions m 1

/-- DA of descriptor g of page-list set i (R194). -/
def descDa (m : Manifest) (i g : Nat) : Option Nat :=
  match kvRegions m 3 with
  | r :: _ =>
    let n := (kvLists m).length
    if (i + 1) * n * 128 ≤ r.len then some (r.addr + (i * n + g) * 128) else none
  | [] => none

/-- A list descriptor (R194). -/
structure ListDesc where
  da : Nat
  ok : Bool
  listDa : Nat
  cap : Nat
  count : Nat
  staged : Nat
  owner : Nat
  shards : List (Nat × Nat)
  raw : List Byte
  deriving DecidableEq, Repr

/-- A descriptor from its 128 bytes. -/
def parseDesc (da : Nat) (l : List Byte) : ListDesc :=
  { da := da, ok := guarded l 64, listDa := field l 0 6, cap := field l 8 4, count := field l 0x0C 4
    staged := field l 0x10 4, owner := field l 0x14 2
    shards := (List.range (min 4 (field l 0x16 1))).map fun k => (field l (0x20 + 8 * k) 2, field l (0x22 + 8 * k) 4)
    raw := l.take 64 }

/-- The bytes of a guarded record read at a DA. -/
def readRec (s : State) (q : Req) (da n : Nat) : List Byte × State :=
  let r := daRead s q da n
  (r.1.1, r.2)

/-- The descriptors of a page-list set, in the order of their lists; none where the set does not fit its region. -/
def readDescs (s : State) (m : Manifest) (i : Nat) : Option (List ListDesc) × State :=
  let g := (kvLists m).length
  foldList (fun k (a : Option (List ListDesc) × State) =>
    match a.1, descDa m i k with
    | some l, some da =>
      let (b, s) := readRec a.2 (ownReq 0) da 128
      (some (l ++ [parseDesc da b]), s)
    | _, _ => (none, a.2)) (List.range g) (some [], s)

/-- 64 bytes and their complement (R439). -/
def withComplement (l : List Byte) : List Byte := l ++ l.map fun b => ~~~b

/-- A descriptor with new COUNT and STAGED written back. -/
def putDesc (s : State) (d : ListDesc) (count staged : Nat) : State :=
  let l := d.raw.take 0x0C ++ leBytes 4 count ++ leBytes 4 staged ++ d.raw.drop 0x14
  (daWrite s (ownReq 0) d.da (withComplement l)).2

/-- An entry word of a page list (R196). -/
def entryWord (valid : Bool) (page node : Nat) : Nat := b2n valid + page / 128 % 2 ^ 41 * 2 ^ 7 + node * 2 ^ 48

/-- An entry written with its complement. -/
def putEntry (s : State) (d : ListDesc) (p word : Nat) : State :=
  (daWrite s (ownReq 0) (d.listDa + 16 * p) (withComplement (leBytes 8 word))).2

/-- An entry read: its word, none where it fails its complement. -/
def readEntry (s : State) (q : Req) (listDa p : Nat) : Option Nat × State :=
  let (l, s) := readRec s q (listDa + 16 * p) 16
  (if guarded l 8 then some (field l 0 8) else none, s)

/-- The node that holds page p of a list, for a page of a remote shard (R204). -/
def remoteNode (s : State) (d : ListDesc) (p : Nat) : Option Nat :=
  match (d.shards.filter fun x => x.2 ≤ p / 64).getLast? with
  | some x => if x.1 = ownNode s then none else some x.1
  | none => none

/-- The lowest-numbered free page for a list: of its bonded pool, else of the LPDDR5X pool (R192). -/
def freePage (m : Manifest) (own : Region) (used : List Nat) : Option Nat :=
  ((poolPages m own).find? fun a => !used.contains a).or
    (((kvRegions m 2).flatMap (poolPages m)).find? fun a => !used.contains a)

/-- Entry words for the pages p, p + 1, … of a list, n of them, and the pages in use after it. -/
def takePages (s : State) (m : Manifest) (own : Region) (d : ListDesc) :
    Nat → Nat → List Nat → Option (List Nat × List Nat)
  | 0, _, used => some ([], used)
  | n + 1, p, used =>
    match remoteNode s d p with
    | some node => (takePages s m own d n (p + 1) used).map fun x => (entryWord true 0 node :: x.1, x.2)
    | none =>
      match freePage m own used with
      | some a => (takePages s m own d n (p + 1) (used ++ [a])).map fun x => (entryWord true a 0xFFFF :: x.1, x.2)
      | none => none

/-- The Tongs source that a list sets when it cannot serve a step whatever the pools hold: LIST_FULL where the need passes CAP (R192),
PLE_GUARD where the descriptor fails its complement. -/
def listFault (len : Nat) (d : ListDesc) : Option Nat :=
  if !d.ok then some 18 else if d.cap < d.count + (divUp len 64 - d.count) then some 20 else none

/-- Pages for every list of a sequence to hold `len` tokens: entry words by list, and the pages in use after it; none where a pool
holds too few (R192). -/
def planPages (s : State) (m : Manifest) (len : Nat) :
    List (Region × ListDesc) → List Nat → Option (List (ListDesc × List Nat) × List Nat)
  | [], used => some ([], used)
  | (own, d) :: l, used =>
    match takePages s m own d (divUp len 64 - d.count) d.count used with
    | none => none
    | some (ws, used) => (planPages s m len l used).map fun r => ((d, ws) :: r.1, r.2)

/-- Entries written from COUNT upwards and STAGED raised. -/
def stageList (s : State) (d : ListDesc) (ws : List Nat) : State :=
  if ws.isEmpty then s
  else
    let s := foldList (fun (x : Nat × Nat) st => putEntry st d (d.count + x.1) x.2)
      ((List.range ws.length).zip ws) s
    putDesc s d d.count (d.count + ws.length)

/-- Base die of the owner of a list. -/
def ownerDie (own : Region) : Nat := tileDie (own.addr / tileBytes)

/-- The pages of a step taken for a sequence of a plan at admission (R192); the flag says that every list is served. -/
def stagePages (s : State) (slot plist len : Nat) : Bool × State :=
  let m := (planOf s slot).man
  if m.kvPage = 0 then (true, s)
  else
    match readDescs s m plist with
    | (none, s) => (false, s)
    | (some ds, s) =>
      let lists := (kvLists m).zip ds
      let bad := lists.filterMap fun x => (listFault len x.2).map fun src => (tgPage (ownerDie x.1), src)
      if !bad.isEmpty then (false, foldList (fun x st => raiseTag st x.1 x.2 0) bad s)
      else match planPages s m len lists (planOf s slot).used with
        | some (l, used) =>
          let s := foldList (fun (x : ListDesc × List Nat) st => stageList st x.1 x.2) l s
          (true, setPlan s slot { planOf s slot with used := used })
        | none => (false, count s (modPage 11) 0x800 1)

/-- PLE_GUARD at the Tongs of the owner of a list, for a descriptor or an entry that disagrees with its complement (R199, R439). -/
def listGuard (s : State) (own : Region) : State := raiseTag s (tgPage (ownerDie own)) 18 0

/-- The local pages that entries [lo, hi) of a list name. -/
def listPages (s : State) (own : Region) (d : ListDesc) (lo hi : Nat) : List Nat × State :=
  foldList (fun p (a : List Nat × State) =>
    match readEntry a.2 (ownReq 0) d.listDa p with
    | (some w, s) => (if bitOf w 0 && fld w 63 48 = 0xFFFF then a.1 ++ [fld w 47 7 * 128] else a.1, s)
    | (none, s) => (a.1, listGuard s own)) ((List.range (hi - lo)).map (lo + ·)) ([], s)

/-- Pages returned to the pools of a plan. -/
def returnPages (s : State) (slot : Nat) (l : List Nat) : State :=
  setPlan s slot { planOf s slot with used := (planOf s slot).used.filter fun a => !l.contains a }

/-- Every list of a sequence, in turn, with its owner's region; one whose descriptor fails its complement is not used. -/
def eachList (s : State) (slot plist : Nat) (f : Region → ListDesc → State → State) : State :=
  if (planOf s slot).man.kvPage = 0 then s
  else
    match readDescs s (planOf s slot).man plist with
    | (some ds, s) => foldList (fun (x : Region × ListDesc) st => if x.2.ok then f x.1 x.2 st else listGuard st x.1)
        ((kvLists (planOf s slot).man).zip ds) s
    | (none, s) => s

/-- At a commit COUNT takes STAGED (R193). -/
def commitPages (s : State) (slot plist : Nat) : State :=
  eachList s slot plist fun _ d s => if d.count = d.staged then s else putDesc s d d.staged d.staged

/-- At a drop the staged pages return, their entries become invalid and STAGED takes COUNT (R193). -/
def dropPages (s : State) (slot plist : Nat) : State :=
  eachList s slot plist fun own d s =>
    let (l, s) := listPages s own d d.count d.staged
    let s := returnPages s slot l
    let s := foldList (fun p st => putEntry st d p 0) ((List.range (d.staged - d.count)).map (d.count + ·)) s
    if d.count = d.staged then s else putDesc s d d.count d.count

/-- At SEQ_RELEASE every page returns (R193). -/
def releasePages (s : State) (slot plist : Nat) : State :=
  eachList s slot plist fun own d s =>
    let (l, s) := listPages s own d 0 d.count
    putDesc (returnPages s slot l) d 0 0

/-- Entries of a context to continue, checked against the pools: the pages claimed, or the reason of R340. -/
def claimList (s : State) (m : Manifest) (own : Region) (d : ListDesc) (used : List Nat) :
    Except Nat (List Nat) × State :=
  let pool := poolPages m own ++ (kvRegions m 2).flatMap (poolPages m)
  foldList (fun p (a : Except Nat (List Nat) × State) =>
    match a.1 with
    | .error e => (.error e, a.2)
    | .ok used =>
      match readEntry a.2 (ownReq 0) d.listDa p with
      | (none, s) => (.error 5, s)
      | (some w, s) =>
        let pg := fld w 47 7 * 128
        if bitOf w 0 && fld w 63 48 != 0xFFFF then (.ok used, s)
        else if bitOf w 0 && pool.contains pg && !used.contains pg then (.ok (used ++ [pg]), s)
        else (.error 8, s)) (List.range d.count) (.ok used, s)

/-- The checks of a page-list set at SEQ_OPEN, and the pages claimed: the reason of R340 of the first that fails, or the
pages in use after it (R191, R195). -/
def claimPages (s : State) (slot plist kvLen : Nat) : Except Nat (List Nat) × State :=
  let m := (planOf s slot).man
  let used := (planOf s slot).used
  if m.kvPage = 0 then (.ok used, s)
  else
    match readDescs s m plist with
    | (none, s) => (.error 4, s)
    | (some ds, s) =>
      if ds.any fun d => !d.ok then (.error 5, s)
      else if ds.any fun d => m.listMax < d.cap then (.error 6, s)
      else if ds.any fun d => d.count != divUp kvLen 64 then (.error 7, s)
      else
        foldList (fun (x : Region × ListDesc) (a : Except Nat (List Nat) × State) =>
          match a.1 with
          | .ok used => claimList a.2 m x.1 x.2 used
          | .error e => (.error e, a.2)) ((kvLists m).zip ds) (.ok used, s)

/-- Whether committed pages of a sequence lie on a tile that a predicate picks (R162). -/
def pagesOn (s : State) (slot plist : Nat) (f : Nat → Bool) : Bool :=
  let m := (planOf s slot).man
  if m.kvPage = 0 then false
  else
    match readDescs s m plist with
    | (some ds, s) => ((kvLists m).zip ds).any fun (own, d) =>
        d.ok && (listPages s own d 0 d.count).1.any fun a => match daKind a with
          | .bonded t _ _ => f t
          | _ => false
    | (none, _) => false

end Sys2Proof.Machine
end

