-- ==== Sys2Proof/Machine/Seqs.lean ====
section
/-!
DEFINITION. The sequence table and the sequence commands (R166 to R169, R191, R337, R340, R367).
-/

namespace Sys2Proof.Machine

open Sys2Proof

/-- An entry of the sequence table, and the state with it replaced. -/
def seqOf (s : State) (i : Nat) : SeqRec := kget .reset s.seqs i
def setSeq (s : State) (i : Nat) (x : SeqRec) : State := s.setSeqs (kput .reset s.seqs i x)

/-- The 64 bytes of an entry (R167). -/
def seqBytes (r : SeqRec) : List Byte :=
  record 64 [(0, 1, r.state.code), (1, 1, r.slot + r.kind * 4 + r.prio * 16), (2, 1, r.lastDrop), (3, 1, r.dropRun),
    (4, 4, r.committed), (8, 8, r.kvLen), (0x10, 4, r.lastToken), (0x14, 4, r.stepLimit), (0x18, 4, r.stopToken),
    (0x1C, 2, r.cq), (0x1E, 2, r.column + r.group * 16 + b2n r.placed * 256), (0x20, 8, r.inputDa),
    (0x28, 4, r.inputLen), (0x2C, 4, r.plist), (0x30, 8, r.outDa), (0x38, 4, r.outSize), (0x3C, 4, r.outHead)]

/-- The transition that a command names (R168); none where the table has no such row. -/
def seqMove : SeqState → SeqCmdKind → Option SeqState
  | .free, .opened => some .ready
  | .ready, .suspend => some .suspended
  | .stalled, .suspend => some .suspended
  | .suspended, .resume => some .ready
  | .stalled, .resume => some .ready
  | .ready, .finish => some .ended
  | .suspended, .finish => some .ended
  | .stalled, .finish => some .ended
  | .active, .finish => some .active
  | .ended, .release => some .free
  | .failed, .release => some .free
  | _, _ => none

/-- Whether a SEQ_END of a sequence is accepted that has not reached its admission cutoff (R168, R172). -/
def endPending (s : State) (i : Nat) : Bool := (s.sched.cmds ++ s.sched.later).contains (i, .finish)

/-- The state an entry will have once its accepted commands have taken effect. -/
def projected (s : State) (i : Nat) : SeqState :=
  (s.sched.cmds ++ s.sched.later).foldl (fun st c => if c.1 = i then (seqMove st c.2).getD st else st) (seqOf s i).state

/-- One command applied at a cutoff (R168, R172); a transition that is absent by then changes nothing. -/
def applyMove (s : State) (i : Nat) (k : SeqCmdKind) : State :=
  let r := seqOf s i
  match seqMove r.state k with
  | none => s
  | some st =>
    match k with
    | .opened => setSeq s i { r with state := st, opening := false }
    | .suspend => setSeq s i { r with state := st }
    | .resume => setSeq s i { r with state := st, dropRun := 0 }
    | .finish => setSeq s i { r with state := st, ending := decide (r.state = .active) }
    | .release =>
      let s := if r.orphan then s else releasePages (dropPages s r.slot r.plist) r.slot r.plist
      setSeq s i { r with state := st, ending := false, orphan := false, placed := false, column := 0, group := 0 }

/-- Every accepted command takes effect at the cutoff of period k, in order, and every transition that a head has sent for
it (R172, R367). -/
def applyCmds (s : State) (k : Nat) : State :=
  let l := s.sched.cmds
  let w := (s.chain.waits.filter fun x => x.1 ≤ k).map Prod.snd
  let s := s.setChain { s.chain with waits := s.chain.waits.filter fun x => k < x.1 }
  foldList (fun (x : Nat × SeqCmdKind) st => applyMove st x.1 x.2) (l ++ w) (s.setSched { s.sched with cmds := s.sched.later, later := [] })

/-- A command accepted for the admission cutoff that comes next (R172): one accepted at or after the instant of a cutoff takes effect
at the one after it (R400). -/
def acceptCmd (s : State) (i : Nat) (k : SeqCmdKind) : State :=
  let s := s.setSched (if cutoffPassed s then { s.sched with later := s.sched.later ++ [(i, k)] }
    else { s.sched with cmds := s.sched.cmds ++ [(i, k)] })
  if k = .finish then setSeq s i { seqOf s i with ending := true } else s

/-- Whether a slot holds a chain plan of which this module is not the head. -/
def notHead (s : State) (slot : Nat) : Bool :=
  match (planOf s slot).chain with
  | some c => c.index != 0
  | none => false

/-- Nodes of the other segments of a chain plan. -/
def segNodes (s : State) (slot : Nat) : List Nat :=
  match (planOf s slot).chain with
  | some c => ((planOf s slot).segs.filter fun x => x.index.toNat != c.index).map fun x => x.node.toNat
  | none => []

/-- A SEQ_SYNC frame to a node (R360, R367). -/
def seqSync (s : State) (slot node seq op round ext : Nat) (image : List Byte) : State :=
  sendControl s 0 (mkFrame s 0x24 node 0 (planOf s slot).uid (seq + op * 2 ^ 16 + round * 2 ^ 20) ext image)

/-- SEQ_SYNC to every other segment. -/
def seqSyncAll (s : State) (slot seq op round ext : Nat) (image : List Byte) : State :=
  foldList (fun n st => seqSync st slot n seq op round ext image) (segNodes s slot) s

/-- OP of SEQ_SYNC of a command (R367). -/
def SeqCmdKind.op : SeqCmdKind → Nat
  | .opened => 1 | .suspend => 2 | .resume => 3 | .finish => 4 | .release => 5

/-- Whether an index can be given to a new sequence: FREE, and no open in progress holds it. -/
def indexFree (s : State) (i : Nat) : Bool :=
  let r := seqOf s i
  r.state = .free && !r.opening && !(s.chain.opens.any fun o => o.index = i)

/-- The lowest index at or above a number that is FREE. -/
def lowestFree (s : State) (lo : Nat) : Option Nat :=
  ((List.range (4096 - lo)).find? fun k => indexFree s (lo + k)).map (lo + ·)

/-- Sequences of a slot in states other than FREE, opens included. -/
def seqCount (s : State) (slot : Nat) : Nat :=
  (s.seqs.filter fun x => x.2.slot = slot && (x.2.state != .free || x.2.opening) && !x.2.orphan).length +
  (s.chain.opens.filter fun o => o.slot = slot).length

/-- The first operand of SEQ_OPEN outside its legal values, by its byte offset (R337). -/
def openOperand (o : SeqOpenArgs) : Option Nat :=
  let kind := fld o.mode.toNat 3 2
  let home := match daKind o.outDa.toNat with
    | .lpddr _ _ => true
    | .shared _ _ => true
    | _ => false
  if bitOf o.mode.toNat 7 || kind = 3 then some 0x08
  else if 64 ≤ o.cq.toNat then some 0x0A
  else if !home then some 0x20
  else if kind = 0 && o.inputLen.toNat != 0 then some 0x28
  else if o.outSize.toNat % 128 != 0 then some 0x30
  else none

/-- The entry that SEQ_OPEN makes (R167, R169). -/
def openedEntry (s : State) (o : SeqOpenArgs) : SeqRec :=
  { SeqRec.reset with
    slot := fld o.mode.toNat 1 0, kind := fld o.mode.toNat 3 2, prio := fld o.mode.toNat 6 4
    kvLen := o.kvLen.toNat, lastToken := o.lastToken.toNat, stepLimit := o.stepLimit.toNat
    stopToken := o.stopToken.toNat, cq := o.cq.toNat, inputDa := o.inputDa.toNat, inputLen := o.inputLen.toNat
    plist := o.plist.toNat, outDa := o.outDa.toNat, outSize := o.outSize.toNat, since := s.sched.num, opening := true }

/-- An entry assigned to a sequence that opens at the next cutoff. -/
def assignEntry (s : State) (i : Nat) (e : SeqRec) : State := acceptCmd (setSeq s i e) i .opened

/-- The checks of a SEQ_OPEN on this module (R169, R195, R340): the reason it is refused, or the state with the named pages
claimed. -/
def openChecks (s : State) (slot plist kvLen : Nat) : Option Nat × State :=
  if !slotRuns s slot then (some 1, s)
  else if (planOf s slot).man.seqMax ≤ seqCount s slot then (some 2, s)
  else if (lowestFree s 0).isNone then (some 3, s)
  else
    match claimPages s slot plist kvLen with
    | (.error e, s) => (some e, s)
    | (.ok used, s) => (none, setPlan s slot { planOf s slot with used := used })

/-- One round of the opening of a chain plan's sequence: OPEN to every other segment (R367). -/
def startRound (s : State) (o : ChainOpen) : State :=
  let o := { o with since := s.clock.now, answers := (segNodes s o.slot).map fun n => ⟨n, none, 0, 0⟩ }
  let s := s.setChain { s.chain with opens := (s.chain.opens.filter fun x => x.pair != o.pair || x.cid != o.cid) ++ [o] }
  seqSyncAll s o.slot o.index 1 o.round 0 (seqBytes { o.entry with state := .ready })

/-- SEQ_OPEN (R169, R337, R340, R367). -/
def seqOpen (s : State) (q cid : Nat) (o : SeqOpenArgs) : State :=
  let slot := fld o.mode.toNat 1 0
  match openOperand o with
  | some off => complete s q cid 0x41 [off]
  | none =>
    if notHead s slot then complete s q cid 0x41 [0x08]
    else
      match openChecks s slot o.plist.toNat o.kvLen.toNat with
      | (some r, s) => complete s q cid 0x43 [r]
      | (none, s) =>
        let i := (lowestFree s 0).getD 0
        let e := openedEntry s o
        if (segNodes s slot).isEmpty then complete (assignEntry s i e) q cid 0 [i]
        else startRound (keepOpen s q cid) ⟨q, cid, slot, i, 0, 0, e, []⟩

/-- The operands of SEQ_OPEN in its entry (R337). -/
def openFields (o : SeqOpenArgs) : List (Nat × Nat × Nat) :=
  [(0x08, 1, o.mode.toNat), (0x0A, 2, o.cq.toNat), (0x0C, 4, o.plist.toNat), (0x10, 8, o.inputDa.toNat), (0x18, 8, o.kvLen.toNat),
    (0x20, 8, o.outDa.toNat), (0x28, 4, o.inputLen.toNat), (0x2C, 4, o.lastToken.toNat), (0x30, 4, o.outSize.toNat),
    (0x34, 4, o.stepLimit.toNat), (0x38, 4, o.stopToken.toNat)]

/-- SEQ_OPEN. -/
def execSeqOpen (q : Fin 64) (cid : BitVec 16) (o : SeqOpenArgs) (s : State) : Out :=
  .next (hostCmd q cid 0x10 (openFields o) .other (fun s => seqOpen s q cid.toNat o) s)

/-- A sequence command that names a transition (R168, R340, R367). -/
def seqCommand (s : State) (q cid seq : Nat) (k : SeqCmdKind) : State :=
  if 4096 ≤ seq then complete s q cid 0x41 [0x08]
  else
    let r := seqOf s seq
    if r.state != .free && !r.orphan && notHead s r.slot then complete s q cid 0x41 [0x08]
    else
      match seqMove (projected s seq) k with
      | none => complete s q cid 0x42 [r.state.code]
      | some _ =>
        let s := acceptCmd s seq k
        let s := if r.orphan then s else seqSyncAll s r.slot seq k.op 0 (nextCutoff s) []
        complete s q cid 0 []

/-- SEQ_SUSPEND (R168). -/
def execSeqSuspend (q : Fin 64) (cid seq : BitVec 16) (s : State) : Out :=
  .next (hostCmd q cid 0x11 [(0x08, 2, seq.toNat)] .other (fun s => seqCommand s q cid.toNat seq.toNat .suspend) s)

/-- SEQ_RESUME (R168). -/
def execSeqResume (q : Fin 64) (cid seq : BitVec 16) (s : State) : Out :=
  .next (hostCmd q cid 0x12 [(0x08, 2, seq.toNat)] .other (fun s => seqCommand s q cid.toNat seq.toNat .resume) s)

/-- SEQ_END (R168). -/
def execSeqEnd (q : Fin 64) (cid seq : BitVec 16) (s : State) : Out :=
  .next (hostCmd q cid 0x13 [(0x08, 2, seq.toNat)] .other (fun s => seqCommand s q cid.toNat seq.toNat .finish) s)

/-- SEQ_RELEASE (R168, R193). -/
def execSeqRelease (q : Fin 64) (cid seq : BitVec 16) (s : State) : Out :=
  .next (hostCmd q cid 0x14 [(0x08, 2, seq.toNat)] .other (fun s => seqCommand s q cid.toNat seq.toNat .release) s)

end Sys2Proof.Machine
end

