-- ==== Sys2Proof/Machine/EngineEnd.lean ====
section
/-!
DEFINITION. Engines by tile and layer, and what a period end discards of their work (R203, R232, R249, R303).
-/

namespace Sys2Proof.Machine

open Sys2Proof

/-- Tongs of a tile, a layer control, a scan sequencer; and the state with one replaced. -/
def tongsOf (s : State) (t : Nat) : Tongs := kget .reset s.eng.tongs t
def setTongs (s : State) (t : Nat) (x : Tongs) : State := s.setEng { s.eng with tongs := kput .reset s.eng.tongs t x }

def layerOf (s : State) (t l : Nat) : NbLayer := kget .reset s.eng.layers (t * 8 + l)
def setLayer (s : State) (t l : Nat) (x : NbLayer) : State :=
  s.setEng { s.eng with layers := kput .reset s.eng.layers (t * 8 + l) x }

def scanOf (s : State) (t : Nat) : Sequencer := kget .reset s.eng.scans t
def setScan (s : State) (t : Nat) (x : Sequencer) : State := s.setEng { s.eng with scans := kput .reset s.eng.scans t x }

/-- Key of an accumulator set (R212). -/
def setKey (t l n b k : Nat) : Nat := ((t * 8 + l) * 32 + n) * 32 + b * 2 + k

def nbSetOf (s : State) (t l n b k : Nat) : NbSet := kget .empty s.eng.sets (setKey t l n b k)
def putNbSet (s : State) (t l n b k : Nat) (x : NbSet) : State :=
  s.setEng { s.eng with sets := kput .empty s.eng.sets (setKey t l n b k) x }

/-- STEP_TAG of a command line of any engine (R197, R217, R241, R300). -/
def cmdTag (l : List Byte) : Nat := field l 0x30 4

/-- SLICEMASK and BANKMASK of a descriptor or of a scan: they stand at the same offsets (R217, R241). -/
def cmdSlices (l : List Byte) : List Nat := setBits (field l 0x08 4) 32
def cmdBanks (l : List Byte) : List Nat := setBits (field l 0x0C 2) 16

/-- Whether a step tag names period k (R174). Tag 0 names no group (R426), unless a group of the period has it, which is decode
group 0 of slot 0 where PERIOD is 0 (log 96). -/
def tagOf (s : State) (k tag : Nat) : Bool :=
  (tag != 0 || s.sched.groups.any fun g => g.tag = 0) && tag / 2 ^ 16 = k % 2 ^ 16

/-- Whether a step tag names a group of the current period that has committed. -/
def tagCommitted (s : State) (tag : Nat) : Bool :=
  s.sched.groups.any fun g => g.tag = tagBase tag && g.fate = .committed

/-- The sets that an item uses: the set SET of a descriptor, both sets of a scan (R217, R243). -/
def itemSets (i : NbItem) : List Nat := if i.scan then [0, 1] else [b2n (bitOf (field i.cmd 3 1) 6)]

/-- The sets of an item in a layer become empty. -/
def emptySets (s : State) (t l : Nat) (i : NbItem) : State :=
  foldList (fun n st => foldList (fun b st => foldList (fun k st => putNbSet st t l n b k .empty) (itemSets i) st)
    (cmdBanks i.cmd) st) (cmdSlices i.cmd) s

/-- The free entries and running counts that a Tongs page shows of a tile (R209, R305). -/
def showTongs (s : State) (t : Nat) : State :=
  let x := tongsOf s t
  let pg := tgPage (t / 3)
  let s := pset s pg (0x204 + 0x10 * (t % 3)) (64 - x.walkQ.length + x.walks.length * 2 ^ 8 + x.walkDone % 2 ^ 16 * 2 ^ 16)
  pset s pg (0x304 + 0x10 * (t % 3)) (32 - x.memQ.length + (x.reds.length + x.sends) * 2 ^ 8 + x.memDone % 2 ^ 16 * 2 ^ 16)

/-- NL_STAT and the current operation that a layer control shows (R233). -/
def showLayer (s : State) (t l : Nat) : State :=
  let x := layerOf s t l
  let pg := nlPage t l
  let lim := fld (pget s pg 0x084) 19 16
  let free := 32 - (x.queue.filter fun i => !i.scan).length
  let s := pset s pg 0x084 (free + x.run.length * 2 ^ 8 + lim * 2 ^ 16 + x.done % 2 ^ 12 * 2 ^ 20)
  let ops := match x.run.find? fun i => !i.scan with
    | some i => [field i.cmd 0 1 + field i.cmd 3 1 * 2 ^ 8 + field i.cmd 0x0C 2 * 2 ^ 16, cmdTag i.cmd]
    | none => [0, 0]
  setCurop s pg ops

/-- TC_SSTAT of a tile (R255). -/
def showScan (s : State) (t : Nat) : State :=
  let x := scanOf s t
  pset s (tilePage t 0) 0x704 (8 - x.queue.length + b2n x.run.isSome * 2 ^ 4 + x.done % 2 ^ 16 * 2 ^ 16)

/-- Work of a tile's Tongs that a predicate on tags picks is discarded; a running walk of a committed group goes on
(R203, R303). -/
def endTongs (s : State) (t : Nat) (p : Nat → Bool) : State :=
  let x := tongsOf s t
  let s := setTongs s t { x with
    walkQ := x.walkQ.filter fun c => !p (cmdTag c)
    walks := x.walks.filter fun w => !p (cmdTag w.cmd) || tagCommitted s (cmdTag w.cmd)
    memQ := x.memQ.filter fun c => !p (cmdTag c)
    reds := x.reds.filter fun c => !p c.tag }
  showTongs s t

/-- Descriptors and scans of a layer that a predicate picks: queued ones discarded, running ones stopped, their sets
empty (R232, R249). -/
def endLayer (s : State) (t l : Nat) (p : List Byte → Bool) : State :=
  let x := layerOf s t l
  let s := foldList (fun i st => emptySets st t l i) (x.run.filter fun i => p i.cmd) s
  showLayer (setLayer s t l { x with
    queue := x.queue.filter fun i => !p i.cmd, run := x.run.filter fun i => !p i.cmd }) t l

/-- Scans of a tile that a predicate picks (R249). -/
def endScan (s : State) (t : Nat) (p : List Byte → Bool) : State :=
  let x := scanOf s t
  let run := match x.run with
    | some r => if p r.cmd then none else some r
    | none => none
  showScan (setScan s t { x with queue := x.queue.filter fun c => !p c, run := run }) t

/-- SB_RED.OPEN of a base die (R308). -/
def showRed (s : State) (a : Nat) : State := pset s (sbPage a) 0x090 (kget [] s.store.adders (400 + a)).length

/-- Open reductions that a predicate picks are closed uncompleted; their target lines become undefined (R303). -/
def endReductions (s : State) (p : Nat → Bool) : State :=
  let bad := (s.store.adders.flatMap Prod.snd).filter fun r => p r.tag
  let s := s.setMem (bad.foldl (fun m r => m.loseRange r.dst r.len) s.mem)
  let adders := (s.store.adders.map fun x => (x.1, x.2.filter fun r => !p r.tag)).filter fun x => !x.2.isEmpty
  foldList (fun a st => showRed st a) (List.range 4) (s.setStore { s.store with adders := adders })

/-- A SEND of which a frame will never go out: it no longer runs and never completes (R354, R362). -/
def sendLost (s : State) (x : TxFrame) : State :=
  match x.last with
  | some (t, _) => showTongs (setTongs s t { tongsOf s t with sends := (tongsOf s t).sends - 1 }) t
  | none => s

/-- Whether a frame belongs to a SEND or SEND_COMBINE of this module with a tag that a predicate picks. -/
def ownSend (s : State) (p : Nat → Bool) (x : TxFrame) : Bool :=
  (x.frame.type = 0x10#8 || x.frame.type = 0x11#8) && x.frame.src.toNat = ownNode s && p x.frame.tag.toNat

/-- Frames of SENDs that still wait for a port at their period's end do not go out (R362). -/
def endSends (s : State) (p : Nat → Bool) : State :=
  foldList (fun c st =>
    let l := (portOf st c).held
    foldList (fun x st => sendLost st x) (l.filter (ownSend st p))
      (setPort st c { portOf st c with held := l.filter fun x => !ownSend st p x })) (s.chain.ports.map Prod.fst) s

/-- Everything of the engines that names period k and has not ended is discarded at its end; a set that a descriptor
left open closes (R219). -/
def endEngines (s : State) (k : Nat) : State :=
  let s := foldList (fun t st => endTongs st t (tagOf s k)) (s.eng.tongs.map Prod.fst) s
  let s := endSends s (tagOf s k)
  let s := foldList (fun i st => endLayer st (i / 8) (i % 8) fun c => tagOf s k (cmdTag c)) (s.eng.layers.map Prod.fst) s
  let s := foldList (fun t st => endScan st t fun c => tagOf s k (cmdTag c)) (s.eng.scans.map Prod.fst) s
  let s := s.setEng { s.eng with
    sets := []
    remote := (s.eng.remote.map fun x => (x.1, x.2.filter fun c => !tagOf s k c.tag)).filter fun x => !x.2.isEmpty }
  endReductions s (tagOf s k)

/-- Queued walks of a tile with a step tag discarded: a replay posts its own (R208). -/
def dropWalks (s : State) (t tag : Nat) : State :=
  let x := tongsOf s t
  showTongs (setTongs s t { x with walkQ := x.walkQ.filter fun c => cmdTag c != tag }) t

/-- A running scan of a tile ended as at a period end: no list, no flag, its sets empty (R249, R254). -/
def stopScan (s : State) (t : Nat) : State :=
  match (scanOf s t).run with
  | none => s
  | some r =>
    let s := foldList (fun l st => endLayer st t l fun c => c = r.cmd) (List.range 8) s
    showScan (setScan s t { scanOf s t with run := none }) t

/-- Work that runs on a tile ended: participants idle, near-bank work and tests ended. -/
def stopWork (s : State) (t : Nat) : State :=
  let s := foldList (fun p st => abortRunning st t p) (List.range 40) s
  let s := foldList (fun l st => endLayer st t l fun _ => true) (List.range 8) s
  let s := endScan s t fun _ => true
  s.setTests (kerase s.tests t)

/-- Work that runs on a tile stopped, and its TCC halted until its reset. -/
def stopTile (s : State) (t : Nat) : State := haltTcc (stopWork s t) t true

end Sys2Proof.Machine
end

