-- ==== Sys2Proof/Machine/Periods.lean ====
section
/-!
DEFINITION. Periods, admission, step groups, commit and drop (R170 to R185, R447, R448).
-/

namespace Sys2Proof.Machine

open Sys2Proof

/-- The timebase brought to an instant at which an event happens, where it has not passed it (log 24). -/
def advanceTo (s : State) (t : Nat) : State :=
  if s.clock.now < t then countPower (s.setClock { s.clock with now := t }) s.clock.now t else s

/-- The first instant at or after t on a grid (R171). -/
def gridFrom (base len t : Nat) : Nat := t + (((base : Int) - t) % (len : Int)).toNat

/-- The pages staged for a sequence that was admitted to a slot and does not run return to their pools (R193). -/
def unstage (s : State) (slot i : Nat) : State :=
  let r := seqOf s i
  if r.slot = slot && r.state != .free && !r.orphan && (planOf s slot).state != .empty then dropPages s slot r.plist else s

/-- The admission for a period that will not start is undone: the pages staged for it return. -/
def unadmit (s : State) : State :=
  let s := foldList (fun (g : StepGroup) st => foldList (fun i st => unstage st g.slot i) g.members st) s.sched.early s
  s.setSched { s.sched with early := [], admitted := false }

/-- SP_CTRL.RUN written (R171). DESIGN CHOICE: while the period that ran when RUN was cleared has not ended, the first new start lies at or
after its end (log 117). A timebase that is held slews from then on (R371). -/
def runWrite (s : State) (run : Bool) : State :=
  let was := running s
  let s := pset s (modPage 11) 0x080 (setBitN (pget s (modPage 11) 0x080) 0 run)
  if run && !was then
    let base := pget s (modPage 11) 0x088 + pget s (modPage 11) 0x08C * 2 ^ 32
    let t := s.clock.now + 100000
    let t := if s.sched.inPeriod then max t (s.sched.start + s.sched.len) else t
    let s := unadmit s
    let s := if 0 < s.clock.hold then s.setClock { s.clock with slew := s.clock.slew - s.clock.hold, hold := 0 } else s
    s.setSched { s.sched with next := some (gridFrom base (periodLen s) t) }
  else if run then s
  else
    let s := unadmit s
    s.setSched { s.sched with next := none }

/-- SP_RUN_WRITE (R171), a register write that wakes the module (R389). -/
def execSpRunWrite (run : Bool) (s : State) : Out := .next (runWrite (wakeFor s 1) run)

/-! Quarantine. -/

/-- A bit of a register of the identity page set. -/
def idBit (s : State) (off bit : Nat) : State := psetBits s (modPage 0) off (2 ^ bit)

/-- The registers that show a quarantined unit (R233, R498). -/
def showQuarantine (s : State) (t u : Nat) : State :=
  if u < 32 then idBit s (0x100 + 4 * t) u
  else if u < 40 then idBit s (0x140 + 4 * (t / 4)) (8 * (t % 4) + (u - 32))
  else if u = 40 then idBit s 0x160 t
  else
    let l := (u - 64) / 32
    psetBits (idBit s (0x150 + 4 * (t / 4)) (8 * (t % 4) + l)) (nlPage t l) 0x0B4 (2 ^ ((u - 64) % 32))

/-- A unit quarantined (R24, R232, R447), with its capability bits. A quarantined TCC drains its tile (R447). A scan that runs on a
quarantined NBU group ends, and its group is suspect (R254). -/
def quarantine (s : State) (t u : Nat) : State :=
  let s := setUnit s t u { unitOf s t u with quarantined := true }
  let s := showQuarantine (raiseTag s (tilePage t 0) 3 0) t u
  if u < 40 then s
  else if u = 40 then
    let s := setSvcReason s t 4
    s.setSvc { s.svc with cycles := kinsert s.svc.cycles t (false, 2) }
  else
    match (scanOf s t).run with
    | some r =>
      if (cmdSlices r.cmd).contains ((u - 64) % 32) && bitOf (field r.cmd 5 1) ((u - 64) / 32) then
        stopScan (markGroup s (cmdTag r.cmd) .path (tilePage t 0) 3) t
      else s
    | none => s

/-- Every condemned unit quarantined, at the end of a period (R447). -/
def quarantineAll (s : State) : State :=
  foldList (fun k st => quarantine st (k / 512) (k % 512))
    ((s.units.filter fun x => x.2.condemned && !x.2.quarantined).map Prod.fst) s

/-! Groups. -/

/-- The step tag of a group (R174). -/
def groupTag (num slot k : Nat) (lane : Bool) : Nat := num + b2n lane * 2 ^ 4 + slot * 2 ^ 5 + k % 2 ^ 16 * 2 ^ 16

/-- A new group. -/
def newGroup (k slot num : Nat) (lane : Bool) (members columns tokens : List Nat) : StepGroup :=
  { tag := groupTag num slot k lane, slot := slot, lane := lane, num := num, members := members, columns := columns, ends := []
    fate := .running, noCommit := false, replays := [], replayed := [], rerun := false, fenced := false
    chainCommit := none, chainReports := [], resolved := [], needRerun := false, outcome := 1
    hwUnit := 0xFFFFFFFF, passed := false, outs := [], unserved := false
    tokens := tokens, wrote := [], starts := [], subst := [] }

/-- The current group that GROUP, KIND and SLOT name (R174). -/
def groupOf (s : State) (g : Nat) : Option StepGroup := s.sched.groups.find? fun x => x.tag % 2 ^ 7 = g

/-- Marks of a group. -/
def groupMarks (s : State) (tag : Nat) : List Mark := s.flt.marks.filter fun m => tagBase m.tag = tag

/-- Marks of a group removed: it has committed or been dropped; settings that marked it take its outcome (R430, R434). -/
def settle (s : State) (g : StepGroup) (outcome : Nat) : State :=
  s.setFlt { s.flt with
    marks := s.flt.marks.filter fun m => tagBase m.tag != g.tag
    stamps := s.flt.stamps.map fun x =>
      if tagBase x.tag = g.tag && x.tag != 0 then { x with outcome := some (outcome, g.hwUnit) } else x }

/-! Admission. -/

/-- Tokens of a sequence's step (R170). -/
def stepTokens (m : Manifest) (r : SeqRec) : Nat := if r.kind = 0 then 1 else min r.inputLen m.chunkMax

/-- Whether a sequence may be admitted to the next period: it is READY, or it is ACTIVE, its step of the period in progress has
committed, and no SEQ_END is accepted, so that it is READY at the period end (R168, log 97). One of a chain plan whose decisions can
reach the head after the cutoff sits a period out (R373). -/
def admissible (s : State) (i : Nat) (r : SeqRec) : Bool :=
  r.state = .ready || (r.state = .active && !r.ending && fullRate s r.slot &&
    s.sched.groups.any fun g => g.fate = .committed && g.members.contains i)

/-- Sequences of a plan that may be admitted, in admission order (R173). -/
def readyOrder (s : State) (slot : Nat) : List Nat :=
  let l := s.seqs.filter fun x => x.2.slot = slot && !x.2.orphan && admissible s x.1 x.2
  (sortBy (fun a b => a.2.prio > b.2.prio || (a.2.prio = b.2.prio &&
    (a.2.since < b.2.since || (a.2.since = b.2.since && a.1 ≤ b.1)))) l).map Prod.fst

/-- SP_PF_MAXp as the last cutoff found it, and SP_DROP_LIMIT (R504). -/
def limitOf (s : State) (i : Nat) : Nat :=
  match s.sched.limits[i]? with
  | some x => x
  | none => if i < 4 then min 16 (pget s (modPage 11) (0x0B0 + 4 * i)) else max 1 (pget s (modPage 11) 0x0A0 % 256)

/-- One sequence considered for admission to a plan: the decode and other sequences admitted so far, in order. -/
def admitSeq (slot : Nat) (i : Nat) (a : (List Nat × List Nat) × State) : (List Nat × List Nat) × State :=
  let ((dec, pf), s) := a
  let m := (planOf s slot).man
  let r := seqOf s i
  let room := if r.kind = 0 then dec.length < m.activeMax else pf.length < limitOf s slot
  if !room then a
  else
    let (ok, s) := stagePages s slot r.plist (r.kvLen + stepTokens m r)
    if !ok then ((dec, pf), s)
    else (if r.kind = 0 then (dec ++ [i], pf) else (dec, pf ++ [i]), s)

/-- The running variant of a plan that the next period start leaves it, where it goes on running one (R162). -/
def comingReq (s : State) (p : PlanSlot) : Option VarReq :=
  if (reqUnmet s (runningReq p)).isNone then some (runningReq p)
  else (usableFrom s p.reqs (p.variant + 1)).filter fun v => !v.reload

/-- Whether a plan admits sequences (R156, R162, R165, R374, R425, R475). -/
def slotAdmits (s : State) (slot : Nat) : Bool :=
  slotRuns s slot && !(planOf s slot).chainStop && (planOf s slot).unload.isNone && !fatalHold s && !notHead s slot &&
  (comingReq s (planOf s slot)).isSome && !(planOf s slot).doomed &&
  (segNodes s slot).all fun n => !(bundleOf s n).isEmpty

/-- The groups of a plan for period k (R170, R173). -/
def groupsOf (s : State) (k slot : Nat) (dec pf : List Nat) : List StepGroup :=
  let group (j : Nat) (lane : Bool) (l : List Nat) : StepGroup :=
    newGroup k slot j lane l (List.range l.length) (l.map fun i => stepTokens (planOf s slot).man (seqOf s i))
  ((List.range (divUp dec.length 16)).map fun g => group g false ((dec.drop (16 * g)).take 16)) ++
  (List.range pf.length).map fun j => group j true [pf.getD j 0]

/-- An admission entry of an ADMIT frame: a sequence with its column and its group or lane (R366). -/
def admitEntry (s : State) (x : Nat × Nat × Nat) : List Byte :=
  let r := seqOf s x.1
  record 16 [(0, 2, x.1), (2, 2, x.2.1 + x.2.2 * 16 + 256), (4, 2, stepTokens (planOf s r.slot).man r), (8, 8, r.kvLen)]

/-- The places of admitted decode and other sequences: column, and group or lane (R173). -/
def placesOf (dec pf : List Nat) : List (Nat × Nat × Nat) :=
  (((List.range dec.length).zip dec).map fun x => (x.2, x.1 % 16, x.1 / 16)) ++
  ((List.range pf.length).zip pf).map fun x => (x.2, 0, x.1)

/-- ADMIT frames to every other segment of a chain plan (R366). -/
def sendAdmit (s : State) (slot k : Nat) (l : List (Nat × Nat × Nat)) : State :=
  let parts := chunksOf 256 (l.length + 1) l
  foldList (fun n st => foldList (fun (x : Nat × List (Nat × Nat × Nat)) st =>
    sendControl st 0 (mkFrame st 0x20 n 0 (planOf st slot).uid x.1 k (x.2.flatMap (admitEntry st))))
    ((List.range parts.length).zip parts) st) (segNodes s slot) s

/-- The concurrency limit of a layer control, and of a tile (R228). -/
def limOf (s : State) (t l : Nat) : Nat :=
  min (clampN 1 8 (fld (pget s (nlPage t l) 0x088) 3 0)) (fld (pget s (nlPage t l) 0x0B0) 3 0)
def tileLim (s : State) (t : Nat) : Nat := (List.range 8).foldl (fun m l => min m (limOf s t l)) 8

/-- Whether an NBU group of a tile is quarantined. -/
def nbuQuarantined (s : State) (t : Nat) : Bool := (List.range 8).any fun l => pget s (nlPage t l) 0x0B4 != 0

/-- VSEL of a layer (R159, R232). -/
def vsel (v : LayerVar) (present : Bool) (pin b lim : Nat) : Bool :=
  if !(v.nbu && present) then false
  else if pin = 1 then false
  else if pin = 2 then true
  else 1 ≤ b && b ≤ v.nbMax && v.concMin ≤ lim

/-- The 128 bytes of VSEL of a plan (R158, R159). -/
def vselBytes (s : State) (p : PlanSlot) (k b : Nat) : List Byte :=
  let ts := planTiles p
  let lim := ts.foldl (fun m t => min m (tileLim s t)) 8
  let present := !(ts.any (nbuQuarantined s))
  leBytes 128 (maskOf ((p.layers.filter fun v => vsel v present (pinFor p k) b lim).map LayerVar.layer))

/-- Decode steps of a plan among groups: B of R159. -/
def decodeSteps (gs : List StepGroup) (slot : Nat) : Nat :=
  ((gs.filter fun g => g.slot = slot && !g.lane).map fun g => g.members.length).foldl (· + ·) 0

/-- The plan control block of a plan for period k with its decode steps (R158, R159). DESIGN CHOICE: it is written at the period start
itself, with the limit in force then, so that no group of the period before reads it (log 114). -/
def putPcb (s : State) (k slot : Nat) (gs : List StepGroup) : State :=
  if slotRuns s slot then writePcb s (planOf s slot).man.pcb (vselBytes s (planOf s slot) k (decodeSteps gs slot)) else s

/-- Admission of one plan for period k (R173, R366). -/
def admitPlan (k slot : Nat) (a : List StepGroup × State) : List StepGroup × State :=
  let (gs, s) := a
  let ((dec, pf), s) :=
    if slotAdmits s slot then foldList (admitSeq slot) (readyOrder s slot) (([], []), s) else (([], []), s)
  let s := if (dec ++ pf).isEmpty then s else sendAdmit s slot k (placesOf dec pf)
  (gs ++ groupsOf s k slot dec pf, s)

/-! Plan slots at a period start. -/

/-- Sequences of a slot whose committed pages lie on a tile out of service become FAILED (R162). -/
def failStranded (s : State) (slot : Nat) : State :=
  s.setSeqs (s.seqs.map fun x =>
    if x.2.slot = slot && x.2.state != .free && x.2.state != .ended && !x.2.orphan &&
        pagesOn s slot x.2.plist (fun t => !tileServes s t) then
      (x.1, { x.2 with state := .failed })
    else x)

/-- Whether a variant is only waiting for a tile cycle to end (R475): every unit it lacks stands on a tile in a cycle
that did not begin with a fence. -/
def onlyCycling (s : State) (v : VarReq) : Bool :=
  ((List.range 12).filter (reqTile v)).all fun t =>
    if tileServes s t then (reqParts v t).all (partServes s t)
    else
      match kfind s.svc.cycles t with
      | some (fenced, _) => !fenced && !quarantined s t 40 && tileSvc s t ≤ 5
      | none => false

/-- A plan slot at a period start (R162, R163, R475); a RELOADING interval of a segment stops its chain plan (R165). -/
def switchSlot (s : State) (i : Nat) : State :=
  let p := planOf s i
  let live := p.state = .active || p.state = .degraded || p.state = .reloading
  if p.doomed && (live || p.state = .loaded) then setSlotState (setPlan s i { p with doomed := false }) i .failed 0
  else if !live || (reqUnmet s (runningReq p)).isNone then s
  else
    match usableFrom s p.reqs (p.variant + 1) with
    | some v =>
      if !v.reload then setSlotState (failStranded (setPlan s i { p with variant := v.id }) i) i .degraded 0
      else if p.held && p.weights.all (fun w => !bitOf w.vmask v.id || w.golden) then
        setSlotState (failStranded (setPlan s i { p with variant := v.id, chainStop := p.chainStop || p.chain.isSome }) i) i .reloading 0
      else setSlotState s i .failed 0
    | none => if onlyCycling s (runningReq p) then s else setSlotState s i .failed 0

/-- A chain segment becomes ACTIVE at the first period start of R165. -/
def activateSlot (s : State) (i start : Nat) : State :=
  let p := planOf s i
  match p.activeFrom with
  | some t => if p.state = .loaded && t ≤ start then setSlotState (setPlan s i { p with activeFrom := none }) i .active 0 else s
  | none => s

/-- Tiles whose drain takes effect at this period start (R475, R476, step 2). -/
def startDrains (s : State) : State :=
  foldList (fun t st => setSvc st t 1)
    ((s.svc.cycles.map Prod.fst).filter fun t => tileSvc s t = 0) s

/-! Cutoff, start and end. -/

/-- Tiles that a finished tile cycle returns to service (R476, step 11; R163). -/
def returnTiles (s : State) : State :=
  let back := (s.svc.cycles.filter fun x => bitOf x.2.2 8 && tileSvc s x.1 = 5).map Prod.fst
  foldList (fun t st =>
    let st := setSvc st t 0
    let st := st.setSvc { st.svc with cycles := kerase st.svc.cycles t }
    let lost (p : PlanSlot) : Bool := p.weights.any fun w => w.tile = t && bitOf w.vmask p.variant && !w.golden
    st.setPlans (st.plans.map fun x => (x.1, if lost x.2 then { x.2 with doomed := true } else x.2))) back s

/-- A chain plan of which a segment is not ACTIVE or DEGRADED admits nothing until every segment is again and the check of code
0x15 is repeated (R165). -/
def stopChains (s : State) (away : List (Fin 4)) : State :=
  s.setPlans (s.plans.map fun x =>
    if x.2.chain.isSome && (x.2.state = .reloading || away.any fun i => i.val = x.1) then
      (x.1, { x.2 with chainStop := true }) else x)

/-- The admission record of a period (R174): those of the last four periods are kept. -/
def putRecord (s : State) (k : Nat) (gs : List StepGroup) : State :=
  let l := (s.sched.records.filter fun r => r.1 != k) ++ [(k, gs.map fun g => (g.tag, g.members))]
  s.setSched { s.sched with records := l.drop (l.length - 4) }

/-- The cutoff of the next period, which starts at t, and its admission (R168, R172, R173, R476): commands take effect, and the
admission record is written. -/
def cutoff (s : State) (t : Nat) (away : List (Fin 4)) : State :=
  let k := (s.sched.num + 1) % 2 ^ 64
  let s := advanceTo s (t - 20000)
  let s := s.setSched { s.sched with
    admitted := true
    limits := ((List.range 4).map fun p => min 16 (pget s (modPage 11) (0x0B0 + 4 * p))) ++
      [max 1 (pget s (modPage 11) 0x0A0 % 256)] }
  let s := stopChains (returnTiles (applyCmds s k)) away
  let (gs, s) := foldList (admitPlan k) (List.range 4) ([], s)
  let s := s.setSched { s.sched with early := s.sched.early ++ gs }
  putRecord s k (s.sched.early.filter fun g => g.tag / 2 ^ 16 = k % 2 ^ 16)

/-- ADMISSION_CUTOFF: 20 µs before the next period start. `away` names the chain plans of which a segment elsewhere is not, or since
the last cutoff was not, ACTIVE or DEGRADED (R165). -/
def execAdmissionCutoff (away : List (Fin 4)) (s : State) : Out :=
  .next (match nextStart s with
    | some t => if s.sched.admitted then s else cutoff s t away
    | none => s)

/-- SP_PERIOD_NUM, SP_PERIOD_S and SP_ACTIVE shown (R504). -/
def showPeriod (s : State) (dec lanes : Nat) : State :=
  let pg := modPage 11
  let s := pset (pset s pg 0x090 (s.sched.num % 2 ^ 32)) pg 0x094 (s.sched.num / 2 ^ 32)
  let s := pset (pset s pg 0x098 (s.sched.start % 2 ^ 32)) pg 0x09C (s.sched.start / 2 ^ 32)
  pset s pg 0x140 (dec + lanes * 2 ^ 16)

/-- Members of an admitted group that can run at the period start, with their columns and tokens: they are still READY, in a plan that
runs. -/
def runnable (s : State) (g : StepGroup) : List (Nat × Nat × Nat) :=
  (g.members.zip (g.columns.zip g.tokens)).filter fun x =>
    slotRuns s g.slot && decide ((seqOf s x.1).state = .ready) && decide ((seqOf s x.1).slot = g.slot)

/-- An admitted group at the period start: its sequences become ACTIVE, placed as they were admitted (R168, R173). The pages staged for
a member that does not run return. -/
def placeGroup (g : StepGroup) (a : List StepGroup × State) : List StepGroup × State :=
  let (gs, s) := a
  let l := runnable s g
  let s := foldList (fun i st => unstage st g.slot i) (g.members.filter fun i => !(l.map Prod.fst).contains i) s
  let s := foldList (fun (x : Nat × Nat × Nat) st => setSeq st x.1 { seqOf st x.1 with
    state := .active, placed := true, column := x.2.1, group := g.num }) l s
  (if l.isEmpty then gs
    else gs ++ [{ g with members := l.map fun x => x.1, columns := l.map fun x => x.2.1, tokens := l.map fun x => x.2.2 }], s)

/-- The start of a period at S (R171 to R174): slots change, the groups that were admitted run, and the plan control blocks are written
(R158). -/
def startPeriod (s : State) (start : Nat) (routes : List (Fin 4 × List ChainSeg)) : State :=
  let s := advanceTo s start
  let k := (s.sched.num + 1) % 2 ^ 64
  let early := s.sched.early.filter fun g => g.tag / 2 ^ 16 = k % 2 ^ 16
  let s := s.setSched { s.sched with
    num := k, start := start, len := periodLen s, inPeriod := true, next := none, admitted := false, groups := [], early := [] }
  let s := startDrains s
  let s := foldList (fun i st => activateSlot (switchSlot st i) i start) (List.range 4) s
  let s := foldList (fun i st => reboundChain st i (planOf st i).segs) (List.range 4) s
  let s := foldList (fun (x : Fin 4 × List ChainSeg) st => resumeChain (reboundChain st x.1 x.2) x.1) routes s
  let (gs, s) := foldList placeGroup early ([], s)
  let s := foldList (fun i st => putPcb st k i gs) (List.range 4) s
  let s := putRecord (s.setSched { s.sched with groups := gs }) k gs
  let count (lane : Bool) : Nat := ((gs.filter fun g => g.lane == lane).map fun g => g.members.length).foldl (· + ·) 0
  let s := showPeriod s (count false) (count true)
  let ts := (List.range 12).filter fun t => gs.any fun g => (planTiles (planOf s g.slot)).contains t
  foldList (fun t st => tileEvent st t 0) ts s

/-- PERIOD_START (R165, R172, R372): the cutoff lies before it, also where nothing has said so. `routes` gives, for each chain plan
on whose route a delay or a bundle has changed or which resumes, what its head has collected of the segments. -/
def execPeriodStart (routes : List (Fin 4 × List ChainSeg)) (s : State) : Out :=
  .next (match s.sched.inPeriod, nextStart s with
    | false, some t => startPeriod (if s.sched.admitted then s else cutoff s t []) t routes
    | _, _ => s)

/-! Drops. -/

/-- A drop completion (R341). -/
def dropEntry (i reason : Nat) (r : SeqRec) (at' k : Nat) : List Byte :=
  record 64 [(0, 1, 2), (1, 1, reason), (8, 8, at'), (0x10, 2, i), (0x12, 1, r.dropRun), (0x14, 4, r.committed),
    (0x18, 4, k % 2 ^ 32), (0x1C, 4, k / 2 ^ 32)]

/-- The entry of a dropped sequence (R168, R179). An accepted SEQ_END ends it once its cutoff has come (R172). -/
def droppedRec (s : State) (i : Nat) (r : SeqRec) (reason : Nat) : SeqRec :=
  let run := min 255 (r.dropRun + 1)
  let st : SeqState :=
    if r.state != .active then r.state
    else if r.ending && !endPending s i then .ended
    else if limitOf s 4 ≤ run then .stalled
    else .ready
  { r with
    lastDrop := reason, dropRun := run, state := st, placed := false, column := 0, group := 0
    ending := r.ending && decide (st != .ended) }

/-- One sequence of a dropped group (R179, R193). -/
def dropSeq (s : State) (i reason at' k : Nat) : State :=
  let r := seqOf s i
  let s := dropPages s r.slot r.plist
  let r := droppedRec s i r reason
  let s := setSeq s i r
  let s := count s (modPage 11) 0x810 1
  let s := if reason ≤ 2 then count s (modPage 11) 0x818 1 else s
  if bitOf (pget s (modPage 11) 0x080) 1 && !notHead s r.slot then cqPost s r.cq (dropEntry i reason r at' k) else s

/-- Tags of the periods of which admission records are kept (R174). -/
def recentTags (s : State) (l : List Nat) : List Nat :=
  l.filter fun t => s.sched.records.any fun r => r.1 % 2 ^ 16 = t / 2 ^ 16

/-- The tag of a group for which a DROP, or a COMMIT, was sent or received here. -/
def noteDrop (s : State) (tag : Nat) : State :=
  s.setChain { s.chain with drops := recentTags s s.chain.drops ++ [tag] }
def noteCommit (s : State) (tag : Nat) : State :=
  s.setChain { s.chain with commits := recentTags s s.chain.commits ++ [tag] }

/-- A DROP frame of a group to the last segment and to the head (R368). -/
def sendDrop (s : State) (g : StepGroup) (k reason : Nat) : State :=
  match (planOf s g.slot).chain with
  | none => s
  | some c =>
    let isEnd (i : Nat) : Bool := (i = 0 || i + 1 = c.count) && i != c.index
    let dest := (((planOf s g.slot).segs.filter fun x => isEnd x.index.toNat).map fun x => x.node.toNat).eraseDups
    let arg := g.tag % 2 ^ 5 + c.index * 2 ^ 8 + reason * 2 ^ 16
    foldList (fun n st => sendControl st 0 (mkFrame st 0x23 n g.tag (planOf st g.slot).uid arg k [])) dest (noteDrop s g.tag)

/-- A group dropped (R179): its sequences, its marks, its counters and sources. -/
def dropGroup (s : State) (g : StepGroup) (reason at' k : Nat) : State :=
  let s := foldList (fun i st => dropSeq st i reason at' k) g.members s
  let ts := planTiles (planOf s g.slot)
  let s := if reason = 2 || reason = 3 then foldList (fun t st => count st (tilePage t 0) 0x8B8 1) ts s else s
  let s := if reason = 3 then foldList (fun t st => raiseTag st (tilePage t 0) 4 0) ts s else s
  let s := sendDrop s g k reason
  setGroup (settle s g 5) { g with fate := .dropped }

/-- Whether a plan is stopped: it left ACTIVE or DEGRADED, a segment of its chain stopped, or the last port of a route to one is lost
(R165, R179, R374). -/
def planStopped (s : State) (slot : Nat) : Bool :=
  !slotRuns s slot || (planOf s slot).unload.isSome || (planOf s slot).chainStop ||
    (segNodes s slot).any fun n => (bundleOf s n).isEmpty

/-- The reason of a group that is dropped at a period end (R448). -/
def dropReason (s : State) (g : StepGroup) : Nat :=
  if g.fenced then 4
  else if planStopped s g.slot then 5
  else if g.noCommit || (groupMarks s g.tag).any (fun m => m.kind = .program) then 3
  else if !g.replays.isEmpty then 2
  else 1

/-- Whether a group waits for the decision of its chain: its own part has passed, and no reason ahead of CHAIN_LATE applies (R180,
R448). -/
def awaitsChain (s : State) (g : StepGroup) : Bool :=
  match (planOf s g.slot).chain with
  | some c => g.passed && c.index + 1 != c.count && dropReason s g = 1
  | none => false

/-- The members of a group that waits for its decision past the period end: PLACE is cleared there (R173). -/
def clearPlaces (s : State) (g : StepGroup) : State :=
  foldList (fun i st => setSeq st i { seqOf st i with placed := false, column := 0, group := 0 }) g.members s

/-- Participants but the TCCs that run a program of period k. -/
def stillRunning (s : State) (k : Nat) : List Nat :=
  (s.cores.filter fun x => x.1 % 41 != 40 && x.2.run != .idle && tagOf s k x.2.tag.toNat).map Prod.fst

/-- Every participant of the period aborted, and every barrier generation that one of them awaits (R117, R123, R179). -/
def abortPeriod (s : State) (k : Nat) : State :=
  let cs := stillRunning s k
  let bars := (cs.filterMap fun c => match (coreOf s c).wait with
    | some (.barrier m g _) => some (m, if m then 0 else c / 41, g)
    | _ => none).eraseDups
  let s := foldList (fun c st => abortPart st (c / 41) (c % 41)) cs s
  foldList (fun (x : Bool × Nat × Nat) st => abortBar st x.1 x.2.1 x.2.2) bars s

/-- Sequences that committed in the period go back to READY, or end (R168). -/
def releasePlaced (s : State) (g : StepGroup) : State :=
  if g.fate != .committed then s
  else
    foldList (fun i st =>
      let r := seqOf st i
      let dest : SeqState := if r.state != .active then r.state else if r.ending && !endPending st i then .ended else .ready
      setSeq st i { r with state := dest, placed := false, column := 0, group := 0, ending := r.ending && decide (dest != .ended) })
      g.members s

/-! Laggards (R183, R184). -/

/-- Completion offset of a tile (R183): none where a part on it did not end before the period end. -/
def doneOfs (s : State) (t : Nat) : Option Nat :=
  let gs := s.sched.groups.filter fun g => (planTiles (planOf s g.slot)).contains t
  if gs.any fun g => (kfind g.ends t).isNone then none
  else some ((gs.map fun g => kget 0 g.ends t).foldl max 0)

/-- One plan's laggards (R183): its tiles, the offsets, the median. -/
def laggards (s : State) (slot : Nat) : List Nat :=
  let ts := planTiles (planOf s slot)
  let inf := 2 ^ 64
  let c (t : Nat) : Nat := (doneOfs s t).getD inf
  let l := sortBy (fun a b => decide (a ≤ b)) (ts.map c)
  let m := l.getD ((ts.length - 1) / 2) 0
  let margin := max 1 (fld (pget s (modPage 11) 0x0A4) 15 0) * 1000
  ts.filter fun t => m + margin < c t

/-- The AT_RISK event of a plan (R184, R343). -/
def atRisk (s : State) (slot : Nat) (lag : List Nat) : State :=
  let risk := clampN 50 100 (fld (pget s (modPage 11) 0x0A4) 22 16)
  let late (g : StepGroup) : Bool := g.slot = slot && lag.any fun t =>
    match kfind g.ends t with
    | some x => s.sched.len * risk ≤ x * 100
    | none => true
  let gs := s.sched.groups.filter late
  let groups := maskOf ((gs.filter fun g => !g.lane).map StepGroup.num)
  let lanes := maskOf ((gs.filter StepGroup.lane).map StepGroup.num)
  let seqs := gs.flatMap StepGroup.members
  event s 1 [(0x10, 1, slot), (0x12, 2, groups), (0x14, 2, lanes), (0x18, 8, s.sched.num), (0x20, 2, seqs.length)] seqs

/-- Laggard evaluation of the period (R183 to R185). -/
def evaluateLag (s : State) : State :=
  let slots := (List.range 4).filter fun i => s.sched.groups.any fun g => g.slot = i
  let ts := (List.range 12).filter fun t => slots.any fun i => (planTiles (planOf s i)).contains t
  let s := foldList (fun t st => pset st (tilePage t 0) 0x600 ((doneOfs st t).getD 0xFFFFFFFF)) ts s
  let all := (slots.flatMap (laggards s)).eraseDups
  let s := s.setPower { s.power with lagging := all }
  let s := foldList (fun t st =>
    raiseTag (pset st (tilePage t 0) 0x604 (min 0xFFFF (pget st (tilePage t 0) 0x604 + 1))) (tilePage t 0) 0 0) all s
  foldList (fun i st => if (laggards st i).isEmpty then st else atRisk st i (laggards st i)) slots s

/-- The parts of groups that have ended when the period ends, by tile, for groups that have not committed (R183). -/
def noteEnds (s : State) (parts : List (BitVec 7 × List (Fin 12 × BitVec 32))) : State :=
  foldList (fun (x : BitVec 7 × List (Fin 12 × BitVec 32)) st =>
    match groupOf st x.1.toNat with
    | some g =>
      if g.ends.isEmpty then
        let ts := planTiles (planOf st g.slot)
        let ended := x.2.filter fun e => ts.contains e.1.val && e.2.toNat < st.sched.len
        setGroup st { g with ends := ended.foldl (fun m e => kinsert m e.1.val e.2.toNat) [] }
      else st
    | none => st) parts s

/-- The end of the period in progress (R179). -/
def endPeriod (s : State) : State :=
  let k := s.sched.num
  let e := s.sched.start + s.sched.len
  let s := advanceTo s e
  let s := abortPeriod s k
  let s := endEngines s k
  let gs := s.sched.groups.filter fun g => g.fate = .running
  let wait := gs.filter (awaitsChain s)
  let s := foldList (fun g st => dropGroup st g (dropReason st g) e k) (gs.filter fun g => !awaitsChain s g) s
  let s := foldList (fun g st => clearPlaces st g) wait (s.setSched { s.sched with awaiting := s.sched.awaiting ++ wait.map fun g => (k, e, g) })
  let s := foldList (fun g st => releasePlaced st g) s.sched.groups s
  let s := evaluateLag s
  let s := quarantineAll s
  let s := foldList (fun i st => if (planOf st i).unload.isSome then doUnload st i else st) (List.range 4) s
  let next := nextStart s
  (s.setSched { s.sched with inPeriod := false, next := next }).setChain { s.chain with peers := [] }

/-- PERIOD_END (R179, R183). -/
def execPeriodEnd (parts : List (BitVec 7 × List (Fin 12 × BitVec 32))) (s : State) : Out :=
  .next (if s.sched.inPeriod then endPeriod (noteEnds s parts) else s)

/-! Commit (R175, R177). -/

/-- The entry after a committed step of n tokens: item 1 and item 2 of R177. A segment that is not the head counts the input by its
own copy of it (R367, log 98). `fin` is the END flag of a decision (R368). -/
def committedRec (k token n : Nat) (head fin : Bool) (r : SeqRec) : SeqRec :=
  let rest := (if head then r.inputLen else r.left) - n
  let r1 := { r with
    committed := (r.committed + 1) % 2 ^ 32
    kvLen := (r.kvLen + n) % 2 ^ 64
    inputDa := if r.kind = 0 || !head then r.inputDa else (r.inputDa + n * Config.tokenBytes) % 2 ^ 64
    inputLen := if r.kind = 0 || !head then r.inputLen else rest
    left := if r.kind = 0 || head then r.left else rest
    lastToken := if r.kind = 0 then token else r.lastToken
    dropRun := 0, since := k }
  let stop := r.kind = 0 && r.stopToken != 0xFFFFFFFF && token = r.stopToken
  let limit := r.stepLimit != 0 && r1.committed = r.stepLimit
  let done := r.kind = 2 && rest = 0
  let ends := stop || limit || done || r.ending || fin
  { r1 with
    kind := if r.kind = 1 && rest = 0 then 0 else r.kind
    state := if ends && r.state = .active then .ended else r.state
    ending := r.ending && !(ends && decide (r.state = .active)) }

/-- Output bytes copied into a ring from an offset on, wrapping as often as they fill it (R177, item 3). -/
def ringCopy (s : State) (da size head : Nat) (l : List Byte) : State :=
  if size = 0 || l.isEmpty then s
  else
    let first := size - head % size
    let s := (daWrite s (ownReq 0) (da + head % size) (l.take first)).2
    foldList (fun part st => (daWrite st (ownReq 0) da part).2) (chunksOf size l.length (l.drop first)) s

/-- A step completion (R341). -/
def stepEntry (i tc : Nat) (r : SeqRec) (isEnd isToken : Bool) (val off : Nat) : List Byte :=
  record 64 [(0, 1, 1), (8, 8, tc), (0x10, 2, i), (0x12, 1, b2n isEnd + 2 * b2n isToken), (0x14, 4, r.committed),
    (0x18, 4, val), (0x1C, 4, off)]

/-- One step of n tokens committed: its entry, its pages, its output and its completion (R177, R193, R367). -/
def commitSeq (s : State) (k tc i n : Nat) (fin : Bool) (out : Nat × List Byte) : State :=
  let r := seqOf s i
  let head := !notHead s r.slot
  let r' := committedRec k out.1 n head fin r
  let s := commitPages s r.slot r.plist
  let s := count s (modPage 11) 0x808 1
  if !head then setSeq s i r'
  else
    let off := r.outHead
    let len := out.2.length
    let r'' := { r' with outHead := if r.outSize = 0 then off else (off + len) % r.outSize }
    let s := ringCopy (setSeq s i r'') r.outDa r.outSize off out.2
    cqPost s r.cq (stepEntry i tc r'' (decide (r''.state = .ended)) (decide (r.kind = 0)) (if r.kind = 0 then out.1 else len) off)

/-- A group committed at t_c (R177); `fins` are the END flags of a decision (R368). -/
def commitGroup (s : State) (g : StepGroup) (k tc : Nat) (outs : List (Nat × List Byte)) (fins : List Bool) : State :=
  let s := foldList (fun (x : Nat × Nat) st =>
      commitSeq st k tc x.1 (g.tokens.getD x.2 0) (fins.getD x.2 false) (outs.getD x.2 (0, [])))
    (g.members.zip (List.range g.members.length)) s
  let ts := planTiles (planOf s g.slot)
  let s := if g.rerun then foldList (fun t st => raiseTag st (tilePage t 0) 5 0) ts s else s
  setGroup (settle s g g.outcome) { g with fate := .committed }

/-- Whether the marks of a group allow a commit: none, or handled by the first of their kinds and settled (R440, R444). -/
def marksClear (s : State) (g : StepGroup) : Bool :=
  let ms := groupMarks s g.tag
  let open' := ms.filter fun m => !g.resolved.contains m
  !(ms.any fun m => m.kind = .program) &&
  (if ms.any fun m => m.kind = .unit then !(open'.any fun m => m.kind = .unit) && (!g.needRerun || g.rerun)
   else open'.isEmpty) &&
  g.replays.isEmpty

/-- Whether a group passes its checks (R175, R176, R179, R366). -/
def checksPass (s : State) (g : StepGroup) : Bool :=
  !(g.noCommit || g.fenced || g.unserved) && marksClear s g && slotRuns s g.slot

/-- Whether nothing keeps a group from its commit point: it passes its checks, and no FATAL source holds the module (R425). -/
def mayCommit (s : State) (g : StepGroup) : Bool := !fatalHold s && checksPass s g

/-- The decision of a chain commit (R368): the record of a decode step carries its token in LEN and no bytes. -/
def decisionBytes (tc : Nat) (g : StepGroup) (ends : List Bool) (kinds : List Bool) : List Byte :=
  leBytes 8 tc ++ leBytes 8 0 ++
  ((g.members.zip (g.outs.zip (ends.zip kinds))).flatMap fun (i, (tok, l), e, d) =>
    let pad := (16 - l.length % 16) % 16
    leBytes 2 i ++ leBytes 2 (b2n e + 2 * b2n d) ++ leBytes 4 (if d then tok else l.length) ++
      if d then [] else l ++ List.replicate pad 0#8)

/-- COMMIT frames of a group upstream, once it is committed at t_c (R368); `kinds` says which steps were decode steps. -/
def sendCommit (s : State) (g : StepGroup) (c : ChainRec) (tc : Nat) (kinds : List Bool) : State :=
  let ends := g.members.map fun i => decide ((seqOf s i).state = .ended)
  let d := decisionBytes tc g ends kinds
  let parts := chunksOf 4096 (d.length + 1) d
  foldList (fun (x : Nat × List Byte) st =>
    sendControl st 0 (mkFrame st 0x22 c.upNode g.tag (planOf st g.slot).uid
      (g.tag % 2 ^ 5 + c.index * 2 ^ 8 + x.1 * 2 ^ 16) st.sched.num x.2)) ((List.range parts.length).zip parts) s

/-- The last segment of a chain commits once its own part and every report have come, while nothing keeps the group from it
(R176, R180). -/
def tryChainCommit (s : State) (g : StepGroup) (tc : Nat) : State :=
  match (planOf s g.slot).chain with
  | none => s
  | some c =>
    let all := (List.range (c.count - 1)).all fun i => g.chainReports.contains i
    if !(c.index + 1 = c.count && g.passed && all && g.fate = .running && tc < s.sched.start + s.sched.len && mayCommit s g) then s
    else
      let kinds := g.members.map fun i => decide ((seqOf s i).kind = 0)
      noteCommit (sendCommit (commitGroup s { g with chainCommit := some tc } s.sched.num tc g.outs []) g c tc kinds) g.tag

/-- A group whose part here has passed commits, where nothing keeps it from its commit point: one of a chain plan on its last segment
(R175, R180, R425). -/
def tryCommit (s : State) (g : StepGroup) (tc : Nat) : State :=
  if (planOf s g.slot).chain.isSome then tryChainCommit s g tc
  else if g.passed && g.fate = .running && tc < s.sched.start + s.sched.len && mayCommit s g then
    commitGroup s g s.sched.num tc g.outs []
  else s

/-- Node of the last segment of a chain plan. -/
def lastNode (s : State) (slot : Nat) : Nat :=
  match (planOf s slot).chain with
  | some c => (((planOf s slot).segs.find? fun x => x.index.toNat + 1 = c.count).map fun x => x.node.toNat).getD 0xFFFF
  | none => 0xFFFF

/-- A REPORT of this segment's part (R368). -/
def sendReport (s : State) (g : StepGroup) (index : Nat) : State :=
  sendControl s 0 (mkFrame s 0x21 (lastNode s g.slot) g.tag (planOf s g.slot).uid (g.tag % 2 ^ 5 + index * 2 ^ 8) s.sched.num [])

/-- Whether the plan control block of a plan still agrees with its complement (R439). -/
def pcbGood (s : State) (slot : Nat) : Bool := guarded (readBytes s (planOf s slot).man.pcb 256) 128

/-- A plan control block that disagrees with its complement: the plan's step groups of the period have no commit point (R439, R440). -/
def spoilPlan (s : State) (slot : Nat) : State :=
  s.setSched { s.sched with groups := s.sched.groups.map fun g =>
    if g.slot = slot && g.fate = .running then { g with noCommit := true } else g }

/-- The results of a group's steps by member, from those by column. -/
def byMember (g : StepGroup) (outs : List (Nat × List Byte)) : List (Nat × List Byte) := g.columns.map fun c => outs.getD c (0, [])

/-- The parts of a group have all ended, with their checks, at t_c (R175, R450): its part has passed, and it commits unless a FATAL
source holds the module (R425); a segment that is not the last reports. -/
def groupEnded (s : State) (g : StepGroup) (tc : Nat) (ends : KMap Nat) (outs : List (Nat × List Byte)) : State :=
  let ts := planTiles (planOf s g.slot)
  let all := ts.map fun t => (t, (kfind ends t).getD (tc - s.sched.start))
  let outs := byMember g outs
  let g := { g with ends := all }
  let s := setGroup s g
  let s := if pcbGood s g.slot then s else spoilPlan s g.slot
  let g := { g with noCommit := g.noCommit || !pcbGood s g.slot }
  if !checksPass s g then s
  else
    let g := { g with passed := true, outs := outs }
    let s := setGroup s g
    match (planOf s g.slot).chain with
    | none => tryCommit s g tc
    | some c => if c.index + 1 = c.count then tryCommit s g tc else sendReport s g c.index

/-- STEP_GROUP_COMMIT (R175 to R177, R180, R425): the parts of a group have ended at t_c, with their offsets by tile, the
sampled tokens and the staged output by column. At the period end or later nothing commits (R179). A group whose part has passed
tries its commit again. -/
def execStepGroupCommit (g : BitVec 7) (tc : BitVec 64) (ends : List (Fin 12 × BitVec 32))
    (outs : List (BitVec 32 × List Byte)) (s : State) : Out :=
  .next (match groupOf s g.toNat with
    | some x =>
      let t := max s.clock.now tc.toNat
      if !s.sched.inPeriod || x.fate != .running || s.sched.start + s.sched.len ≤ t then s
      else if x.passed then tryCommit (advanceTo s t) x t
      else
        let s := advanceTo s t
        groupEnded s x t (ends.foldl (fun m e => kinsert m e.1.val e.2.toNat) [])
          (outs.map fun o => (o.1.toNat, o.2))
    | none => s)

end Sys2Proof.Machine
end

