-- ==== Sys2Proof/Machine/Replays.lean ====
section
/-!
DEFINITION. Replays and re-runs of suspect step groups (R440 to R447, R455, R369).
-/

namespace Sys2Proof.Machine

open Sys2Proof

/-- The unit of a page on which a UNIT source was set: tile and unit index (R455). Slice n picks the NBU group of a
layer-control page; a page without a unit of its own counts no strike. -/
def pageUnit (page n : Nat) : Option (Nat × Nat) :=
  match pagePlace page with
  | .tile t i =>
    if i = 1 then some (t, 40)
    else if 2 ≤ i && i < 42 then some (t, i - 2)
    else if 74 ≤ i && i < 82 then some (t, nbUnit (i - 74) n)
    else none
  | _ => none

/-- The lowest-numbered exposed core of the same kind that no running variant of a resident plan uses (R441, item 3). -/
def idleCore (s : State) (t p : Nat) : Option Nat :=
  let l := (if p < 32 then List.range 32 else (List.range 8).map (32 + ·)).filter (exposed s t)
  l.find? fun c =>
    c != p && !quarantined s t c && !(unitOf s t c).condemned &&
    !((residentSlots s).any fun i => (reqParts (runningReq (planOf s i)) t).contains c)

/-- Replay hardware (R441): another core, by its position in the tile; the same hardware, by its UNIT_PHY; or the chain peer's node. -/
inductive ReplayHw where
  | core (pos : Nat)
  | own (phy : Nat)
  | peer (node : Nat)
  | none
  deriving DecidableEq, Repr

/-- The replay spare for a core (R441, items 1 and 2): the seventeenth matrix core of its half, or of the other half; for a
vector core, the seam position. It is good, unused and not replaying. -/
def replaySpare (s : State) (t u : Nat) : Option Nat :=
  let busy (x : Nat) : Bool := s.sched.groups.any fun g => g.replays.any fun r => r.hw = unitPhy t x
  let l := if u < 32 then
      ((mcPool s t (u / 16))[16]?).toList ++ ((mcPool s t (1 - u / 16))[16]?).toList
    else if (vcPool s t).2.2 then [] else [4]
  l.find? fun x => !busy x

/-- The replay hardware of a UNIT cause on a page; slice n picks the NBU group, or the scan filter, of a page that has several. -/
def replayHw (s : State) (page n : Nat) : ReplayHw :=
  match pageUnit page n with
  | some (t, u) =>
    if u < 40 then
      match replaySpare s t u, idleCore s t u with
      | some x, _ => .core x
      | none, some c => .core (physPos s t c)
      | none, none =>
        let node := fld (pget s (tilePage t 0) 0x748) 15 0
        if node = 0xFFFF then .none else .peer node
    else if u = 40 then .none
    else .own (unitPhy t (physPos s t ((u - 64) % 32)) + (u - 64) / 32 * 2 ^ 16 + 2 ^ 19)
  | none =>
    match pagePlace page with
    | .tile t _ =>
      .own (unitPhy t (if s.flt.marks.any fun m => m.page = page && m.source = 18 then physPos s t n else 0xFF))
    | .base a _ => .own (unitPhy (0x40 + a) 0xFF)
    | _ => .own (unitPhy 0x80 0xFF)

/-- Tiles on which a resolution of a page is shown: its own tile, or the tiles of the plan. -/
def pageTiles (s : State) (page slot : Nat) : List Nat :=
  match pagePlace page with
  | .tile t _ => [t]
  | _ => planTiles (planOf s slot)

/-- TC_RPL_LAST0 to 2 written (R455). -/
def showResolution (s : State) (t outcome : Nat) (same : Bool) (u tag hw : Nat) : State :=
  let pg := tilePage t 0
  pset (pset (pset s pg 0x74C (outcome + b2n same * 2 ^ 3 + u * 2 ^ 16)) pg 0x750 tag) pg 0x754 hw

/-- A suspect piece of a group: an unsettled UNIT mark of a page. -/
def suspectPiece (s : State) (g : StepGroup) (page : Nat) : Bool :=
  (groupMarks s g.tag).any fun m => m.kind = .unit && m.page = page && !g.resolved.contains m

/-- Whether a PROGRAM cause has marked a group. -/
def programMarked (s : State) (g : StepGroup) : Bool := (groupMarks s g.tag).any fun m => m.kind = .program

/-- Key of a piece in a group's lists: page and slice. -/
def pieceKey (page n : Nat) : Nat := page * 32 + n

/-- RPL_REQ frames with a piece's held inputs (R369): ARG is the request ID and the bytes in total, EXT the plan slot and the
participant. -/
def sendReplayRequest (s : State) (g : StepGroup) (node da t p : Nat) (inputs : List Byte) : State :=
  let id := s.chain.cmdId
  let s := s.setChain { s.chain with cmdId := (id + 1) % 2 ^ 16 }
  let parts := chunksOf 4096 (inputs.length + 1) inputs
  let parts := if parts.isEmpty then [[]] else parts
  foldList (fun (x : Nat × List Byte) st => sendControl st 0 (mkFrame st 0x30 node g.tag (da + 4096 * x.1)
    (id + inputs.length * 2 ^ 32) (g.slot + (t * 0x100 + p) * 2 ^ 16) x.2)) ((List.range parts.length).zip parts) s

/-- Bytes of a CODE record for a replay (R442, item 1): those in the first core's store, where their CRC is as recorded at load, else
those of the held image; none where the image is not held or fails too. -/
def replayCode (s : State) (slot t p : Nat) (c : CodeRec) : Option (List Byte) × State :=
  let x := planOf s slot
  let b := readBytes s (tlaKey t (storeTla p + c.off)) c.len
  if crc32 b = c.crc then (some b, s)
  else if x.held then recordBytes s t (x.imageDa + c.data) c.len c.crc
  else (none, s)

/-- Key of a byte in the store of a replay spare, which no tile-local address names. -/
def spareKey (id off : Nat) : Nat := 2 ^ 48 * 16 + 2 ^ 24 * id + off

/-- The CODE records of a piece copied to the store of the core at a position (R442, item 1); the flag says whether each was there. -/
def copyCode (s : State) (slot t p pos : Nat) : Bool × State :=
  let x := planOf s slot
  let mine := x.code.filter fun c => c.tile = t && c.part = p && bitOf c.vmask x.variant
  let put (s : State) (off : Nat) (b : List Byte) : State :=
    match (if p < 32 then List.range 32 else (List.range 8).map (32 + ·)).find? fun c => physPos s t c = pos with
    | some c => (tlaWrite s (tongsReq t 0) t (storeTla c + off) b).2
    | none => writeBytes s (spareKey (spareId t p pos) off) b
  foldList (fun (c : CodeRec) (a : Bool × State) =>
    match replayCode a.2 slot t p c with
    | (some b, s) => (a.1, put s c.off b)
    | (none, s) => (false, s)) mine (true, s)

/-- PIECE_REPLAY (R441, R442, R446): the replay of a suspect piece starts on its hardware, on another core with the piece's code, its
entry PC and its G1; and queued walks of the first run are
discarded (R208); without hardware, or without code, the group has no commit point. -/
def pieceReplay (s : State) (g : StepGroup) (page n da : Nat) (inputs : List Byte) : State :=
  let key := pieceKey page n
  if g.fate != .running || g.noCommit || programMarked s g || !suspectPiece s g page || g.replayed.contains key then s
  else
    let start (s : State) (hw : Nat) (same : Bool) : State :=
      let s := foldList (fun t st => dropWalks (count st (tilePage t 0) 0x8A0 1) t g.tag) (pageTiles s page g.slot) s
      setGroup s { g with
        replays := g.replays ++ [⟨some key, hw, same, s.clock.now, false, 0, groupMarks s g.tag, []⟩]
        replayed := g.replayed ++ [key], hwUnit := hw }
    let fail (s : State) : State := setGroup s { g with noCommit := true }
    match replayHw s page n, pageUnit page n with
    | .core pos, some (t, u) =>
      match copyCode s g.slot t u pos with
      | (true, s) => startReplay (start s (unitPhy t pos) false) g t u pos
      | (false, s) => fail s
    | .own phy, _ => start s phy true
    | .peer node, some (t, u) => start (sendReplayRequest s g node da t u inputs) (unitPhy 0x80 0xFF) false
    | _, _ => fail s

/-- PIECE_REPLAY; `da` is where a chain peer's inputs land (log 25). -/
def execPieceReplay (g : BitVec 7) (page : BitVec 11) (n : Fin 32) (da : BitVec 64) (inputs : List Byte) (s : State) : Out :=
  .next (match groupOf s g.toNat with
    | some x => pieceReplay s x page.toNat n da.toNat inputs
    | none => s)

/-- Whether a group is due for a re-run (R440, R444): a replay on other hardware differed, or its first cause is DATA or
PATH. -/
def rerunDue (s : State) (g : StepGroup) : Bool :=
  let ms := groupMarks s g.tag
  let data := !(ms.any fun m => m.kind = .unit) && ms.any fun m => !g.resolved.contains m
  g.fate = .running && !g.noCommit && !g.rerun && !programMarked s g && (g.needRerun || data)

/-- GROUP_RERUN (R443, R446): every piece of the group is to run again, and those whose hardware is free start. -/
def execGroupRerun (g : BitVec 7) (s : State) : Out :=
  .next (match groupOf s g.toNat with
    | some x =>
      if !rerunDue s x then s
      else
        let s := foldList (fun t st => dropWalks (count st (tilePage t 0) 0x8A8 1) t x.tag) (planTiles (planOf s x.slot)) s
        rerunPieces (setGroup s { x with
          rerun := true
          replays := x.replays ++ [⟨none, x.hwUnit, !x.needRerun, s.clock.now, false, 0, groupMarks s x.tag, x.starts.map Prod.fst⟩] })
    | none => s)

/-- Whether every mark of a piece is a checksum mismatch, which the same failing columns excuse (R79, R220, R444). -/
def mismatchOnly (s : State) (g : StepGroup) (page : Nat) : Bool :=
  (groupMarks s g.tag).all fun m => m.page != page || m.kind != .unit || m.source = 0

/-- Source of a data-caused resolution: CK_DATA of a matrix core, NB_CK_DATA of a layer control (R89, R235). -/
def dataSource (page : Nat) : Option Nat :=
  match pageBlock page with
  | some .matrixCore => some 9
  | some .layerCtl => some 10
  | _ => none

/-- Causes that a replay or re-run has raised of its own: marks under a tag with the REPLAY bit that came after its start (R444). -/
def raisedBy (s : State) (g : StepGroup) (r : Replay) : List Mark :=
  (groupMarks s g.tag).filter fun m => bitOf m.tag 7 && !r.seen.contains m

/-- The spare of a piece replay that ends is free again. -/
def endSpare (s : State) (r : Replay) : State :=
  match r.unit.map fun k => pageUnit (k / 32) (k % 32) with
  | some (some (t, u)) => s.setSched { s.sched with spares := kerase s.sched.spares (spareId t u (r.hw / 2 ^ 8 % 2 ^ 8)) }
  | _ => s

/-- A piece replay resolved (R444). -/
def resolvePiece (s : State) (g : StepGroup) (r : Replay) (page n : Nat) (res : ReplayResult) : State :=
  let settled := (groupMarks s g.tag).filter fun m => (m.page = page && r.seen.contains m) || (raisedBy s g r).contains m
  let s := endSpare s r
  let g := { g with replays := g.replays.filter (· != r) }
  let fix (g : StepGroup) (oc : Nat) : StepGroup := { g with resolved := g.resolved ++ settled, outcome := oc, hwUnit := r.hw }
  let bad := { g with noCommit := true }
  let strikeU (s : State) : State := match pageUnit page n with
    | some (t, u) => strike s t u
    | none => s
  let show' (s : State) (oc : Nat) : State :=
    foldList (fun t st => showResolution st t oc r.sameHw (((pageUnit page n).map Prod.snd).getD 0) g.tag r.hw)
      (pageTiles s page g.slot) s
  match res with
  | .identical => show' (strikeU (setGroup s (fix g 3))) 3
  | .differs =>
    if r.sameHw then show' (strikeU (setGroup s bad)) 5
    else
      let subst := match pageUnit page n with
        | some (t, u) => if u < 40 then kinsert g.subst (coreId t u) r.hw else g.subst
        | none => g.subst
      show' (strikeU (setGroup s { fix g 4 with needRerun := true, subst := subst })) 4
  | .sameFailure =>
    if mismatchOnly s g page then
      let s := foldList (fun t st => count st (tilePage t 0) 0x8B0 1) (pageTiles s page g.slot) s
      let s := match dataSource page with
        | some src => raise s page src
        | none => s
      show' (setGroup s (fix g 2)) 2
    else show' (setGroup s bad) 5
  | .failed => show' (setGroup s bad) 5

/-- A group re-run resolved (R444). -/
def resolveRerun (s : State) (g : StepGroup) (r : Replay) (res : ReplayResult) : State :=
  let g := { g with replays := g.replays.filter (· != r) }
  let ok := res = .identical || res = .differs
  let g := if ok then { g with resolved := g.resolved ++ groupMarks s g.tag, outcome := 4 } else { g with noCommit := true }
  let s := setGroup s g
  foldList (fun t st => showResolution st t (if ok then 4 else 5) r.sameHw 0 g.tag r.hw) (planTiles (planOf s g.slot)) s

/-- How a replay ended: its lines are identical only where every one matched and there are as many as the first run of its core
wrote (R442). One that raised a cause of its own has failed, but for the mismatch that it shares with the first run (R79, R444). -/
def replayResult (s : State) (g : StepGroup) (y : Replay) (piece : Option (Nat × Nat)) (r : ReplayResult) : ReplayResult :=
  let short := match piece.bind fun x => pageUnit x.1 x.2 with
    | some (t, p) => decide (p < 40) && y.lines != kget 0 g.wrote (coreId t p)
    | none => false
  let own := (raisedBy s g y).filter fun m => !(r = .sameFailure && m.kind = .unit && m.source = 0)
  if !own.isEmpty then .failed
  else if y.differ || short then (match r with
    | .identical => .differs
    | .sameFailure => .failed
    | x => x)
  else r

/-- A group whose part has passed tries its commit again (R180, R425). -/
def retryCommit (s : State) (tag : Nat) : State :=
  match s.sched.groups.find? fun g => g.tag = tag with
  | some g => if s.sched.inPeriod && g.passed then tryCommit s g s.clock.now else s
  | none => s

/-- REPLAY_RESOLVE (R444): a piece replay, or the re-run, of a group ends. -/
def execReplayResolve (g : BitVec 7) (piece : Option (BitVec 11 × Fin 32)) (r : ReplayResult) (s : State) : Out :=
  let key := piece.map fun x => pieceKey x.1.toNat x.2
  .next (match groupOf s g.toNat with
    | some x =>
      match x.replays.find? fun y => y.unit = key with
      | some y =>
        let r := replayResult s x y (piece.map fun z => (z.1.toNat, z.2.val)) r
        retryCommit (match piece with
          | some (page, n) => resolvePiece s x y page.toNat n r
          | none => resolveRerun s x y r) x.tag
      | none => s
    | none => s)

end Sys2Proof.Machine
end

