-- ==== Sys2Proof/Machine/Dma.lean ====
section
/-!
DEFINITION. DMA commands (R338) and LPDDR5X channel map-out (R29, R293 to R295).
-/

namespace Sys2Proof.Machine

open Sys2Proof

/-- Whether a device range meets no unmapped address, no register and nothing fenced (R338). -/
def rangeOpen (s : State) (da n : Nat) : Bool :=
  match daKind da with
  | .bonded t _ _ =>
    da + n ≤ 12 * tileBytes && (List.range 12).all fun u => u < t || (da + n - 1) / tileBytes < u || tileUp s u
  | .lpddr a q => q + n ≤ regionTop s a && !regionFenced s a
  | .shared a _ =>
    da + n ≤ sbBase 4 && (List.range 4).all fun b => b < a || (da + n - 1 - sbBase 0) / 0x4000000 < b || baseUp s b
  | _ => false

/-- Whether a range meets a held range (R153). -/
def meetsHeld (s : State) (da n : Nat) : Bool := s.store.held.any fun r => da < r.hi && r.lo < da + n

/-- DMA (R337, R338): the command is checked whole, and runs where fewer than eight run. -/
def dmaStart (s : State) (q cid dir host da len : Nat) : State :=
  if 1 < dir then completeNow s q cid 0x41 [0x08]
  else if len = 0 || 2 ^ 32 < len then completeNow s q cid 0x41 [0x20]
  else if !rangeOpen s da len then completeNow s q cid 0x47 []
  else if dir = 0 && meetsHeld s da len then completeNow s q cid 0x45 []
  else s.setHost { s.host with dmas := s.host.dmas ++ [⟨q, cid, dir = 1, host, da, len⟩] }

/-- DMA: a ninth command waits in its queue. -/
def execDma (q : Fin 64) (cid : BitVec 16) (dir : BitVec 8) (host da len : BitVec 64) (s : State) : Out :=
  .next (if 8 ≤ s.host.dmas.length then s
    else hostCmd q cid 0x20
      [(0x08, 1, dir.toNat), (0x10, 8, host.toNat), (0x18, 8, da.toNat), (0x20, 8, len.toNat)] .held (fun s => dmaStart s q cid.toNat dir.toNat host.toNat da.toNat len.toNat) s)

/-- A device range read for the host, line by line: a poisoned line is zeros; the first poisoned address (R338). -/
def dmaRead (s : State) (da len : Nat) : (List Byte × Option Nat) × State :=
  foldList (fun (x : Nat × Nat) (a : (List Byte × Option Nat) × State) =>
    let ((d, st), s) := chunkRead a.2 hostReq x.1 x.2
    let ok := st = .ok
    ((a.1.1 ++ (if ok then d else List.replicate x.2 0#8), if ok then a.1.2 else a.1.2.or (some x.1)), s))
    (pieces da len) (([], none), s)

/-- Bytes written to host memory, past the coherence cache, which holds what the DMA engine reads (R327). -/
def hostWrite (s : State) (addr : Nat) (l : List Byte) : State :=
  let m := ((List.range l.length).zip l).foldl (fun m x => kinsert m (addr + x.1) x.2) s.host.hostMem
  s.setHost { s.host with hostMem := m }

/-- DMA_DONE (R338): the bytes of a host-to-device command come with the event; missing ones read 0. -/
def execDmaDone (i : Fin 8) (data : List Byte) (s : State) : Out :=
  .next (match s.host.dmas[i.val]? with
    | none => s
    | some c => awaitHalves s hostReq (daHalves c.da c.len) fun s =>
      let s := count (s.setHost { s.host with dmas := s.host.dmas.eraseIdx i }) (modPage 1) 0x808 c.len
      if c.toHost then
        let ((l, bad), s) := dmaRead s c.da c.len
        let s := hostWrite s c.hostAddr l
        match bad with
        | none => completeNow s c.pair c.cid 0 []
        | some a => completeNow s c.pair c.cid 0x46 [a % 2 ^ 32, a / 2 ^ 32]
      else
        let s := cacheFill s c.hostAddr c.len
        completeNow (daWrite s hostReq c.da (fitBytes c.len data)).2 c.pair c.cid 0 [])

/-! Map-out. -/

/-- State of a channel set (R305). -/
def setChState (s : State) (p c code : Nat) : State :=
  pset s (lpPage p) 0x080 (setFld (pget s (lpPage p) 0x080) (8 * c + 1) (8 * c) code)

/-- Whether a plan holds a region, or its held image, in a half-open range of device addresses. -/
def planTouches (s : State) (i lo hi : Nat) : Bool :=
  let p := planOf s i
  p.state != .empty &&
  (p.man.regions.any (fun r => r.kind != 4 && r.addr < hi && lo < r.addr + r.len) ||
   s.store.held.any (fun h => h.slot = i && h.lo < hi && lo < h.hi))

/-- Plans that a predicate picks become FAILED at the next period start (R163). -/
def doomPlans (s : State) (f : Nat → Bool) : State :=
  s.setPlans (s.plans.map fun x => if f x.1 then (x.1, { x.2 with doomed := true }) else x)

/-- Whether a slot's load uses a range of device addresses: its staged image, or a region of its plan (R155, 0x16). -/
def loadTouches (p : PlanSlot) (lo hi : Nat) : Bool :=
  p.state = .loading && (p.man.regions.any (fun r => r.kind != 4 && r.addr < hi && lo < r.addr + r.len) ||
    (p.imageDa < hi && lo < p.imageDa + p.imageSize))

/-- Step 2 of a map-out, and what step 3 will find (R295). -/
def mapOut (s : State) (p c : Nat) : State :=
  let a := p / 4
  let s := psetBits (setChState (dropSave s a) p c 3) (lpPage p) 0x084 (2 ^ c)
  let s := s.setSvc { s.svc with mapouts := s.svc.mapouts ++ [(p, c)] }
  let s := s.setPlans (s.plans.map fun x =>
    if loadTouches x.2 (regionBase a) (regionBase (a + 1)) then (x.1, { x.2 with lostChan := some (4 * p + c) }) else x)
  doomPlans s fun i => (planOf s i).state != .loading && planTouches s i (regionBase a) (regionBase (a + 1))

/-- Whether a channel is mapped out already (R295). -/
def chOut (s : State) (p c : Nat) : Bool := chState s p c = 1 || chState s p c = 2

/-- CH_MAPOUT (R295, R337). -/
def execChMapout (q : Fin 64) (cid : BitVec 16) (pkg ch : BitVec 8) (s : State) : Out :=
  .next (maintCmd q cid 0x01 [(0x09, 1, pkg.toNat), (0x0A, 1, ch.toNat)] (fun s =>
    let p := pkg.toNat
    let c := ch.toNat
    if 16 ≤ p then complete s q cid.toNat 0x41 [0x09]
    else if 4 ≤ c then complete s q cid.toNat 0x41 [0x0A]
    else if s.svc.mapouts != [] then complete s q cid.toNat 0x44 []
    else if chOut s p c then complete s q cid.toNat 0 []
    else complete (mapOut s p c) q cid.toNat 0 []) s)

/-- LP_MAPOUT (R295, R305): the guarded write; bits of channels that are out already have no effect, and a write while a
map-out runs has none. -/
def lpMapoutWrite (p : Fin 16) (mask : BitVec 4) (s : State) : State :=
  blockWrite s (lpPage p) fun s => if s.svc.mapouts != [] then s
    else foldList (fun c st => if chOut st p c then st else mapOut st p c) (setBits mask.toNat 4) s

/-- Every data line of a region written as initialised (R286, R287, R296). -/
def initLines (s : State) (a : Nat) : State := lpBulk s a 0 (regionTop s a / 4096) true

/-- Step 4 of a map-out: the lines that the host may hold are back-invalidated (R330), and the region's remaining channels are
initialised by R287, which moves every line and uses its check word; the gather buffers are empty. -/
def initRegion (s : State) (a : Nat) : State :=
  let n := 16 * chBytes
  let lines := (s.host.snoop ++ s.host.bisnps.map (·.line)).filter fun l =>
    decide (regionBase a / 128 ≤ l) && decide (l < regionBase (a + 1) / 128)
  let s := foldList (fun l st => snoopOut st l) lines s
  let s := foldList (fun p st => setLp st p { lpOf st p with gb := [] }) [4 * a, 4 * a + 1, 4 * a + 2, 4 * a + 3] s
  initLines (s.setMem ((s.mem.zeroRange (regionBase a) n).markPoison (regionBase a) n)) a

/-- The CDAT of a TV12-1T-X (R329): one DSMAS range for each LPDDR5X region, its addressable part. -/
def showCdat (s : State) : State :=
  s.setHost { s.host with cdat :=
    if s.svc.fuse.code = 1#8 then (List.range 4).map fun a => (regionBase a, regionTop s a) else [] }

/-- Steps 4 to 6 of one map-out (R295), with the CDAT before the event (R329). -/
def finishMapOut (s : State) (p c : Nat) : State :=
  let a := p / 4
  let s := initRegion (setChState s p c 2) a
  let s := raiseTag s (lpPage p) 6 0
  let s := pclrBits s (modPage 0) (if p < 8 then 0x164 else 0x168) (2 ^ (4 * (p % 8) + c))
  let s := event (showCdat s) 2 [(0x10, 1, p), (0x11, 1, c), (0x14, 8, regionTop s a)] []
  let e : RepairEntry := ⟨5#8, BitVec.ofNat 8 (0x40 + a), [p, c]⟩
  s.setSvc { s.svc with newRep := s.svc.newRep ++ [e], writes := s.svc.writes ++ [(3, none)] }

/-- MAPOUT_REMAP_DONE (R295, steps 4 to 6). -/
def execMapoutRemapDone (s : State) : Out :=
  let l := s.svc.mapouts
  .next (foldList (fun (x : Nat × Nat) st => finishMapOut st x.1 x.2) l (s.setSvc { s.svc with mapouts := [] }))

end Sys2Proof.Machine
end

