-- ==== Sys2Proof/Machine/Walks.lean ====
section
/-!
DEFINITION. Walks of page lists by Tongs (R197 to R203).
-/

namespace Sys2Proof.Machine

open Sys2Proof

/-- Command lines of 128 bytes in a shared buffer from an offset on; past its end they read as zeros. The lines are
read when they are posted: DEDUCED (log 26). -/
def sbCommands (s : State) (a off n : Nat) : List (List Byte) × State :=
  foldList (fun i (x : List (List Byte) × State) =>
    let o := off + 128 * i
    if o + 128 ≤ 0x4000000 then
      let ((l, _), s) := sbRead x.2 1 0 a o 128
      (x.1 ++ [l], s)
    else (x.1 ++ [zeroLine], x.2)) (List.range n) ([], s)

/-- A post to a Tongs queue of `cap` entries: discarded whole, with an overflow source, where it does not fit
(R201, R300). -/
def tongsPost (s : State) (t cap src : Nat) (v : BitVec 32) (queue : Tongs → List (List Byte))
    (put : Tongs → List (List Byte) → Tongs) : State :=
  let n := fld v.toNat 31 28 + 1
  let pg := tgPage (t / 3)
  blockWrite s pg fun s =>
    if cap < (queue (tongsOf s t)).length + n then raise s pg src
    else
      let (ls, s) := sbCommands s (t / 3) (fld v.toNat 27 7 * 128) n
      showTongs (setTongs s t (put (tongsOf s t) (queue (tongsOf s t) ++ ls))) t

/-- TG_WPOST (R201, R209): OFF and COUNT of a post of walk commands. -/
def tgWpostWrite (t : Fin 12) (v : BitVec 32) (s : State) : State :=
  tongsPost s t 64 17 v Tongs.walkQ fun x l => { x with walkQ := l }

/-- Bytes of the record array and of the whole delivery ring of a walk (R198). -/
def ringRecords (cmd : List Byte) : Nat := divUp (16 * field cmd 0x2C 2) 128 * 128
def walkRingBytes (cmd : List Byte) : Nat := 0x80 + ringRecords cmd + field cmd 0x2C 2 * field cmd 0x24 4

/-- KV_PAGE_BYTES of the plan whose slot a step tag names (R174). -/
def tagKvPage (s : State) (tag : Nat) : Nat := (planOf s (fld tag 6 5)).man.kvPage

/-- FIRST_PAGE and LAST_PAGE of a walk. -/
def walkFirst (cmd : List Byte) : Nat := fld (field cmd 0x08 4) 27 0
def walkLast (cmd : List Byte) : Nat := fld (field cmd 0x0C 4) 27 0

/-- Whether a walk command is legal (R197, R198, R200). -/
def walkOk (s : State) (cmd : List Byte) : Bool :=
  let subOff := field cmd 0x20 4
  let subLen := field cmd 0x24 4
  let slots := field cmd 0x2C 2
  let last := field cmd 0x04 1
  let part := field cmd 0x01 1
  guarded cmd 64 && field cmd 0 1 = 1 && part ≤ 39 && 1 ≤ last && last ≤ 64 && walkFirst cmd ≤ walkLast cmd &&
  subOff % 128 = 0 && subLen % 128 = 0 && 0 < subLen && subOff + subLen ≤ tagKvPage s (cmdTag cmd) &&
  field cmd 0x28 4 % 128 = 0 && 1 ≤ slots && slots ≤ 256 &&
  field cmd 0x28 4 + walkRingBytes cmd ≤ storeSize part

/-- Tile-local address of a byte of the delivery ring of a walk. -/
def ringTla (cmd : List Byte) (off : Nat) : Nat := storeTla (field cmd 0x01 1) + field cmd 0x28 4 + off

/-- TG_WCUR0 and TG_WCUR1 show a walk that read an entry (R209). -/
def walkCur (s : State) (t : Nat) (cmd : List Byte) (page : Nat) : State :=
  setCurop s (tgPage (t / 3)) [page % 2 ^ 28 + t % 3 * 2 ^ 28, cmdTag cmd]

/-- A walk source raised for a walk, whose step group becomes suspect (R199, R200). -/
def walkFault (s : State) (t src : Nat) (cmd : List Byte) : State := raiseTag s (tgPage (t / 3)) src (cmdTag cmd)

/-- WALK: the front of the queue starts while fewer than four walks of the tile run (R199 to R201). -/
def startWalk (s : State) (t : Nat) : State :=
  let x := tongsOf s t
  match x.walkQ with
  | [] => s
  | cmd :: rest =>
    if 4 ≤ x.walks.length then s
    else
      let s := setTongs s t { x with walkQ := rest }
      if !walkOk s cmd then showTongs (walkFault s t 16 cmd) t
      else
        let q := tongsReq t (cmdTag cmd)
        let (desc, s) := readRec s q (field cmd 0x10 6) 128
        let bad := !guarded desc 64
        let s := if bad then walkFault s t 18 cmd else s
        let s := (tlaWrite s q t (ringTla cmd 0) (leBytes 8 0)).2
        let x := tongsOf s t
        showTongs (setTongs s t { x with walks := x.walks ++ [⟨cmd, desc, bad, walkFirst cmd, 0, none⟩] }) t

/-- WALK: while Quench holds the half of the destination the walk waits (R420). -/
def execWalk (t : Fin 12) (s : State) : Out :=
  let hs := match (tongsOf s t).walkQ with
    | cmd :: _ => tlaHalves t (ringTla cmd 0) 8
    | [] => []
  .next (awaitHalves s (tongsReq t 0) hs fun s => startWalk s t)

/-- What a walk finds at a page of its range. -/
inductive PageFind where
  /-- Masked, or on another module: no delivery. -/
  | skip
  /-- To be delivered: the page's DA, or none where the slot is poisoned. -/
  | deliver (da : Option Nat)
  deriving DecidableEq, Repr

/-- Whether the skip mask of a walk names a page (R199). -/
def walkMasked (s : State) (t : Nat) (w : WalkRun) (p : Nat) : Bool × State :=
  let mask := field w.cmd 0x18 6
  let i := p - walkFirst w.cmd
  if mask = 0 then (false, s)
  else
    let (l, s) := readRec s (tongsReq t (cmdTag w.cmd)) (mask + i / 8) 1
    (bitOf (leNat l) (i % 8), s)

/-- The entry of a page read, with its faults and counters (R199). -/
def walkPage (s : State) (t : Nat) (w : WalkRun) (p : Nat) : PageFind × State :=
  let pg := tgPage (t / 3)
  let (masked, s) := walkMasked s t w p
  if masked then (.skip, count s pg 0x910 1)
  else if w.bad then (.deliver none, s)
  else
    let d := parseDesc 0 w.desc
    if d.staged ≤ p || d.cap ≤ p then (.deliver none, walkFault s t 19 w.cmd)
    else
      match readEntry (walkCur s t w.cmd p) (tongsReq t (cmdTag w.cmd)) d.listDa p with
      | (none, s) => (.deliver none, walkFault s t 18 w.cmd)
      | (some e, s) =>
        if !bitOf e 0 then (.deliver none, walkFault s t 19 w.cmd)
        else if fld e 63 48 != 0xFFFF then (.skip, count s pg 0x918 1)
        else (.deliver (some (fld e 47 7 * 128)), s)

/-- The first page from the walk's place on that is to be delivered, at most `n` pages on. -/
def walkNext (s : State) (t : Nat) (w : WalkRun) : Nat → Nat → Option (Nat × Option Nat) × State
  | 0, _ => (none, s)
  | n + 1, p =>
    match walkPage s t w p with
    | (.deliver da, s) => (some (p, da), s)
    | (.skip, s) => walkNext s t w n (p + 1)

/-- Pages left to a walk. -/
def walkLeft (w : WalkRun) : Nat := walkLast w.cmd + 1 - w.page

/-- Whether the ring of a walk has room: n − CONSUMED < RING_SLOTS (R199). -/
def ringRoom (s : State) (t : Nat) (w : WalkRun) : Bool :=
  let consumed := s.mem.readNat (tlaKey t (ringTla w.cmd 8)) 8
  (w.n + 2 ^ 64 - consumed) % 2 ^ 64 < field w.cmd 0x2C 2

/-- The sub-range of a page copied into the ring slot of a walk, and the FLAGS of its record (R199). Lines that arrive poisoned, and an
address that does not exist, land as zeros and mark the delivery POISON (R32, R269); no source of Tongs is defined for them. The
slot of a page that is not copied holds undefined data (log 93). -/
def walkCopy (s : State) (t : Nat) (w : WalkRun) (da : Option Nat) : Nat × State :=
  let slot := ringTla w.cmd (0x80 + ringRecords w.cmd + w.n % max 1 (field w.cmd 0x2C 2) * field w.cmd 0x24 4)
  let len := field w.cmd 0x24 4
  let q := tongsReq t (cmdTag w.cmd)
  match da with
  | none => (2, s.setMem (s.mem.loseRange (tlaKey t slot) len))
  | some da =>
    let ((data, st), s) := daRead s q (da + field w.cmd 0x20 4) len
    let far := match daKind da with | .lpddr _ _ => 1 | _ => 0
    (far + 2 * b2n (st != .ok), (tlaWrite s q t slot data).2)

/-- A delivery made: slot, record, then DELIVERED (R198, R199). -/
def walkDeliver (s : State) (t i : Nat) (w : WalkRun) (p : Nat) (da : Option Nat) : State :=
  let (flags, s) := walkCopy s t w da
  let q := tongsReq t (cmdTag w.cmd)
  let tokens := if p = walkLast w.cmd then field w.cmd 0x04 1 else 64
  let rec16 := leBytes 4 p ++ leBytes 1 tokens ++ leBytes 1 flags ++ leBytes 10 0
  let s := (tlaWrite s q t (ringTla w.cmd (0x80 + w.n % max 1 (field w.cmd 0x2C 2) * 16)) rec16).2
  let s := (tlaWrite s q t (ringTla w.cmd 0) (leBytes 8 (w.n + 1))).2
  let s := count s (tgPage (t / 3)) 0x908 1
  let s := if bitOf flags 0 then count s (tgPage (t / 3)) 0x920 1 else s
  let x := tongsOf s t
  setTongs s t { x with walks := x.walks.set i { w with page := p + 1, n := w.n + 1, found := none } }

/-- The halves that a delivery of a walk uses: that of the destination and those of the page. -/
def walkHalves (t : Nat) (w : WalkRun) (da : Option Nat) : List (Nat × Nat) :=
  tlaHalves t (ringTla w.cmd 0) 8 ++ (match da with
    | some a => daHalves (a + field w.cmd 0x20 4) (field w.cmd 0x24 4)
    | none => [])

/-- WALK_DELIVERY: the next page of running walk i is delivered, once the ring has room; pages before it are skipped
(R199): a walk that waits for room has read its page's mask and entry, and reads only CONSUMED again. While Quench holds a half that
it uses, it waits (R420). -/
def execWalkDelivery (t : Fin 12) (i : Fin 4) (s : State) : Out :=
  .next (match (tongsOf s t).walks[i.val]? with
    | none => s
    | some w =>
      match (match w.found with
        | some da => (some (w.page, da), s)
        | none => walkNext s t w (walkLeft w) w.page) with
      | (none, _) => s
      | (some (p, da), s') =>
        awaitHalves s (tongsReq t (cmdTag w.cmd)) (walkHalves t w da) fun _ =>
          if ringRoom s' t w then walkDeliver s' t i w p da
          else
            let x := tongsOf s' t
            setTongs s' t { x with walks := x.walks.set i { w with page := p, found := some da } })

/-- WALK_COMPLETE: no page of running walk i is left to deliver; its flag is set (R199). -/
def execWalkComplete (t : Fin 12) (i : Fin 4) (s : State) : Out :=
  .next (match (tongsOf s t).walks[i.val]? with
    | none => s
    | some w =>
      match w.found, walkNext s t w (walkLeft w) w.page with
      | some _, _ => s
      | none, (some _, _) => s
      | none, (none, s) =>
        let x := tongsOf s t
        let s := setTongs s t { x with walks := x.walks.eraseIdx i, walkDone := (x.walkDone + 1) % 2 ^ 16 }
        let s := count (touchPart s t (field w.cmd 0x01 1)) (tgPage (t.val / 3)) 0x900 1
        let s := if bitOf (field w.cmd 0x03 1) 0 then setFlag s false t (field w.cmd 0x02 1) true else s
        showTongs s t)

end Sys2Proof.Machine
end

