-- ==== Sys2Proof/Machine/MemCmds.lean ====
section
/-!
DEFINITION. Memory commands: reductions, atomics, sends and remote flags (R299 to R304, R361 to R363), and FILL
(R263, R264).
-/

namespace Sys2Proof.Machine

open Sys2Proof

/-- TG_MPOST (R300, R309). -/
def tgMpostWrite (t : Fin 12) (v : BitVec 32) (s : State) : State :=
  tongsPost s t 32 24 v Tongs.memQ fun x l => { x with memQ := l }

/-! Fields of a memory command (R300, R362). -/

def mcOp (c : List Byte) : Nat := field c 0 1
def mcFmt (c : List Byte) : Nat := field c 1 1
def mcCidx (c : List Byte) : Nat := field c 4 2
def mcCcount (c : List Byte) : Nat := field c 6 2
def mcSrc (c : List Byte) : Nat := field c 8 4
def mcDst (c : List Byte) : Nat := field c 0x10 6
def mcLen (c : List Byte) : Nat := field c 0x18 4
def mcArg0 (c : List Byte) : Nat := field c 0x20 8
def mcArg1 (c : List Byte) : Nat := field c 0x28 8

/-- The tile flag that a command sets at completion: where FS is 1 (R300). -/
def mcFlag (c : List Byte) : Option Nat := if bitOf (field c 3 1) 0 then some (field c 2 1) else none

/-- Whether a length is a multiple of 128 from 128 bytes to 1 MiB. -/
def lenOk (n : Nat) : Bool := n % 128 = 0 && 128 ≤ n && n ≤ 0x100000

/-- Whether n bytes at a tile-local address are an operand of a command: aligned to 128 and mapped (R99, R300). -/
def srcOk (a n : Nat) : Bool := a % 128 = 0 && a + n ≤ 0x5880000

/-- Whether a REDUCE range lies within one slice, one LPDDR5X region or one shared buffer (R300). -/
def redRangeOk (da n : Nat) : Bool :=
  da % 128 = 0 && match daKind da, daKind (da + n - 1) with
    | .bonded t m _, .bonded t' m' _ => t = t' && m = m'
    | .lpddr a _, .lpddr a' _ => a = a'
    | .shared a _, .shared a' _ => a = a'
    | _, _ => false

/-- Whether contributor fields are legal (R300). -/
def redFieldsOk (fmt cidx ccount : Nat) : Bool :=
  (fmt = 0xD || fmt = 0xE) && 1 ≤ ccount && ccount ≤ 256 && cidx < ccount

/-- Whether a memory command is legal (R300, R304, R362). -/
def mcmdOk (c : List Byte) : Bool :=
  guarded c 64 && match mcOp c with
    | 2 => redFieldsOk (mcFmt c) (mcCidx c) (mcCcount c) && lenOk (mcLen c) && srcOk (mcSrc c) (mcLen c) &&
        redRangeOk (mcDst c) (mcLen c)
    | 3 =>
      let w := if mcFmt c = 0 then 4 else 8
      mcFmt c ≤ 1 && 1 ≤ mcCidx c && mcCidx c ≤ 7 && mcCcount c = 0 && mcLen c = 0 && srcOk (mcSrc c) 8 &&
      mcDst c % w = 0 && match daKind (mcDst c) with | .shared _ _ => true | _ => false
    | 4 => lenOk (mcLen c) && srcOk (mcSrc c) (mcLen c) && fld (mcArg0 c) 15 0 != 0xFFFF && fld (mcArg0 c) 19 16 < 12
    | 5 => lenOk (mcLen c) && srcOk (mcSrc c) (mcLen c) && fld (mcArg0 c) 15 0 != 0xFFFF &&
        fld (mcArg0 c) 19 16 < 12 && redFieldsOk (mcFmt c) (mcCidx c) (mcCcount c)
    | 6 => fld (mcArg0 c) 15 0 != 0xFFFF
    | _ => false

/-- The halves that a memory command needs: those of its operand, and of the target of a REDUCE (R317, R420). -/
def mcmdHalves (t : Nat) (c : List Byte) : List (Nat × Nat) :=
  match mcOp c with
  | 2 => tlaHalves t (mcSrc c) (mcLen c) ++ daHalves (mcDst c) (mcLen c)
  | 3 => tlaHalves t (mcSrc c) 8
  | 6 => []
  | _ => tlaHalves t (mcSrc c) (mcLen c)

/-- The front memory command of a tile taken as one of operation `op`: at most four run at a time, and an illegal one is
discarded with MCMD_BAD (R300). -/
def takeMcmd (s : State) (t op : Nat) (f : List Byte → State → State) : State :=
  let x := tongsOf s t
  match x.memQ with
  | [] => s
  | c :: rest =>
    if 4 ≤ x.reds.length + x.sends then s
    else if !mcmdOk c then
      showTongs (raiseTag (setTongs s t { x with memQ := rest }) (tgPage (t / 3)) 23 (cmdTag c)) t
    else if mcOp c != op then s
    else awaitHalves s (tongsReq t (cmdTag c)) (mcmdHalves t c) fun s =>
      showTongs (touchHalves (f c (setTongs s t { x with memQ := rest })) (mcmdHalves t c)) t

/-- A memory command of a tile completes, with its flag (R303). -/
def mcmdDone (s : State) (t : Nat) (flag : Option Nat) : State :=
  let x := tongsOf s t
  let s := setTongs s t { x with memDone := (x.memDone + 1) % 2 ^ 16 }
  match flag with
  | some f => setFlag (showTongs s t) false t f true
  | none => showTongs s t

/-! Chain commands that land here (R361). -/

/-- Bytes of a chain command landed or applied; at the last one its flag is set. -/
def landBytes (s : State) (src id n : Nat) : State :=
  match s.chain.landings.find? fun l => l.src = src && l.id = id with
  | none => s
  | some l =>
    let rest := s.chain.landings.filter (· != l)
    if l.total ≤ l.bytes + n then
      let s := s.setChain { s.chain with landings := rest }
      match l.flag with
      | some (t, f) => setFlag s false t f true
      | none => s
    else s.setChain { s.chain with landings := rest ++ [{ l with bytes := l.bytes + n }] }

/-! Reductions. -/

/-- The adders that a range touches (R299, R302): by slice, by package, by shared buffer. -/
def addersOf (s : State) (da n : Nat) : List Nat :=
  match daKind da with
  | .bonded t m _ => [t * 32 + m]
  | .lpddr a q => ((List.range (n / 128)).map fun k => 384 + (regionChan s a (q + 128 * k)).1 / 4).eraseDups
  | .shared a _ => [400 + a]
  | _ => []

/-- What an adder does with a contribution (R302). -/
inductive AdderAnswer where
  | take
  | refuse
  | conflict
  deriving DecidableEq, Repr

/-- Whether an open reduction has the key of a contribution, and whether their ranges overlap. -/
def OpenRed.keyed (r : OpenRed) (c : Contribution) : Bool :=
  r.dst = c.dst && r.len = c.len && r.ccount = c.ccount && r.fmt = c.fmt
def OpenRed.meets (r : OpenRed) (c : Contribution) : Bool := decide (r.dst < c.dst + c.len) && decide (c.dst < r.dst + r.len)

/-- The answer of one adder (R302). -/
def adderAnswer (open' : List OpenRed) (c : Contribution) : AdderAnswer :=
  match open'.find? fun r => r.keyed c with
  | some r => if r.next = c.cidx then .take else .refuse
  | none =>
    if open'.any fun r => r.meets c then .conflict
    else if c.cidx = 0 && open'.length < 16 then .take
    else .refuse

/-- The answer of all adders that a contribution touches: it is taken where all take it. DEDUCED (log 29). -/
def answerOf (s : State) (c : Contribution) : AdderAnswer :=
  let as := (addersOf s c.dst c.len).map fun k => adderAnswer (kget [] s.store.adders k) c
  if as.any (· = .conflict) then .conflict else if as.any (· = .refuse) then .refuse else .take

/-- The entry of an adder after a contribution: opened, moved on, or closed (R302); `before` is the target before contributor 0 of a
re-run. -/
def adderAfter (open' : List OpenRed) (c : Contribution) (before : List Byte) : List OpenRed :=
  let rest := open'.filter fun r => !r.keyed c
  if c.cidx + 1 = c.ccount then rest else rest ++ [⟨c.dst, c.len, c.ccount, c.fmt, c.cidx + 1, c.tag, before⟩]

/-- 32-bit elements of bytes, and back. -/
def wordsOf (l : List Byte) : List Word32 :=
  (List.range (l.length / 4)).map fun i => BitVec.ofNat 32 (leNat ((l.drop (4 * i)).take 4))
def bytesOfWords (l : List Word32) : List Byte := l.flatMap fun w => leBytes 4 w.toNat

/-- The sum of a target line and a line of a contribution, element by element (R301). -/
def addLines (fmt : Nat) (x y : List Byte) : List Byte :=
  bytesOfWords (((wordsOf x).zip (wordsOf y)).map fun (a, b) => if fmt = 0xE then a + b else f32Add a b)

/-- The request of a contribution: by the Tongs of the posting tile, or of the base die that a chain frame reached (R299, R364). -/
def Contribution.req (c : Contribution) (a : Nat) : Req := tongsReq (if c.chain.isSome then 3 * a else c.tile) c.tag

/-- One target line of a contribution applied by the adder of its memory (R299, R301): contributor 0 replaces the line, a later one is
added to the line as read with its checks. A line that the contribution does not reach, or that is held, stays (R153). The flag says
whether the line was applied. -/
def redLine (s : State) (q : Req) (c : Contribution) (k : Nat) : Bool × State :=
  let da := c.dst + 128 * k
  let y := (c.data.drop (128 * k)).take 128
  if (List.range 128).any fun i => inRanges s.store.held (da + i) then (false, s)
  else
    match daKind da with
    | .bonded t m o =>
      let (up, s) := sliceReach s q t m
      if !up then (false, s)
      else if c.cidx = 0 then (true, sliceWriteLine s t m o y)
      else
        let ((x, _), s) := sliceReadLine s false q.tag t m o
        (true, sliceWriteLine s t m o (addLines c.fmt x y))
    | .lpddr a o =>
      let (up, s) := if regionFenced s a then (false, s)
        else if regionTop s a ≤ o then (false, lpTail s a q.tag)
        else carry s q (daLoc da) 1
      if !up then (false, s)
      else if c.cidx = 0 then (true, lpDeviceWrite s q.tag a o y)
      else
        let ((x, _), s) := lpReadLine s 4 q.tag a o plainRead
        (true, lpDeviceWrite s q.tag a o (addLines c.fmt x y))
    | .shared a o =>
      let (up, s) := if baseUp s a then carry s q (daLoc da) 1 else (false, s)
      if !up then (false, s)
      else
        let s := count s (sbPage a) 0x818 1
        if c.cidx = 0 then (true, sbWrite s q.tag a o y)
        else
          let ((x, _), s) := sbRead s 4 q.tag a o 128
          (true, sbWrite s q.tag a o (addLines c.fmt x y))
    | _ => (false, s)

/-- The target of a contribution as its reduction found it, on a re-run (R443). -/
def redBefore (s : State) (c : Contribution) : List Byte :=
  if c.cidx = 0 then (if bitOf c.tag 7 then readBytes s c.dst c.len else [])
  else
    match ((addersOf s c.dst c.len).flatMap fun k => kget [] s.store.adders k).find? fun r => r.keyed c with
    | some r => r.before
    | none => []

/-- A contribution applied, line by line, by the Tongs of base die a (R301, R303); a reduction of a re-run is compared when it closes
(R443). -/
def applyRed (s : State) (a : Nat) (c : Contribution) : State :=
  let ks := addersOf s c.dst c.len
  let before := redBefore s c
  let (n, s) := foldList (fun k (x : Nat × State) =>
    let (put, st) := redLine x.2 (c.req a) c k
    (x.1 + b2n put, st)) (List.range (c.len / 128)) (0, s)
  let adders := ks.foldl (fun m k => kput [] m k (adderAfter (kget [] m k) c before)) s.store.adders
  let s := s.setStore { s.store with adders := adders }
  let s := match daKind c.dst with
    | .shared b _ => showRed s b
    | _ => s
  let s := if c.cidx + 1 = c.ccount && !before.isEmpty then
      (noteLine s (c.req a) (readBytes s c.dst c.len != before)).2
    else s
  count (touchHalves s (daHalves c.dst c.len)) (tgPage a) 0x930 n

/-- What follows the last line of a contribution: the command's flag, or the bytes of a chain command (R303, R364). -/
def redDone (s : State) (c : Contribution) : State :=
  match c.chain with
  | some (src, id) => landBytes s src id c.len
  | none => mcmdDone s c.tile c.flag

/-- A contribution offered to its adders by the Tongs of base die a; `wait` keeps a refused one (R302). -/
def offerRed (s : State) (a : Nat) (c : Contribution) (wait : State → State) : State :=
  match answerOf s c with
  | .take => redDone (applyRed s a c) c
  | .refuse => wait s
  | .conflict => raiseTag s (tgPage a) 26 c.tag

/-- REDUCE (R301, R302). -/
def execReduce (t : Fin 12) (s : State) : Out :=
  .next (takeMcmd s t 2 fun c s =>
    let tag := cmdTag c
    let ((data, _), s) := tlaRead s (tongsReq t tag) t (mcSrc c) (mcLen c)
    let k : Contribution := ⟨t, mcFlag c, data, mcDst c, mcLen c, mcCidx c, mcCcount c, mcFmt c, tag, s.clock.now, none⟩
    offerRed s (t / 3) k fun s =>
      let x := tongsOf s t
      setTongs s t { x with reds := x.reds ++ [k] })

/-- Refused contributions of a tile, or of chain frames, at the Tongs of a base die. -/
def redsOf (s : State) (a : Nat) (t : Option (Fin 3)) : List Contribution :=
  match t with
  | some u => (tongsOf s (3 * a + u)).reds
  | none => kget [] s.eng.remote a

def setReds (s : State) (a : Nat) (t : Option (Fin 3)) (l : List Contribution) : State :=
  match t with
  | some u => showTongs (setTongs s (3 * a + u) { tongsOf s (3 * a + u) with reds := l }) (3 * a + u)
  | none => s.setEng { s.eng with remote := kput [] s.eng.remote a l }

/-- RED_TIMEOUT (R302): a contribution refused for TG_MCFG.RED_TIMEOUT µs is discarded. -/
def redTimeout (s : State) (a : Nat) (t : Option (Fin 3)) (i : Nat) (c : Contribution) : State :=
  raiseTag (setReds s a t ((redsOf s a t).eraseIdx i)) (tgPage a) 25 c.tag

/-- REDUCE_RETRY (R302): contribution i of those that wait is offered again, while its timeout runs (R401). -/
def execReduceRetry (a : Fin 4) (t : Option (Fin 3)) (i : Nat) (s : State) : Out :=
  .next (match (redsOf s a t)[i]? with
    | none => s
    | some c =>
      if lapsed s c.since (fld (pget s (tgPage a) 0x340) 15 0) then redTimeout s a t i c
      else awaitHalves s (c.req a) (daHalves c.dst c.len) fun s =>
        let s := count s (tgPage a) 0x938 1
        match answerOf s c with
        | .refuse => s
        | _ => offerRed (setReds s a t ((redsOf s a t).eraseIdx i)) a c id)

/-- RED_TIMEOUT. -/
def execRedTimeout (a : Fin 4) (t : Option (Fin 3)) (i : Nat) (s : State) : Out :=
  .next (match (redsOf s a t)[i]? with
    | none => s
    | some c => if lapsed s c.since (fld (pget s (tgPage a) 0x340) 15 0) then redTimeout s a t i c else s)

/-! Atomics (R304). -/

/-- The new value of an atomic over w bits; none where the code is illegal. -/
def atomicVal (op w old a b : Nat) : Nat :=
  let m := 2 ^ w
  let x := a % m
  match op with
  | 1 => (old + x) % m
  | 2 => x
  | 3 => if old = x then b % m else old
  | 4 => old &&& x
  | 5 => old ||| x
  | 6 => max old x
  | _ => min old x

/-- An atomic on n bytes of a shared buffer: the old value, and whether it was applied. A word with persistent bad parity
is left as it is, with SB_PAR_UNC (R304). -/
def sbAtomic (s : State) (a o n op arg0 arg1 tag : Nat) : (Nat × Bool) × State :=
  let da := sbBase a + o
  if !baseUp s a then ((0, false), s)
  else if s.mem.parityBad da n then
    let w := if s.mem.parityBad da 1 then o else o + 4
    ((0, false), sbBad s a w 3 tag)
  else
    let old := s.mem.readNat da n
    let s := writeBytes s da (leBytes n (atomicVal op (8 * n) old arg0 arg1))
    ((old, true), count s (sbPage a) 0x810 1)

/-- ATOMIC (R300, R304). -/
def execAtomic (t : Fin 12) (s : State) : Out :=
  .next (takeMcmd s t 3 fun c s =>
    match daKind (mcDst c) with
    | .shared a o =>
      let n := if mcFmt c = 0 then 4 else 8
      let (up, s) := carry s (tongsReq t (cmdTag c)) (daLoc (mcDst c)) 1
      let ((old, _), s) := if up then sbAtomic s a o n (mcCidx c) (mcArg0 c) (mcArg1 c) (cmdTag c) else ((0, false), s)
      let s := (tlaWrite s (tongsReq t (cmdTag c)) t (mcSrc c) (leBytes 8 old)).2
      let s := count s (tgPage (t.val / 3)) 0x940 1
      mcmdDone s t (mcFlag c)
    | _ => s)

/-! Sending (R357, R361 to R363). -/

/-- A command whose node has no route in service is refused (R357, R377). -/
def noRoute (s : State) (t : Nat) (c : List Byte) : State := raiseTag s (tgPage (t / 3)) 27 (cmdTag c)

/-- The command fields of ACT and CMB frames (R361). -/
def cmdFields (id len tile flag : Nat) (rfs : Bool) : Nat :=
  id + (len / 128 - 1) * 2 ^ 16 + tile * 2 ^ 30 + flag * 2 ^ 34 + b2n rfs * 2 ^ 42

/-- One frame of a SEND from the Tongs of a tile to its port (R313); one with no path to it is discarded with CP_NOROUTE (log 83). -/
def sendFrame (s : State) (t port : Nat) (f : Frame) (last : Option (Nat × Option Nat)) : State :=
  match toPort s (leafLoc (.tongs t)) port f last with
  | (true, s) => s
  | (false, s) => raiseOp (sendLost s ⟨f, 0, last, 0⟩) (cpPage port) 6 (frameOp f)

/-- Frames of one SEND or SEND_COMBINE, all by one port (R357, R361, R362). -/
def sendFrames (s : State) (t : Nat) (c : List Byte) (type : Nat) : State :=
  let a0 := mcArg0 c
  let node := fld a0 15 0
  match rotatePort s node with
  | (none, s) => noRoute s t c
  | (some port, s) =>
    let ((data, _), s) := tlaRead s (tongsReq t (cmdTag c)) t (mcSrc c) (mcLen c)
    let id := s.chain.cmdId
    let s := s.setChain { s.chain with cmdId := (id + 1) % 2 ^ 16 }
    let x := tongsOf s t
    let s := setTongs s t { x with sends := x.sends + 1 }
    let arg := cmdFields id (mcLen c) (fld a0 19 16) (fld a0 27 20) (bitOf a0 28)
    let ext := if type = 0x11 then mcCidx c + mcCcount c * 2 ^ 16 + mcFmt c * 2 ^ 32 + b2n (bitOf a0 29) * 2 ^ 36 else 0
    let n := divUp (mcLen c) 4096
    foldList (fun k st =>
      let f := mkFrame st type node (cmdTag c) (mcDst c + 4096 * k) arg ext ((data.drop (4096 * k)).take 4096)
      sendFrame st t port f (if k + 1 = n then some (t, mcFlag c) else none)) (List.range n) s

/-- SEND (R362). -/
def execSend (t : Fin 12) (s : State) : Out := .next (takeMcmd s t 4 fun c s => sendFrames s t c 0x10)

/-- SEND_COMBINE (R362, R364). -/
def execSendCombine (t : Fin 12) (s : State) : Out := .next (takeMcmd s t 5 fun c s => sendFrames s t c 0x11)

/-- RFLAG (R362, R363). -/
def execRflag (t : Fin 12) (s : State) : Out :=
  .next (takeMcmd s t 6 fun c s =>
    let a0 := mcArg0 c
    let node := fld a0 15 0
    if (bundleOf s node).isEmpty then noRoute s t c
    else
      let f := mkFrame s 0x12 node (cmdTag c) 0 (fld a0 35 30 + b2n (bitOf a0 36) * 2 ^ 6) 0 []
      mcmdDone (sendFrom s (leafLoc (.tongs t)) 0 f) t none)

/-! FILL (R263, R264). -/

/-- The range programmed on the Tongs page of a base die. -/
def fillRange (s : State) (a : Nat) : Nat × Nat :=
  let pg := tgPage a
  (fld (pget s pg 0x280) 31 7 * 128 + fld (pget s pg 0x284) 15 0 * 2 ^ 32,
    fld (pget s pg 0x288) 31 7 * 128 + fld (pget s pg 0x28C) 7 0 * 2 ^ 32)

/-- Whether a FILL may run (R264). -/
def fillOk (s : State) (a da n : Nat) : Bool :=
  0 < n && 3 * a * tileBytes ≤ da && da + n ≤ (3 * a + 3) * tileBytes && !meetsHeld s da n &&
  !s.store.golden.any fun g => decide (da < g.lo + g.len) && decide (g.lo < da + n)

/-- FILL: TG_FILL_CTL.GO written (R264). -/
def fillWrite (a : Fin 4) (s : State) : State :=
  blockWrite s (tgPage a) fun s =>
    let pg := tgPage a
    let (da, n) := fillRange s a
    if bitOf (pget s pg 0x294) 0 then raise s pg 22
    else if !fillOk s a da n then raise (psetBits s pg 0x294 4) pg 21
    else psetBits (s.setEng { s.eng with fills := kinsert s.eng.fills a (da, n) }) pg 0x294 1

/-- FILL_DONE (R264): the parts are written. DESIGN CHOICE: a FILL with a part that could not be written, in a gated half or a fenced
tile, ends without DONE (log 99). -/
def execFillDone (a : Fin 4) (s : State) : Out :=
  .next (match kfind s.eng.fills a.val with
    | none => s
    | some (da, n) =>
      awaitHalves s (tongsReq (3 * a) 0) (daHalves da n) fun s =>
        let s := s.setEng { s.eng with fills := kerase s.eng.fills a }
        let (all, s) := foldList (fun k (x : Bool × State) =>
          let (ok, st) := fillSlice x.2 da n (96 * a.val + k)
          (x.1 && ok, st)) (List.range 96) (true, s)
        let s := pclrBits (touchHalves s (daHalves da n)) (tgPage a) 0x294 1
        if all then psetBits s (tgPage a) 0x294 2 else s)

end Sys2Proof.Machine
end

