-- ==== Sys2Proof/Machine/Frames.lean ====
section
/-!
DEFINITION. Chain ports and the frames of the link layer: training, retraining, LSEQ order, IDENT, ACK, NAK, pass through,
timebase exchanges, data and flag frames (R351 to R364, R370, R371, R511).
-/

namespace Sys2Proof.Machine

open Sys2Proof

/-! Ports up and down. -/

/-- CP_SYNC.STATE of a port replaced (R375), and its copy in TIME_STAT for the parent port (R502). -/
def setSyncState (s : State) (c v : Nat) : State :=
  let s := pset s (cpPage c) 0x098 (setFld (pget s (cpPage c) 0x098) 1 0 v)
  if parentPort s = some c then pset s (modPage 7) 0x094 (setFld (pget s (modPage 7) 0x094) 4 3 v) else s

/-- A frame that a port which went DOWN had not had acknowledged, or had not sent: on another port of its bundle, that of the neighbour for
a broadcast frame, else discarded (R354, R374). One that was sent counts as resent (R376). -/
def rescueFrame (s : State) (c node : Nat) (x : TxFrame) (sent : Bool) : State :=
  let lost (s : State) : State := raiseOp (sendLost s x) (cpPage c) 6 (frameOp x.frame)
  match bundleOf s (if x.frame.fl = 0#8 then x.frame.dst.toNat else node) with
  | d :: _ =>
    match toPort s (leafLoc (.port c)) d x.frame x.last with
    | (true, s) => if sent then count s (cpPage d) 0x838 1 else s
    | (false, s) => lost s
  | [] => lost s

/-- A port out of use with a STATE code: lanes down, and its unacknowledged frames elsewhere (R352, R354). A parent port
leaves the module free-running (R371). -/
def portOff (s : State) (c code : Nat) : State :=
  let p := portOf s c
  let s := setPort s c { p with tx := [], held := [], sync1 := none, good := 0, locked := false, child := false }
  let s := pset s (cpPage c) 0x08C (code + fld (pget s (cpPage c) 0x08C) 31 16 * 2 ^ 16)
  let s := freeRun (if parentPort s = some c then setSyncState s c 3 else s) c
  let node := fld (pget s (cpPage c) 0x08C) 31 16
  foldList (fun x st => rescueFrame st c node x false) p.held (foldList (fun x st => rescueFrame st c node x true) p.tx s)

/-- A port that goes DOWN sets CP_DOWN (R352). -/
def portDown (s : State) (c : Nat) : State := raiseLive (portOff s c 0) (cpPage c) 3

/-- A port in service retrains (R352), with CP_RETRAIN; an exchange of stamps in progress is skipped (R374). -/
def retrain (s : State) (c : Nat) : State :=
  if portState s c = 2 then raise (setPortState (setPort s c { portOf s c with sync1 := none }) c 4) (cpPage c) 1 else s

/-- Frames that waited go out as far as they can, control frames first (R352, R354, R358). -/
def sendHeld (s : State) (c : Nat) : State :=
  let l := (portOf s c).held
  let l := (l.filter fun x => onControl x.frame) ++ l.filter fun x => !onControl x.frame
  foldList (fun (x : TxFrame) st => transmit st c x.frame x.last) l (setPort s c { portOf s c with held := [] })

/-- Lanes that a training leaves in use, from the good ones (R352). -/
def lanesUsed (s : State) (c good : Nat) : Nat :=
  if good % 256 = 0xFF then 0xFF
  else if !bitOf (pget s (cpPage c) 0x080) 2 then 0
  else if fld good 3 0 = 0xF then 0x0F
  else if fld good 7 4 = 0xF then 0xF0
  else 0

/-- Training ends with the good lanes it found (R352). A link that trains from DOWN numbers its frames from 0; one that
retrains goes on (log 31). -/
def trainingDone (s : State) (c good : Nat) : State :=
  let was := portState s c
  if was != 1 && was != 4 then s
  else
    let lanes := lanesUsed s c good
    if lanes = 0 then portDown s c
    else
      let p := portOf s c
      let s := if was = 1 then setPort s c { p with txSeq := 0, rxSeq := 0, tx := [], held := [] }
        else setPort s c { p with tx := p.tx.map fun (x : TxFrame) => { x with resent := 0 } }
      let x4 := lanes != 0xFF
      let s := pset s (cpPage c) 0x08C
        (2 + b2n x4 * 2 ^ 3 + lanes * 2 ^ 8 + fld (pget s (cpPage c) 0x08C) 31 16 * 2 ^ 16)
      let s := setLive s (cpPage c) 3 false
      let s := if parentPort s = some c && was = 1 then setSyncState s c 1 else s
      let s := if x4 then raiseLive s (cpPage c) 2 else setLive s (cpPage c) 2 false
      sendHeld (sendIdent s c) c

/-- PORT_TRAINING_DONE (R352, R355): the lanes that trained well; a port that comes up sends IDENT. -/
def execPortTrainingDone (c : Fin 8) (lanes : BitVec 8) (s : State) : Out := .next (trainingDone s c lanes.toNat)

/-- CP_RETRAIN (R352): a register write that wakes the module (R389). -/
def cpRetrainWrite (c : Fin 8) (s : State) : State :=
  blockWrite s (cpPage c) fun s => retrain s c

/-- CP_CTL.EN or a BLK_PREQ in force on a port (R351, R375, R395): DISABLED, or training from there. -/
def portEnable (s : State) (c : Nat) (on : Bool) : State :=
  if !on then (if portState s c = 5 then s else setLive (portOff s c 5) (cpPage c) 3 false)
  else if portState s c = 5 then setPortState s c 1
  else s

/-- CHAIN_PLUG_REMOVED (R511): the port goes DOWN. -/
def execChainPlugRemoved (c : Fin 8) (s : State) : Out :=
  .next (if portState s c = 5 || portState s c = 0 then s else portDown s c)

/-- CHAIN_PLUG_INSERTED (R352): the port of an enabled cage trains. -/
def execChainPlugInserted (c : Fin 8) (s : State) : Out :=
  .next (if portState s c = 0 && bitOf (pget s (cpPage c) 0x080) 0 then setPortState s c 1 else s)

/-! Receiving. -/

/-- Whether TYPE is one of R360. -/
def typeKnown (t : Nat) : Bool :=
  (1 ≤ t && t ≤ 5) || (0x10 ≤ t && t ≤ 0x15) || (0x20 ≤ t && t ≤ 0x25) || t = 0x30 || t = 0x31

/-- Command fields of an ACT or CMB frame (R361): CMD_ID, bytes of the command, and the flag to set. -/
def frameId (f : Frame) : Nat := fld f.arg.toNat 15 0
def frameTotal (f : Frame) : Nat := (fld f.arg.toNat 29 16 + 1) * 128
def frameFlag (f : Frame) : Option (Nat × Nat) :=
  if bitOf f.arg.toNat 42 then some (fld f.arg.toNat 33 30, fld f.arg.toNat 41 34) else none

/-- Whether a frame's fields are inside their values (R359, R360, R361). -/
def frameOk (f : Frame) : Bool :=
  let t := f.type.toNat
  let n := f.payload.length
  let data := 0 < n && n % 128 = 0 && (!bitOf f.arg.toNat 42 || fld f.arg.toNat 33 30 < 12)
  let e := f.ext.toNat
  let a := f.arg.toNat
  typeKnown t && n ≤ 4096 && (f.fl = 0#8 || (f.fl = 1#8 && (t = 0x14 || t = 0x15))) &&
  (if t = 0x01 then n = 0 && fld a 31 3 = 0
   else if t = 0x04 then 9 ≤ n
   else if t = 0x05 then 17 ≤ n
   else if t = 0x10 then data
   else if t = 0x11 then data && (!bitOf e 36 || redFieldsOk (fld e 35 32) (fld e 15 0) (fld e 31 16))
   else if t = 0x20 then n % 16 = 0
   else if t = 0x24 then
    let op := fld a 19 16
    fld a 15 0 < 4096 && 1 ≤ op && op ≤ 6 && n = (if op = 1 then 64 else 0) && ((op != 1 && op != 6) || e = 0)
   else if t = 0x25 then
    n = 0 && fld a 15 0 < 4096 && fld a 31 24 ≤ 8 && (!bitOf a 16 || fld a 31 24 = 0) && (fld e 15 0 < 4096 || fld e 15 0 = 0xFFFF)
   else if t = 0x23 then n = 0 && 1 ≤ fld a 31 16 && fld a 31 16 ≤ 6
   else if t = 0x22 then true
   else if t = 0x30 || t = 0x31 then fld e 15 0 < 4 && fld e 23 16 ≤ 40 && fld e 31 24 < 12
   else n = 0)

/-- A frame discarded at its destination with CP_FRAME_BAD (R360). -/
def frameBad (s : State) (c : Nat) (f : Frame) : State := raiseOp s (cpPage c) 7 (frameOp f)

/-- A frame for this module is kept, unless its fields are outside their values (R360). -/
def keepFrame (s : State) (c : Nat) (f : Frame) : State :=
  if !frameOk f then frameBad s c f
  else setPort s c { portOf s c with inbox := (portOf s c).inbox ++ [f] }

/-- Whether a frame is for this module: it names its node, or is a broadcast (R359). -/
def frameMine (s : State) (f : Frame) : Bool := f.dst.toNat = ownNode s || bitOf f.fl.toNat 0

/-- A control frame for this module goes to A0, where the module's sequencers are (R8, R313, R363); a frame of the exchange of timebases
ends at its port. With no path there it is lost (log 83). -/
def toModule (s : State) (c : Nat) (f : Frame) (next : State → State) : State :=
  if !onControl f || f.type.toNat ≤ 5 then next s
  else
    match travel s (leafLoc (.port c)) (leafLoc .vexondane) (frameFlits f) with
    | (true, s) => next s
    | (false, s) => s

/-- A frame accepted in LSEQ order: kept for this module, or to pass through (R354, R357, R360). One for this module wakes
it (R389). -/
def acceptFrame (s : State) (c : Nat) (f : Frame) : State :=
  let s := count s (cpPage c) 0x818 f.payload.length
  if !frameMine s f then setPort s c { portOf s c with transit := (portOf s c).transit ++ [f] }
  else toModule (wakeFor s 4) c f fun s => keepFrame s c f

/-- FRAME_RECEIVE (R353, R354, R360): `crc` is the trailer that came, none for an uncorrectable codeword; a frame with another one than its
bytes give is bad. IDENT, ACK and NAK stand outside the LSEQ order; a frame that was accepted before is acknowledged again (log 31). -/
def execFrameReceive (c : Fin 8) (f : Frame) (crc : Option (BitVec 32)) (s : State) : Out :=
  let link := 1 ≤ f.type.toNat && f.type.toNat ≤ 3
  .next (if !(portState s c = 2 || (portState s c = 3 && f.type = 1#8)) then s
    else
      let s := count s (cpPage c) 0x808 1
      if crc != some (frameCrc f) then sendNak (count s (cpPage c) 0x830 1) c
      else if link then keepFrame s c f
      else
        let p := portOf s c
        let ahead := (f.lseq.toNat + 2 ^ 32 - p.rxSeq) % 2 ^ 32
        if ahead = 0 then sendAck (acceptFrame (setPort s c { p with rxSeq := (p.rxSeq + 1) % 2 ^ 32 }) c f) c
        else if ahead < 2 ^ 31 then sendNak s c
        else sendAck s c)

/-- The oldest frame of some types in the inbox of a port, and the state without it. -/
def takeFrame (s : State) (c type : Nat) : Option Frame × State :=
  let p := portOf s c
  match p.inbox.find? fun f => f.type.toNat = type with
  | some f => (some f, setPort s c { p with inbox := p.inbox.erase f })
  | none => (none, s)

/-- A command that handles the oldest frame of a type at a port. -/
def onFrame (c type : Nat) (s : State) (g : Frame → State → State) : Out :=
  .next (match takeFrame s c type with
    | (some f, s) => g f s
    | (none, _) => s)

/-- A command that handles the oldest frame of a type where its bytes land: one for a half that is held waits for it in the inbox
(R317). -/
def onLanding (c type : Nat) (hs : Frame → List (Nat × Nat)) (s : State) (g : Frame → State → State) : Out :=
  .next (match takeFrame s c type with
    | (some f, t) => if (hs f).any (halfHeld s) then awaitHalves s ⟨.port c, f.tag.toNat⟩ (hs f) id else g f t
    | (none, _) => s)

/-- Halves that the payload of a frame goes to. -/
def frameHalves (f : Frame) : List (Nat × Nat) := daHalves f.addr.toNat f.payload.length

/-- The port by which a frame passes on: a control frame, or one of a replay, uses the lowest port of the bundle in service; the frames of
one SEND use one port, which the first takes in rotation, until the last byte of the command (R357; log 32). -/
def passPort (s : State) (f : Frame) : Option Nat × State :=
  let b := bundleOf s f.dst.toNat
  if f.type != 0x10#8 && f.type != 0x11#8 then (b.head?, s)
  else
    let mine (x : Flow) : Bool := x.src = f.src.toNat && x.id = frameId f
    let old := s.chain.flows.find? mine
    let (port, s) := match old with
      | some x => if b.contains x.port then (some x.port, s) else rotatePort s f.dst.toNat
      | none => rotatePort s f.dst.toNat
    match port with
    | none => (none, s)
    | some d =>
      let left := (old.map Flow.left).getD (frameTotal f) - f.payload.length
      let rest := s.chain.flows.filter fun x => !mine x
      (some d, s.setChain { s.chain with flows := if left = 0 then rest else rest ++ [⟨f.src.toNat, frameId f, d, left⟩] })

/-- FRAME_PASS_THROUGH (R357, R358): the oldest control frame that port c received for another node, else the oldest data frame. -/
def execFramePassThrough (c : Fin 8) (s : State) : Out :=
  let p := portOf s c
  .next (match p.transit.find? onControl <|> p.transit.head? with
    | none => s
    | some f =>
      let s := setPort s c { p with transit := p.transit.erase f }
      match passPort s f with
      | (some d, s) =>
        match toPort s (leafLoc (.port c)) d f none with
        | (true, s) => count s (cpPage c) 0x820 1
        | (false, s) => raiseOp s (cpPage c) 6 (frameOp f)
      | (none, s) => raiseOp s (cpPage c) 6 (frameOp f))

/-! The link layer. -/

/-- Whether a neighbour is the one that the descriptor gives for a port (R355). -/
def neighbourAgrees (s : State) (c node port : Nat) : Bool :=
  kfind s.chain.expect c = some (node, port)

/-- What a neighbour's IDENT says is kept; a neighbour that differs from the descriptor is a MISMATCH (R355). -/
def identArrives (s : State) (c node port : Nat) : State :=
  let s := pset s (cpPage c) 0x08C (setFld (pget s (cpPage c) 0x08C) 31 16 node)
  let s := pset s (cpPage c) 0x090 port
  if neighbourAgrees s c node port then
    let s := setLive s (cpPage c) 4 false
    if portState s c = 3 then setPortState s c 2 else s
  else raiseLive (setPortState s c 3) (cpPage c) 4

/-- IDENT (R355): the neighbour's node, and its port in ARG[2:0] (log 33). -/
def execIdent (c : Fin 8) (s : State) : Out :=
  onFrame c 1 s fun f s => identArrives s c f.src.toNat (fld f.arg.toNat 2 0)

/-- Whether sequence number a is at or before b, modulo 2^32. -/
def seqLe (a b : Nat) : Bool := (b + 2 ^ 32 - a) % 2 ^ 32 < 2 ^ 31

/-- What follows the acknowledgement of a SEND's last frame (R362). -/
def sendDone (s : State) (t : Nat) (flag : Option Nat) : State :=
  let x := tongsOf s t
  mcmdDone (setTongs s t { x with sends := x.sends - 1 }) t flag

/-- ACK (R354): every frame up to LSEQ leaves the replay buffer, and frames that waited for it or for a credit go out. -/
def execAck (c : Fin 8) (s : State) : Out :=
  onFrame c 2 s fun f s =>
    let p := portOf s c
    let n := fld f.arg.toNat 31 0
    let done := p.tx.filter fun x => seqLe x.frame.lseq.toNat n
    let s := setPort s c { p with tx := p.tx.filter fun x => !seqLe x.frame.lseq.toNat n }
    let s := foldList (fun (x : TxFrame) st => match x.last with
      | some (t, flag) => sendDone st t flag
      | none => st) done s
    if portState s c = 2 then sendHeld s c else s

/-- NAK (R354): every frame from the expected one on is resent; one that has been resent 8 times makes the port
retrain. -/
def execNak (c : Fin 8) (s : State) : Out :=
  onFrame c 3 s fun f s =>
    let p := portOf s c
    let n := fld f.arg.toNat 31 0
    let again (x : TxFrame) : Bool := seqLe n x.frame.lseq.toNat
    let k := (p.tx.filter again).length
    if k = 0 then s
    else
      let tx := p.tx.map fun x => if again x then { x with resent := x.resent + 1 } else x
      let s := raise (count (setPort s c { p with tx := tx }) (cpPage c) 0x838 k) (cpPage c) 0
      if tx.any fun x => 8 ≤ x.resent then retrain s c else s

/-! Timebase exchanges (R370, R371). Stamps are the timebase and the ns within the tick in progress. The payloads of
SYNC_REQ and SYNC_RSP are as log 33 gives them: the first names a child of the tree, the second the parent's depth. -/

/-- SYNC_EXCHANGE (R370): a port asks its neighbour, with stamp t1. -/
def execSyncExchange (c : Fin 8) (ns : Fin 40) (s : State) : Out :=
  .next (if portState s c != 2 then s
    else
      let t1 := s.clock.now + ns
      let s := setPort s c { portOf s c with sync1 := some t1 }
      let f := mkFrame s 4 (fld (pget s (cpPage c) 0x08C) 31 16) 0 0 0 0
        (leBytes 8 t1 ++ [BitVec.ofNat 8 (b2n (parentPort s = some c.val))])
      transmit s c f none)

/-- SYNC_REQ (R370): stamps t2 and t3, answered with SYNC_RSP. -/
def execSyncReq (c : Fin 8) (ns2 ns3 : Fin 40) (s : State) : Out :=
  onFrame c 4 s fun f s =>
    let s := setPort s c { portOf s c with child := field f.payload 8 1 = 1 }
    let depth := fld (pget s (modPage 8) 0x080) 31 24
    transmit s c (mkFrame s 5 f.src.toNat 0 0 0 0
      (leBytes 8 (s.clock.now + ns2) ++ leBytes 8 (s.clock.now + ns3) ++ leBytes 1 depth)) none

/-- A signed difference of two 64-bit times. -/
def timeDiff (a b : Nat) : Int := sext 64 ((a % 2 ^ 64) + 2 ^ 64 - b % 2 ^ 64)

/-- The correction of a child's timebase by θ (R371): a lock with |θ| above 1 µs is lost with TB_UNLOCK, whatever the correction. -/
def correctTime (s : State) (c : Nat) (th : Int) : State :=
  let stopped := !running s
  let s := if (portOf s c).locked && 1000 < th.natAbs then raise s (cpPage c) 5 else s
  if 10000 < th && stopped then
    let s := s.setClock { s.clock with now := (s.clock.now + th.toNat) % 2 ^ 64, slew := 0, hold := 0 }
    setSyncState (setPort s c { portOf s c with good := 0, locked := false }) c 1
  else if th < -10000 && stopped then
    let s := s.setClock { s.clock with hold := (-th - 10000).toNat, slew := -10000 }
    setSyncState (setPort s c { portOf s c with good := 0, locked := false }) c 1
  else
    let s := s.setClock { s.clock with slew := th, hold := 0 }
    let p := portOf s c
    let good := if th.natAbs ≤ 20 then p.good + 1 else 0
    if p.locked && 1000 < th.natAbs then
      setSyncState (setPort s c { p with good := 0, locked := false }) c 3
    else if 8 ≤ good then setSyncState (setPort s c { p with good := good, locked := true }) c 2
    else setPort s c { p with good := good }

/-- SYNC_RSP (R370, R371): stamp t4; delay and offset are computed, and a parent's offset corrects the timebase. -/
def execSyncRsp (c : Fin 8) (ns : Fin 40) (s : State) : Out :=
  onFrame c 5 s fun f s =>
    let p := portOf s c
    match p.sync1 with
    | none => s
    | some t1 =>
      let s := setPort s c { p with sync1 := none }
      let t4 := s.clock.now + ns
      let t2 := field f.payload 0 8
      let t3 := field f.payload 8 8
      let d := (timeDiff t4 t1 - timeDiff t3 t2) / 2
      let th := (timeDiff t2 t1 - timeDiff t4 t3) / 2
      let s := pset s (cpPage c) 0x094 (clampI 0 0xFFFF d).toNat
      let s := pset s (cpPage c) 0x09C (toPat 32 (clampI (-2 ^ 31) (2 ^ 31 - 1) th))
      if parentPort s != some c.val then s
      else
        let s := pset s (modPage 8) 0x080 (setFld (pget s (modPage 8) 0x080) 31 24 (field f.payload 16 1 + 1))
        correctTime s c th

/-! Data and flags. -/

/-- The record of a command of which a first frame lands (R361). -/
def openLanding (s : State) (f : Frame) : State :=
  if s.chain.landings.any fun l => l.src = f.src.toNat && l.id = frameId f then s
  else s.setChain { s.chain with
    landings := s.chain.landings ++ [⟨f.src.toNat, frameId f, 0, frameTotal f, frameFlag f⟩] }

/-- A payload written at a device address; one aimed at register space or at an unmapped address is discarded (R361). -/
def landPayload (s : State) (c : Nat) (f : Frame) (next : State → State) : State :=
  let ends := [f.addr.toNat, f.addr.toNat + f.payload.length - 1]
  let bad := ends.any fun a => match daKind a with
    | .register _ => true
    | .unmapped => true
    | .lpddr r q => regionTop s r ≤ q
    | _ => false
  if bad then frameBad s c f else next (daWrite s ⟨.port c, f.tag.toNat⟩ f.addr.toNat f.payload).2

/-- A frame that only delivers bytes (R361, R364). -/
def deliverFrame (s : State) (c : Nat) (f : Frame) : State :=
  landPayload s c f fun s => landBytes (openLanding s f) f.src.toNat (frameId f) f.payload.length

/-- ACT (R361). -/
def execAct (c : Fin 8) (s : State) : Out := onLanding c 0x10 frameHalves s fun f s => deliverFrame s c f

/-- Base die whose Tongs serves a device address. -/
def tongsOfDa (da : Nat) : Nat := match daKind da with
  | .bonded t _ _ => tileDie t
  | .lpddr a _ => a
  | .shared a _ => a
  | _ => 0

/-- CMB (R364): bytes delivered, or a REDUCE issued by the destination's Tongs, in whose retry a refused contribution
waits. -/
def execCmb (c : Fin 8) (s : State) : Out :=
  onLanding c 0x11 frameHalves s fun f s =>
    let e := f.ext.toNat
    if !bitOf e 36 then deliverFrame s c f
    else if !redRangeOk f.addr.toNat f.payload.length then frameBad s c f
    else
      let s := openLanding s f
      let a := tongsOfDa f.addr.toNat
      let k : Contribution := ⟨0, none, f.payload, f.addr.toNat, f.payload.length, fld e 15 0, fld e 31 16, fld e 35 32,
        f.tag.toNat, s.clock.now, some (f.src.toNat, frameId f)⟩
      offerRed s a k fun s => s.setEng { s.eng with remote := kput [] s.eng.remote a (kget [] s.eng.remote a ++ [k]) }

/-- FLAG_FRAME (R363): a module flag set or cleared. -/
def execFlagFrame (c : Fin 8) (s : State) : Out :=
  onFrame c 0x12 s fun f s => setFlag s true 0 (fld f.arg.toNat 5 0) (!bitOf f.arg.toNat 6)

/-! Chain barriers (R365, R378). -/

/-- Group and generation of a barrier frame (R360). -/
def barGroup (f : Frame) : Nat := fld f.arg.toNat 1 0
def barGen (f : Frame) : Nat := fld f.arg.toNat 31 16

/-- Whether a barrier frame is for the generation in progress of a bound group. -/
def barCurrent (s : State) (f : Frame) : Bool :=
  boundTo s (4 + barGroup f) = some (barGroup f) && barGen f = cbGen s (barGroup f)

/-- BAR_ARR (R365). -/
def execBarArr (c : Fin 8) (s : State) : Out :=
  onFrame c 0x13 s fun f s =>
    if barCurrent s f && cbRoot s (barGroup f) = ownNode s then rootArrival s (barGroup f) else s

/-- A broadcast frame forwarded on every tree link but its own (R356). -/
def forwardBroadcast (s : State) (c : Nat) (f : Frame) : State :=
  if f.fl = 1#8 then broadcast s (some c) f else s

/-- BAR_REL (R365). -/
def execBarRel (c : Fin 8) (s : State) : Out :=
  onFrame c 0x14 s fun f s =>
    let s := forwardBroadcast s c f
    if barCurrent s f then endChainGen s (barGroup f) 0 else s

/-- BAR_ABT (R365): the root broadcasts it where it has not issued BAR_REL; a member aborts the generation. -/
def execBarAbt (c : Fin 8) (s : State) : Out :=
  onFrame c 0x15 s fun f s =>
    if f.fl = 1#8 then
      let s := forwardBroadcast s c f
      if barCurrent s f then endChainGen s (barGroup f) 1 else s
    else if barCurrent s f && cbRoot s (barGroup f) = ownNode s then rootAbort s (barGroup f)
    else s

/-- CB_CFG_WRITE (R365, R378): held while MB(4+g) has arrivals. -/
def cbCfgWrite (g : Fin 4) (v : BitVec 32) (s : State) : State :=
  blockWrite s (basePage 0 0) fun s =>
    let v := if fld v.toNat 27 16 = 0 then v.toNat % 2 ^ 29 + 2 ^ 16 else v.toNat % 2 ^ 29
    if (barOf s true 0 (4 + g)).arrived = 0 then pset s (basePage 0 0) (0x460 + 4 * g) v
    else setCb s g { cbOf s g with pend := some v }

end Sys2Proof.Machine
end

