-- ==== Sys2Proof/Machine/Scalar.lean ====
section
/-!
DEFINITION. The common instructions of every core but transfers, flags and barriers (R95 to R97), and the event of
a word that is no instruction of the core (R95). An instruction that waits for a condition is held (R94, log 4).
-/

namespace Sys2Proof.Machine

open Sys2Proof

/-- NOP (R97). -/
def execNop (t : Fin 12) (p : Fin 41) (_f : SFields) (s : State) : Out :=
  .next (issue s t p 0x01 0 fun s => nextPc s t p)

/-- The end of a program (R97): a matrix or vector core becomes IDLE, and a piece to be re-run on it starts (R443); the TCC halts with
HALT 1 and the PC after the END. -/
def endProgram (t : Fin 12) (p : Fin 41) (s : State) : State :=
  let s := nextPc s t p
  if p.val = 40 then haltTcc s t false
  else
    let k := coreOf s (cid t p)
    rerunPieces (touchPart (setCore s (cid t p) { k with run := .idle, aborted := false }) t p)

/-- TRAP (R97, R127, R128, R131). -/
def execTrap (t : Fin 12) (p : Fin 41) (f : SFields) (s : State) : Out :=
  .next (issue s t p 0x03 0 fun s =>
    let s := nextPc s t p
    let code := f.imm.toNat % 2 ^ 16
    if p.val = 40 then
      if (tccOf s t).inTrap then
        let s := nestTcc s t
        let k := coreOf s (cid t p)
        setCore s (cid t p) { k with run := .idle }
      else tccCause s t (.software 40 code)
    else
      let k := coreOf s (cid t p)
      tccCause (setCore s (cid t p) { k with run := .trapped }) t (.software p.val code))

/-- FENCE (R97): held until every earlier load, store and XFER of the core is complete. -/
def execFence (t : Fin 12) (p : Fin 41) (f : SFields) (s : State) : Out :=
  .next (issueWhen s (.fence t p f) t p 0x04 (settled s t p) fun s => nextPc s t p)

/-- TIME (R97). -/
def execTime (t : Fin 12) (p : Fin 41) (f : SFields) (s : State) : Out :=
  .next (issue s t p 0x05 0 fun s => nextPc (setG s t p f.gd.toNat (BitVec.ofNat 64 s.clock.now)) t p)

/-- LDI (R97). -/
def execLdi (t : Fin 12) (p : Fin 41) (f : SFields) (s : State) : Out :=
  .next (issue s t p 0x08 0 fun s => nextPc (setG s t p f.gd.toNat (sext32 f.imm)) t p)

/-- LDIH (R97). -/
def execLdih (t : Fin 12) (p : Fin 41) (f : SFields) (s : State) : Out :=
  .next (issue s t p 0x09 0 fun s =>
    let lo := (getG s t p f.gd.toNat).toNat % 2 ^ 32
    nextPc (setG s t p f.gd.toNat (BitVec.ofNat 64 (f.imm.toNat * 2 ^ 32 + lo))) t p)

/-- ADD, SUB, AND, OR, XOR (R97). -/
def execAdd (t : Fin 12) (p : Fin 41) (f : SFields) (s : State) : Out := .next (aluOp t p f 0x0A (· + ·) s)
def execSub (t : Fin 12) (p : Fin 41) (f : SFields) (s : State) : Out := .next (aluOp t p f 0x0B (· - ·) s)
def execAnd (t : Fin 12) (p : Fin 41) (f : SFields) (s : State) : Out := .next (aluOp t p f 0x0C (· &&& ·) s)
def execOr (t : Fin 12) (p : Fin 41) (f : SFields) (s : State) : Out := .next (aluOp t p f 0x0D (· ||| ·) s)
def execXor (t : Fin 12) (p : Fin 41) (f : SFields) (s : State) : Out := .next (aluOp t p f 0x0E (· ^^^ ·) s)

/-- SHL, SHR, SAR by B[5:0] (R97). -/
def execShl (t : Fin 12) (p : Fin 41) (f : SFields) (s : State) : Out :=
  .next (aluOp t p f 0x0F (fun a b => a <<< (b.toNat % 64)) s)
def execShr (t : Fin 12) (p : Fin 41) (f : SFields) (s : State) : Out :=
  .next (aluOp t p f 0x10 (fun a b => a >>> (b.toNat % 64)) s)
def execSar (t : Fin 12) (p : Fin 41) (f : SFields) (s : State) : Out :=
  .next (aluOp t p f 0x11 (fun a b => a.sshiftRight (b.toNat % 64)) s)

/-- MUL, low 64 bits (R97). -/
def execMul (t : Fin 12) (p : Fin 41) (f : SFields) (s : State) : Out := .next (aluOp t p f 0x12 (· * ·) s)

/-- SLT and SLTU (R97). -/
def execSlt (t : Fin 12) (p : Fin 41) (f : SFields) (s : State) : Out :=
  .next (aluOp t p f 0x13 (fun a b => if a.slt b then 1#64 else 0#64) s)
def execSltu (t : Fin 12) (p : Fin 41) (f : SFields) (s : State) : Out :=
  .next (aluOp t p f 0x14 (fun a b => if a.ult b then 1#64 else 0#64) s)

/-- A load of n bytes from the core's own store (R97, R96), with the choice of R100 under an outstanding XFER. -/
def loadOp (i : Instr) (t : Fin 12) (p : Fin 41) (f : SFields) (op n : Nat) (s : State) : State :=
  let a := effAddr s t p f / n * n
  issueWhen s i t p op (!loadHeld s t p a n) fun s =>
    if inStore p a n then
      let (l, s) := loadUnderXfer s t p a n
      nextPc (setG s t p f.gd.toNat (BitVec.ofNat 64 (leNat l))) t p
    else illegal s t p

/-- A store of n bytes to the core's own store (R97, R96). -/
def storeOp (t : Fin 12) (p : Fin 41) (f : SFields) (op n : Nat) (s : State) : State :=
  issue s t p op 0 fun s =>
    let a := effAddr s t p f / n * n
    if inStore p a n then
      nextPc (storePut s t p a (leBytes n (getG s t p f.gb.toNat).toNat) true) t p
    else illegal s t p

/-- LD and ST, 64 bits; LDW and STW, 32 bits, zero-extended on load (R97). -/
def execLd (t : Fin 12) (p : Fin 41) (f : SFields) (s : State) : Out := .next (loadOp (.ld t p f) t p f 0x18 8 s)
def execSt (t : Fin 12) (p : Fin 41) (f : SFields) (s : State) : Out := .next (storeOp t p f 0x19 8 s)
def execLdw (t : Fin 12) (p : Fin 41) (f : SFields) (s : State) : Out := .next (loadOp (.ldw t p f) t p f 0x1A 4 s)
def execStw (t : Fin 12) (p : Fin 41) (f : SFields) (s : State) : Out := .next (storeOp t p f 0x1B 4 s)

/-- BR (R97). -/
def execBr (t : Fin 12) (p : Fin 41) (f : SFields) (s : State) : Out :=
  .next (issue s t p 0x20 0 fun s => branchTo s t p f true)

/-- BEQ, BNE, BLT, BGE (R97). -/
def execBeq (t : Fin 12) (p : Fin 41) (f : SFields) (s : State) : Out :=
  .next (condBranch t p f 0x21 (fun a b => a == b) s)
def execBne (t : Fin 12) (p : Fin 41) (f : SFields) (s : State) : Out :=
  .next (condBranch t p f 0x22 (fun a b => a != b) s)
def execBlt (t : Fin 12) (p : Fin 41) (f : SFields) (s : State) : Out :=
  .next (condBranch t p f 0x23 (fun a b => a.slt b) s)
def execBge (t : Fin 12) (p : Fin 41) (f : SFields) (s : State) : Out :=
  .next (condBranch t p f 0x24 (fun a b => !a.slt b) s)

/-- LOOP (R97): with G0 the new GD reads 0, so it does not branch. DEDUCED (log 9). -/
def execLoop (t : Fin 12) (p : Fin 41) (f : SFields) (s : State) : Out :=
  .next (issue s t p 0x25 0 fun s =>
    let s := setG s t p f.gd.toNat (getG s t p f.gd.toNat - 1#64)
    branchTo s t p f (getG s t p f.gd.toNat != 0#64))

/-- CALL (R97). -/
def execCall (t : Fin 12) (p : Fin 41) (f : SFields) (s : State) : Out :=
  .next (issue s t p 0x26 0 fun s =>
    branchTo (setG s t p f.gd.toNat (BitVec.ofNat 64 ((coreOf s (cid t p)).pc + 8))) t p f true)

/-- JR (R97). -/
def execJr (t : Fin 12) (p : Fin 41) (f : SFields) (s : State) : Out :=
  .next (issue s t p 0x27 0 fun s => setPc s t p ((getG s t p f.ga.toNat).toNat / 8 * 8))

/-- ILLEGAL_INSTRUCTION (R95): a word that the core's kind does not execute. -/
def execIllegalInstruction (t : Fin 12) (p : Fin 41) (w : BitVec 64) (s : State) : Out :=
  .next (if (decodeCoreWord t p w).isNone then issue s t p (w.toNat % 256) 0 fun s => illegal s t p else s)

end Sys2Proof.Machine
end

