-- ==== Sys2Proof/Machine/ChainPlans.lean ====
section
/-!
DEFINITION. Frames of chain plans: ADMIT, REPORT, COMMIT, DROP, SEQ_SYNC, SEQ_ACK, RPL_REQ, RPL_RES (R180, R366 to R369,
R449).
-/

namespace Sys2Proof.Machine

open Sys2Proof

/-- The slot that holds the segment a frame names by PLAN_UID (R360). -/
def slotOfUid (s : State) (uid : Nat) : Option Nat :=
  (residentSlots s).find? fun i => (planOf s i).uid = uid && (planOf s i).chain.isSome

/-- A command on frames of a chain plan: the frame and the slot it names; a frame of a plan that is not here does
nothing. -/
def onPlanFrame (c type : Nat) (s : State) (g : Frame → Nat → State → State) : Out :=
  onFrame c type s fun f s =>
    match slotOfUid s f.addr.toNat with
    | some i => g f i s
    | none => s

/-! ADMIT (R366). -/

/-- An admission entry: SEQ, column, group, tokens and KV_LEN. -/
structure AdmitEntry where
  seq : Nat
  column : Nat
  group : Nat
  tokens : Nat
  kvLen : Nat
  deriving DecidableEq, Repr

/-- The entries of an ADMIT frame. -/
def admitEntries (l : List Byte) : List AdmitEntry :=
  (List.range (l.length / 16)).map fun i =>
    let e := (l.drop (16 * i)).take 16
    ⟨field e 0 2 % 4096, field e 2 2 % 16, field e 2 2 / 16 % 16, field e 4 2, field e 8 8⟩

/-- A member added to its group among groups of a period, in the column of its entry. -/
def addMember (k slot : Nat) (lane : Bool) (e : AdmitEntry) (ok : Bool) (gs : List StepGroup) : List StepGroup :=
  let tag := groupTag e.group slot k lane
  let gs := if gs.any fun g => g.tag = tag then gs else gs ++ [newGroup k slot e.group lane [] [] []]
  gs.map fun g => if g.tag = tag then { g with
    members := g.members ++ [e.seq], columns := g.columns ++ [e.column], tokens := g.tokens ++ [e.tokens]
    unserved := g.unserved || !ok } else g

/-- One entry taken by a segment: ACTIVE, placed, with pages of its own pools; a segment without pages runs no part of its
group. -/
def takeEntry (k slot : Nat) (e : AdmitEntry) (a : List StepGroup × State) : List StepGroup × State :=
  let (gs, s) := a
  let r := seqOf s e.seq
  let (ok, s) := stagePages s slot r.plist (e.kvLen + e.tokens)
  let now := k = s.sched.num && s.sched.inPeriod
  let s := setSeq s e.seq (if now then
      { r with state := .active, placed := true, column := e.column, group := e.group, kvLen := e.kvLen }
    else { r with kvLen := e.kvLen })
  (addMember k slot (decide (r.kind != 0)) e ok gs, s)

/-- ADMIT (R366, R374): one for a period that has ended is discarded; one for the next period waits for its start. While a FATAL source
holds the module it admits no sequence (R425). The plan control block is written again while no piece of the plan's groups has started, and
stays unchanged from then on (R158). -/
def execAdmitFrame (c : Fin 8) (s : State) : Out :=
  onPlanFrame c 0x20 s fun f slot s =>
    let k := f.ext.toNat
    let es := (admitEntries f.payload).filter fun e => (seqOf s e.seq).slot = slot && (seqOf s e.seq).state != .free
    if !notHead s slot || !slotRuns s slot || fatalHold s then s
    else if k = s.sched.num && s.sched.inPeriod then
      let (gs, s) := foldList (takeEntry k slot) es (s.sched.groups, s)
      let s := s.setSched { s.sched with
        groups := gs
        records := s.sched.records.map fun r => if r.1 = k then (k, gs.map fun g => (g.tag, g.members)) else r }
      if gs.all fun g => g.slot != slot || g.starts.isEmpty then putPcb s k slot gs else s
    else if k = (s.sched.num + 1) % 2 ^ 64 then
      let (gs, s) := foldList (takeEntry k slot) es (s.sched.early, s)
      s.setSched { s.sched with early := gs }
    else s

/-! Commit and drop (R180, R368, R449). -/

/-- The tag here of the group that the group fields and EXT of a frame name (R368). -/
def frameTag (f : Frame) (slot : Nat) : Nat :=
  groupTag (fld f.arg.toNat 3 0) slot f.ext.toNat (bitOf f.arg.toNat 4)

/-- SEG_INDEX of a frame. -/
def frameSeg (f : Frame) : Nat := fld f.arg.toNat 15 8

/-- REPORT (R180, R368, R374): the last segment notes it, and commits once its own part and every report have come. One
after S_k + L finds no running group. -/
def execReport (c : Fin 8) (s : State) : Out :=
  onPlanFrame c 0x21 s fun f slot s =>
    let tag := frameTag f slot
    let note (g : StepGroup) : StepGroup :=
      if g.tag = tag then { g with chainReports := g.chainReports ++ [frameSeg f] } else g
    let s := s.setSched { s.sched with groups := s.sched.groups.map note, early := s.sched.early.map note }
    retryCommit s tag

/-- A step record of a decision (R368): SEQ, flags, LEN and the output bytes. -/
structure StepRecord where
  seq : Nat
  flags : Nat
  len : Nat
  out : List Byte
  deriving DecidableEq, Repr

/-- The step records of a decision for n steps; none while bytes are missing. -/
def decisionRecords : Nat → List Byte → Option (List StepRecord)
  | 0, _ => some []
  | n + 1, l =>
    let flags := field l 2 2
    let len := field l 4 4
    let out := if bitOf flags 1 then 0 else len
    let size := 8 + divUp out 16 * 16
    if l.length < size then none
    else (decisionRecords n (l.drop size)).map fun r => ⟨field l 0 2, flags, len, (l.drop 8).take out⟩ :: r

/-- Members of a group of a recent period, from the admission records (R174). -/
def recordedMembers (s : State) (tag : Nat) : List Nat :=
  ((s.sched.records.flatMap Prod.snd).find? fun r => r.1 = tag).map Prod.snd |>.getD []

/-- A chain split at the head (R449): every sequence of the group FAILED, and its step completions posted with END. -/
def splitHead (s : State) (tag tc : Nat) : State :=
  foldList (fun i st =>
    let r := seqOf st i
    if r.state = .free || r.state = .failed then st
    else
      let st := setSeq st i { r with state := .failed, placed := false, column := 0, group := 0, ending := false }
      cqPost st r.cq (stepEntry i tc r true (decide (r.kind = 0)) 0 r.outHead)) (recordedMembers s tag) s

/-- The group of a tag that still waits for its decision, with its period's number and end: of the current period, or one
that awaits it. -/
def openGroup (s : State) (tag : Nat) : Option (Nat × Nat × StepGroup) :=
  match (if s.sched.inPeriod then s.sched.groups.find? fun g => g.tag = tag && g.fate = .running else none) with
  | some g => some (s.sched.num, s.sched.start + s.sched.len, g)
  | none => s.sched.awaiting.find? fun x => x.2.2.tag = tag

/-- A group that no longer awaits a decision. -/
def endAwait (s : State) (tag : Nat) : State :=
  s.setSched { s.sched with awaiting := s.sched.awaiting.filter fun x => x.2.2.tag != tag }

/-- The parts of a decision, with one more. -/
def addPart (s : State) (tag i : Nat) (l : List Byte) : Decision :=
  let d := (s.chain.decisions.find? fun d => d.tag = tag).getD ⟨tag, []⟩
  { d with parts := kinsert d.parts i l }

/-- The bytes of a decision, when every part up to the last that came is here. -/
def decisionWhole (d : Decision) : Option (List Byte) :=
  if (d.parts.map Prod.fst) = List.range d.parts.length then some (d.parts.flatMap Prod.snd) else none

/-- The decision here for a group, once it is whole: t_c and its records. -/
def decisionOf (s : State) (tag : Nat) : Option (Nat × List StepRecord) :=
  match (s.chain.decisions.find? fun d => d.tag = tag).bind decisionWhole with
  | some l => (decisionRecords (recordedMembers s tag).length (l.drop 16)).map fun r => (field l 0 8, r)
  | none => none

/-- A decision that is no longer kept. -/
def endDecision (s : State) (tag : Nat) : State :=
  s.setChain { s.chain with decisions := s.chain.decisions.filter fun d => d.tag != tag }

/-- The instant at which the decision of a group is late, after the end of its period (R180, R373): as many COMMIT frames as are here count. -/
def decisionDue (s : State) (g : StepGroup) (e : Nat) : Nat :=
  let n := ((s.chain.decisions.find? fun d => d.tag = g.tag).map fun d => d.parts.length).getD 1
  e + decisionTravel (planOf s g.slot).segs n

/-- The reason of a group whose decision is late (R180, R448). -/
def lateReason (s : State) (g : StepGroup) : Nat := if dropReason s g = 1 then 6 else dropReason s g

/-- A group that awaits its decision dropped at the instant from which the decision is late (R180); what has come of the decision stays, for
the head to see a chain split (R449). -/
def lateDrop (s : State) (k e : Nat) (g : StepGroup) : State :=
  dropGroup (endAwait s g.tag) g (lateReason s g) e k

/-- A group whose decision is late is dropped, also where its timeout has not run yet (R401). -/
def expireDecision (s : State) (tag : Nat) : State :=
  match s.sched.awaiting.find? fun x => x.2.2.tag = tag with
  | some (k, e, g) => if decisionDue s g e ≤ s.clock.now then lateDrop s k e g else s
  | none => s

/-- A whole decision applied (R177, R180), the record of each member by its SEQ (R367): at once READY where the period has ended. -/
def applyDecision (s : State) (tag tc : Nat) (recs : List StepRecord) : State :=
  match openGroup s tag with
  | none => s
  | some (k, e, g) =>
    if e ≤ tc then s
    else
      let waited := s.sched.awaiting.any fun x => x.2.2.tag = tag
      let mine := g.members.map fun i => (recs.find? fun r => r.seq = i).getD ⟨i, 0, 0, []⟩
      let s := commitGroup (endAwait s tag) { g with chainCommit := some tc } k tc (mine.map fun r => (r.len, r.out))
        (mine.map fun r => bitOf r.flags 0)
      if waited then releasePlaced s { g with fate := .committed } else s

/-- The decision here for a group, once it is whole (R180, R449): applied; a segment that has dropped the group discards it; a head that
holds a DROP too has a chain split. While a FATAL source holds the module, which records no commit point then, it is kept (R425). -/
def settleDecision (s : State) (tag : Nat) : State :=
  let s := expireDecision s tag
  match decisionOf s tag with
  | none => s
  | some (tc, recs) =>
    if s.chain.drops.contains tag then
      let s := noteCommit (endDecision s tag) tag
      if notHead s (tag / 2 ^ 5 % 4) then s else splitHead (endAwait s tag) tag tc
    else if fatalHold s then s
    else applyDecision (noteCommit (endDecision s tag) tag) tag tc recs

/-- Whether the records of a decision name every member of its group. -/
def decisionNames (s : State) (tag : Nat) : Bool :=
  (decisionOf s tag).all fun x => (recordedMembers s tag).all fun i => x.2.any fun r => r.seq = i

/-- COMMIT (R180, R367, R368, R374, R449): forwarded unchanged to UP_NODE, and applied when the whole decision is here. One whose records do
not name the group's steps is outside its values (R360). -/
def execCommit (c : Fin 8) (s : State) : Out :=
  onPlanFrame c 0x22 s fun f slot s =>
    let tag := frameTag f slot
    let up := ((planOf s slot).chain.map ChainRec.upNode).getD 0xFFFF
    let s := if up = 0xFFFF then s else sendControl s c { f with dst := BitVec.ofNat 16 up }
    let d := addPart s tag (fld f.arg.toNat 31 16) f.payload
    let s := s.setChain { s.chain with decisions := (s.chain.decisions.filter fun x => x.tag != tag && recentTags s [x.tag] != []) ++ [d] }
    if decisionNames s tag then settleDecision s tag else frameBad (endDecision s tag) c f

/-- A FATAL hold has ended (R425): decisions that were kept are applied, and groups that had passed commit. -/
def endHold (s : State) : State :=
  let s := foldList (fun (d : Decision) st => settleDecision st d.tag) s.chain.decisions s
  foldList (fun (g : StepGroup) st => retryCommit st g.tag) s.sched.groups s

/-- A group dropped after the end of its period, or for a DROP frame (R179, R368). -/
def dropOpen (s : State) (tag reason : Nat) : State :=
  match openGroup s tag with
  | some (k, e, g) => dropGroup (endAwait s tag) g reason (min s.clock.now e) k
  | none => s

/-- DROP (R368, R449): the head and the last segment drop the group; a COMMIT already there makes it a chain split. -/
def execDrop (c : Fin 8) (s : State) : Out :=
  onPlanFrame c 0x23 s fun f slot s =>
    let tag := frameTag f slot
    let last := (planOf s slot).chain.any fun x => x.index + 1 = x.count
    let split := s.chain.commits.contains tag
    let s := if split || s.chain.drops.contains tag then s else dropOpen s tag (fld f.arg.toNat 31 16)
    let s := if s.chain.drops.contains tag then s else noteDrop s tag
    let s := if split && last then raiseTag s (modPage 6) 0 0 else s
    if split && !notHead s slot then splitHead s tag s.clock.now else s

/-- CHAIN_LATE_TIMEOUT (R180): the i-th group that awaits its decision is dropped at S_k + L + Hmax. -/
def execChainLateTimeout (i : Nat) (s : State) : Out :=
  .next (match s.sched.awaiting[i]? with
    | none => s
    | some (k, e, g) => lateDrop (advanceTo s (decisionDue s g e)) k e g)

/-! The sequence table of the segments (R367). -/

/-- Pages that a refused or cancelled opening had claimed, returned to the pools; the lists stay as they are. -/
def unclaimPages (s : State) (slot plist : Nat) : State :=
  eachList s slot plist fun own d s =>
    let (l, s) := listPages s own d 0 d.count
    returnPages s slot l

/-- SEQ_ACK to the head (R360, R367). -/
def seqAck (s : State) (f : Frame) (accept : Bool) (reason free : Nat) : State :=
  let a := f.arg.toNat
  sendControl s 0 (mkFrame s 0x25 f.src.toNat 0 f.addr.toNat
    (fld a 15 0 + b2n accept * 2 ^ 16 + fld a 23 20 * 2 ^ 20 + reason * 2 ^ 24) free [])

/-- The entry that a segment writes from the image of an OPEN; beside it the segment keeps INPUT_LEN of the image (log 98). -/
def segmentEntry (slot since : Nat) (l : List Byte) : SeqRec :=
  { SeqRec.reset with
    state := .ready, slot := slot, kind := fld (field l 1 1) 3 2, prio := fld (field l 1 1) 6 4
    lastDrop := field l 2 1, dropRun := field l 3 1, committed := field l 4 4, kvLen := field l 8 8
    lastToken := field l 0x10 4, stepLimit := field l 0x14 4, stopToken := field l 0x18 4, cq := 0xFFFF
    column := field l 0x1E 1 % 16, group := field l 0x1E 1 / 16, placed := bitOf (field l 0x1E 2) 8
    plist := field l 0x2C 4, since := since, left := field l 0x28 4 }

/-- OPEN at a segment (R367). -/
def segmentOpen (s : State) (f : Frame) (slot i : Nat) : State :=
  if !indexFree s i then seqAck s f false 0 ((lowestFree s i).getD 0xFFFF)
  else
    match openChecks s slot (field f.payload 0x2C 4) (field f.payload 8 8) with
    | (some r, s) => seqAck s f false r ((lowestFree s i).getD 0xFFFF)
    | (none, s) =>
      let s := setSeq s i (segmentEntry slot s.sched.num f.payload)
      seqAck s f true 0 ((lowestFree s i).getD 0xFFFF)

/-- CANCEL at a segment: the entry is FREE at once (R367). -/
def segmentCancel (s : State) (slot i : Nat) : State :=
  let r := seqOf s i
  if r.slot = slot && r.state = .ready then setSeq (unclaimPages s slot r.plist) i .reset else s

/-- The transition that an OP of SEQ_SYNC names (R367). -/
def syncOp (op : Nat) : SeqCmdKind := match op with
  | 2 => .suspend
  | 3 => .resume
  | 4 => .finish
  | _ => .release

/-- SEQ_SYNC (R367): a segment opens, cancels, or applies a transition at the cutoff that the frame names; past that
cutoff it applies it at once, with CP_FRAME_BAD. -/
def execSeqSync (c : Fin 8) (s : State) : Out :=
  onPlanFrame c 0x24 s fun f slot s =>
    let i := fld f.arg.toNat 15 0
    let op := fld f.arg.toNat 19 16
    if op = 1 then segmentOpen s f slot i
    else if op = 6 then segmentCancel s slot i
    else if nextCutoff s ≤ f.ext.toNat then
      s.setChain { s.chain with waits := s.chain.waits ++ [(f.ext.toNat, i, syncOp op)] }
    else frameBad (applyMove s i (syncOp op)) c f

/-- An opening removed from those in progress. -/
def endOpen (s : State) (o : ChainOpen) : State :=
  s.setChain { s.chain with opens := s.chain.opens.filter fun x => x.pair != o.pair || x.cid != o.cid }

/-- CANCEL to every segment that accepted the candidate. -/
def cancelRound (s : State) (o : ChainOpen) : State :=
  foldList (fun (a : SegAnswer) st => if a.accept = some true then seqSync st o.slot a.node o.index 6 o.round 0 [] else st)
    o.answers s

/-- An opening refused with its reason (R340, R367). -/
def refuseOpen (s : State) (o : ChainOpen) (d : List Nat) : State :=
  let s := endOpen (cancelRound s o) o
  complete (unclaimPages s o.slot o.entry.plist) o.pair o.cid 0x43 d

/-- An opening of which every segment has answered, the answers in the order of their arrival (R367). -/
def resolveOpen (s : State) (o : ChainOpen) : State :=
  match o.answers.find? fun a => a.accept = some false && a.reason != 0 with
  | some a => refuseOpen s o [10, a.node, a.reason]
  | none =>
    if o.answers.all fun a => a.accept = some true then
      complete (assignEntry (endOpen s o) o.index o.entry) o.pair o.cid 0 [o.index]
    else
      let refused := o.answers.filter fun a => a.accept = some false
      let lo := refused.foldl (fun m a => max m a.index) 0
      match (if o.round + 1 < 8 then lowestFree s lo else none) with
      | some i => startRound (cancelRound s o) { o with index := i, round := o.round + 1 }
      | none => refuseOpen s o [9, (refused.getLast?.map SegAnswer.node).getD 0xFFFF]

/-- SEQ_ACK (R367): the head takes a segment's answer to the round in progress; 1 ms after the SEQ_SYNC it comes too late (R401). -/
def execSeqAck (c : Fin 8) (s : State) : Out :=
  onPlanFrame c 0x25 s fun f slot s =>
    let a := f.arg.toNat
    let mine (o : ChainOpen) : Bool := o.slot = slot && o.index = fld a 15 0 && o.round = fld a 23 20
    match s.chain.opens.find? mine with
    | none => s
    | some o =>
      if o.since + 1000000 ≤ s.clock.now then refuseOpen s o [11, f.src.toNat]
      else
      let ans : SegAnswer := ⟨f.src.toNat, some (bitOf a 16), fld a 31 24, fld f.ext.toNat 15 0⟩
      let o := { o with answers := (o.answers.filter fun x => x.node != ans.node) ++ if o.answers.any (·.node = ans.node) then [ans] else [] }
      let s := s.setChain { s.chain with opens := s.chain.opens.map fun x => if mine x then o else x }
      if o.answers.all fun x => x.accept.isSome then resolveOpen s o else s

/-- SEQ_SYNC_TIMEOUT (R367): 1 ms after the SEQ_SYNC of the i-th opening a segment has not answered. -/
def execSeqSyncTimeout (i : Nat) (s : State) : Out :=
  .next (match s.chain.opens[i]? with
    | none => s
    | some o =>
      match o.answers.find? fun a => a.accept.isNone with
      | none => s
      | some a => refuseOpen (advanceTo s (o.since + 1000000)) o [11, a.node])

/-! Chain replay (R369). -/

/-- The RPL_RES frames of a piece that this module has replayed as a peer (R369): each result line to its address, under the step tag with
the REPLAY bit; a piece without lines answers with no payload and a total of 0. -/
def peerResults (s : State) (x : PeerReplay) : State :=
  let total := (x.lines.map fun l => l.2.length).foldl (· + ·) 0
  let l := if x.lines.isEmpty then [(0, [])] else x.lines
  let ext := x.slot + (x.part / 41 * 0x100 + x.part % 41) * 2 ^ 16
  let s := s.setChain { s.chain with peers := s.chain.peers.filter (· != x) }
  foldList (fun (y : Nat × List Byte) st =>
    sendControl st x.port (mkFrame st 0x31 x.src (tagBase x.tag + 2 ^ 7) y.1 (x.id + total * 2 ^ 32) ext y.2)) l s

/-- END (R97): a matrix or vector core becomes IDLE; the TCC halts with HALT 1 and the PC after the END. The results of a piece that ran for
a chain peer return (R369). -/
def execEndProgram (t : Fin 12) (p : Fin 41) (_f : SFields) (s : State) : Out :=
  .next (issue s t p 0x02 0 fun s =>
    let piece := peerPiece s ⟨.part t p, (coreOf s (cid t p)).tag.toNat⟩
    let s := endProgram t p s
    match piece with
    | some x => peerResults s x
    | none => s)

/-- RPL_REQ (R369): the held inputs land; with the last byte the event is raised on the tile of the participant, whose piece the plan's code
then runs. A peer that does not hold the slot answers with no payload and a total of 0. -/
def execRplReq (c : Fin 8) (s : State) : Out :=
  onLanding c 0x30 frameHalves s fun f s =>
    let id := fld f.arg.toNat 15 0
    let total := fld f.arg.toNat 63 32
    let e := f.ext.toNat
    let src := f.src.toNat
    let got := ((s.chain.landings.find? fun l => l.src = src && l.id = 2 ^ 16 + id).map Landing.bytes).getD 0
    let n := got + f.payload.length
    let rest := s.chain.landings.filter fun l => l.src != src || l.id != 2 ^ 16 + id
    let finish (s : State) : State :=
      if n < total then s.setChain { s.chain with landings := rest ++ [⟨src, 2 ^ 16 + id, n, total, none⟩] }
      else
        let s := s.setChain { s.chain with landings := rest }
        if (planOf s (fld e 15 0)).state = .empty then
          sendControl s c (mkFrame s 0x31 src f.tag.toNat 0 id (f.ext.toNat) [])
        else
          let piece : PeerReplay := ⟨c, src, id, fld e 15 0, coreId (fld e 31 24) (fld e 23 16), f.tag.toNat, []⟩
          tileEvent (s.setChain { s.chain with peers := s.chain.peers ++ [piece] }) (fld e 31 24) 2
    if (planOf s (fld e 15 0)).state = .empty || f.payload.isEmpty then finish s else landPayload s c f finish

/-- RPL_RES (R369): each result line is compared with the line in place, and not written (R442); a total of 0 means that there is no hardware
for the replay of the frame's group. -/
def execRplRes (c : Fin 8) (s : State) : Out :=
  onLanding c 0x31 frameHalves s fun f s =>
    if fld f.arg.toNat 63 32 = 0 then
      match s.sched.groups.find? fun g => g.tag = tagBase f.tag.toNat with
      | some g =>
        let peer (r : Replay) : Bool := r.hw = unitPhy 0x80 0xFF
        setGroup s { g with noCommit := true, replays := g.replays.filter fun r => !peer r }
      | none => s
    else landPayload s c { f with tag := f.tag ||| 0x80#32 } id

end Sys2Proof.Machine
end

