-- ==== Sys2Proof/Machine/NodePower.lean ====
section
/-!
DEFINITION. Power of the nodes of the stack model from the measured power of the domains (R406, R407), the counts of cycles
that an epoch brings (R88), and the hot spots (R410).
-/

namespace Sys2Proof.Machine

open Sys2Proof

/-! Nodes (R406): 148 of each tile, three of each base die, and the sink base. -/

/-- Node of a tile's matrix-core pair k: the logic die, or DRAM layer l. -/
def logicNode (t k : Nat) : Nat := 148 * t + 9 * k
def layerNode (t k l : Nat) : Nat := 148 * t + 9 * k + 1 + l

/-- Nodes of a tile's vector-core clusters, of the base-die region under it and of its lid. -/
def clusterNode (t h : Nat) : Nat := 148 * t + 144 + h
def regionNode (t : Nat) : Nat := 148 * t + 146
def lidNode (t : Nat) : Nat := 148 * t + 147

/-- Nodes of a base die's edges, and the node of the sink base. -/
def edgeNode (a i : Nat) : Nat := 1776 + 3 * a + i
def sinkNode : Nat := 1788

/-! Shares (R407). -/

/-- A whole divided by weights in which w of `all` have been served: every part by the whole, so that the parts sum to it. -/
def splitFrom (p all served : Nat) : List Nat → List Nat
  | [] => []
  | w :: l => ((served + w) * p / all - served * p / all) :: splitFrom p all (served + w) l

/-- A power divided among nodes by their weights; evenly where nothing was counted (log 104). -/
def splitPower (p : Nat) (ws : List Nat) : List Nat :=
  let ws := if ws.all (· = 0) then ws.map fun _ => 1 else ws
  splitFrom p (ws.foldl (· + ·) 0) 0 ws

/-- What a counter has counted since the last epoch; one that was cleared since then counts from 0. -/
def epochCount (s : State) (page off : Nat) : Nat :=
  let old := (kget 0#64 s.quench.counted (regOff page off)).toNat
  let now := cntGet s page off
  if old ≤ now then now - old else now

/-- A weighted sum of counts: (number of the weight, count). -/
def weigh (l : List (Nat × Nat)) : Nat := (l.foldl (fun a x => a + Config.powerWeight x.1 * Int.ofNat x.2) 0).toNat

/-- Share of a matrix core: busy cycles, product slots and gated slots (R407, R74). -/
def matrixShare (s : State) (t m : Nat) : Nat :=
  let c (off : Nat) : Nat := epochCount s (mcPage t m) off
  weigh [(0, c 0x810), (1, c 0x820), (2, c 0x828 + c 0x830)]

/-- Share of a vector core (R407). -/
def vectorShare (s : State) (t v : Nat) : Nat := weigh [(3, epochCount s (vcPage t v) 0x808)]

/-- Share of the DRAM node of a pair in a layer (R407): lines read and written, near-bank products, refreshes. -/
def layerShare (s : State) (t k l : Nat) : Nat :=
  let c (off : Nat) : Nat := epochCount s (scPage t (2 * k)) off + epochCount s (scPage t (2 * k + 1)) off
  weigh [(4, c 0x800), (5, c 0x808), (6, epochCount s (nlPage t l) 0x810), (7, c 0x838)]

/-- Nodes of a domain with their weights. Domains 0 to 3 are the base dies; 4 + 4t to 7 + 4t are the west half, the east half, the
seam strip and the DRAM stack of tile t (R407). No counter divides the power of a base die or of a seam strip (log 104). -/
def domainNodes (s : State) (d : Nat) : List (Nat × Nat) :=
  if d < 4 then
    ((List.range 3).map fun i => (edgeNode d i, Config.fixedShare (edgeNode d i))) ++
      (List.range 3).map fun i => (regionNode (3 * d + i), Config.fixedShare (regionNode (3 * d + i)))
  else
    let t := (d - 4) / 4
    match (d - 4) % 4 with
    | 2 => (List.range 16).map fun k => (logicNode t k, Config.fixedShare (logicNode t k))
    | 3 => (List.range 16).flatMap fun k => (List.range 8).map fun l => (layerNode t k l, layerShare s t k l)
    | h =>
      ((List.range 8).map fun i =>
        let k := 8 * h + i
        (logicNode t k, matrixShare s t (2 * k) + matrixShare s t (2 * k + 1))) ++
      [(clusterNode t h, ((List.range 4).map fun v => vectorShare s t (4 * h + v)).foldl (· + ·) 0)]

/-- Node powers of a domain from its measured power in 1/8 W, in units of 2^-13 W: they sum to it. -/
def domainPower (s : State) (d p : Nat) : List (Nat × Nat) :=
  ((domainNodes s d).map Prod.fst).zip (splitPower (1024 * p) ((domainNodes s d).map Prod.snd))

/-- Whether the die of a domain takes part: the nodes of a fenced tile carry zero power (R421). -/
def domainUp (s : State) (d : Nat) : Bool := if d < 4 then baseUp s d else tileUp s ((d - 4) / 4)

/-- Domains of a die: a base die, or tile t as 4 + t. -/
def dieDomains (d : Nat) : List Nat := if d < 4 then [d] else (List.range 4).map fun i => 4 * (d - 3) + i

/-- Measured power of a die: that of its domains, as its 16-bit register holds it (R392, R407). -/
def diePower (domains : List (BitVec 16)) (d : Nat) : Nat :=
  min 0xFFFF (((dieDomains d).map fun i => (domains.getD i 0#16).toNat).foldl (· + ·) 0)

/-- Node powers of the next epoch, and the counts from which the one after it is divided (R407). -/
def powerNodes (s : State) (domains : List (BitVec 16)) : State :=
  let parts := ((List.range 52).filter (domainUp s)).flatMap fun d => domainPower s d (domains.getD d 0#16).toNat
  s.setQuench { s.quench with
    powers := parts.foldl (fun m x => kput 0 m x.1 (kget 0 m x.1 + x.2)) []
    counted := s.regs.counters }

/-! Cycles (R88). -/

/-- Counters that count cycles or events that no command shows: they advance by what the hardware has counted over an epoch
(log 23). -/
def measuredCounter (page off : Nat) : Bool :=
  match pageBlock page with
  | some .matrixCore => off = 0x818
  | some .vectorCore => off = 0x808 || off = 0x810
  | some .layerCtl => off = 0x828
  | some .tileControl => off = 0x898
  | some .sliceCtl => off = 0x848
  | some .tongs => off = 0x928
  | some .sharedBuffer => off = 0x828
  | some .bridge => off = 0x820
  | some .chainPort => off = 0x828
  | _ => false

/-- The counts of an epoch added to their counters. -/
def addCycles (l : List CycleCount) (s : State) : State :=
  foldList (fun (x : CycleCount) st =>
    if measuredCounter x.page.toNat x.off.toNat && pageServes st x.page.toNat then
      count st x.page.toNat x.off.toNat x.n.toNat else st) l s

/-! Hot spots (R410). Temperatures are in 1/64 °C. -/

/-- The Quench page, and the thermal page of a die (0 to 3 base dies, 4 + t tiles). -/
def qnPage : Nat := modPage 4
def thermalPage (d : Nat) : Nat := if d < 4 then basePage d 11 else tilePage (d - 4) 82

/-- Hot spots of a die (R410). -/
def spotCount (d : Nat) : Nat := if d < 4 then 3 else 34

/-- Limit of a hot spot (R410): 95 °C for slice-column pairs, else 105 °C. -/
def spotLimit (d i : Nat) : Int := if 4 ≤ d && 18 ≤ i then 6080 else 6720

def spotKey (d i : Nat) : Nat := thermalPage d * 64 + i
def spotOf (s : State) (d i : Nat) : HotSpot := kget .reset s.quench.spots (spotKey d i)
def setSpot (s : State) (d i : Nat) (x : HotSpot) : State :=
  s.setQuench { s.quench with spots := kinsert s.quench.spots (spotKey d i) x }

/-- Every hot spot of the dies (R410). -/
def allSpots : List (Nat × Nat) := (List.range 16).flatMap fun d => (List.range (spotCount d)).map fun i => (d, i)

/-- The node of a hot spot (R406, R410). -/
def spotNode (d i : Nat) : Nat :=
  if d < 4 then edgeNode d i
  else if i < 16 then logicNode (d - 4) i
  else if i < 18 then clusterNode (d - 4) (i - 16)
  else layerNode (d - 4) (i - 18) 0

/-- The hot spot whose bias a node takes (R408); none for regions, lids and the sink. -/
def biasSpot (n : Nat) : Option (Nat × Nat) :=
  let r := n % 148
  if sinkNode ≤ n then none
  else if 1776 ≤ n then some ((n - 1776) / 3, (n - 1776) % 3)
  else if r < 144 then some (4 + n / 148, if r % 9 = 0 then r / 9 else 18 + r / 9)
  else if r < 146 then some (4 + n / 148, r - 128)
  else none

/-- The die of a node: a base die, or 4 + t; a region lies on its base die (R406). -/
def nodeDie (n : Nat) : Option Nat :=
  let r := n % 148
  if sinkNode ≤ n then none
  else if 1776 ≤ n then some ((n - 1776) / 3)
  else if r < 146 then some (4 + n / 148)
  else if r = 146 then some (tileDie (n / 148))
  else none

/-- Model value of a node (R408): its computed temperature plus its bias. -/
def nodeValue (s : State) (n : Nat) : Int :=
  s.quench.temps.getD n 0 / 65536 + (match biasSpot n with
    | some (d, i) => (spotOf s d i).bias / 32
    | none => 0)

/-- Forecast of a node (R409). -/
def nodeForecast (s : State) (n : Nat) : Int := s.quench.forecasts.getD n 0

/-- Model value of a hot spot. -/
def spotModel (s : State) (d i : Nat) : Int := nodeValue s (spotNode d i)

/-- Nodes of a die by limit (R410): the logic and base-die nodes, and the DRAM nodes. -/
def logicNodes (d : Nat) : List Nat :=
  if d < 4 then (List.range 3).map (edgeNode d) ++ (List.range 3).map fun i => regionNode (3 * d + i)
  else (List.range 16).map (logicNode (d - 4)) ++ (List.range 2).map (clusterNode (d - 4))

def dramNodes (d : Nat) : List Nat :=
  if d < 4 then [] else (List.range 8).flatMap fun l => (List.range 16).map fun k => layerNode (d - 4) k l

/-- Every node of a die that has a limit, and the limit (R410). -/
def limitedNodes (d : Nat) : List (Nat × Int) :=
  (logicNodes d).map (fun n => (n, 6720)) ++ (dramNodes d).map fun n => (n, 6080)

/-- The first element of a list at which a function is greatest. -/
def hottest (f : Nat → Int) : List Nat → Nat
  | [] => 0
  | n :: l => l.foldl (fun m x => if f m < f x then x else m) n

/-- The hottest DRAM node of a tile, and the highest forecast of its DRAM nodes (R274, R423): value, forecast, layer and pair. -/
def dramHot (s : State) (t : Nat) : Int × Int × Nat × Nat :=
  let n := hottest (nodeValue s) (dramNodes (4 + t))
  (nodeValue s n, nodeForecast s (hottest (nodeForecast s) (dramNodes (4 + t))), n % 148 % 9 - 1, n % 148 / 9)

/-- The inlet in force, which QN_AIR shows (R412, R422). -/
def inletNow (s : State) : Int := sext 16 (fld (pget s qnPage 0x09C) 15 0)

/-- The margin of QN_CFG (R422), in 1/64 K. -/
def qnMargin (s : State) : Int := Int.ofNat (min 8 (fld (pget s qnPage 0x088) 3 0) * 64)

end Sys2Proof.Machine
end

