-- ==== Sys2Proof/Machine/Power.lean ====
section
/-!
DEFINITION. Bellows, power budgets, block power states, references and the timebase (R380 to R404).
-/

namespace Sys2Proof.Machine

open Sys2Proof

/-- The Hearth page. -/
def hhPage : Nat := modPage 2

/-! Bellows (R386 to R389). -/

/-- Work that keeps the module ACTIVE (R386). -/
def workInProgress (s : State) : Bool :=
  loadBusy s || (List.range 4).any (fun i => (planOf s i).state = .reloading) || !s.host.dmas.isEmpty ||
  !s.svc.mapouts.isEmpty || !s.eng.fills.isEmpty || !s.svc.repairs.isEmpty ||
  s.svc.cycles.any (fun x => x.2.1 || tileSvc s x.1 = 5) ||
  s.host.pairs.any (fun x => !x.2.fetched.isEmpty || x.2.sqHead != x.2.sqTail || !x.2.held.isEmpty) ||
  (s.sched.inPeriod && s.sched.groups.any fun g => g.fate = .running)

/-- Whether a sequence is READY or ACTIVE. -/
def sequencesReady (s : State) : Bool := s.seqs.any fun x => x.2.state = .ready || x.2.state = .active

/-- The state permitted before `timed`, and the first condition that limited it as WHY numbers them (R386, R403; log
35). -/
def permittedBase (s : State) : Nat × Nat :=
  let deep := min 4 (fld (pget s pwrPage 0x080) 2 0)
  let x := if deep < 4 then (deep, 1) else (4, 0)
  let up := (List.range 8).any fun c => portState s c = 2
  let x := if up && 2 < x.1 then (2, if x.2 = 0 then 4 else x.2) else x
  let noSave := !bitOf (pget s pwrPage 0x09C) 31 && !(residentSlots s).isEmpty
  if noSave && 3 < x.1 then (3, if x.2 = 0 then 5 else x.2) else x

/-- The deepest state no deeper than `deep` whose entry and wake bounds fit in a time (R387). -/
def deepestFit (deep time : Nat) : Nat :=
  ((List.range (deep + 1)).filter fun st => st = 0 || entryBound st + wakeBound st ≤ time).foldl max 0

/-- W of R387, where a period follows: 40 µs before it. -/
def wakeDeadline (s : State) : Option Nat := (nextStart s).map (· - 40000)

/-- `timed` of R387. -/
def timedState (s : State) (deep : Nat) : Nat :=
  match wakeDeadline s with
  | some w => if bitOf (pget s pwrPage 0x080) 3 then deepestFit deep (w - s.clock.now) else 0
  | none => deep

/-- Dwell before a state in ns (R386, R403). -/
def dwellOf (s : State) (st : Nat) : Nat :=
  let d := pget s pwrPage 0x08C
  match st with
  | 2 => max 1 (fld d 15 0) * 1000
  | 3 => max 1 (fld d 31 16) * 1000000
  | 4 => max 1 (fld (pget s pwrPage 0x090) 15 0) * 1000000000
  | _ => 0

/-- The deepest state up to a permitted one whose dwell has passed. -/
def dwelled (s : State) (deep : Nat) : Nat :=
  ((List.range (deep + 1)).filter fun st =>
    st ≤ 1 || kget 0 s.power.shallow st + dwellOf s st ≤ s.clock.now).foldl max 0

/-- Entry to a sleep state begins (R389), with the wake armed that brings the module out of the deepest of the chosen state, the
present one and the one being entered by a deadline (R387). -/
def beginSleep (s : State) (st : Nat) (deadline : Option Nat) : State :=
  let deep := max st (max (pState s) (s.power.entering.getD 0))
  let s := s.setPower { s.power with armed := if deep = 0 then none else deadline.map (· - wakeBound deep) }
  if st ≤ pState s || s.power.waking.isSome || s.power.entering.isSome then s
  else setPwrStat (s.setPower { s.power with entering := some st }) 3 3 1

/-- BELLOWS_EVALUATION (R386, R387). -/
def execBellowsEvaluation (s : State) : Out :=
  .next (
    let (deep, why) := permittedBase s
    let timed := sequencesReady s && running s
    let (st, why) :=
      if workInProgress s then (0, 2)
      else if sequencesReady s then
        let x := timedState s deep
        (x, if x < deep && why = 0 then 3 else why)
      else (deep, why)
    let last := fld (pget s pwrPage 0x094) 7 5
    let shallow := [2, 3, 4].foldl (fun m k => if min st last < k then kput 0 m k s.clock.now else m) s.power.shallow
    let s := s.setPower { s.power with shallow := shallow }
    let s := setPwrStat (setPwrStat s 7 5 st) 11 8 why
    beginSleep s (if timed then st else dwelled s st) (if timed && !workInProgress s then wakeDeadline s else none))

/-- SLEEP_ENTRY_DONE (R383, R384, R389): a latched wake starts at once. -/
def execSleepEntryDone (s : State) : Out :=
  .next (match s.power.entering with
    | none => s
    | some st =>
      let cause := fld (pget s pwrPage 0x094) 15 12
      let latched := bitOf (pget s pwrPage 0x094) 4
      let s := enterSleep (s.setPower { s.power with entering := none }) st
      if latched then wakeTrigger (setPwrStat s 4 4 0) cause else s)

/-- TIMED_WAKE (R387): the armed wake fires. -/
def execTimedWake (s : State) : Out :=
  .next (match s.power.armed with
    | none => s
    | some t => wakeTrigger ((advanceTo s t).setPower { (advanceTo s t).power with armed := none }) 3)

/-- WAKE (R389): a trigger with its cause. -/
def execWake (cause : WakeCause) (s : State) : Out := .next (wakeTrigger s cause.code)

/-- WAKE_DONE (R389). -/
def execWakeDone (s : State) : Out := .next (wakeDone s)

/-- PLL_LOCK_TIMEOUT (R389): a fast PLL has not locked within 100 µs of the wake. -/
def execPllLockTimeout (s : State) : Out :=
  .next (match s.power.waking with
    | none => s
    | some (t, _) => raise (advanceTo s (t + 100000)) pwrPage 1)

/-- PWR_CMD_WAKE (R389, R403). -/
def pwrCmdWakeWrite (s : State) : State := wakeFor s 5

/-! Budgets (R391 to R394). Dies are numbered 0 to 3 for base dies and 4 + t for tiles. -/

/-- Budget number of a die, and its power page. -/
def budgetKey (d : Nat) : Nat := if d < 4 then d else 0x10 + (d - 4)
def powerPage (d : Nat) : Nat := if d < 4 then basePage d 10 else tilePage (d - 4) 83

def budgetOf (s : State) (k : Nat) : Budget := kget .reset s.power.budgets k
def setBudget (s : State) (k : Nat) (x : Budget) : State :=
  s.setPower { s.power with budgets := kput .reset s.power.budgets k x }

/-- The die that grants to a die: its base die, or Quench. -/
def granter (d : Nat) : Nat := if d < 4 then 0x80 else tileDie (d - 4)

/-- Whether a die takes part in the budget. -/
def dieUp (s : State) (d : Nat) : Bool := if d < 4 then baseUp s d else tileUp s (d - 4)

/-- Floor of a die in 1/8 W, clamped (R404). -/
def floorOf (s : State) (d : Nat) : Nat :=
  let v := fld (pget s (powerPage d) 0x090) 15 0
  if d < 4 then clampN 160 1280 v else clampN 120 960 v

/-- A die's request in the next division (R413): limited over the worst of its nodes whose forecast is within the margin of its
limit, and not below the floor that came with it. -/
def limitRequest (s : State) (d q floor : Nat) : Nat :=
  let tin := inletNow s
  let meas := Int.ofNat (kget (0, 0) (budgetOf s (granter d)).reports (budgetKey d)).1
  let m := qnMargin s
  let caps := (limitedNodes d).filterMap fun (n, l) =>
    let f := nodeForecast s n
    if l - m ≤ f && tin < f then some (meas * (l - m - tin) / (f - tin)).toNat else none
  max (min q (caps.foldl min q)) (min q floor)

/-- `divide` of R393, its sharing loop, with fuel: requests, and the grants so far. -/
def shareOut : Nat → Nat → List (Nat × Nat) → List Nat → List Nat
  | 0, _, _, g => g
  | n + 1, r, reqs, g =>
    let u := (List.range g.length).filter fun i => g.getD i 0 < (reqs.getD i (0, 0)).1
    if r = 0 || u.isEmpty then g
    else
      let room := u.foldl (fun m i => min m ((reqs.getD i (0, 0)).1 - g.getD i 0)) r
      let step := max 1 (min (r / u.length) room)
      let (g, r) := u.foldl (fun (a : List Nat × Nat) i =>
        if a.2 = 0 then a else (a.1.set i (a.1.getD i 0 + step), a.2 - step)) (g, r)
      shareOut n r reqs g

/-- Laggards filled first (R393), in ascending die number: each up to its request, also one whose request is below its floor. -/
def fillLaggards (reqs : List (Nat × Nat)) (lag : List Bool) (g : List Nat) (r : Nat) : List Nat × Nat :=
  (List.range reqs.length).foldl (fun (a : List Nat × Nat) i =>
    if lag.getD i false then
      let has := a.1.getD i 0
      let v := min (reqs.getD i (0, 0)).1 (has + a.2)
      (a.1.set i v, a.2 + has - v)
    else a) (g, r)

/-- `divide` of R393: requests with floors, and laggards. Where the floors alone exceed the budget each die gets its floor. -/
def divideBudget (p : Nat) (reqs : List (Nat × Nat)) (lag : List Bool) : List Nat :=
  let floors := reqs.map Prod.snd
  let total := floors.foldl (· + ·) 0
  if p < total then floors
  else
    let (g, r) := fillLaggards reqs lag floors (p - total)
    shareOut (r + reqs.length + 1) r reqs g

/-- A granting die divides a budget among its requesters, in ascending die number (R393). -/
def divideAt (s : State) (k p : Nat) (dies : List Nat) (limit : Nat → Nat → Nat → Nat) : State :=
  let b := budgetOf s k
  let reqs := dies.map fun d =>
    let (q, f) := kget (floorOf s d, floorOf s d) b.requests (budgetKey d)
    (limit d q f, f)
  let lag := dies.map fun d => bitOf (kget (0, 0) b.reports (budgetKey d)).2 0
  let g := divideBudget p reqs lag
  setBudget s k { b with shares := (dies.zip g).map fun x => (budgetKey x.1, x.2) }

/-- Frequency of an ARR step in MHz (R381). -/
def arrMhz (st : Nat) : Nat := 400 + 25 * st

/-- Whether the forecast power of a step fits a grant (R394): measured power scaled by frequency and by the square of the
supply voltage. -/
def stepFits (meas cur grant st : Nat) : Bool :=
  meas * arrMhz st * (Config.arrVolt st) ^ 2 ≤ grant * arrMhz cur * (Config.arrVolt cur) ^ 2

/-- The ARR step that a tile sets for its grant (R382, R394). -/
def chooseStep (meas cur grant : Nat) : Nat :=
  ((List.range (min 48 (cur + 8) + 1)).filter fun st => stepFits meas cur grant st).foldl max 0

/-- The change of a tile's ARR step that it has begun completes (R382). -/
def finishStep (s : State) (t : Nat) : State :=
  let x := budgetOf s (0x10 + t)
  match x.target with
  | none => s
  | some st =>
    let pg := tilePage t 83
    count (pset (setBudget s (0x10 + t) { x with target := none }) pg 0x08C (setFld (pget s pg 0x08C) 5 0 st)) pg 0x808 1

/-- A change of a tile's ARR step begins (R382): it runs at the lower of the two steps until the change completes. -/
def beginStep (s : State) (t st : Nat) : State :=
  let pg := tilePage t 83
  let cur := fld (pget s pg 0x08C) 5 0
  if st = cur then s
  else setBudget (pset s pg 0x08C (setFld (pget s pg 0x08C) 5 0 (min cur st))) (0x10 + t)
    { budgetOf s (0x10 + t) with target := some st }

/-- One die at an epoch start (R391, R394): the grant in force, the measured power of the last epoch, its energy and the request. A
step change that began in the last epoch has completed within it (R382), and an emergency grant ends with a GRANT that came after
it (R415, R421). -/
def epochDie (s : State) (d meas req : Nat) : State :=
  let pg := powerPage d
  let k := budgetKey d
  let old := pget s pg 0x080
  let s := if old * 105 < meas * 100 then raise s pg 2 else s
  let s := if d < 4 then s else finishStep s (d - 4)
  let b := budgetOf s k
  let s := count s pg 0x800 ((b.energy + meas) / 8)
  let grant := b.next.getD old
  let s := pset (pset (pset s pg 0x080 grant) pg 0x084 req) pg 0x088 meas
  let b := { b with
    next := none, missed := if b.next.isSome then 0 else b.missed + 1
    emergency := b.emergency && (b.next.isNone || b.before), before := false, energy := (b.energy + meas) % 8 }
  let s := setBudget s k b
  if d < 4 then s
  else
    let cur := fld (pget s pg 0x08C) 5 0
    let st := if b.emergency then 0 else chooseStep meas cur grant
    beginStep (pset s pg 0x08C (cur + b2n (b.emergency || !stepFits meas cur grant 48) * 2 ^ 8)) (d - 4) st

/-- BUDGET_EPOCH (R391, R402, R407): the next epoch starts; the nodes take the power measured over the last one, and the input
registers their 1 ms averages. -/
def execBudgetEpoch (x : EpochReading) (s : State) : Out :=
  .next (
    let n := max (s.power.epoch + 1) (divUp s.clock.now 1000000)
    let s := advanceTo s (n * 1000000)
    let s := s.setPower { s.power with epoch := n }
    let s := pset (pset (pset s hhPage 0x080 x.vin.toNat) hhPage 0x084 x.iin.toNat) hhPage 0x088 x.pin.toNat
    let s := powerNodes (addCycles x.cycles s) x.domains
    foldList (fun d st =>
      if dieUp st d then epochDie st d (diePower x.domains d) (x.req.getD d 0#16).toNat else st) (List.range 16) s)

/-- FLAGS of a die's REPORT (R392): LAGGARD of a tile, or of any tile that a base die has heard; ARR_LIMITED (R394). -/
def reportFlags (s : State) (d : Nat) : Nat :=
  if d < 4 then
    ((budgetOf s d).reports.foldl (fun m x => m ||| x.2.2) 0) % 4
  else
    let pg := powerPage d
    let lim := decide (fld (pget s pg 0x08C) 5 0 = 0) && decide (pget s pg 0x080 < pget s pg 0x088)
    b2n (s.power.lagging.contains (d - 4)) + 2 * b2n lim

/-- A total over a base die and its tiles. -/
def dieTotal (own : Nat) (l : List Nat) : Nat := l.foldl (· + ·) own

/-- A message that fails its complement is discarded and sets BUDGET_MSG of the receiver's power page (R392); Quench's page has no
such source (R422). -/
def budgetBad (s : State) (k : Nat) : State :=
  if k = 0x80 then s else raise s (powerPage (if k < 4 then k else k - 0x10 + 4)) 0

/-- A budget message (R392): TYPE, the die it concerns, the epoch, MEAS, REQ, GRANT, FLOOR and FLAGS, and the complement of its 16
bytes. -/
def budgetMessage (s : State) (type d meas req grant floor flags : Nat) : List Byte :=
  let body := leBytes 1 type ++ leBytes 1 (budgetKey d) ++ leBytes 2 s.power.epoch ++ leBytes 2 meas ++ leBytes 2 req ++
    leBytes 2 grant ++ leBytes 2 floor ++ leBytes 1 flags ++ leBytes 3 0
  body ++ body.map (~~~ ·)

/-- A message as it arrives, bits of it flipped on the way. -/
def arrives (m : List Byte) (flips : List (Fin 256)) : List Byte :=
  flips.foldl (fun l i => l.modify (i.val / 8) (· ^^^ BitVec.ofNat 8 (2 ^ (i.val % 8)))) m

/-- Whether a message agrees with its complement (R392). -/
def messageGood (m : List Byte) : Bool := (m.drop 16).take 16 == (m.take 16).map (~~~ ·)

/-- The REPORT, and the REQUEST, that a die sends: a base die's with its tiles' totals (R391). -/
def reportMessage (s : State) (d : Nat) : List Byte :=
  let tiles := if d < 4 then (budgetOf s d).reports.map fun x => x.2.1 else []
  budgetMessage s 1 d (min 0xFFFF (dieTotal (pget s (powerPage d) 0x088) tiles)) 0 0 (floorOf s d) (reportFlags s d)

def requestMessage (s : State) (d : Nat) : List Byte :=
  let tiles := if d < 4 then (budgetOf s d).requests.map Prod.snd else []
  budgetMessage s 2 d 0 (min 0xFFFF (dieTotal (pget s (powerPage d) 0x084) (tiles.map Prod.fst))) 0
    (min 0xFFFF (dieTotal (floorOf s d) (tiles.map Prod.snd))) 0

/-- BUDGET_REPORT (R391, R392): the REPORT of a die reaches its granting die. -/
def execBudgetReport (d : Fin 16) (flips : List (Fin 256)) (s : State) : Out :=
  let k := granter d
  let b := budgetOf s k
  let m := arrives (reportMessage s d) flips
  .next (if !dieUp s d then s
    else if !messageGood m then budgetBad s k
    else setBudget s k { b with reports := kinsert b.reports (budgetKey d) (leNat (m.extract 4 6), leNat (m.extract 12 13)) })

/-- BUDGET_REQUEST (R391, R392). -/
def execBudgetRequest (d : Fin 16) (flips : List (Fin 256)) (s : State) : Out :=
  let k := granter d
  let b := budgetOf s k
  let m := arrives (requestMessage s d) flips
  .next (if !dieUp s d then s
    else if !messageGood m then budgetBad s k
    else setBudget s k { b with requests := kinsert b.requests (budgetKey d) (leNat (m.extract 6 8), leNat (m.extract 10 12)) })

/-- GRANT (R391 to R393): what the granting die has divided for a die reaches it; a base die divides it in turn among
itself and its tiles, its own part being what it holds. A grant that comes after an emergency grant is the next one (R421). -/
def execGrant (d : Fin 16) (flips : List (Fin 256)) (s : State) : Out :=
  let k := budgetKey d
  let b := budgetOf s (granter d)
  .next (match kfind b.shares k with
    | none => s
    | some v =>
      let m := arrives (budgetMessage s 3 d 0 0 v (floorOf s (if d.val < 4 then d.val else tileDie (d.val - 4))) 0) flips
      let s := setBudget s (granter d) { b with shares := kerase b.shares k }
      if !messageGood m then budgetBad s k
      else
        let v := leNat (m.extract 8 10)
        let s := setBudget s k { budgetOf s k with next := some v, before := false }
        if 4 ≤ d.val then s
        else
          let own := (pget s (powerPage d) 0x084, floorOf s d)
          let x := budgetOf s d
          let s := setBudget s d { x with requests := kinsert x.requests d own }
          let dies := d.val :: ([0, 1, 2].map fun i => 4 + 3 * d.val + i).filter (dieUp s)
          let s := divideAt s d v dies fun i q f => if i < 4 then q else limitRequest s i q f
          let x := budgetOf s d
          setBudget s d { x with
            next := some (kget v x.shares d), shares := kerase x.shares d, requests := kerase x.requests d })

/-- GRANT_LAPSE (R392): three epochs in a row without a good GRANT. -/
def execGrantLapse (d : Fin 16) (s : State) : Out :=
  let x := budgetOf s (budgetKey d)
  .next (if x.missed < 3 then s
    else raise (pset s (powerPage d) 0x080 (floorOf s d)) (powerPage d) 1)

/-- ARR_STEP_CHANGE (R382): the change that a tile has begun completes; no result depends on it. -/
def execArrStepChange (t : Fin 12) (s : State) : Out := .next (finishStep s t)

/-! Block power states (R395, R396). -/

/-- Whether a running variant of a resident plan uses a tile. -/
def tileInUse (s : State) (t : Nat) : Bool := (residentSlots s).any fun i => reqTile (runningReq (planOf s i)) t

/-- BLK_PREQ as applied: the nearest shallower state that the block honours (R395). -/
def appliedPreq (s : State) (page req : Nat) : Nat :=
  match pageBlock page with
  | some .tileControl =>
    (match pagePlace page with
      | .tile t _ => if tileInUse s t then 0 else if req = 1 then 0 else req
      | _ => 0)
  | some .layerCtl => min req 1
  | some .chainPort => if req = 3 then 3 else 0
  | _ => 0

/-- BLK_PACT of a page. -/
def setPact (s : State) (page v : Nat) : State := pset s page 0x01C v

/-- A block on its way to a state. -/
def setBlock (s : State) (page : Nat) (x : Option (Nat × Option Nat)) : State :=
  s.setPower { s.power with blocks := match x with
    | some v => kinsert s.power.blocks page v
    | none => kerase s.power.blocks page }

/-- A request while the block stands in a state, or moves (R396). -/
def moveBlock (s : State) (page r : Nat) : State :=
  let act := pget s page 0x01C
  match kfind s.power.blocks page with
  | none =>
    if r = act then s
    else if act < r then setPact (setBlock s page (some (r, none))) page 4
    else setPact (setBlock s page (some (r, none))) page 5
  | some (dest, _) =>
    if act = 5 then setBlock s page (some (dest, if r = dest then none else some r))
    else if r = dest then setPact (setBlock s page (some (dest, none))) page 4
    else setPact (setBlock s page (some (dest, some r))) page (if r = 0 then 6 else 4)

/-- BLOCK_POWER_REQUEST (R395, R396): BLK_PREQ written; pages 16 and 17 have none. -/
def blockPowerRequestWrite (page : BitVec 11) (req : BitVec 2) (s : State) : State :=
  let p := page.toNat
  match pageBlock p with
    | none => s
    | some .msix => s
    | some _ =>
      if !pageServes s p then s
      else
        let r := appliedPreq s p req.toNat
        moveBlock (pset s p 0x018 r) p r

/-- A tile power-gated (R395, R315): its work stops, both halves are GATED, core state and tile SRAM are lost; in RETAIN the stores
and bonded DRAM are kept, in OFF they are lost too, and the DRAM is initialised before the tile is ON again (R262, log 10). -/
def gateTile (s : State) (t st : Nat) : State :=
  let s := tileRefresh (abortRunning (stopWork s t) t 40) t true
  let s := s.setFree (s.free + 1)
  let s := s.setCores ((List.range 492).map fun c =>
    (c, if c / 41 = t then lostCore s.free c (coreOf s c) else coreOf s c))
  let s := setTcc s t { tccOf s t with bank2 := [] }
  let s := foldList (fun n st => landHeld st t n) (List.range 32) s
  let s := s.setMcs (keraseRange s.mcs (t * 32) (t * 32 + 32))
  let s := s.setMem (s.mem.loseRange (tlaKey t 0) 0x1000000)
  let s := if st = 3 then
      let m := (s.mem.loseRange (tlaKey t 0x1000000) 0x4880000).zeroRange (t * tileBytes) tileBytes
      s.setMem (m.markPoison (t * tileBytes) tileBytes)
    else s
  let s := s.setStore { s.store with
    seam := keraseRange s.store.seam (t * 2) (t * 2 + 2), wakeSince := keraseRange s.store.wakeSince (t * 2) (t * 2 + 2) }
  setHalf (setHalf s t 0 4) t 1 4

/-- What a state does to its block: a tile in RETAIN or OFF is gated, and AWAKE again in ON; a chain port that is OFF is DISABLED
(R395). -/
def enterBlock (s : State) (page st : Nat) : State :=
  match pageBlock page, pagePlace page with
  | some .tileControl, .tile t _ => if st = 0 then setHalf (setHalf (tileRefresh s t false) t 0 (halfUpCode s)) t 1 (halfUpCode s)
    else gateTile s t st
  | some .chainPort, .base a i =>
    let c := 2 * a + (i - 6)
    portEnable s c (decide (st = 0) && bitOf (pget s page 0x080) 0)
  | _, _ => s

/-- BLOCK_PARKED (R396): the block reaches the state it goes to, and a latched request starts. -/
def execBlockParked (page : BitVec 11) (s : State) : Out :=
  let p := page.toNat
  .next (match kfind s.power.blocks p with
    | none => s
    | some (dest, latched) =>
      let s := enterBlock (setPact (setBlock s p none) p dest) p dest
      match latched with
      | some r => moveBlock s p r
      | none => s)

/-! References and the timebase (R380, R398, R399). -/

/-- HH_REF.REF_INT and its copy (R402, R502). -/
def setRefInt (s : State) (b : Bool) : State :=
  let s := pset s hhPage 0x08C (setBitN (pget s hhPage 0x08C) 16 b)
  pset s (modPage 7) 0x094 (setBitN (pget s (modPage 7) 0x094) 5 b)

/-- REFCLK_LOSS (R380). -/
def execRefclkLoss (s : State) : Out := .next (raiseLive (setRefInt s true) hhPage 4)

/-- REFCLK_RESTORE (R380): REFCLK has been good for 10 ms. -/
def execRefclkRestore (s : State) : Out := .next (setLive (setRefInt s false) hhPage 4 false)

/-- The load that waits for a tick (R399, R502): none where no load waits, else whether it takes effect. -/
def loadOutcome (s : State) : Option (Option Nat) :=
  if !s.clock.loadReq then none
  else
    let v := pget s (modPage 7) 0x088 + pget s (modPage 7) 0x08C * 2 ^ 32
    if running s || (parentPort s).isSome || v < s.clock.now then some none else some (some v)

/-- Advance of one tick in ns (R371, R398): 0 while the timebase holds, else 40 with trim and slew. -/
def tickAdvance (c : Clock) (trim : Int) : Nat × Clock :=
  if 0 < c.hold then (0, { c with hold := c.hold - 40 })
  else
    let acc := c.trimAcc + 40 * trim
    let a : Int := if 1000000000 ≤ acc then 1 else if acc ≤ -1000000000 then -1 else 0
    let may := c.slewWait = 0
    let b : Int := if may && 0 < c.slew then 1 else if may && c.slew < 0 then -1 else 0
    ((40 + a + b).toNat, { c with
      trimAcc := acc - a * 1000000000, slew := c.slew - b
      slewWait := if b != 0 then 249 else c.slewWait - 1 })

/-- The timebase advanced by a tick (R398). -/
def tick (s : State) : State :=
  let (d, c) := tickAdvance s.clock (sext 32 (pget s hhPage 0x090))
  let t := (s.clock.now + d) % 2 ^ 64
  countPower (s.setClock { c with now := t }) s.clock.now t

/-- REFCLK_TICK (R398, R399): a load that takes effect replaces the advance; one that is discarded does not. -/
def execRefclkTick (s : State) : Out :=
  let time := modPage 7
  .next (match loadOutcome s with
    | some (some v) =>
      psetBits (s.setClock { s.clock with now := v, loadReq := false }) time 0x094 1
    | some none => tick (psetBits (s.setClock { s.clock with loadReq := false }) time 0x094 2)
    | none => tick s)

/-- TRIM_MEASURE (R398, R402): the REFCLK error in 0.1 ppm; on the internal reference the trim stays (R380). -/
def execTrimMeasure (err : BitVec 16) (s : State) : Out :=
  .next (if bitOf (pget s hhPage 0x08C) 16 then s
    else
      let s := pset s hhPage 0x08C (setFld (pget s hhPage 0x08C) 15 0 err.toNat)
      let trim := -(err.toInt * 100)
      let s := pset s hhPage 0x090 (toPat 32 (clampI (-150000) 150000 trim))
      if 150000 < trim.natAbs then raise s hhPage 5 else s)

/-- TIME_LOAD (R399, R502): TIME_CTL.LOAD written. -/
def timeLoadWrite (s : State) : State :=
  s.setClock { s.clock with loadReq := true }

end Sys2Proof.Machine
end

