-- ==== Sys2Proof/Machine/Thermal.lean ====
section
/-!
DEFINITION. The thermal governor Quench and the hardware trip (R405 to R423). Temperatures are in 1/64 °C. The conductances
of the stack model are not in the spec: one step of it is a free function of its temperatures, the powers, the inlet and Θ (log 36).
-/

namespace Sys2Proof.Machine

open Sys2Proof

/-- Neighbours of a hot spot on its page (R411). -/
def spotNeighbours (d i : Nat) : List Nat :=
  let pair (base k : Nat) : List Nat :=
    ((List.range 16).filter fun j => (j + 1 = k || k + 1 = j) && j / 8 = k / 8).map (base + ·)
  if d < 4 then (List.range 3).filter (· != i)
  else if i < 16 then pair 0 i ++ [18 + i]
  else if i < 18 then (List.range 8).map ((i - 16) * 8 + ·)
  else pair 18 (i - 18) ++ [i - 18]

/-- The lower median of a list; none where it is empty. -/
def lowerMedian (l : List Int) : Option Int := (sortBy (fun a b => decide (a ≤ b)) l)[(l.length - 1) / 2]?

/-- The reading of a hot spot before the cross-check: the greater of its sensors that have not FAILED (log 37). -/
def rawSpot (x : HotSpot) : Int :=
  if x.st0 = 2 then x.r1 else if x.st1 = 2 then x.r0 else max x.r0 x.r1

/-- The consensus of a hot spot's neighbours (R411); a fenced die's hot spots are in no neighbour set (R421). -/
def consensus (s : State) (d i : Nat) : Int :=
  let m := spotModel s d i
  let js := (spotNeighbours d i).filter fun j => dieUp s d && !(spotOf s d j).guard
  match lowerMedian (js.map fun j => rawSpot (spotOf s d j) - spotModel s d j) with
  | some x => m + x
  | none => m

/-- State of a sensor after an evaluation (R411): it departed, it was marked, or it was calm. -/
def sensorNext (st calm : Nat) (mark : Option Nat) (departs : Bool) : Nat × Nat :=
  match mark with
  | some 2 => (2, 0)
  | some _ => (if st = 2 then 2 else 1, 0)
  | none =>
    if departs then (st, 0)
    else if st = 1 then (if calm + 1 = 1000 then (0, 0) else (1, calm + 1))
    else (st, 0)

/-- `hotspot_value` of R411 from the model value and the consensus: the value kept, what each sensor is marked, and the source set. -/
def hotspotValue (x : HotSpot) (m n : Int) : Int × Option Nat × Option Nat × Option Nat :=
  let far (r : Int) : Bool := decide (384 < (r - m).natAbs) && decide (384 < (r - n).natAbs)
  let d0 := far x.r0 || x.st0 = 2
  let d1 := far x.r1 || x.st1 = 2
  if d0 && d1 then (max m n + 192, some 2, some 2, some 2)
  else if d0 then (x.r1, some 1, none, some 0)
  else if d1 then (x.r0, none, some 1, some 0)
  else if 192 < (x.r0 - x.r1).natAbs then
    if (x.r0 - m).natAbs ≤ (x.r1 - m).natAbs then (x.r0, none, some 1, some 1) else (x.r1, some 1, none, some 1)
  else (max x.r0 x.r1, none, none, none)

/-- One hot spot's cross-check and rate (R408, R411, R413), against the state before them; a fenced die's page takes no source. -/
def evalSpot (s0 : State) (x : Nat × Nat) (s : State) : State :=
  let (d, i) := x
  let h := spotOf s0 d i
  let first := (kfind s0.quench.spots (spotKey d i)).isNone || s0.quench.evals = 1
  let (v, k0, k1, src) := hotspotValue h (spotModel s0 d i) (consensus s0 d i)
  let (st0, c0) := sensorNext h.st0 h.calm0 k0 k0.isSome
  let (st1, c1) := sensorNext h.st1 h.calm1 k1 k1.isSome
  let s := setSpot s d i { h with
    value := v, rate := if first then 0 else v - h.value
    st0 := st0, st1 := st1, calm0 := c0, calm1 := c1, guard := st0 = 2 && st1 = 2 }
  match src with
  | some k => if !dieUp s0 d then s else if k = 2 then raiseLive s (thermalPage d) 2 else raise s (thermalPage d) k
  | none => s

/-- Temperatures of the nodes one step of 1 ms later (R408). -/
def modelStep (s : State) (powers : KMap Nat) (temps : List Int) : List Int :=
  (List.range (sinkNode + 1)).map (Config.modelStep temps powers (inletNow s) s.quench.theta)

/-- The model advanced by one step (R408, item 4). -/
def advanceModel (s : State) : State :=
  s.setQuench { s.quench with temps := modelStep s s.quench.powers s.quench.temps }

/-- Calibration of a hot spot (R408, item 5) from its model value before the step. -/
def calibrate (s0 : State) (x : Nat × Nat) (s : State) : State :=
  let h := spotOf s x.1 x.2
  if h.guard then s
  else setSpot s x.1 x.2 { h with bias := clampI (-16384) 16384 (h.bias + (h.value - spotModel s0 x.1 x.2)) }

/-- Node powers over a forecast (R409): those of a die are scaled to the lesser of its last measured power and its grant for the next
epoch, which until one has come is the grant in force. DEDUCED (log 36). -/
def forecastPowers (s : State) : KMap Nat :=
  s.quench.powers.map fun x => match nodeDie x.1 with
    | some d =>
      let p := pget s (powerPage d) 0x088
      let g := (budgetOf s (budgetKey d)).next.getD (pget s (powerPage d) 0x080)
      (x.1, if g < p then x.2 * g / p else x.2)
    | none => x

/-- The highest temperature of each node over a number of steps, from those before them. -/
def highest (s : State) (powers : KMap Nat) : Nat → List Int → List Int → List Int
  | 0, _, m => m
  | n + 1, temps, m => highest s powers n (modelStep s powers temps) (m.zipWith max (modelStep s powers temps))

/-- The forecast (R409): the highest model value of each node over 20 steps from the present state, which counts too. -/
def forecastNodes (s : State) : State :=
  let top := highest s (forecastPowers s) 20 s.quench.temps s.quench.temps
  s.setQuench { s.quench with forecasts :=
    (List.range (sinkNode + 1)).map fun n => top.getD n 0 / 65536 + (nodeValue s n - s.quench.temps.getD n 0 / 65536) }

/-- Readings of the diodes (R408, item 1). -/
def readDiodes (s : State) (l : List DiodeReading) : State :=
  foldList (fun (r : DiodeReading) st =>
    let d := r.die.val
    let i := min (spotCount d - 1) r.spot.val
    setSpot st d i { spotOf st d i with r0 := r.r0.toInt, r1 := r.r1.toInt }) l s

/-! Air (R412). -/

/-- One air hot spot: its value where a sensor is good, the sensors FAILED (two bits), and whether AIR_SENS is set. -/
def airValue (bad : Nat) (a b : Int) : Option Int × Nat × Bool :=
  let out (r : Int) : Bool := decide (r < -640) || decide (5440 < r)
  let bad := bad ||| (b2n (out a) + 2 * b2n (out b))
  let value := if bad = 3 then none else if bad = 1 then some b else if bad = 2 then some a else some (max a b)
  (value, bad, bad = 0 && decide (192 < (a - b).natAbs))

/-- The air sensors read, and QN_AIR and INLET_ASSUMED (R412, R422). -/
def readAir (s : State) (inlet outlet : BitVec 16 × BitVec 16) : State :=
  let (vi, bi, di) := airValue s.quench.inlet.bad inlet.1.toInt inlet.2.toInt
  let (vo, bo, dq) := airValue s.quench.outlet.bad outlet.1.toInt outlet.2.toInt
  let tin := vi.getD 2880
  let tout := vo.getD (Config.outletTemp s.quench.temps s.quench.powers tin)
  let rate (now last : Int) : Int := if s.quench.evals = 1 then 0 else now - last
  let s := s.setQuench { s.quench with
    inlet := ⟨inlet.1.toInt, inlet.2.toInt, bi, rate tin (inletNow s)⟩
    outlet := ⟨outlet.1.toInt, outlet.2.toInt, bo, rate tout (sext 16 (fld (pget s qnPage 0x09C) 31 16))⟩ }
  let s := if di || dq then raise s qnPage 6 else s
  let s := pset s qnPage 0x09C (toPat 16 tin + toPat 16 tout * 2 ^ 16)
  pset s qnPage 0x090 (setBitN (pget s qnPage 0x090) 2 vi.isNone)

/-! Actions. -/

/-- QN_STAT.MODE and C (R422). -/
def qnMode (s : State) : Nat := fld (pget s qnPage 0x090) 1 0
def setMode (s : State) (m : Nat) : State := pset s qnPage 0x090 (setFld (pget s qnPage 0x090) 1 0 m)
def capNow (s : State) : Nat := fld (pget s qnPage 0x090) 26 16
def setCapNow (s : State) (c : Nat) : State := pset s qnPage 0x090 (setFld (pget s qnPage 0x090) 26 16 c)

/-- G and its reason on every layer control of a tile (R228, R233). -/
def setGrant (s : State) (t g reason : Nat) : State :=
  foldList (fun l st => pset st (nlPage t l) 0x0B0 (g + reason * 2 ^ 4)) (List.range 8) s

/-- Tiles that an emergency grant to a die names: itself, or those of a base die (log 37). -/
def emergencyTiles (d : Nat) : List Nat := if d < 4 then [3 * d, 3 * d + 1, 3 * d + 2] else [d - 4]

/-- An emergency grant (R415): ARR step 0 and G = 1. It stands over a grant for the next epoch that has already come (R421). -/
def emergencyGrant (s : State) (d : Nat) : State :=
  foldList (fun t st =>
    let k := 0x10 + t
    let pg := tilePage t 83
    let b := budgetOf st k
    let st := setBudget st k { b with
      emergency := true, before := b.before || (!b.emergency && b.next.isSome), target := none }
    let moved := fld (pget st pg 0x08C) 5 0 != 0
    let st := pset st pg 0x08C (2 ^ 8)
    let st := if moved then count st pg 0x808 1 else st
    setGrant st t 1 1) ((emergencyTiles d).filter (tileUp s)) s

/-- Emergency grants to every tile. -/
def emergencyAll (s : State) : State := foldList (fun a st => emergencyGrant st a) (List.range 4) s

/-- FLOOR mode (R419): no change in FLOOR or STOP. -/
def enterFloor (s : State) : State :=
  if qnMode s != 0 then s else raise (emergencyAll (setCapNow (setMode s 1) 250)) qnPage 1

/-- STOP mode (R420): every tile half held DOWN. -/
def enterStop (s : State) : State :=
  if qnMode s = 2 then s
  else
    let s := emergencyAll (setCapNow (setMode s 2) 250)
    let s := foldList (fun t st =>
      let st := if halfState st t 0 = 4 then st else setHalf st t 0 2
      if halfState st t 1 = 4 then st else setHalf st t 1 2) ((List.range 12).filter (tileUp s)) s
    raise (s.setQuench { s.quench with holding := true }) qnPage 4

/-- The rates of QN_CFG (R422), in 1/64 K for each ms. -/
def riseAct (s : State) : Int := Int.ofNat (clampN 0x20 0xFF (fld (pget s qnPage 0x088) 19 12) * 4)
def riseWarn (s : State) : Int :=
  Int.ofNat (clampN 0x10 (clampN 0x20 0xFF (fld (pget s qnPage 0x088) 19 12)) (fld (pget s qnPage 0x088) 11 4) * 4)

/-- What the limits of R413 look at, by die: the kept value of every hot spot, and the model value of every other node that has a
limit (R410). -/
def limitPoints (s : State) : List (Nat × Int × Int) :=
  (List.range 16).flatMap fun d =>
    let own := (List.range (spotCount d)).map (spotNode d)
    ((List.range (spotCount d)).map fun i => (d, (spotOf s d i).value, spotLimit d i)) ++
      ((limitedNodes d).filter fun x => !own.contains x.1).map fun x => (d, nodeValue s x.1, x.2)

/-- Limits of every hot spot and node, and rates of every hot spot, those of the air too (R413). -/
def actOnLimits (s : State) : State :=
  let all := limitPoints s
  let hotDies := ((all.filter fun x => decide (x.2.2 ≤ x.2.1)).map Prod.fst).eraseDups
  let rates := s.quench.inlet.rate :: s.quench.outlet.rate :: allSpots.map fun x => (spotOf s x.1 x.2).rate
  let warn := rates.any fun r => decide (riseWarn s ≤ r)
  let act := rates.any fun r => decide (riseAct s ≤ r)
  let stop := all.any fun x => (decide (x.2.2 ≤ x.2.1) && capNow s = 250) || decide (x.2.2 + 320 ≤ x.2.1)
  let s := foldList (fun d st => emergencyGrant st d) hotDies s
  let s := if hotDies.isEmpty then setLive s qnPage 3 false else raiseLive s qnPage 3
  let s := if warn then (raise s qnPage 0).setQuench { (raise s qnPage 0).quench with lastWarn := s.clock.now } else s
  let s := if act then enterFloor s else s
  let s := if stop then enterStop s else s
  let cool := allSpots.all fun x => decide ((spotOf s x.1 x.2).value ≤ spotLimit x.1 x.2 - 640)
  let reads := [s.quench.inlet.r0, s.quench.inlet.r1, s.quench.outlet.r0, s.quench.outlet.r1] ++
    allSpots.flatMap fun x => [(spotOf s x.1 x.2).r0, (spotOf s x.1 x.2).r1]
  let below := reads.all fun r => decide (r < 6400)
  s.setQuench { s.quench with
    cool := if cool then s.quench.cool.or (some s.clock.now) else none
    below := if below then s.quench.below.or (some s.clock.now) else none }

/-- G of each tile from its forecast and its array load (R228), and the refresh interval of its slices (R274). -/
def tileThermal (busy : Nat) (t : Nat) (s : State) : State :=
  let (v, f, layer, pair) := dramHot s t
  let (g, why) :=
    if 5952 ≤ f then (1, 1) else if 5760 ≤ f then (2, 2) else if bitOf busy t then (4, 3) else (8, 0)
  let limited := bitOf (kget (0, 0) (budgetOf s (tileDie t)).reports (0x10 + t)).2 1
  let ((g, why), s) :=
    if limited && 1 < g then
      let (w, s) := drawWord s
      ((1 + w.toNat % (g - 1), 4), s)
    else ((g, why), s)
  let s := if (budgetOf s (0x10 + t)).emergency then s else setGrant s t g why
  let half := decide (5440 < v) || decide (5440 < f)
  let s := foldList (fun n st => pset st (scPage t n) 0x08C (setBitN (pget st (scPage t n) 0x08C) 0 half)) (List.range 32) s
  let logic := nodeValue s (hottest (nodeValue s) (logicNodes (4 + t)))
  pset (pset s (tilePage t 82) 0x094 (toPat 16 v + layer % 8 * 2 ^ 16 + pair % 16 * 2 ^ 19)) (tilePage t 82) 0x098 (toPat 16 logic)

/-- The model's present rise from the sink base to a node (R416, R417). -/
def riseTo (s : State) (n : Nat) : Int := nodeValue s n - nodeValue s sinkNode

/-- T_sink of an evaluation (R416): the lower median over the 192 slice-column hot spots of each value minus its rise. -/
def sinkTemp (s : State) : Int :=
  let spots := allSpots.filter fun x => 4 ≤ x.1 && 18 ≤ x.2
  (lowerMedian (spots.map fun x => (spotOf s x.1 x.2).value - riseTo s (spotNode x.1 x.2))).getD 0

/-- The measured resistance (R416), with T_sink noted: it moves while P is at least 50 W and the denominator at least 25 W. The
slope is taken over the evaluations of the last 100 ms, or over as many as there are (log 36). -/
def updateTheta (s : State) : State :=
  let now := sinkTemp s
  let past := s.quench.sinks.take 100
  let slope := match past.getLast? with
    | some t => (now - t) * 1000 / past.length
    | none => 0
  let den := Int.ofNat (8 * pget s hhPage 0x088) - Config.sinkCapacity * slope
  let s := s.setQuench { s.quench with sinks := now :: past }
  if pget s hhPage 0x088 < 400 || den < 1600 then s
  else
    let raw := (now - inletNow s) * 6553600000 / den
    let th := s.quench.theta + (raw - s.quench.theta) / 256
    pset (s.setQuench { s.quench with theta := th }) qnPage 0x098 (clampI 0 0xFFFF (th / 65536)).toNat

/-- The least of a list; the logic limit where it is empty. -/
def leastOf : List Int → Int
  | [] => 6720
  | x :: l => l.foldl min x

/-- C_raw in W (R417): the least over the hot spots and nodes that have a limit. -/
def rawCap (s : State) : Int :=
  let all := (List.range 16).flatMap fun d => (limitedNodes d).map fun x => x.2 - riseTo s x.1
  let least := leastOf all - qnMargin s - inletNow s
  if 0 < s.quench.theta then least * 102400000 / s.quench.theta else Config.rawCap s.quench.evals

/-- The cap (R417): smoothed thermal cap and cap in force. -/
def updateCap (s : State) : State :=
  let s := updateTheta s
  let raw := rawCap s
  let old := s.quench.capTh
  let th := if raw < old then raw else min raw (old + 10)
  let s := s.setQuench { s.quench with raw := raw, capTh := th }
  let s := pset s qnPage 0x094 (clampI 0 0xFFFF th).toNat
  let cap := clampN 400 1100 (fld (pget s qnPage 0x080) 10 0)
  let s := if th < Int.ofNat cap then raiseLive s qnPage 2 else setLive s qnPage 2 false
  if qnMode s = 0 then setCapNow s (max 250 (min cap th.toNat)) else setCapNow s 250

/-- The budget divided among the base dies (R391, R393, R418). -/
def divideCap (s : State) : State :=
  let p := capNow s * 8 - 320
  let dies := (List.range 4).filter (dieUp s)
  let b := budgetOf s 0x80
  let floors := (dies.map fun d => (kget (0, floorOf s d) b.requests d).2).foldl (· + ·) 0
  let s := divideAt s 0x80 p dies (limitRequest s)
  if p < floors then foldList (fun t st => setGrant st t 1 4) ((List.range 12).filter (tileUp s)) s else s

/-- The hottest nodes and forecasts (R422), and the counters of the modes. -/
def showQuench (s : State) : State :=
  let ts := List.range 12
  let best (l : List (Nat × Int)) : Nat × Int := l.foldl (fun m x => if m.2 < x.2 then x else m) (0, -32768)
  let dram := best (ts.map fun t => (t, (dramHot s t).1))
  let logic := best ((List.range 16).map fun d => (budgetKey d, nodeValue s (hottest (nodeValue s) (logicNodes d))))
  let fd := (best (ts.map fun t => (t, (dramHot s t).2.1))).2
  let fl := (best ((List.range 16).map fun d => (d, nodeForecast s (hottest (nodeForecast s) (logicNodes d))))).2
  let s := pset s qnPage 0x0A0 (toPat 16 dram.2 + dram.1 * 2 ^ 16)
  let s := pset s qnPage 0x0A4 (toPat 16 logic.2 + logic.1 * 2 ^ 16)
  let s := pset s qnPage 0x0A8 (toPat 16 fd + toPat 16 fl * 2 ^ 16)
  let s := foldList (fun a st => pset st (basePage a 11) 0x098
    (toPat 16 (nodeValue st (hottest (nodeValue st) (logicNodes a))))) (List.range 4) s
  let s := if qnMode s = 1 then count s qnPage 0x800 1 else if qnMode s = 2 then count s qnPage 0x808 1 else s
  if capNow s < clampN 400 1100 (fld (pget s qnPage 0x080) 10 0) then count s qnPage 0x810 1 else s

/-- QUENCH_EVALUATION (R408): the diodes read, the two inlet and the two outlet readings, and the tiles whose matrix cores
were busy more than 25 % of the last ms (R228). -/
def execQuenchEvaluation (l : List DiodeReading) (inlet outlet : BitVec 16 × BitVec 16) (busy : BitVec 12)
    (s : State) : Out :=
  .next (
    let s := s.setQuench { s.quench with evals := s.quench.evals + 1 }
    let s0 := readAir (readDiodes s l) inlet outlet
    let s := actOnLimits (foldList (evalSpot s0) allSpots s0)
    let s := foldList (calibrate s0) allSpots (advanceModel s)
    let s := forecastNodes (updateCap s)
    let s := foldList (tileThermal busy.toNat) ((List.range 12).filter (tileUp s)) s
    showQuench (divideCap s))

/-- FLOOR_EXIT (R419): 1 s without a warning rate, and C_raw ≥ 400 W. -/
def execFloorExit (s : State) : Out :=
  .next (if qnMode s = 1 && 400 ≤ s.quench.raw then setMode (advanceTo s (s.quench.lastWarn + 1000000000)) 0 else s)

/-! Thermal pages (R423). -/

/-- TT_HS_SEL: a hot spot's snapshot. -/
def ttHsSelWrite (d : Fin 16) (hs : BitVec 6) (s : State) : State :=
  blockWrite s (thermalPage d) fun s =>
    let pg := thermalPage d
    let i := min (spotCount d - 1) hs.toNat
    let h := spotOf s d i
    let s := pset s pg 0x080 i
    let m := spotModel s d i
    let f := nodeForecast s (spotNode d i)
    let s := pset s pg 0x084 (toPat 16 h.value + toPat 16 m * 2 ^ 16)
    let s := pset s pg 0x088 (toPat 16 f + toPat 16 (h.rate / 4) * 2 ^ 16)
    let s := pset s pg 0x08C (toPat 16 h.r0 + toPat 16 h.r1 * 2 ^ 16)
    pset s pg 0x090 (h.st0 + h.st1 * 4 + b2n h.guard * 16 + toPat 16 (h.bias / 32) * 2 ^ 16)

/-- The live level of SENS_FAILED of every die's thermal page, as Quench holds its sensors (R427). -/
def liveSensors (s : State) : State :=
  foldList (fun d st => setLive st (thermalPage d) 2
    ((List.range (spotCount d)).any fun i => (spotOf st d i).st0 = 2 || (spotOf st d i).st1 = 2)) (List.range 16) s

/-- FAILED sensors of a die become GOOD, and none is present (R423, R427, R471). -/
def clearSensors (s : State) (d : Nat) : State :=
  setLive (foldList (fun i st =>
    let h := spotOf st d i
    let good (x : Nat) : Nat := if x = 2 then 0 else x
    if h.st0 = 2 || h.st1 = 2 then setSpot st d i { h with st0 := good h.st0, st1 := good h.st1, guard := false } else st)
    (List.range (spotCount d)) s) (thermalPage d) 2 false

/-- TT_SENS_CLR. -/
def ttSensClrWrite (d : Fin 16) (s : State) : State :=
  blockWrite s (thermalPage d) fun s => clearSensors s d

end Sys2Proof.Machine
end

