-- ==== Sys2Proof/Machine/Faults.lean ====
section
/-!
DEFINITION. Forced sources, clearing, reports and their records (R427 to R438, R456, R500, R501).
-/

namespace Sys2Proof.Machine

open Sys2Proof

/-! Forcing and clearing. -/

/-- Contained sources whose rules name no group: the parity errors of a core and of its store (R89, R134, R139, R426). -/
def namesNone (page src : Nat) : Bool :=
  match pageBlock page, src with
  | some .matrixCore, 6 | some .matrixCore, 7 | some .vectorCore, 2 | some .vectorCore, 3 | some .vectorCore, 5 | some .tcc, 2 => true
  | _, _ => false

/-- A source forced (R431): as raised, but its cause is not present. SYNC_PAR marks every group with a part on the tile
(R454). -/
def forceSource (s : State) (page src : Nat) : State :=
  let s := match pagePlace page with
    | .tile t 0 =>
      if src = 1 then markWhere s (fun g => (planTiles (planOf s g.slot)).contains t) .unit page 1 else s
    | _ => s
  raiseWith s page src (curopTag s page) (!namesNone page src) true

/-- The sources of a word of FLT bits that a page defines. -/
def namedSources (page bits : Nat) : List Nat :=
  match pageBlock page with
  | some b => (setBits bits 32).filter (sourceDefined b)
  | none => []

/-- A write of FLT_FORCE (R427, R431). -/
def writeForce (s : State) (page bits : Nat) : State :=
  if pageServes s page then foldList (fun src st => forceSource st page src) (namedSources page bits) s else s

/-- FLT_FORCE (R431). -/
def execFltForce (page : BitVec 11) (bits : BitVec 32) (s : State) : Out :=
  .next (writeForce (reach s page.toNat) page.toNat bits.toNat)

/-- Key of a source. -/
def srcKey (page src : Nat) : Nat := page * 32 + src

/-- Whether a source is in storm (R430). -/
def inStorm (s : State) (page src : Nat) : Bool := (kget .reset s.flt.storms (srcKey page src)).storm

/-- The live level of STORM follows the storms (R430). -/
def showStorm (s : State) : State := setLive s (modPage 6) 2 (s.flt.storms.any fun x => x.2.storm)

/-- A sticky bit cleared: its setting no longer counts as reported. -/
def dropSticky (s : State) (page src : Nat) : State :=
  let s := pclrBits s page 0x020 (2 ^ src)
  s.setFlt { s.flt with reported := s.flt.reported.filter (· != srcKey page src) }

/-- A bit cleared by host software: its source leaves its storm, and its clears are counted anew (R430). -/
def hostClear (s : State) (page src : Nat) : State :=
  if !sticky s page src || liveBit s page src then s
  else
    let s := dropSticky s page src
    if inStorm s page src then showStorm (s.setFlt { s.flt with storms := kerase s.flt.storms (srcKey page src) })
    else s

/-- A write of FLT_STICKY (R427, R430); the hold of R425 ends with the last bit of a FATAL source. -/
def writeSticky (s : State) (page bits : Nat) : State :=
  if !pageServes s page then s
  else
    let held := fatalHold s
    let s := foldList (fun src st => hostClear st page src) (namedSources page bits) s
    if held && !fatalHold s then endHold s else s

/-- FLT_STICKY_CLEAR (R430). -/
def execFltStickyClear (page : BitVec 11) (bits : BitVec 32) (s : State) : Out :=
  .next (writeSticky (reach s page.toNat) page.toNat bits.toNat)

/-- Whether Vexondane may clear a bit (R430): its settings are reported, no group that it marked is left, its cause is
gone, and it is neither FATAL nor in storm. -/
def mayClear (s : State) (page src : Nat) : Bool :=
  sticky s page src && !liveBit s page src && settingClass s page src != 2 && !inStorm s page src &&
  s.flt.reported.contains (srcKey page src) &&
  !(s.flt.stamps.any fun x => x.page = page && x.source = src) &&
  !(s.flt.marks.any fun m => m.page = page && m.source = src)

/-- Clears of a source in the last second, with one more now (R430). -/
def clearsNow (s : State) (page src : Nat) : List Nat :=
  ((kget .reset s.flt.storms (srcKey page src)).clears.filter fun t => s.clock.now < t + 1000000000) ++ [s.clock.now]

/-- VEXONDANE_CLEAR (R430): the sixteenth clear within a second puts the source in storm. -/
def execVexondaneClear (page : BitVec 11) (src : Fin 32) (s : State) : Out :=
  let pg := page.toNat
  .next (if !mayClear s pg src then s
    else
      let l := clearsNow s pg src
      let storm := decide (16 ≤ l.length)
      let s := dropSticky s pg src
      let s := s.setFlt { s.flt with storms := kinsert s.flt.storms (srcKey pg src) ⟨l, storm⟩ }
      if storm then raiseLive s (modPage 6) 2 else s)

/-! Reports. -/

/-- UNIT_LOG of a page (R437). DEDUCED: the layer of a layer control is valid, a bank never is (log 38). -/
def unitLog (page : Nat) : Nat :=
  let v := pageDie page + pageIndex page * 2 ^ 8
  match pageBlock page with
  | some .layerCtl => v + (pageIndex page - 74) * 2 ^ 16 + 2 ^ 19
  | _ => v

/-- Physical position of a page's unit within its kind; 0xFF for a block with one instance (R437). -/
def pagePos (s : State) (page : Nat) : Nat :=
  match pagePlace page with
  | .tile t i =>
    if 2 ≤ i && i < 42 then physPos s t (i - 2)
    else if 42 ≤ i && i < 74 then physPos s t (i - 42)
    else if 74 ≤ i && i < 82 then i - 74
    else 0xFF
  | .base _ i => if 1 ≤ i && i < 5 then i - 1 else if i = 6 || i = 7 then i - 6 else if i = 8 || i = 9 then i - 8 else 0xFF
  | _ => 0xFF

/-- UNIT_PHY of a page (R437). -/
def pagePhy (s : State) (page : Nat) : Nat := unitLog page % 2 ^ 8 + pagePos s page * 2 ^ 8 + unitLog page / 2 ^ 16 * 2 ^ 16

/-- ErrorSeverity of a class (R435). -/
def severity (cls : Nat) : Nat := if cls = 0 then 2 else if cls = 1 then 0 else 1

/-- The GUIDs of R435 in the byte order of UEFI, as little-endian numbers; PRESUMED (log 39). -/
def creatorGuid : Nat := 0x476bd9c2f015e8a34b6f7d209e3a51c4
def notifyGuid : Nat := 0x051ea2c7d480369f4a1e4c952b71e0d8
def sectionGuid : Nat := 0x601d3b4fa9e7c2864f9ab4135d0c8e27

/-- "Thrumvos V12" in ASCII. -/
def fruText : Nat := 0x32315620736f766d75726854

/-- Module identity GUID of the identity page (R498). -/
def moduleGuid (s : State) : Nat :=
  (List.range 4).foldl (fun v i => v + pget s (modPage 0) (0x084 + 4 * i) * 2 ^ (32 * i)) 0

/-- What the sample and the resolution add to a stamp (R433, R434, R436). -/
structure Sample where
  temp : Nat
  volt : Nat
  time : Nat
  model : Bool
  outcome : Nat
  hw : Nat
  deriving DecidableEq, Repr

/-- The Decoa section of a report (R436). -/
def decoaSection (s : State) (x : Stamp) (p : Sample) : List Byte :=
  let flags := b2n x.forced + b2n (liveBit s x.page x.source) * 2 + b2n (inStorm s x.page x.source) * 4 +
    b2n p.model * 8 + b2n x.late * 16
  record 128 ([
    (0x00, 2, 0x0100), (0x02, 1, x.cls), (0x03, 1, x.source), (0x04, 4, x.page), (0x08, 4, unitLog x.page),
    (0x0C, 4, pagePhy s x.page), (0x10, 8, if x.late then s.clock.now else x.time), (0x18, 8, p.time),
    (0x20, 2, p.temp), (0x22, 2, p.volt), (0x24, 2, flags), (0x26, 1, x.react), (0x27, 1, p.outcome),
    (0x34, 4, x.tag), (0x38, 8, x.uid), (0x40, 8, x.period), (0x48, 4, p.hw),
    (0x4C, 4, kget 0 s.flt.lost x.page)] ++
    ((List.range 3).map fun i => (0x28 + 4 * i, 4, ((x.curop[i]?).map BitVec.toNat).getD 0)) ++
    (List.range 8).map fun i => (0x50 + 4 * i, 4, ((x.detail[i]?).map BitVec.toNat).getD 0))

/-- A report as a CPER record of 328 bytes (R435). -/
def cper (s : State) (x : Stamp) (p : Sample) : List Byte :=
  let sev := severity x.cls
  let guid := moduleGuid s
  record 200 [
    (0, 4, 0x52455043), (4, 2, 0x0101), (6, 4, 0xFFFFFFFF), (10, 2, 1), (12, 4, sev), (16, 4, 1), (20, 4, 328),
    (32, 16, guid), (64, 16, creatorGuid), (80, 16, notifyGuid), (96, 8, s.flt.reports + 1),
    (128, 4, 200), (132, 4, 128), (136, 2, 0x0100), (138, 1, 3), (144, 16, sectionGuid), (160, 16, guid),
    (176, 4, sev), (180, 20, fruText)] ++ decoaSection s x p

/-- Slots of the error-record ring: SLOTS + 1, where 0 is applied as 1 (R500). -/
def ringSlots (s : State) : Nat := max 1 (fld (pget s (modPage 6) 0x094) 11 0) + 1

/-- A record put into the ring (R501): the whole slot, then HEAD, then vector 192; a full ring sets RECORD_LOST. -/
def ringWrite (s : State) (r : List Byte) : State :=
  let pg := modPage 6
  let cfg := pget s pg 0x094
  if !bitOf cfg 16 then s
  else
    let head := pget s pg 0x098
    if ringSlots s ≤ (head + 2 ^ 32 - pget s pg 0x09C) % 2 ^ 32 then raiseTag s pg 1 0
    else
      let da := sbBase 0 + fld (pget s pg 0x090) 27 7 * 128 + 384 * (head % ringSlots s)
      let s := (daWrite s (ownReq 0) da (fitBytes 384 r)).2
      let s := pset s pg 0x098 ((head + 1) % 2 ^ 32)
      if bitOf cfg 17 then msixSignal s 192 else s

/-- A record delivered (R438): kept by Hearth with the last 256, offered as a PLDM event, and put into the ring. -/
def deliverRecord (s : State) (r : List Byte) : State :=
  let s := s.setFlt { s.flt with records := (r :: s.flt.records).take 256, reports := s.flt.reports + 1 }
  ringWrite (s.setSvc { s.svc with events := s.svc.events + 1 }) r

/-- Whether the outcome of a setting's group is known, or 20 µs have passed since the end of its period (R434). -/
def outcomeKnown (s : State) (x : Stamp) : Bool :=
  x.tag = 0 || x.outcome.isSome ||
  !(tagLive s x.tag || s.sched.awaiting.any fun w => w.2.2.tag = tagBase x.tag && s.clock.now < w.2.1 + 20000)

/-- Whether a page's unit has a hot spot of its own (R410, R433): a matrix core, a vector core and a slice controller of a tile, and the
blocks on the edges of a base die. DEDUCED (log 121). -/
def ownSpot (page : Nat) : Bool :=
  match pageBlock page with
  | some .matrixCore | some .vectorCore | some .sliceCtl | some .lpddr | some .bridge | some .chainPort => true
  | _ => false

/-- The setting that is reported next: a trap to Vexondane first, then the oldest whose outcome is known (R429, R434). -/
def nextStamp (s : State) : Option Stamp :=
  match s.flt.stamps.find? (·.urgent) with
  | some x => some x
  | none => s.flt.stamps.find? (outcomeKnown s)

/-- OUTCOME and REPLAY_UNIT of a setting (R436). -/
def stampOutcome (x : Stamp) : Nat × Nat :=
  if x.tag = 0 then (6, 0xFFFFFFFF) else x.outcome.getD (0, 0xFFFFFFFF)

/-- A setting taken from the queue and marked as reported. -/
def takeStamp (s : State) (x : Stamp) : State :=
  s.setFlt { s.flt with
    stamps := s.flt.stamps.erase x, reported := s.flt.reported.filter (· != srcKey x.page x.source) ++ [srcKey x.page x.source] }

/-- A report written, or counted where 1,000 were written within a second (R434). -/
def reportStamp (s : State) (x : Stamp) (temp volt time : Nat) : State :=
  let recent := s.flt.times.filter fun t => s.clock.now < t + 1000000000
  let s := takeStamp s x
  if !x.urgent && 1000 ≤ recent.length then
    s.setFlt { s.flt with lost := kput 0 s.flt.lost x.page (kget 0 s.flt.lost x.page + 1), times := recent }
  else
    let (oc, hw) := stampOutcome x
    let s := deliverRecord s (cper s x ⟨temp, volt, time, !ownSpot x.page, oc, hw⟩)
    s.setFlt { s.flt with
      lost := kerase s.flt.lost x.page, times := if x.urgent then recent else recent ++ [s.clock.now] }

/-- FAULT_REPORT (R434): Vexondane writes the report of the next setting; the operands are the aggregator's sample of the
temperature and the rail (R433), and its time. -/
def execFaultReport (temp volt : BitVec 16) (time : BitVec 64) (s : State) : Out :=
  .next (match nextStamp s with
    | some x => reportStamp s x temp.toNat volt.toNat time.toNat
    | none => s)

end Sys2Proof.Machine
end

