-- ==== Sys2Proof/Machine/Maint.lean ====
section
/-!
DEFINITION. Live service of one tile, fences, and the maintenance commands (R463, R464, R467, R468, R471, R472, R474 to
R479).
-/

namespace Sys2Proof.Machine

open Sys2Proof

/-- Everything of the register space in a range of pages returned to reset, and to its SETTINGS (R461). -/
def resetPages (s : State) (lo n : Nat) : State :=
  let a := regOff lo 0
  let b := regOff (lo + n) 0
  let out (p : Nat) : Bool := p < lo || lo + n ≤ p
  let s := s.setRegs { s.regs with
    vals := keraseRange s.regs.vals a b, counters := keraseRange s.regs.counters a b
    guards := keraseRange s.regs.guards lo (lo + n)
    inReset := s.regs.inReset.filter out, resetReq := s.regs.resetReq.filter out }
  applySettings s lo n 0

/-- Every page and every element of a tile reset (R476, step 4): TC_SVC and the quarantine stay; stores are lost and tile
SRAM reads 0 (R473). -/
def resetTile (s : State) (t : Nat) : State :=
  let svc := pget s (tilePage t 0) 0x780
  let time := pget s (tilePage t 0) 0x784
  let quar := (List.range 8).map fun l => pget s (nlPage t l) 0x0B4
  let s := resetPages s (tilePage t 0) 0x80
  let s := pset (pset s (tilePage t 0) 0x780 svc) (tilePage t 0) 0x784 time
  let s := foldList (fun l st => pset st (nlPage t l) 0x0B4 (quar.getD l 0)) (List.range 8) s
  let s := s.setCores (keraseRange s.cores (t * 41) (t * 41 + 41))
  let s := s.setTccs (kerase s.tccs t)
  let s := s.setMcs (keraseRange s.mcs (t * 32) (t * 32 + 32))
  let s := s.setSync { s.sync with
    tf := s.sync.tf.filter fun f => f / 256 != t
    tb := keraseRange s.sync.tb (t * 16) (t * 16 + 16)
    waiters := s.sync.waiters.filter fun w => w.core / 41 != t }
  let s := s.setEng { s.eng with
    layers := keraseRange s.eng.layers (t * 8) (t * 8 + 8)
    sets := keraseRange s.eng.sets (t * 8192) (t * 8192 + 8192)
    scans := kerase s.eng.scans t }
  let s := foldList (fun n st => setSlice st t n { SliceSt.reset with
    bonds := (sliceOf st t n).bonds, repairs := (sliceOf st t n).repairs }) (List.range 32) s
  let s := s.setTests (kerase s.tests t)
  let s := s.setPower { s.power with blocks := keraseRange s.power.blocks (tilePage t 0) (tilePage t 0 + 0x80) }
  s.setMem ((s.mem.zeroRange (tlaKey t 0) 0x1000000).loseRange (tlaKey t 0x1000000) 0x4880000)

/-- Whether a plan uses a tile in its running variant. -/
def planUsesTile (s : State) (i t : Nat) : Bool := (planOf s i).state != .empty && reqTile (runningReq (planOf s i)) t

/-- A tile fenced (R478): 2 by an unrequested reset, 3 by a lost clock. Reads that wait complete poisoned, and replays on its
hardware end (R480). A cycle past step 3 starts again at step 4 (R477); one that HOLD keeps DRAINING or PARKED ends, and the tile
stays fenced until TILE_CYCLE or TILE_REJOIN. -/
def fenceTile (s : State) (t reason : Nat) : State :=
  let a := tileDie t
  let held := tileSvc s t = 1 || tileSvc s t = 2
  let s := stopTile s t
  let s := foldList (fun n st =>
    let x := sliceOf st t n
    let last := x.reads.getLast?.map fun r => (⟨r.line, List.replicate 128 0#8, .poison⟩ : Delivery)
    setSlice st t n { x with mb := [], reads := [], delivered := last.or x.delivered }) (List.range 32) s
  let s := setSvcReason (setSvc s t 6) t reason
  let bit := t % 3
  let s := psetBits s (basePage a 0) 0x500 (2 ^ bit + (if reason = 3 then 2 ^ (bit + 3) else 2 ^ (bit + 6)))
  let s := s.setSched { s.sched with groups := s.sched.groups.map fun g =>
    if g.fate = .running && planUsesTile s g.slot t then
      { g with fenced := true, replays := g.replays.filter fun r => r.hw % 2 ^ 8 != t }
    else g }
  let s := match kfind s.svc.cycles t with
    | some (_, f) =>
      s.setSvc { s.svc with cycles := if held && bitOf f 1 then kerase s.svc.cycles t else kinsert s.svc.cycles t (true, f) }
    | none => s
  let s := foldList (fun g st => if bitOf (barOf st true 0 g).members t then abortModuleBar st g else st) (List.range 8) s
  raiseTag s (basePage a 0) bit 0

/-- TILE_FENCE (R478): a tile that is out of service by a command of this chapter is not watched. -/
def execTileFence (t : Fin 12) (clock : Bool) (s : State) : Out :=
  .next (if tileSvc s t = 6 || tileSvc s t = 7 then s else fenceTile s t (if clock then 3 else 2))

/-! Tile cycle. -/

/-- FLAGS kept of a tile cycle, and shown in TC_SVC (R483). -/
def startCycle (s : State) (t flags : Nat) (fenced : Bool) : State :=
  let s := s.setSvc { s.svc with cycles := kinsert s.svc.cycles t (fenced, flags % 4) }
  let v := pget s (tilePage t 0) 0x780
  pset s (tilePage t 0) 0x780 (setFld (setFld v 4 4 flags) 5 5 (flags / 2))

/-- TILE_CYCLE (R474, R476, step 1). -/
def execTileCycle (q : Fin 64) (cid : BitVec 16) (tile flags : BitVec 8) (s : State) : Out :=
  .next (maintCmd q cid 0x02 [(0x0B, 1, tile.toNat), (0x0C, 1, flags.toNat)] (fun s =>
    let t := tile.toNat
    let fenced := tileSvc s t = 6
    if 12 ≤ t then complete s q cid.toNat 0x41 [0x0B]
    else if quarantined s t 40 then complete s q cid.toNat 0x48 []
    else if tileSvc s t != 0 && !fenced then complete s q cid.toNat 0x42 [tileSvc s t]
    else
      let s := setSvcReason (startCycle s t flags.toNat fenced) t 1
      complete (if fenced then setSvc s t 3 else s) q cid.toNat 0 []) s)

/-- TILE_REJOIN (R474, R476). -/
def execTileRejoin (q : Fin 64) (cid : BitVec 16) (tile flags : BitVec 8) (s : State) : Out :=
  .next (maintCmd q cid 0x03 [(0x0B, 1, tile.toNat), (0x0C, 1, flags.toNat)] (fun s =>
    let t := tile.toNat
    let fenced := tileSvc s t = 6
    if 12 ≤ t then complete s q cid.toNat 0x41 [0x0B]
    else if quarantined s t 40 then complete s q cid.toNat 0x48 []
    else if tileSvc s t != 2 && !fenced then complete s q cid.toNat 0x42 [tileSvc s t]
    else complete (setSvc (startCycle s t (flags.toNat % 2) fenced) t 3) q cid.toNat 0 []) s)

/-- TILE_PARKED (R476, step 3): merge buffers emptied, DRAM in self-refresh, logic in RETAIN. A tile whose TCC is
quarantined stays OUT (R474). -/
def execTileParked (t : Fin 12) (s : State) : Out :=
  .next (if tileSvc s t != 1 then s
    else
      let s := stopTile (tileRefresh s t true) t
      if quarantined s t 40 then
        (setSvc s t 7).setSvc { s.svc with cycles := kerase s.svc.cycles t }
      else setSvc s t 2)

/-- Lines of a row written with zeros and poison check words, as initialised (R262, R272). -/
def initRow (s : State) (t n layer bank row : Nat) : State :=
  foldList (fun k st =>
    let da := sliceBase t n + (row * 8 + k) * 2 ^ 14 + bank * 2 ^ 10 + layer * 2 ^ 7
    st.setMem ((st.mem.zeroRange da 128).markPoison da 128)) (List.range 8) s

/-- The lines of a bank written with zeros and poison check words (R262, R272). -/
def initBank (s : State) (t n layer bank : Nat) : State := foldList (fun row st => initRow st t n layer bank row) (List.range 12288) s

/-- The slice whose column stands at a physical position (R22, R23). -/
def columnSlice (s : State) (t col : Nat) : Option Nat := (List.range 32).find? fun n => physPos s t n = col

/-- Whether a bank has a spare row or column left, of 64 and 8, or a bond group one of its two repair bonds (R22, R272). -/
def spareLeft (s : State) (e : RepairEntry) : Bool :=
  let k := if e.kind = 4#8 then 2 else 3
  let used := (s.svc.spared.filter fun x => x.kind = e.kind && x.die = e.die && x.pos.take k = e.pos.take k).length
  used < if e.kind = 2#8 then 64 else if e.kind = 3#8 then 8 else 2

/-- A spare newly switched in (R272, R273): a row holds no data and is initialised, and so is every line of the bank of a column,
which has a bit of each; a repair bond counts for its group, whose counter it clears where it was due (R273). -/
def placeSpare (s : State) (t n : Nat) (e : RepairEntry) : State :=
  let f (i : Nat) := e.pos.getD i 0
  if e.kind = 2#8 then initRow s t n (f 1) (f 2) (f 3)
  else if e.kind = 3#8 then initBank s t n (f 1) (f 2)
  else
    let x := sliceOf s t n
    setSlice s t n { x with
      bonds := x.bonds.filter fun g => g.1 != f 1 || g.2 < 16
      repairs := kinsert x.repairs (f 1) (min 2 (kget 0 x.repairs (f 1) + 1)) }

/-- An entry of KIND 0x02 to 0x04 that takes effect (R470): once, and where a spare is left. -/
def spareIn (s : State) (e : RepairEntry) : State :=
  if s.svc.spared.contains e || !spareLeft s e then s
  else
    let s := s.setSvc { s.svc with spared := s.svc.spared ++ [e] }
    match columnSlice s e.die.toNat (e.pos.getD 0 0) with
    | some n => placeSpare s e.die.toNat n e
    | none => s

/-- The entries of KIND 0x02 to 0x04 of the fuse map and of a REPAIR_MAP, of the tiles that `mine` takes (R22, R272, R470). -/
def applySpares (s : State) (mine : Nat → Bool) (l : List RepairEntry) : State :=
  foldList (fun e st => spareIn st e)
    ((s.svc.fuse.spares ++ l).filter fun e => 2 ≤ e.kind.toNat && e.kind.toNat ≤ 4 && e.die.toNat < 12 && mine e.die.toNat) s

/-- Rows that a repair switches to spares (R471, step 2): those of the row log with KIND 2 or 3, or at the threshold. -/
def spareRows (s : State) (t : Nat) : List (Nat × Nat) :=
  (List.range 32).flatMap fun n =>
    let thr := max 1 (fld (pget s (scPage t n) 0x084) 3 0)
    (List.range 16).filterMap fun i =>
      let v := rlog s t n i
      if bitOf v 0 && (2 ≤ fld v 2 1 || thr ≤ fld v 31 24) then some (n, v) else none

/-- A CODE record of a resident plan copied again from its held image; a failure dooms the plan (R472, R476). -/
def recode (s : State) (i : Nat) (c : CodeRec) : State :=
  let p := planOf s i
  if !p.held then setPlan s i { p with doomed := true }
  else
    match recordBytes s c.tile (p.imageDa + c.data) c.len c.crc with
    | (some b, s) => writeBytes s (tlaKey c.tile (storeTla c.part + c.off)) b
    | (none, s) => setPlan s i { planOf s i with doomed := true }

/-- CODE records of every resident plan on a tile copied again. -/
def recodeTile (s : State) (t : Nat) : State :=
  foldList (fun i st => foldList (fun c st => recode st i c)
    ((planOf st i).code.filter fun c => c.tile = t && c.vmask &&& placedMask (planOf st i) != 0) st) (residentSlots s) s

/-- Golden-backed records on a tile rewritten from their copies (R476, step 10). -/
def regoldTile (s : State) (t : Nat) : State :=
  foldList (fun i st => foldList (fun w st =>
    let ((b, _), st) := daRead st (tongsReq t 0) ((planOf st i).imageDa + w.data) w.len
    (daWrite st (tongsReq t 0) (sliceBase t w.slice + w.soff) b).2)
    ((planOf st i).weights.filter fun w => w.tile = t && w.golden && w.vmask &&& placedMask (planOf st i) != 0) st)
    (residentSlots s) s

/-- The REPAIR_MAP entry of a row (R470): its slice column, layer, bank and row. -/
def rowEntry (s : State) (t : Nat) (x : Nat × Nat) : RepairEntry :=
  ⟨2#8, BitVec.ofNat 8 t, [physPos s t x.1, fld x.2 5 3, fld x.2 9 6, fld x.2 23 10]⟩

/-- A unit that fails the bring-up test set twice: TEMPER_FAIL, condemned and quarantined (R452, R465, R476). -/
def failTest (s : State) (t u : Nat) : State := quarantine (condemn (raiseTag s (tilePage t 85) 0 0) t u) t u

/-- Steps 4 to 10 of a tile cycle (R476), with the units that failed the bring-up test set. -/
def rejoinTile (s : State) (t : Nat) (fenced : Bool) (flags : Nat) (bad : List Nat) : State :=
  let rows := if bitOf flags 0 then spareRows s t else []
  let s := resetTile s t
  let s := pclrBits s (basePage (tileDie t) 0) 0x500 (0x49 * 2 ^ (t % 3))
  let s := applySpares s (· = t) (((currentImage s).map ConfigImage.repair).getD [] ++ rows.map (rowEntry s t))
  let s := if fenced then
      s.setMem ((s.mem.zeroRange (t * tileBytes) tileBytes).markPoison (t * tileBytes) tileBytes)
    else s
  let s := foldList (fun n st => trainedSlice st t n) (List.range 32) s
  let s := foldList (fun u st => failTest st t u) bad s
  if quarantined s t 40 then
    let s := setSvcReason (setSvc s t 7) t 5
    s.setSvc { s.svc with cycles := kerase s.svc.cycles t }
  else
    let s := recodeTile s t
    let s := s.setUnits (s.units.map fun x => if x.1 / 512 = t then (x.1, { x.2 with strikes := 0 }) else x)
    let s := regoldTile (setSvc s t 5) t
    s.setSvc { s.svc with
      cycles := kinsert s.svc.cycles t (fenced, flags % 4 + 2 ^ 8)
      newRep := s.svc.newRep ++ rows.map (rowEntry s t)
      writes := if bitOf flags 0 then s.svc.writes ++ [(3, none)] else s.svc.writes }

/-- TILE_RELOAD_DONE (R476, steps 4 to 10): of a tile in a cycle that is PARKED without HOLD, RESETTING, or FENCED since. A thermal STOP pauses it (R477). -/
def execTileReloadDone (t : Fin 12) (bad : List (BitVec 9)) (s : State) : Out :=
  let st := tileSvc s t
  .next (match kfind s.svc.cycles t with
    | some (fenced, flags) =>
      if s.quench.holding then s
      else if st = 3 || st = 6 || (st = 2 && !bitOf flags 1) then
        rejoinTile s t fenced flags ((bad.map BitVec.toNat).filter unitOk)
      else s
    | none => s)

/-! Fence of a base die. -/

/-- A chain port lost with its base die: it is DOWN, and the frames that it held are gone (R374, R479); a lost parent port leaves
the module free-running (R371). -/
def losePort (s : State) (c : Nat) : State :=
  let p := portOf s c
  let s := foldList (fun x st => sendLost st x) (p.tx ++ p.held) (setPort s c .reset)
  let s := if parentPort s = some c then pset s (modPage 7) 0x094 (setFld (pget s (modPage 7) 0x094) 4 3 3) else s
  setPortState (freeRun s c) c 0

/-- BASE_FENCE (R479): its tiles fenced, its bridges and chain ports DOWN, its storage poisoned, its plans FAILED at the next
period start. The loss of A0 starts a warm restart (R472). -/
def fenceBase (s : State) (a : Nat) : State :=
  let s := s.setStore { s.store with baseFenced := a :: s.store.baseFenced.filter (· != a) }
  let s := foldList (fun t st => if tileSvc st t = 6 then st else fenceTile st t 3) [3 * a, 3 * a + 1, 3 * a + 2] s
  let s := foldList (fun c st => losePort st c) [2 * a, 2 * a + 1] s
  let s := doomPlans s fun i =>
    planTouches s i (regionBase a) (regionBase (a + 1)) || planTouches s i (sbBase a) (sbBase (a + 1)) ||
    planTouches s i (3 * a * tileBytes) ((3 * a + 3) * tileBytes) ||
    ((planOf s i).state != .empty && sbBase a ≤ (planOf s i).man.pcb && (planOf s i).man.pcb < sbBase (a + 1))
  let s := raiseTag s (modPage 5) 4 0
  if a = 0 then (raiseTag s (modPage 5) 5 0).setFlt { (raiseTag s (modPage 5) 5 0).flt with restartReq := true } else s

/-! Maintenance commands that only ask. -/

/-- REPAIR_PASS (R471): REPAIR begins; the pass runs to its warm restart (WARM_RESTART). -/
def execRepairPass (q : Fin 64) (cid : BitVec 16) (flags : BitVec 8) (s : State) : Out :=
  .next (maintCmd q cid 0x04 [(0x0C, 1, flags.toNat)] (fun s =>
    if (residentSlots s) != [] then complete s q cid.toNat 0x44 []
    else
      let s := pset s (modPage 5) 0x080 (3 + 1 * 2 ^ 16)
      complete (s.setSvc { s.svc with repairs := [flags.toNat % 4], writes := s.svc.writes ++ [(3, none)] }) q cid.toNat 0 []) s)

/-- SAVE_TRAINING (R467). -/
def execSaveTraining (q : Fin 64) (cid : BitVec 16) (s : State) : Out :=
  .next (maintCmd q cid 0x05 [] (fun s =>
    complete (s.setSvc { s.svc with writes := s.svc.writes ++ [(5, none)] }) q cid.toNat 0 []) s)

/-- CFG_WRITE (R464, R474): the staged bytes are read at once. -/
def cfgWrite (s : State) (q cid type src len : Nat) : State :=
  if type < 2 || 6 < type then complete s q cid 0x41 [0x0B]
  else if 0x1800000 < len then complete s q cid 0x41 [0x18]
  else if !(inLpddr s src len) then complete s q cid 0x41 [0x10]
  else
    let ((b, _), s) := daRead s (ownReq 0) src len
    complete (s.setSvc { s.svc with writes := s.svc.writes ++ [(type, some b)] }) q cid 0 []

/-- CFG_WRITE. -/
def execCfgWrite (q : Fin 64) (cid : BitVec 16) (type : BitVec 8) (src len : BitVec 64) (s : State) : Out :=
  .next (maintCmd q cid 0x07 [(0x0B, 1, type.toNat), (0x10, 8, src.toNat), (0x18, 8, len.toNat)] (fun s => cfgWrite s q cid.toNat type.toNat src.toNat len.toNat) s)

/-- ACCEPT_TOPOLOGY (R468, R474): only in HELD with a cause 0x04 to 0x06. -/
def execAcceptTopology (q : Fin 64) (cid : BitVec 16) (s : State) : Out :=
  .next (maintCmd q cid 0x08 [] (fun s =>
    let cause := fld (pget s (modPage 5) 0x080) 15 8
    if svcState s = 1 && 4 ≤ cause && cause ≤ 6 then
      complete (s.setSvc { s.svc with writes := s.svc.writes ++ [(2, none)] }) q cid.toNat 0 []
    else complete s q cid.toNat 0x41 [0x08]) s)

end Sys2Proof.Machine
end

