-- ==== Sys2Proof/Machine/BlockReset.lean ====
section
/-!
DEFINITION. Block reset (R429, R492), and Temper's known-answer tests (R451, R452, R457).
-/

namespace Sys2Proof.Machine

open Sys2Proof

/-! Block reset. -/

/-- CP_CTL as the descriptor gives it (R375): EN for a port in use, MEDIA, X4_OK 1. -/
def descCtl (s : State) (c : Nat) : Nat :=
  let media := (currentImage s).any fun i => i.topo.media.getLsbD c
  4 + b2n (kfind s.chain.expect c).isSome + 2 * b2n media

/-- Whether a plan has a part on the block of a page (R429): on a core, a program in its running variant; elsewhere a use of
the tile, or of the base die or its tiles. -/
def planOnBlock (s : State) (i page : Nat) : Bool :=
  let v := runningReq (planOf s i)
  match pagePlace page with
  | .tile t j => if 2 ≤ j && j < 42 then (reqParts v t).contains (j - 2) else reqTile v t
  | .base a _ =>
    reqTile v (3 * a) || reqTile v (3 * a + 1) || reqTile v (3 * a + 2) ||
    planTouches s i (regionBase a) (regionBase (a + 1)) || planTouches s i (sbBase a) (sbBase (a + 1))
  | _ => false

/-- Registers that a block reset keeps: they show what the block itself does not hold (TC_SVC, NL_QUAR, BC_FENCE, BC_REV,
LP_CHSTAT, BR_STAT). DEDUCED (log 40). -/
def resetKeeps : Block → List Nat
  | .tileControl => [0x780, 0x784]
  | .layerCtl => [0x0B4]
  | .baseControl => [0x500, 0x504]
  | .lpddr => [0x080]
  | .bridge => [0x080]
  | _ => []

/-- Block-specific registers and counters of a page returned to reset; a pending guarded value is discarded (R492, R495). -/
def resetBlockRegs (s : State) (page : Nat) : State :=
  let keep := ((pageBlock page).map resetKeeps).getD []
  let kept := keep.map fun o => (o, pget s page o)
  let s := s.setRegs { s.regs with
    vals := keraseRange s.regs.vals (regOff page 0x080) (regOff page 0x800)
    counters := keraseRange s.regs.counters (regOff page 0) (regOff (page + 1) 0)
    guards := kerase s.regs.guards page }
  foldList (fun (x : Nat × Nat) st => pset st page x.1 x.2) kept (applySettings s page 1 0x080)

/-- The state without open reductions of an adder. -/
def dropAdder (s : State) (k : Nat) : State := s.setStore { s.store with adders := kerase s.store.adders k }

/-- A participant returned to reset: its store is kept. -/
def resetCore (s : State) (t p : Nat) : State :=
  let s := dropWaiters s (coreId t p)
  s.setCores (kerase s.cores (coreId t p))

/-- Engines of a tile page returned to reset. -/
def resetTileEngine (s : State) (t j : Nat) (b : Block) : State :=
  match b with
  | .matrixCore =>
    let s := resetCore (landHeld s t (j - 2)) t (j - 2)
    s.setMcs (kerase s.mcs (t * 32 + (j - 2)))
  | .vectorCore => resetCore s t (j - 2)
  | .tcc =>
    let e := (tccOf s t).events
    setTcc (resetCore s t 40) t { Tcc.reset with events := e }
  | .tileControl =>
    let s := setTcc s t { tccOf s t with events := 0 }
    let s := s.setEng { s.eng with scans := kerase s.eng.scans t }
    s.setSync { s.sync with
      tf := s.sync.tf.filter fun f => f / 256 != t
      tb := keraseRange s.sync.tb (t * 16) (t * 16 + 16)
      waiters := s.sync.waiters.filter fun w => w.module || !w.barrier || w.core / 41 != t }
  | .sliceCtl =>
    let x := sliceOf s t (j - 42)
    dropAdder (setSlice s t (j - 42) { SliceSt.reset with repairs := x.repairs, epoch := s.clock.now }) (t * 32 + (j - 42))
  | .layerCtl =>
    let l := t * 8 + (j - 74)
    s.setEng { s.eng with layers := kerase s.eng.layers l, sets := keraseRange s.eng.sets (l * 1024) (l * 1024 + 1024) }
  | .tilePower => s.setPower { s.power with budgets := kerase s.power.budgets (0x10 + t) }
  | .fabric =>
    s.setStore { s.store with
      idleSince := kinsert (kinsert s.store.idleSince (t * 2) s.clock.now) (t * 2 + 1) s.clock.now
      seam := keraseRange s.store.seam (t * 2) (t * 2 + 2)
      wakeSince := keraseRange s.store.wakeSince (t * 2) (t * 2 + 2) }
  | .temper => s.setTests (kerase s.tests t)
  | _ => s

/-- Engines of a base-die page returned to reset. -/
def resetBaseEngine (s : State) (a j : Nat) (b : Block) : State :=
  match b with
  | .baseControl =>
    if a = 0 then
      s.setSync { s.sync with
        mf := [], mb := [], cb := [], waiters := s.sync.waiters.filter fun w => !(w.module && w.barrier) }
    else s
  | .lpddr => dropAdder (setLp s (4 * a + (j - 1)) LpSt.reset) (384 + 4 * a + (j - 1))
  | .sharedBuffer => dropAdder s (400 + a)
  | .chainPort =>
    let c := 2 * a + (j - 6)
    let s := portOff s c 5
    let s := pset (setPort s c Port.reset) (cpPage c) 0x080 (descCtl s c)
    setPortState s c (if bitOf (descCtl s c) 0 then 1 else 5)
  | .basePower => s.setPower { s.power with budgets := kerase s.power.budgets a }
  | .aggregator =>
    s.setFlt { s.flt with stamps := s.flt.stamps.filter fun x => aggregatorOf x.page != a || a = 0 && aggregatorOf x.page = 4 }
  | .tongs =>
    s.setEng { s.eng with
      tongs := keraseRange s.eng.tongs (3 * a) (3 * a + 3)
      fills := kerase s.eng.fills a
      remote := kerase s.eng.remote a }
  | _ => s

/-- A block reset starts (R429, R492): never on a module page, nor while one is in progress. Every group with a part on
the block is suspect with a PATH cause; source 32 of the mark stands for the reset. -/
def blockReset (s : State) (page : Nat) : State :=
  let s := s.setRegs { s.regs with resetReq := s.regs.resetReq.filter (· != page) }
  match pageBlock page, pagePlace page with
  | some b, .tile t j =>
    if inReset s page then s
    else
      let s := markWhere s (fun g => planOnBlock s g.slot page) .path page 32
      let s := resetTileEngine (resetBlockRegs s page) t j b
      s.setRegs { s.regs with inReset := s.regs.inReset ++ [page] }
  | some b, .base a j =>
    if inReset s page then s
    else
      let s := markWhere s (fun g => planOnBlock s g.slot page) .path page 32
      let s := resetBaseEngine (resetBlockRegs s page) a j b
      s.setRegs { s.regs with inReset := s.regs.inReset ++ [page] }
  | _, _ => s

/-- BLOCK_RESET (R429, R492): by the reaction of a source, or by a write to BLK_CTRL.RESET, which wakes the module and which
a page that does not serve discards (R489). -/
def execBlockReset (page : BitVec 11) (s : State) : Out :=
  let pg := page.toNat
  .next (if s.regs.resetReq.contains pg then blockReset s pg
    else
      let s := reach s pg
      if pageServes s pg then blockReset s pg else s)

/-- BLOCK_RESET_DONE (R492). -/
def execBlockResetDone (page : BitVec 11) (s : State) : Out :=
  .next (s.setRegs { s.regs with inReset := s.regs.inReset.filter (· != page.toNat) })

/-! Temper. -/

/-- The Temper page of a tile. -/
def tmPage (t : Nat) : Nat := tilePage t 85

/-- TM_INTERVAL in ns (R457). -/
def tmInterval (s : State) (t : Nat) : Nat := clampN 1 600 (fld (pget s (tmPage t) 0x084) 9 0) * 1000000000

/-- Time that the module has been ACTIVE, in ns (R451). -/
def activeTime (s : State) : Nat := s.clock.now - s.power.slept - (s.clock.now - s.power.sleepFrom.getD s.clock.now)

/-- Units that Temper tests (R451): the exposed matrix and vector cores and the NBU groups, but the quarantined. -/
def tested (s : State) (t u : Nat) : Bool :=
  !quarantined s t u &&
  (exposed s t u || (64 ≤ u && u < 320))

/-- Whether a unit is idle (R451): no piece uses a core; no descriptor or scan, queued or running, that names the slice and the
layer of an NBU group. -/
def unitIdle (s : State) (t u : Nat) : Bool :=
  if u < 40 then (coreOf s (coreId t u)).run = .idle
  else
    let l := (u - 64) / 32
    let n := (u - 64) % 32
    let x := kget .reset s.eng.layers (t * 8 + l)
    !((x.run ++ x.queue).any fun i => (cmdSlices i.cmd).contains n) &&
    (((kget .reset s.eng.scans t).run.map fun r => !((cmdSlices r.cmd).contains n && bitOf (field r.cmd 5 1) l)).getD true)

/-- Least length of a slot for a test (R451), in ns: 45 µs at ARR 1.6 GHz, longer at a lower step (R404), or 45 µs. -/
def slotNeed (s : State) (t u : Nat) : Nat :=
  if u < 40 then divUp (45000 * 1600) (400 + 25 * fld (pget s (tilePage t 83) 0x08C) 5 0) else 45000

/-- Whether a slot that begins now ends no later than the next admission cutoff (R451). -/
def slotFits (s : State) (t u : Nat) : Bool :=
  match nextStart s with
  | some x => s.clock.now + slotNeed s t u + 20000 ≤ x
  | none => true

/-- TEMPER_TEST (R451): a test of a unit that is due starts in an idle slot; the module is ACTIVE. -/
def execTemperTest (t : Fin 12) (u : BitVec 9) (s : State) : Out :=
  let n := u.toNat
  let r := unitOf s t n
  let due := r.runNow || r.tested + tmInterval s t ≤ activeTime s
  .next (if bitOf (pget s (tmPage t) 0x080) 0 && pState s = 0 && tileUp s t && tested s t n && unitIdle s t n &&
      (kfind s.tests t).isNone && due && slotFits s t n && !inReset s (tmPage t)
    then s.setTests (kinsert s.tests t ⟨n, s.clock.now, false⟩)
    else s)

/-- TEMPER_DATA of a result: the unit's record, and TM_STAT.UNIT (R457). -/
def testEnds (s : State) (t u result : Nat) : State :=
  let r := unitOf s t u
  let s := setUnit s t u { r with
    tested := activeTime s, result := result, runNow := false, lastPass := if result = 3 then r.lastPass else s.clock.now }
  let s := s.setTests (kerase s.tests t)
  let s := pset s (tmPage t) 0x088 (setFld (pget s (tmPage t) 0x088) 8 0 u)
  count s (tmPage t) 0x800 1

/-- A test of a core may change G2 to G15 and Y0 to Y31 (R452): they hold lost values from here on. -/
def testScratch (s : State) (t u : Nat) : State :=
  if u < 40 then
    let k := coreOf s (coreId t u)
    let g0 := getG s t u 0
    let g1 := getG s t u 1
    let e := s.free + 1
    setCore (s.setFree e) (coreId t u) { k with epoch := e, g := putReg e 0#64 (putReg e 0#64 [] 0 g0) 1 g1, y := [] }
  else s

/-- Overdue units of a tile (R451, R457). -/
def overdue (s : State) (t u : Nat) : Bool :=
  tested s t u && decide ((unitOf s t u).tested + 2 * tmInterval s t ≤ activeTime s)

/-- The live level of TEMPER_OVERDUE follows the units that are overdue (R427, R457). -/
def showOverdue (s : State) (t : Nat) : State :=
  let n := ((List.range 320).filter fun u => unitOk u && overdue s t u).length
  let s := pset s (tmPage t) 0x088 (setFld (pget s (tmPage t) 0x088) 31 16 n)
  setLive s (tmPage t) 2 (0 < n)

/-- TEMPER_TEST_DONE (R452): the signature of the test in progress is compared. A first failure runs again at once; a
second condemns the unit; a pass on the second run counts a strike. -/
def execTemperTestDone (t : Fin 12) (pass : Bool) (s : State) : Out :=
  .next (match kfind s.tests t with
    | none => s
    | some x =>
      let s := testScratch s t x.unit
      if pass && !x.second then showOverdue (testEnds s t x.unit 1) t
      else if pass then
        let s := count (testEnds s t x.unit 2) (tmPage t) 0x808 1
        showOverdue (strike (raiseTag s (tmPage t) 1 0) t x.unit) t
      else if !x.second then s.setTests (kinsert s.tests t { x with start := s.clock.now, second := true })
      else
        let s := count (testEnds s t x.unit 3) (tmPage t) 0x810 1
        showOverdue (condemn (raiseTag s (tmPage t) 0 0) t x.unit) t)

/-- TEMPER_OVERDUE (R451): a unit untested for twice the interval. -/
def execTemperOverdue (t : Fin 12) (u : BitVec 9) (s : State) : Out :=
  .next (if overdue s t u.toNat then raiseTag (showOverdue s t) (tmPage t) 2 0 else s)

/-- TEMPER_ABANDON (R451): a CSTART, descriptor or scan that names the unit under test. -/
def execTemperAbandon (t : Fin 12) (u : BitVec 9) (s : State) : Out := .next (abandonTest s t u.toNat)

/-- TM_CTL.RUN_NOW (R457): every unit is due at its next slot. -/
def runNowAll (s : State) (t : Nat) : State :=
  foldList (fun u st => if tested st t u then setUnit st t u { unitOf st t u with runNow := true } else st)
    ((List.range 320).filter unitOk) s

/-- TM_RUN_NOW (R457). -/
def execTmRunNow (t : Fin 12) (s : State) : Out :=
  .next (blockWrite (wakeFor s 1) (tmPage t) fun s => runNowAll s t)

/-- TM_SEL written (R457): the record of the unit is shown; a value naming no unit is applied as 0. -/
def tmSelect (s : State) (t v : Nat) : State :=
  let u := if unitOk (v % 512) then v % 512 else 0
  let r := unitOf s t u
  let s := pset s (tmPage t) 0x08C u
  pset (pset s (tmPage t) 0x090 (r.lastPass / 2 ^ 20)) (tmPage t) 0x094 (r.result + 4 * b2n (quarantined s t u))

/-- TM_SEL (R457). -/
def execTmSel (t : Fin 12) (v : BitVec 32) (s : State) : Out :=
  .next (blockWrite (wakeFor s 1) (tmPage t) fun s => tmSelect s t v.toNat)

end Sys2Proof.Machine
end

