-- ==== Sys2Proof/Machine/HostPort.lean ====
section
/-!
DEFINITION. Host accesses through the windows and through CXL.mem, and the resets of the host interface (R326 to R333,
R346).
-/

namespace Sys2Proof.Machine

open Sys2Proof

/-- What a host read returns (R333): zeros where it is poisoned or fails. -/
def hostReply (s : State) (n : Nat) (data : List Byte) (st : ASt) : State :=
  let d := if st = .ok then data else List.replicate n 0#8
  let cpl := match st with
    | .ok => CplStatus.success
    | .poison => .poisoned
    | .error => .completerAbort
  let s := s.setHost { s.host with rdata := d, rstat := cpl }
  match st with
  | .ok => s
  | .poison => raiseTag s hiPage 2 0
  | .error => raiseTag s hiPage 1 0

/-- A host read of n bytes at a device address (R32, R333). -/
def hostRead (s : State) (da n : Nat) : State :=
  let ((d, st), s) := daRead s hostReq da n
  hostReply s n d st

/-- A posted write discarded (R333): HI_WR_DISCARD, and a Completer Abort for AER, whose message the host enables. -/
def postedDiscard (s : State) : State := reqAddrErr s .host true

/-- The outcome of a host write (R333): discarded for an unmapped address, a held range or a fenced region. -/
def hostWriteDone (s : State) (da : Nat) (st : ASt) : State :=
  match st, daKind da with
  | .error, _ => postedDiscard s
  | .poison, .lpddr _ _ => postedDiscard s
  | _, _ => s

/-- BAR4 resized by the host to 2^k GiB, 1 GiB to 2 TiB (R326, R328). DESIGN CHOICE: HI_B4_BASE is rounded for the new size as a
written value is (log 102). -/
def resizeBar4 (s : State) (k : Option (Fin 12)) : State :=
  match k with
  | some k => placeBar4 (s.setHost { s.host with bar4Log := 30 + k }) (bar4Base s)
  | none => s

/-- The device address of an access through BAR2 or BAR4, where the access lies in the window (R328). -/
def windowDa (s : State) (bar2 : Bool) (off n : Nat) : Option Nat :=
  if bar2 then (if off + n ≤ 0x10000000 then some (sbBase 0 + off) else none)
  else if off + n ≤ 2 ^ s.host.bar4Log then some (bar4Base s + off) else none

/-- BAR4_ACCESS (R328, R333): a read of `len` bytes, or a posted write; BAR2 is served the same way. An access outside the
window does not reach the module. The host may resize BAR4 before it. -/
def execBar4Access (bar2 : Bool) (resize : Option (Fin 12)) (off : BitVec 48) (len : Nat) (data : Option (List Byte))
    (s : State) : Out :=
  .next (
    let s := resizeBar4 s resize
    let n := (data.map List.length).getD len
    match windowDa s bar2 off.toNat n with
    | none => s
    | some da =>
      awaitAccess (wakeFor s 1) hostReq (daHalves da n) (.bar4 bar2 off len data) fun s =>
        match data with
        | none => hostRead s da n
        | some d =>
          let (st, s) := daWrite s hostReq da d
          hostWriteDone s da st)

/-- Operation code of R304 of an AtomicOp. -/
def atomicCode : HostAtomic → Nat
  | .fetchAdd => 1
  | .swap => 2
  | .cas => 3

/-- BAR2_ATOMICOP (R332): 4, 8 or 16 bytes. On BAR0 and BAR4, of 16 bytes, and with a misaligned target, it completes with Unsupported
Request. CAS compares with `a` and stores `b`. -/
def execBar2Atomicop (bar : HostBar) (off : BitVec 28) (bytes : Fin 3) (op : HostAtomic) (a b : BitVec 64) (s : State) : Out :=
  .next (
    let n := 4 * 2 ^ bytes.val
    if bar != .bar2 || 8 < n || off.toNat % n != 0 then s.setHost { s.host with rdata := [], rstat := .unsupported }
    else
      let (up, s) := carry (wakeFor s 1) hostReq (daLoc (sbBase 0 + off.toNat)) 1
      if !up then hostReply s n [] .poison
      else
        let ((old, ok), s) := sbAtomic s (off.toNat / 0x4000000) (off.toNat % 0x4000000) n (atomicCode op) a.toNat b.toNat 0
        hostReply s n (leBytes n old) (if ok then .ok else .poison))

/-! CXL.mem. -/

/-- Whether the module offers CXL (R2, R3): the ordering code fused is that of TV12-1T-X. -/
def offersCxl (s : State) : Bool := s.svc.fuse.code = 1#8

/-- Whether CXL.mem reaches the module: a TV12-1T-X with its decoder committed (R327, R329). -/
def cxlServes (s : State) : Bool := s.host.hdm && offersCxl s

/-- A line taken into the snoop filter of 131,072 lines; the oldest is back-invalidated when it is full (R330). -/
def snoopIn (s : State) (line : Nat) : State :=
  if s.host.snoop.contains line then s
  else
    let s := if 131072 ≤ s.host.snoop.length then
        match s.host.snoop with
        | old :: _ => snoopOut s old
        | [] => s
      else s
    s.setHost { s.host with snoop := s.host.snoop ++ [line] }

/-- What a CXL.mem read returns (R333): data that fails is zero and poisoned. -/
def cxlReply (s : State) : State :=
  s.setHost { s.host with rstat := if s.host.rstat = .success then .success else .poisoned }

/-- CXL_MEM_READ (R329, R330, R333) of 64 bytes at offset y of the decoded range. -/
def execCxlMemRead (y : BitVec 40) (s : State) : Out :=
  .next (if !cxlServes s then s
    else
      let s := wakeFor s 1
      let da := regionBase 0 + y.toNat / 64 * 64
      let s := cxlReply (hostRead s da 64)
      match daKind da with
      | .lpddr a q => if q < regionTop s a then snoopIn s (da / 128) else s
      | _ => s)

/-- CXL_MEM_WRITE (R330, R333): 64 bytes; the store needs no back-invalidate of its own. -/
def execCxlMemWrite (y : BitVec 40) (data : List Byte) (s : State) : Out :=
  .next (if !cxlServes s then s
    else
      let s := wakeFor s 1
      let da := regionBase 0 + y.toNat / 64 * 64
      match daKind da with
      | .lpddr a q =>
        if regionFenced s a || meetsHeld s da 64 then raiseTag s hiPage 0 0
        else if regionTop s a ≤ q then raiseTag (lpTail s a 0) hiPage 0 0
        else
          let (up, s) := carry s hostReq (daLoc da) 1
          if up then lpWriteNarrow s 0 a q (fitBytes 64 data) else s
      | _ => s)

/-- BACK_INVALIDATE (R330): a device write to a line; one that the host may hold is back-invalidated, and the write waits
until it is answered. -/
def execBackInvalidate (da : BitVec 48) (data : List Byte) (tag : BitVec 32) (answered : Bool) (s : State) : Out :=
  .next (
    let line := da.toNat / 128
    let d := narrowData' da.toNat data
    match daKind da.toNat with
    | .lpddr _ _ =>
      let waits := s.host.bisnps.any fun w => w.line = line
      if answered || !(s.host.snoop.contains line || waits) then
        let s := snoopOut s line
        if d.isEmpty then s else (chunkWrite s (ownReq tag.toNat) da.toNat d).2
      else
        let s := if waits then s else count s hiPage 0x810 1
        s.setHost { s.host with bisnps := s.host.bisnps ++ [⟨line, s.clock.now, da.toNat, d, tag.toNat⟩] }
    | _ => s)
where
  /-- The bytes that stay in the line. -/
  narrowData' (a : Nat) (l : List Byte) : List Byte := l.take (128 - a % 128)

/-- BISNP_TIMEOUT (R330): a back-invalidate unanswered for 10 ms; the write keeps waiting. -/
def execBisnpTimeout (i : Nat) (s : State) : Out :=
  .next (match s.host.bisnps[i]? with
    | some w => if w.since + 10000000 ≤ s.clock.now then raiseTag s hiPage 8 0 else s
    | none => s)

/-! Resets and the link. -/

/-- A pair disabled (R334): its commands that have not posted complete as ABORTED, and nothing more is written to its CQ, so each is
counted as lost (R346). Its DMA commands end. DESIGN CHOICE: a load or an unload goes on with no completion of its own, and an
opening of a chain plan is cancelled (log 103). -/
def abortPair (s : State) (q : Nat) : State :=
  let x := pairOf s q
  let mine (k : Option Ticket) : Bool := k.any fun k => k.pair = q && !k.gone
  let mark (k : Option Ticket) : Option Ticket := k.map fun k => { k with gone := k.gone || k.pair = q }
  let opens := s.chain.opens.filter fun o => o.pair = q
  let tickets := (s.plans.map fun p => b2n (mine p.2.load) + b2n (mine p.2.unload)).sum
  let gone := x.fetched.length + (x.opens.filter fun o => o.2.isSome).length + x.held.length + (s.host.dmas.filter fun d => d.pair = q).length + tickets + opens.length
  let s := setPair' s q { x with en := false, stopped := false, waiting := [], fail := none, fetched := [], opens := [], held := [] }
  let s := s.setHost { s.host with dmas := s.host.dmas.filter fun d => d.pair != q }
  let s := s.setPlans (s.plans.map fun p => (p.1, { p.2 with load := mark p.2.load, unload := mark p.2.unload }))
  let s := foldList (fun o st => endOpen (cancelRound (unclaimPages st o.slot o.entry.plist) o) o) opens s
  count s hiPage 0x800 gone

/-- QUEUE_PAIR_ENABLE (R334). -/
def pairEnable (q : Fin 64) (en : Bool) (s : State) : State :=
  if en = (pairOf s q).en then s
  else
    let s := regSet s (qReg q 0x10) (setBitN (regGet s (qReg q 0x10)) 24 en)
    if en then setPair' s q { QPair.reset with en := true } else abortPair s q

/-- QUEUE_PAIR_ENABLE, a register write (R486). -/
def execQueuePairEnable (q : Fin 64) (en : Bool) (s : State) : Out := .next (pairEnable q en (wakeFor s 1))

/-- A host-interface reset (R346): pages 1, 9, 10, 16 and 17 at reset, every pair disabled, every DMA ended. -/
def hostReset (s : State) : State :=
  let s := foldList (fun p st => resetPages st p 1) [1, 9, 10, 16, 17] s
  let s := foldList (fun q st => abortPair st q) (List.range 64) s
  s.setHost { s.host with pairs := [], turn := 0, dmas := [], msixPend := [], fnMask := false }

/-- PERST_N: the link goes down and the host interface resets (R346). -/
def execPerstN (cause : LinkLoss) (s : State) : Out :=
  .next (
    let s := hostReset s
    let s := s.setHost { s.host with linkUp := false, perst := s.host.perst || cause = .perst }
    let s := if cause = .perst then s.setSvc { s.svc with perstPin := true } else s
    if cause = .linkDown then raiseTag s hiPage 6 0 else s)

/-- FUNCTION_LEVEL_RESET (R346): the link stays up, and HI_LINK keeps showing it. DEDUCED (log 30). -/
def execFunctionLevelReset (s : State) : Out :=
  .next (
    let link := pget s hiPage 0x080
    pset (hostReset s) hiPage 0x080 link)

/-- CXL_RESET (R346): snoop filter and coherence cache emptied, the decoder uncommitted; writes that waited land. -/
def execCxlReset (s : State) : Out :=
  .next (
    let s := foldList (fun w st => snoopOut st w.line) s.host.bisnps s
    s.setHost { s.host with snoop := [], cache := [], hdm := false })

/-- Codes of R349. -/
def rateCode : LinkRate → Nat
  | .g2 => 1 | .g5 => 2 | .g8 => 3 | .g16 => 4 | .g32 => 5 | .g64 => 6

def widthCode : LinkWidth → Nat
  | .x1 => 1 | .x2 => 2 | .x4 => 4 | .x8 => 8 | .x16 => 16

/-- LINK_TRAINED (R326, R327, R349): flit mode holds at 64 GT/s; CXL only on a TV12-1T-X. While PERST_N is low the link
does not train. -/
def execLinkTrained (rate : LinkRate) (width : LinkWidth) (flit cxl : Bool) (s : State) : Out :=
  .next (if s.host.perst then s
    else
      let c := cxl && offersCxl s
      let v := rateCode rate + widthCode width * 2 ^ 3 + b2n (flit || rate = .g64) * 2 ^ 8 + b2n c * 2 ^ 9
      let s := pset (s.setHost { s.host with linkUp := true }) hiPage 0x080 v
      if rate = .g64 && width = .x16 then s else raiseTag s hiPage 7 0)

/-- PERST_N_RELEASE (R514). -/
def execPerstNRelease (s : State) : Out :=
  .next ((s.setHost { s.host with perst := false }).setSvc { s.svc with perstPin := false })

end Sys2Proof.Machine
end

