-- ==== Sys2Proof/Machine/Fabric.lean ====
section
/-!
DEFINITION. The on-module fabric: flit parity, arbitration, the halves of a tile, bridges (R310 to R325), and the fence of
a base die (R479).
-/

namespace Sys2Proof.Machine

open Sys2Proof

/-- Page of a tile's fabric (R323). -/
def fbPage (t : Nat) : Nat := tilePage t 84

/-- FLIT_PARITY_REPLAY (R310): a flit arrived with bad parity and was replayed once; `again` says that the replay failed too: the
requester's next flit through the segment is delivered poisoned (log 83). -/
def execFlitParityReplay (t : Fin 12) (seg : Fin 4) (src : BitVec 8) (tag : BitVec 32) (again : Bool) (s : State) : Out :=
  .next (
    let s := count s (fbPage t) 0x830 1
    let s := setCurop s (fbPage t) [seg.val + 1 + src.toNat * 2 ^ 8, tag.toNat]
    let s := raiseTag s (fbPage t) (if again then 1 else 0) tag.toNat
    let who := if src.toNat < 41 then some (Leaf.part t src.toNat) else none
    if again then s.setStore { s.store with badFlits := s.store.badFlits ++ [⟨who, .seg t seg⟩] } else s)

/-! Arbitration (R319, R320). -/

end Sys2Proof.Machine

namespace Sys2Proof

/-- The number of an arbiter output in State. -/
def ArbOut.key : ArbOut → Nat
  | .mesh t h k => 5 * (k * 32 + t * 2 + h)
  | .slice t n => 5 * (t * 32 + n) + 1
  | .strip t k => 5 * (k * 16 + t) + 2
  | .die a k => 5 * (k * 4 + a) + 3
  | .ring a ns => 5 * (a * 2 + Machine.b2n ns) + 4

end Sys2Proof

namespace Sys2Proof.Machine

open Sys2Proof

/-- Whether a leaf requester stands in a half (R319). -/
def leafIn (t h : Nat) : Leaf → Bool
  | .part u p => u = t && ptHalf p = some h
  | .slice u n => u = t && sliceHalf n = h
  | _ => false

/-- Whether a leaf requester is a local agent of a base die (R8, R319). -/
def leafOn (a : Nat) : Leaf → Bool
  | .tongs t => tileDie t = a
  | .port c => portDie c = a
  | .host => a = 0
  | .vexondane => a = 0
  | _ => false

/-- What may feed an arbiter output (R319): at the core level the leaves of the half and what enters it from the seam strip, and at a
slice controller its matrix core's private bonds too; at the tile level the two halves, the TCC, and the base die; at the base-die
level the three tile bonds, the local agents and the bridges that end there; at a bridge its own base die and transit traffic. -/
def arbFeeds : ArbOut → ArbSrc → Bool
  | .mesh t h _, .leaf x => leafIn t h x
  | .mesh t h _, .out (.strip u k) => u = t && k = h
  | .mesh t h _, .out (.slice u n) => u = t && sliceHalf n = h
  | .slice t n, .leaf x => leafIn t (sliceHalf n) x
  | .slice t n, .out (.mesh u h _) => u = t && h = sliceHalf n
  | .strip t _, .leaf x => x = .part t 40
  | .strip t _, .out (.mesh u _ _) => u = t
  | .strip t _, .out (.die a _) => a = tileDie t
  | .die a _, .leaf x => leafOn a x
  | .die a _, .out (.strip t k) => tileDie t = a && k = 2
  | .die a _, .out (.ring b ns) => beyond b (!ns) = a
  | .ring a _, .out (.die b _) => b = a
  | .ring a ns, .out (.ring b other) => beyond b (!other) = a && other != ns
  | _, _ => false

/-- The census that a flit waiting on an input carries: 1 from a leaf, else what the arbiter before it stamped (R320). -/
def flitCensus (s : State) : ArbSrc → Nat
  | .leaf _ => 1
  | .out o => max 1 (kget .reset s.store.arbs o.key).stamp

/-- 1,024 FAB cycles at 1.2 GHz, in ns (R319). -/
def arbWindow : Nat := 854

/-- Index of the greatest credit among the waiting inputs, lowest on ties, from index i on. -/
def bestInput : Nat → List (Bool × Int) → Option (Nat × Int) → Option Nat
  | _, [], b => b.map Prod.fst
  | i, (w, c) :: l, b =>
    bestInput (i + 1) l (match b with
      | some x => if w && x.2 < c then some (i, c) else b
      | none => if w then some (i, c) else none)

/-- The sum of the census of those inputs that a mark tells apart. -/
def censusSum (marks : List Bool) (ns : List Nat) : Nat :=
  ((marks.zip ns).map fun x => if x.1 then x.2 else 0).sum

/-- One flit slot of an arbiter output at a time, given for each input the census of the flit that waits on it (R320). -/
def arbGrant (now : Nat) (a : Arbiter) (inputs : List (Option Nat)) : Arbiter :=
  let waits := inputs.map Option.isSome
  let ns := inputs.mapIdx fun i x => x.getD (a.census.getD i 0)
  let seen := inputs.mapIdx fun i x => if x.isSome then some now else (a.seen.getD i none)
  let credit := inputs.mapIdx fun i x => match x with
    | some n => a.credit.getD i 0 + Int.ofNat n
    | none => 0
  match bestInput 0 (waits.zip credit) none with
  | some g =>
    { credit := credit.set g (credit.getD g 0 - Int.ofNat (censusSum waits ns)), census := ns, seen := seen, granted := some g
      stamp := censusSum (seen.map fun x => x.any fun t => now < t + arbWindow) ns }
  | none => { a with credit := credit, census := ns, seen := seen }

/-- ARBITER_GRANT (R319, R320) at an output: an input that nothing of R319 feeds there has no arbiter. DESIGN CHOICE: the inputs
stand in one order at every slot of an output (log 100). -/
def execArbiterGrant (arb : ArbOut) (inputs : List ArbInput) (s : State) : Out :=
  .next (if !inputs.all (fun i => arbFeeds arb i.src) then s
    else
      let ns := inputs.map fun i => if i.waiting then some (flitCensus s i.src) else none
      s.setStore { s.store with
        arbs := kinsert s.store.arbs arb.key (arbGrant s.clock.now (kget .reset s.store.arbs arb.key) ns) })

/-! Halves (R315 to R318). -/

/-- Whether an outstanding transfer of participant c runs in, or targets, a half (R316). -/
def xferIn (t h c : Nat) (x : Xfer) : Bool :=
  (c / 41 = t && ptHalf (c % 41) = some h) || (x.halves (c / 41)).contains (t, h)

/-- Whether a near-bank descriptor or a scan of a tile, queued or running, targets a half (R316). -/
def nearBankIn (s : State) (t h : Nat) : Bool :=
  let hits (c : List Byte) : Bool := (cmdSlices c).any fun n => sliceHalf n = h
  (List.range 8).any (fun l => ((layerOf s t l).queue ++ (layerOf s t l).run).any fun i => hits i.cmd) ||
  (scanOf s t).queue.any hits || (scanOf s t).run.any fun r => hits r.cmd

/-- Whether a REDUCE into bonded memory targets a half. -/
def redIn (t h dst : Nat) : Bool :=
  match daKind dst with
  | .bonded u n _ => u = t && sliceHalf n = h
  | _ => false

/-- Whether no memory command of a tile, waiting or running, and no FILL targets a half (R316). -/
def commandsIdle (s : State) (t h : Nat) : Bool :=
  s.eng.tongs.all (fun x => (x.2.memQ.all fun c => !(mcmdHalves x.1 c).contains (t, h)) && x.2.reds.all fun c => !redIn t h c.dst) &&
  (s.eng.remote.all fun x => x.2.all fun c => !redIn t h c.dst) &&
  s.eng.fills.all fun x => !(daHalves x.2.1 x.2.2).contains (t, h)

/-- Whether a half is idle (R316). -/
def halfIdle (s : State) (t h : Nat) : Bool :=
  ((List.range 40).all fun p => ptHalf p != some h || (coreOf s (coreId t p)).run = .idle) &&
  s.cores.all (fun c => c.2.xfers.all fun x => !xferIn t h c.1 x) &&
  (tongsOf s t).walks.all (fun w => ptHalf (field w.cmd 0x01 1) != some h) &&
  commandsIdle s t h &&
  !nearBankIn s t h &&
  (List.range 32).all (fun n => sliceHalf n != h ||
    ((mcOf s t n).descs = [] && (sliceOf s t n).mb.all fun e => e.rmw)) &&
  kget [] s.store.seam (t * 2 + h) = []

/-- HALF_IDLE_TIMEOUT (R316): automatic clock-down begins. -/
def execHalfIdleTimeout (t : Fin 12) (h : Fin 2) (s : State) : Out :=
  let idle := 1000 * max 1 (fld (pget s (fbPage t) 0x088) 15 0)
  .next (if tileUp s t && halfState s t h = 0 && bitOf (pget s (fbPage t) 0x080) h && halfIdle s t h &&
      kget 0 s.store.idleSince (t * 2 + h) + idle ≤ s.clock.now then setHalf s t h 1
    else s)

/-- HALF_DOWN (R315): the clock-down sequence ends; a half with a latched wake wakes from there (HALF_AWAKE). -/
def execHalfDown (t : Fin 12) (h : Fin 2) (s : State) : Out :=
  .next (if halfState s t h = 1 || halfState s t h = 3 then setHalf s t h 2 else s)

/-- HALF_WAKE_REQUEST (R317): a request enters the seam FIFO toward a half that is DOWN or GOING_DOWN, and the first wakes it.
With the FIFO full the sender waits. -/
def execHalfWakeRequest (t : Fin 12) (h : Fin 2) (who : Leaf) (tag : BitVec 32) (s : State) : Out :=
  let c := halfState s t h
  .next (if !tileUp s t || c = 0 then s
    else if halfGated s t h then raiseTag s (fbPage t) 3 tag.toNat
    else if 64 ≤ (kget [] s.store.seam (t * 2 + h)).length then s
    else count (seamRequest s ⟨who, tag.toNat⟩ t h 1) (fbPage t) 0x818 1)

/-- HALF_AWAKE (R317): a half with a latched wake, its clock-down finished, reaches AWAKE and its FIFO drains. While Quench holds the
half it stays DOWN, and each request that has waited past 8 µs sets WAKE_SLOW (R420). -/
def execHalfAwake (t : Fin 12) (h : Fin 2) (s : State) : Out :=
  .next (if (kfind s.store.wakeSince (t * 2 + h)).isNone || halfState s t h != 2 then s
    else if !s.quench.holding then awaken s t h
    else slowWake (slowRequests s t h) t h)

/-- GATED_ACCESS (R318). -/
def execGatedAccess (t : Fin 12) (h : Fin 2) (tag : BitVec 32) (s : State) : Out :=
  .next (if tileUp s t && halfGated s t h then raiseTag s (fbPage t) 3 tag.toNat else s)

/-- FB_HALF_CTL_WRITE (R317, R323): a WAKE bit has no effect on an AWAKE half (R318). -/
def fbHalfCtlWrite (t : Fin 12) (v : BitVec 32) (s : State) : State :=
  blockWrite s (fbPage t) fun s =>
    let s := pset s (fbPage t) 0x080 (v.toNat % 4)
    let s := if bitOf v.toNat 2 && halfState s t 0 != 0 then wakeHalf s t 0 else s
    if bitOf v.toNat 3 && halfState s t 1 != 0 then wakeHalf s t 1 else s

/-! Bridges (R322, R325). -/

/-- The two end pages of bridge X01, X13, X23, X02, in this order. -/
def bridgeEnds : Nat → Nat × Nat
  | 0 => (basePage 0 8, basePage 1 8)
  | 1 => (basePage 1 9, basePage 3 9)
  | 2 => (basePage 2 8, basePage 3 8)
  | _ => (basePage 0 9, basePage 2 9)

/-- The live levels of a bridge end, degraded or down, as BR_STAT shows it (R325, R427). -/
def liveBridge (s : State) (pg : Nat) : State :=
  let mods := fld (pget s pg 0x080) 3 0
  setLive (setLive s pg 1 (mods != 0 && mods != 0xF)) pg 2 (mods = 0)

/-- BR_STAT of one end with modules lost: DEGRADED, or DOWN with its paths rerouted when it was the last. -/
def bridgeLose (s : State) (pg mods : Nat) : State :=
  let v := setFld (pget s pg 0x080) 3 0 mods
  let s := liveBridge (pset s pg 0x080 (if mods = 0 then setFld v 5 4 3 else v)) pg
  raise s pg (if mods = 0 then 2 else 1)

/-- A flit in flight on a bridge that goes down: it completes poisoned, and the step group of its tag is suspect (R322). Each end
shows it on its own page (R325). -/
def loseFlit (x m : Nat) (y : Leaf × BitVec 32) (s : State) : State :=
  let ends := [(bridgeEnds x).1, (bridgeEnds x).2]
  let s := foldList (fun pg st => raiseTag (setCurop st pg [m, y.2.toNat]) pg 2 y.2.toNat) ends s
  s.setStore { s.store with badFlits := s.store.badFlits ++ [⟨some y.1, .bridge x⟩] }

/-- BRIDGE_MODULE_FAIL (R322): `lost` are the requesters and step tags of the flits in flight, which the last module loses. -/
def execBridgeModuleFail (x : Fin 4) (m : Fin 4) (lost : List (Leaf × BitVec 32)) (s : State) : Out :=
  let e := bridgeEnds x
  let up := fld (pget s e.1 0x080) 3 0
  .next (if bitOf up m then
      let mods := setBitN up m false
      let s := bridgeLose (bridgeLose s e.1 mods) e.2 mods
      if mods = 0 then foldList (fun y st => loseFlit x m y st) lost s else s
    else s)

/-- UCIE_ADAPTER_RETRY (R322) at one end of a bridge. -/
def execUcieAdapterRetry (x : Fin 4) (far : Bool) (s : State) : Out :=
  let pg := if far then (bridgeEnds x).2 else (bridgeEnds x).1
  .next (raise (count s pg 0x818 1) pg 0)

/-- The bridges of a base die. -/
def dieBridges (a : Nat) : List Nat :=
  (List.range 4).filter fun x => [basePage a 8, basePage a 9].contains (bridgeEnds x).1 ||
    [basePage a 8, basePage a 9].contains (bridgeEnds x).2

/-- A bridge DOWN at both ends, with the flits in flight on it: bridge, requester and step tag (R322). DESIGN CHOICE: they are shown on
module 0, since the rule names none (log 83). -/
def downBridge (s : State) (lost : List (Fin 4 × Leaf × BitVec 32)) (x : Nat) : State :=
  let e := bridgeEnds x
  if fld (pget s e.1 0x080) 3 0 = 0 then s
  else
    foldList (fun y st => loseFlit x 0 y.2 st) (lost.filter fun y => y.1 = x) (bridgeLose (bridgeLose s e.1 0) e.2 0)

/-- BASE_FENCE (R479): the base die fenced, and its bridges DOWN at both ends. -/
def execBaseFence (a : Fin 4) (lost : List (Fin 4 × Leaf × BitVec 32)) (s : State) : Out :=
  .next (if !baseUp s a then s else foldList (fun x st => downBridge st lost x) (dieBridges a) (fenceBase s a))

end Sys2Proof.Machine
end

