-- ==== Sys2Proof/Machine/NbArith.lean ====
section
/-!
DEFINITION. The arithmetic of a near-bank unit: products and sums of a bank word, the checksum comparison, the chain and
the output (R213, R219 to R222).
-/

namespace Sys2Proof.Machine

open Sys2Proof

/-- A set that starts: every accumulator and check accumulator +0 (R219). -/
def nbFresh (int : Bool) : NbSet :=
  ⟨true, int, false, List.replicate 256 0#32, List.replicate 16 0#32, List.replicate 16 0#32⟩

/-- A set that continues one of the other kind: the spec states no content for it, so each accumulator is a free value
(log 27). -/
def nbClash (int : Bool) (epoch : Nat) : NbSet :=
  let f (lo n : Nat) : List Word32 := (List.range n).map fun i => Config.lostWord epoch (lo + i)
  ⟨true, int, false, f 0 256, f 256 16, f 272 16⟩

/-- The product of two 16-bit elements (R39, R43). -/
def nbProduct (fmt : Nat) (w x : Nat) : Word32 :=
  if fmt = 0xC then BitVec.ofInt 32 (sext 16 w * sext 16 x)
  else f32Product (elemVal fmt w 127) (elemVal fmt x 127)

/-- The sum of an accumulator kind (R40, R43). -/
def nbAdd (int : Bool) (a b : Word32) : Word32 := if int then a + b else f32Add a b

/-- A data word taken: every lane and every column below Q (R219). -/
def nbDataWord (fmt : Nat) (x : NbSet) (ws xs : List Nat) : NbSet :=
  { x with acc := (List.range 256).map fun i =>
      let a := x.acc.getD i 0#32
      if i % 16 < xs.length then nbAdd x.isInt a (nbProduct fmt (ws.getD (i / 16) 0) (xs.getD (i % 16) 0)) else a }

/-- The product of a check word and an operand (R219, R43). -/
def nbCheckProduct (fmt : Nat) (c : Word32) (x : Nat) : Word32 :=
  if fmt = 0xC then BitVec.ofInt 32 (c.toInt * sext 16 x) else f32Product (f32Val c) (elemVal fmt x 127)

/-- A check word taken (R219). -/
def nbCheckWord (fmt : Nat) (x : NbSet) (c : Word32) (xs : List Nat) : NbSet :=
  let upd (mag : Bool) (l : List Word32) : List Word32 := (List.range 16).map fun q =>
    let a := l.getD q 0#32
    if q < xs.length then
      let p := nbCheckProduct fmt c (xs.getD q 0)
      nbAdd x.isInt a (if mag then f32Abs p else p)
    else a
  { x with c := upd false x.c, cabs := if x.isInt then x.cabs else upd true x.cabs }

/-- The 16-bit elements of a 32-byte word of a line (R214). -/
def lineWord (line : List Byte) (w : Nat) : List Nat :=
  (List.range 16).map fun i => leNat ((line.drop (32 * w + 2 * i)).take 2)

/-- The check words of a check line (R215). -/
def checkWordOf (line : List Byte) (m : Nat) : Word32 := BitVec.ofNat 32 (leNat ((line.drop (4 * m)).take 4))

/-- A line taken at position p of its stream or block: `ops n` are the operands of data word n (R215, R219). -/
def nbLine (fmt : Nat) (chk : Bool) (x : NbSet) (line : List Byte) (p : Nat) (ops : Nat → List Nat) : NbSet :=
  if chk && p % 9 = 8 then
    (List.range 32).foldl (fun x m => nbCheckWord fmt x (checkWordOf line m) (ops (p / 9 * 32 + m))) x
  else
    let n0 := if chk then p / 9 * 32 + p % 9 * 4 else 4 * p
    (List.range 4).foldl (fun x w => nbDataWord fmt x (lineWord line w) (ops (n0 + w))) x

/-- The comparison of column q of a set (R220). -/
def nbColCheck (x : NbSet) (tol q : Nat) : ColCheck :=
  let col := (List.range 16).map fun i => x.acc.getD (i * 16 + q) 0#32
  let c := x.c.getD q 0#32
  if x.isInt then
    let s := bankSum true 4 col
    if c = s then .pass else .fail (c - s) 0#32
  else
    let s := bankSum false 4 col
    let sa := bankSum false 4 (col.map f32Abs)
    let ca := x.cabs.getD q 0#32
    let d := f32Abs (f32Sub c s)
    let m := f32Add ca sa
    if !([c, ca, s, sa, d, m].all f32Finite && col.all f32Finite) then .skip
    else
      let b := f32Of (fvScale (-(tol : Int)) (f32Val m))
      if d.toNat ≤ b.toNat then .pass else .fail d b

/-- One hop of the neighbour chain (R221), which carries the accumulators of Q columns: the running sum plus the next bank's set;
the other columns and the check accumulators are those of the bank. -/
def nbHop (q : Nat) (r x : NbSet) : NbSet :=
  { x with
    acc := (List.range 256).map fun k =>
      let a := x.acc.getD k 0#32
      if k % 16 < q then nbAdd x.isInt (r.acc.getD k 0#32) a else a
    poison := r.poison || x.poison }

/-- The output format that is applied (R218). -/
def nbOutCode (int : Bool) (ofmt : Nat) : Nat :=
  if int then 0xE else if ofmt = 0 || ofmt = 1 then ofmt else 0xD

/-- Bytes of a result of Q columns. -/
def nbOutLen (code q : Nat) : Nat := q * 16 * fmtWidth code / 8

/-- A result in the layout of R222. -/
def nbOut (x : NbSet) (ofmt q : Nat) : List Byte :=
  let code := nbOutCode x.isInt ofmt
  (List.range (q * 16)).flatMap fun k =>
    let a := x.acc.getD (k % 16 * 16 + k / 16) 0#32
    leBytes (fmtWidth code / 8) (if x.isInt then i32ToOut code a else f32ToOut code a)

end Sys2Proof.Machine
end

