-- ==== Sys2Proof/Machine/Nbu.lean ====
section
/-!
DEFINITION. Near-bank work of a layer control: posts, starts, row grants, the final comparison and delivery, refresh
(R214 to R232), and the scan's part of the streaming (R237, R238, R243 to R245).
-/

namespace Sys2Proof.Machine

open Sys2Proof

/-! Fields of a descriptor and of a scan (R217, R241). -/

def nbFmt (c : List Byte) : Nat := field c 1 1
def nbQ (c : List Byte) : Nat := field c 2 1
def nbCtl (c : List Byte) : Nat := field c 3 1
def nbSeg (c : List Byte) : Nat := field c 5 1
def nbOfmt (c : List Byte) : Nat := field c 6 1
def nbLine0 (c : List Byte) : Nat := fld (field c 0x10 4) 16 0
def nbNdata (c : List Byte) : Nat := field c 0x14 4
def nbOutField (c : List Byte) : Nat := field c 0x20 4
def nbDest (c : List Byte) : Nat := fld (nbCtl c) 5 4
def nbFinalBit (c : List Byte) : Bool := bitOf (nbCtl c) 1
def scLayers (c : List Byte) : List Nat := setBits (field c 5 1) 8
def scK (c : List Byte) : Nat := field c 6 2
def scD (c : List Byte) : Nat := field c 0x0E 2
def scBpb (c : List Byte) : Nat := field c 0x14 4

/-- Whether a stream has check lines: bit 2 of a descriptor's CTL, bit 0 of a scan's. -/
def NbItem.chk (i : NbItem) : Bool := bitOf (nbCtl i.cmd) (if i.scan then 0 else 2)

/-- Lines of a block of a corpus (R237). -/
def blockLines (c : List Byte) : Nat := if bitOf (nbCtl c) 0 then 9 * scD c / 32 else scD c / 4

/-- Lines that each bank of an item streams (R217, R237). -/
def NbItem.total (i : NbItem) : Nat :=
  if i.scan then scBpb i.cmd * blockLines i.cmd
  else nbNdata i.cmd + if i.chk then nbNdata i.cmd / 8 else 0

/-- Whether bank index b of an item has lines left. -/
def NbItem.left (i : NbItem) (b : Nat) : Bool := (cmdBanks i.cmd).contains b && kget 0 i.prog b < i.total

/-- Whether an item has streamed every line of every bank. -/
def NbItem.streamed (i : NbItem) : Bool := (cmdBanks i.cmd).all fun b => i.total ≤ kget 0 i.prog b

/-- End of tile SRAM (R99). -/
def tileSramEnd : Nat := 0x1000000

/-- Command lines of tile SRAM from an offset on; past its end they read as zeros (log 26). -/
def sramCommands (s : State) (t off n : Nat) : List (List Byte) :=
  (List.range n).map fun i =>
    if off + 128 * i + 128 ≤ tileSramEnd then readBytes s (tlaKey t (off + 128 * i)) 128 else zeroLine

/-- The halves of the slices that a command line names were busy until now (R316). -/
def touchSlices (s : State) (t : Nat) (c : List Byte) : State :=
  foldList (fun n st => touchHalf st t (sliceHalf n)) (cmdSlices c) s

/-! Posts and starts. -/

/-- NL_POST (R230, R233). -/
def nlPostWrite (t : Fin 12) (l : Fin 8) (v : BitVec 32) (s : State) : State :=
  blockWrite s (nlPage t l) fun s =>
    let n := fld v.toNat 27 24 + 1
    let x := layerOf s t l
    if 32 < (x.queue.filter fun i => !i.scan).length + n then raise s (nlPage t l) 6
    else
      let items := (sramCommands s t (fld v.toNat 23 7 * 128) n).map fun c => NbItem.mk false c 0 [] [] false
      showLayer (setLayer s t l { x with queue := x.queue ++ items }) t l

/-- Whether every run of 2^SEG bank indices is named whole or not at all (R218). -/
def segWhole (c : List Byte) : Bool :=
  let g := 2 ^ nbSeg c
  let m := cmdBanks c
  (List.range (16 / g)).all fun k =>
    let run := (List.range g).map (k * g + ·)
    run.all m.contains || run.all fun b => !m.contains b

/-- The chain segments of a descriptor: index and banks in ascending order (R221). -/
def nbSegments (c : List Byte) : List (Nat × List Nat) :=
  let g := 2 ^ nbSeg c
  ((List.range (16 / g)).map fun k => (k, ((List.range g).map (k * g + ·)).filter (cmdBanks c).contains)).filter
    fun x => !x.2.isEmpty

/-- Slice offset of bank line j (R214). -/
def bankOff (l b j : Nat) : Nat := j * 2 ^ 14 + b * 2 ^ 10 + l * 2 ^ 7

/-- Whether a line lies wholly inside an NBU-owned range (R225). -/
def lineOwned (s : State) (da : Nat) : Bool := s.store.owned.any fun r => r.lo ≤ da && da + 128 ≤ r.hi

/-- Lines that a writeback of a descriptor fills (R224). -/
def wbLines (c : List Byte) : Nat := divUp (nbOutLen (nbOutCode (nbFmt c = 0xC) (nbOfmt c)) (nbQ c)) 128

/-- Whether the writeback of a descriptor is allowed (R218). -/
def wbOk (s : State) (t l : Nat) (c : List Byte) : Bool :=
  (nbSeg c = 0 || (nbSegments c).length ≤ 1) &&
  (cmdSlices c).all fun n => (nbSegments c).all fun x =>
    (List.range (wbLines c)).all fun k => nbOutField c + k < 98304 &&
      lineOwned s (sliceBase t n + bankOff l ((x.2.getLast?).getD 0) (nbOutField c + k))

/-- TLA of the output of a slice and a segment (R222). -/
def nbOutTla (c : List Byte) (n k : Nat) : Nat := nbOutField c + n * field c 0x24 4 + k * field c 0x28 4

/-- Whether a half of a named slice is gated, or the NBU group of one is quarantined (R218, R242). -/
def groupsOk (s : State) (t l : Nat) (c : List Byte) : Bool :=
  (cmdSlices c).all fun n => !halfGated s t (sliceHalf n) && !bitOf (pget s (nlPage t l) 0x0B4) n

/-- BLK_CAP of a layer control (R236). -/
def nbCap (s : State) (t l bit : Nat) : Bool := bitOf (capWord s (nlPage t l)) bit

/-- Whether a descriptor is legal (R217, R218, R236). Fields outside the values of R217 that R218 does not name count as
illegal: DEDUCED (log 28). -/
def descOk (s : State) (t l : Nat) (i : NbItem) : Bool :=
  let c := i.cmd
  guarded c 64 && field c 0 1 = 1 && (nbFmt c = 0 || nbFmt c = 1 || nbFmt c = 0xC) &&
  1 ≤ nbQ c && nbQ c ≤ 16 && nbDest c != 3 && nbSeg c ≤ 4 &&
  1 ≤ nbNdata c && nbNdata c ≤ 98304 && (!i.chk || nbNdata c % 8 = 0) && field c 0x18 4 % 128 = 0 &&
  nbLine0 c + i.total ≤ 98304 &&
  ((cmdBanks c).all fun b => field c 0x18 4 + b * field c 0x1C 4 + 128 * nbNdata c ≤ tileSramEnd) &&
  (!(nbFinalBit c && nbDest c = 0) || (cmdSlices c).all fun n => (nbSegments c).all fun x =>
    nbOutTla c n x.1 + nbOutLen (nbOutCode (nbFmt c = 0xC) (nbOfmt c)) (nbQ c) ≤ tileSramEnd) &&
  groupsOk s t l c && (nbSeg c = 0 || segWhole c) && (nbDest c != 1 || wbOk s t l c) &&
  nbCap s t l 0 && (nbFmt c != 0xC || nbCap s t l 1) && (nbDest c != 1 || nbCap s t l 2) &&
  (nbSeg c = 0 || nbCap s t l 3)

/-- The first queued item that may start: its banks are shared with no earlier item, running or queued (R230). -/
def nextItem : List Nat → List NbItem → List NbItem → Option (NbItem × List NbItem)
  | _, _, [] => none
  | used, before, i :: rest =>
    if (cmdBanks i.cmd).any used.contains then nextItem (used ++ cmdBanks i.cmd) (before ++ [i]) rest
    else some (i, before ++ rest)

/-- Halves of named slices woken, and tests of named NBU groups abandoned (R218, R317, R451). -/
def wakeSlices (s : State) (t l : Nat) (c : List Byte) : State :=
  foldList (fun n st => abandonTest (wakeHalf st t (sliceHalf n)) t (nbUnit l n)) (cmdSlices c) s

/-- A set made ready for a descriptor (R219). -/
def openSet (s : State) (t l n b k : Nat) (op int : Bool) : State :=
  let x := nbSetOf s t l n b k
  if op || !x.isOpen then putNbSet s t l n b k (nbFresh int)
  else if x.isInt = int then s
  else putNbSet (s.setFree (s.free + 1)) t l n b k (nbClash int s.free)

/-- The sets of a descriptor made ready. -/
def openSets (s : State) (t l : Nat) (c : List Byte) : State :=
  foldList (fun n st => foldList (fun b st =>
    openSet st t l n b (b2n (bitOf (nbCtl c) 6)) (bitOf (nbCtl c) 0) (nbFmt c = 0xC)) (cmdBanks c) st) (cmdSlices c) s

/-- STREAM: the first item that may start does so, while fewer than eight run; an illegal descriptor is discarded
(R218, R219, R230). -/
def startItem (s : State) (t l : Nat) : State :=
  let x := layerOf s t l
  if 8 ≤ x.run.length then s
  else
    match nextItem (x.run.flatMap fun i => cmdBanks i.cmd) [] x.queue with
    | none => s
    | some (i, rest) =>
      let s := setLayer s t l { x with queue := rest }
      if !i.scan && !descOk s t l i then showLayer (raiseTag s (nlPage t l) 5 (cmdTag i.cmd)) t l
      else
        let s := wakeSlices s t l i.cmd
        let s := if i.scan then s else openSets s t l i.cmd
        let x := layerOf s t l
        let i := { i with ck := pget s (nlPage t l) 0x090 }
        showLayer (setLayer s t l { x with run := x.run ++ [i] }) t l

def execStream (t : Fin 12) (l : Fin 8) (s : State) : Out := .next (startItem s t l)

/-! The comparison (R220). -/

/-- The first failing column recorded (R220, R233). -/
def recordNbFail (s : State) (pg n b q : Nat) (d e : Word32) : State :=
  if bitOf (pget s pg 0x0A0) 13 then s
  else pset (pset (pset s pg 0x0A0 (n + b * 2 ^ 5 + q * 2 ^ 9 + 2 ^ 13)) pg 0x0A4 d.toNat) pg 0x0A8 e.toNat

/-- A set compared before its results leave it; without check lines or with CK_EN 0 every column is skipped. -/
def compareSet (s : State) (t l n b k : Nat) (i : NbItem) : State :=
  let pg := nlPage t l
  let q := nbQ i.cmd
  if !(i.chk && bitOf i.ck 8) then count s pg 0x840 q
  else
    let x := nbSetOf s t l n b k
    foldList (fun c st =>
      match nbColCheck x (clampN 6 20 (fld i.ck 4 0)) c with
      | .pass => count st pg 0x830 1
      | .skip => raiseTag (count st pg 0x840 1) pg 1 (cmdTag i.cmd)
      | .fail d e => raiseTag (recordNbFail (count st pg 0x838 1) pg n b c d e) pg 0 (cmdTag i.cmd)) (List.range q) s

/-! Scores (R238, R243 to R246). -/

/-- Rank of a bank among the banks that a scan names (R238). -/
def bankRank (c : List Byte) (n l b : Nat) : Nat :=
  let ls := scLayers c
  let bs := cmdBanks c
  ((cmdSlices c).idxOf n * ls.length + ls.idxOf l) * bs.length + bs.idxOf b

/-- The scan of a tile with one candidate offered to the list of a slice and a query (R245). -/
def offer (r : ScanRun) (n q id : Nat) (score : Word32) : ScanRun × Nat :=
  let old := kget [] r.lists (n * 16 + q)
  let new := (candInsert score id old).take (scK r.cmd)
  if new = old then (r, 0) else ({ r with lists := kinsert r.lists (n * 16 + q) new }, 1)

/-- Whether a vector of a block, and its score, may be listed (R238, R245). -/
def admits (c : List Byte) (w : Nat) (score : Word32) : Bool :=
  w % 2 ^ 32 < field c 0x28 4 && !f32IsNan score && f32Rank (BitVec.ofNat 32 (field c 0x2C 4)) ≤ f32Rank score

/-- The scores of a block filtered into the lists of its slice, and the candidates inserted. -/
def filterBlock (r : ScanRun) (n l b j : Nat) (x : NbSet) : ScanRun × Nat :=
  let c := r.cmd
  let w0 := (bankRank c n l b * scBpb c + j) * 16
  foldList (fun k (a : ScanRun × Nat) =>
    let i := k % 16
    let q := k / 16
    let score := x.acc.getD (i * 16 + q) 0#32
    if admits c (w0 + i) score then
      let (r, m) := offer a.1 n q ((field c 0x24 4 + w0 + i) % 2 ^ 32) score
      (r, a.2 + m)
    else a) (List.range (16 * nbQ c)) (r, 0)

/-- A block done in one bank: compared, filtered, and its set empty (R243 to R246). -/
def blockDone (s : State) (t l n b j : Nat) (i : NbItem) : State :=
  let s := compareSet s t l n b (j % 2) i
  let x := nbSetOf s t l n b (j % 2)
  let s := putNbSet s t l n b (j % 2) .empty
  let pg := tilePage t 0
  match (scanOf s t).run with
  | none => s
  | some r =>
    let (r, m) := filterBlock r n l b j x
    let r := { r with
      blocks := kinsert r.blocks n (kget 0 r.blocks n + 1)
      poison := if x.poison && !r.poison.contains n then r.poison ++ [n] else r.poison }
    let s := setScan s t { scanOf s t with run := some r }
    let s := pset s pg 0x708 ((r.blocks.map Prod.snd).foldl (· + ·) 0 % 2 ^ 32)
    let s := count (count s pg 0x888 (16 * nbQ r.cmd)) pg 0x890 m
    if !x.poison then s
    else
      let s := if bitOf (pget s pg 0x710) 31 then s
        else pset s pg 0x710 (n + l * 2 ^ 5 + b * 2 ^ 8 + j % 2 ^ 19 * 2 ^ 12 + 2 ^ 31)
      raiseTag s pg 19 (cmdTag r.cmd)

/-! Streaming (R214, R219, R227, R229). -/

/-- A line read by a near-bank unit with its check (R227), and whether it is used as +0: a re-read, then the golden copy that the
slice controller fetches. -/
def nbReadLine (s : State) (t n l b j tag : Nat) (ups : List NbUpsetKind) : (List Byte × Bool) × State :=
  let o := bankOff l b j
  let da := sliceBase t n + o
  if s.mem.lineGood da && !ups.contains .reads then
    ((readBytes s da 128, false), if ups.contains .read then raiseTag s (nlPage t l) 3 tag else s)
  else
    match goldenOf s da with
    | some g =>
      let ((d, st), s) := goldenStep s tag t n o g
      if st = .ok then ((d, false), raiseTag s (nlPage t l) 3 tag)
      else ((zeroLine, true), raiseTag s (nlPage t l) 2 tag)
    | none => ((zeroLine, true), raiseTag s (nlPage t l) 2 tag)

/-- The operands of data word n for bank index b (R217, R241). -/
def nbOps (s : State) (t : Nat) (i : NbItem) (b n : Nat) : List Nat :=
  (List.range (nbQ i.cmd)).map fun q =>
    let a := if i.scan then field i.cmd 0x18 4 + q * (2 * scD i.cmd) + 2 * n
      else field i.cmd 0x18 4 + b * field i.cmd 0x1C 4 + 32 * n + 2 * q
    s.mem.readNat (tlaKey t a) 2

/-- An operand entry as a register file holds it, 16 columns of 16 bits (R212, R217): the array's entry of a stream; of a scan the queries,
and no stated value above them. -/
def fileEntry (s : State) (t : Nat) (i : NbItem) (b n : Nat) : List Nat :=
  if i.scan then nbOps s t i b n ++ (List.range (16 - nbQ i.cmd)).map fun q => (Config.freeWord s.free).toNat / 2 ^ q % 2 ^ 16
  else (List.range 16).map fun q => s.mem.readNat (tlaKey t (field i.cmd 0x18 4 + b * field i.cmd 0x1C 4 + 32 * n + 2 * q)) 2

/-- What upsets of a unit do to its set as it takes a line (R227): parity errors of the operand register file and of the accumulators
poison it. -/
def nbUpset (s : State) (t n l b k tag : Nat) (ups : List NbUpsetKind) : State :=
  let rf := ups.contains .operandFile
  let ac := ups.contains .accumulator
  let s := if rf || ac then putNbSet s t l n b k { nbSetOf s t l n b k with poison := true } else s
  let s := if rf then raiseTag s (nlPage t l) 7 tag else s
  if ac then raiseTag s (nlPage t l) 8 tag else s

/-- One line of one bank streamed; p is its position in the bank's stream. -/
def streamLine (s : State) (t l n b p : Nat) (i : NbItem) (ups : List NbUpset) : State :=
  let bl := if i.scan then max 1 (blockLines i.cmd) else 1
  let j := p / bl
  let k := if i.scan then j % 2 else b2n (bitOf (nbCtl i.cmd) 6)
  let pos := if i.scan then p % bl else p
  let at0 := nbLine0 i.cmd + p
  let mine := (ups.filter fun u => u.n.val = n && u.b.val = b && u.line.toNat = at0).map NbUpset.kind
  let s := if i.scan && pos = 0 then putNbSet s t l n b k (nbFresh false) else s
  let ((line, bad), s) := nbReadLine s t n l b at0 (cmdTag i.cmd) mine
  let x := nbLine (nbFmt i.cmd) i.chk (nbSetOf s t l n b k) line pos (nbOps s t i b)
  let s := nbUpset (putNbSet s t l n b k { x with poison := x.poison || bad }) t n l b k (cmdTag i.cmd) mine
  let s := if i.chk && pos % 9 = 8 then s
    else count (count s (nlPage t l) 0x808 4) (nlPage t l) 0x810 (64 * nbQ i.cmd)
  if i.scan && pos + 1 = bl then blockDone s t l n b j i else s

/-- The operand entries that the channel of a bank index has fed for the line at position p of its stream: those of its data words
(R212, R215). A check line takes none of its own. -/
def lineEntries (s : State) (t b p : Nat) (i : NbItem) : List (List Nat) :=
  let pos := if i.scan then p % max 1 (blockLines i.cmd) else p
  if i.chk && pos % 9 = 8 then []
  else
    let n0 := if i.chk then pos / 9 * 32 + pos % 9 * 4 else 4 * pos
    (List.range 4).map fun w => fileEntry s t i b (n0 + w)

/-- The operand register files of bank index b in the named slices after m lines: the last 16 entries (R212). -/
def feedFiles (s : State) (t l b p m : Nat) (i : NbItem) : State :=
  let es := (List.range m).flatMap fun j => lineEntries s t b (p + j) i
  let put (n : Nat) (e : Engines) : Engines :=
    let k := ((t * 8 + l) * 32 + n) * 16 + b
    let l := kget [] e.files k ++ es
    { e with files := kput [] e.files k (l.drop (l.length - 16)) }
  (s.setEng (foldList put (cmdSlices i.cmd) s.eng)).setFree (s.free + 1)

/-! Refresh (R231, R274, R275). -/

/-- Key of a bank in a slice controller's refresh records. -/
def refKey (l b : Nat) : Nat := l * 16 + b

/-- The largest owed count shown (R280). -/
def showOwed (s : State) (t n : Nat) : State :=
  let m := ((sliceOf s t n).owed.map Prod.snd).foldl max 0
  pset s (scPage t n) 0x08C (setFld (pget s (scPage t n) 0x08C) 18 16 m)

/-- Whether a near-bank stream of a layer control runs in a bank. -/
def streams (s : State) (t n l b : Nat) : Bool :=
  (layerOf s t l).run.any fun i => i.left b && (cmdSlices i.cmd).contains n

/-- A preemption of the channel of a bank index (R231): the banks of the index whose refreshes are taken at one instant share it. -/
def notePreempt (s : State) (t l b : Nat) : State :=
  let x := layerOf s t l
  if kfind x.stopped b = some s.clock.now then s
  else count (setLayer s t l { x with stopped := kinsert x.stopped b s.clock.now }) (nlPage t l) 0x820 1

/-- The owed refreshes of a bank, and `due` more, taken back to back (R275); a stream in the bank is preempted (R231). -/
def takeRefresh (s : State) (t n l b due : Nat) : State :=
  let x := sliceOf s t n
  let k := kget 0 x.owed (refKey l b) + due
  if k = 0 then s
  else
    let s := setSlice s t n { x with
      owed := kput 0 x.owed (refKey l b) 0, lastRef := kinsert x.lastRef (refKey l b) s.clock.now }
    let s := showOwed (count s (scPage t n) 0x838 k) t n
    if streams s t n l b then notePreempt s t l b else s

/-- A refresh that falls due and is taken; with four owed it is forced (R275). -/
def dueRefresh (s : State) (t n l b : Nat) : State :=
  let forced := 4 ≤ kget 0 (sliceOf s t n).owed (refKey l b)
  let s := takeRefresh s t n l b 1
  if forced then raise s (scPage t n) 10 else s

/-- An idle slot of a slice's banks: those without a stream take what they owe (R275). DESIGN CHOICE: a bank is idle once an access
to the slice is served (log 21). -/
def idleSlot (s : State) (t n : Nat) : State :=
  foldList (fun o st => if streams st t n (o.1 / 16) (o.1 % 16) then st else takeRefresh st t n (o.1 / 16) (o.1 % 16) 0)
    (sliceOf s t n).owed s

/-! Rows (R229). -/

/-- A line written back by a near-bank unit: outside the owned ranges it is discarded (R224 to R226). -/
def writeBack (s : State) (t l : Nat) (i : NbItem) (w : NbWrite) : State :=
  let da := sliceBase t w.n + bankOff l w.b w.line
  if lineOwned s da then count (putLine (sliceFlush s t w.n (da / 128)) da w.data true) (nlPage t l) 0x848 1
  else raiseTag s (nlPage t l) 4 (cmdTag i.cmd)

/-- The writebacks of an item in bank index b that lie in one row, that of the first. -/
def NbItem.rowOf (i : NbItem) (b : Nat) : List NbWrite :=
  match i.wb.find? fun w => w.b = b with
  | some w => i.wb.filter fun x => x.b = b && x.line / 8 = w.line / 8
  | none => []

/-- The slices in which bank index b of an item waits for a row, to stream or to write back (R229). -/
def NbItem.waits (i : NbItem) (b : Nat) : List Nat :=
  if i.left b then cmdSlices i.cmd else ((i.rowOf b).map NbWrite.n).eraseDups

/-- Bank index b of an item granted a row, in every named slice (R229): owed refreshes are taken at the row boundary (R275), and the
gathered narrow writes of the banks are written out before a stream (R266). It streams the rest of its row, or writes back what
lies in one row. -/
def grantRow (s : State) (t l b : Nat) (ups : List NbUpset) (i : NbItem) : State :=
  let s := foldList (fun n st => takeRefresh st t n l b 0) (i.waits b) s
  let p := kget 0 i.prog b
  let m := min (i.total - p) (8 - (nbLine0 i.cmd + p) % 8)
  let (s, j) :=
    if i.left b then
      (foldList (fun n st => foldList (fun k st => streamLine st t l n b (p + k) i ups) (List.range m)
        (sliceFlushBank st t n l b)) (cmdSlices i.cmd) (feedFiles s t l b p m i), { i with prog := kinsert i.prog b (p + m) })
    else
      (foldList (fun w st => writeBack st t l i w) (i.rowOf b) s,
        { i with wb := i.wb.filter fun w => !(i.rowOf b).contains w })
  let x := layerOf s t l
  setLayer s t l { x with run := x.run.map fun y => if y = i then j else y }

/-- Whether an item may have a row: the halves of its slices are AWAKE (R315), and a scan streams once every named layer control has
started it (R247). -/
def mayStream (s : State) (t : Nat) (i : NbItem) : Bool :=
  ((cmdSlices i.cmd).all fun n => halfState s t (sliceHalf n) = 0) &&
  (!i.scan || (scLayers i.cmd).all fun l => (layerOf s t l).run.any fun y => y.scan && y.cmd = i.cmd)

/-- The running item of a layer whose bank index b waits for a row; items never share a bank index (R230). -/
def rowItem (s : State) (t l b : Nat) : Option NbItem :=
  (layerOf s t l).run.find? fun i => mayStream s t i && !(i.waits b).isEmpty

/-- Bank indices of a layer that wait for a row, in round-robin order from the turn on. -/
def waitingBanks (s : State) (t l : Nat) : List Nat :=
  ((List.range 16).map fun k => ((layerOf s t l).turn + k) % 16).filter fun b => (rowItem s t l b).isSome

/-- The waiting bank indices parted into those granted and those withheld: no slice-layer has more than `lim` banks granted.
`used` names the slices of the banks granted so far (R229). -/
def grantBanks (lim : Nat) (slices : Nat → List Nat) : List Nat → List Nat → List Nat × List Nat
  | _, [] => ([], [])
  | used, b :: l =>
    if (slices b).all fun n => used.count n < lim then
      let r := grantBanks lim slices (used ++ slices b) l
      (b :: r.1, r.2)
    else
      let r := grantBanks lim slices used l
      (r.1, b :: r.2)

/-- ROW_GRANT: one slot of rows (R229). DESIGN CHOICE: the turn passes to the first bank index withheld, else to the one after the
last granted (log 108). -/
def rowGrant (s : State) (t l : Nat) (ups : List NbUpset) : State :=
  let slices (b : Nat) : List Nat := ((rowItem s t l b).map fun i => i.waits b).getD []
  let (go, held) := grantBanks (limOf s t l) slices [] (waitingBanks s t l)
  let s := count s (nlPage t l) 0x818 ((held.map fun b => (slices b).length).foldl (· + ·) 0)
  let s := foldList (fun b st => match rowItem st t l b with
    | some i => grantRow st t l b ups i
    | none => st) go s
  match held.head?.or (go.getLast?.map (· + 1)) with
  | some b => setLayer s t l { layerOf s t l with turn := b % 16 }
  | none => s

def execRowGrant (t : Fin 12) (l : Fin 8) (upsets : List NbUpset) (s : State) : Out := .next (rowGrant s t l upsets)

/-! Delivery (R221 to R226). -/

/-- The whole lines that the highest bank of a segment has to write back (R224); the bytes after the last element are 0. -/
def segWrites (i : NbItem) (n b : Nat) (data : List Byte) : List NbWrite :=
  (List.range (divUp data.length 128)).map fun k => ⟨n, b, nbOutField i.cmd + k, fitBytes 128 (data.drop (128 * k))⟩

/-- A segment of a slice reduced along the chain and delivered, or its lines to be written back as rows are granted (R221, R222,
R224, R229). -/
def deliverSegment (s : State) (t l n : Nat) (i : NbItem) (seg : Nat) (banks : List Nat) : List NbWrite × State :=
  let k := b2n (bitOf (nbCtl i.cmd) 6)
  let top := (banks.getLast?).getD 0
  match banks.map fun b => nbSetOf s t l n b k with
  | [] => ([], s)
  | x :: xs =>
    let r := xs.foldl (nbHop (nbQ i.cmd)) x
    let s := foldList (fun b st => putNbSet st t l n b k .empty) banks s
    let out := nbOut r (nbOfmt i.cmd) (nbQ i.cmd)
    match nbDest i.cmd with
    | 0 => ([], (tlaWrite s ⟨.slice t n, cmdTag i.cmd⟩ t (nbOutTla i.cmd n seg) out).2)
    | 1 => (segWrites i n top out, s)
    | _ => ([], putNbSet s t l n top k r)

/-- Every segment of an item delivered, slice by slice, with the lines still to be written back. -/
def deliverAll (s : State) (t l : Nat) (i : NbItem) : List NbWrite × State :=
  ((cmdSlices i.cmd).flatMap fun n => (nbSegments i.cmd).map fun x => (n, x)).foldl (fun r y =>
    let (w, s) := deliverSegment r.2 t l y.1 i y.2.1 y.2.2
    (r.1 ++ w, s)) ([], s)

/-- NBU_FINAL: the oldest descriptor with FINAL whose streams have ended is compared, reduced and delivered; `par` says that a chain
transfer has a parity error (R221). While Quench holds a half of its slices it waits (R420). -/
def nbuFinal (s : State) (t l : Nat) (par : Bool) : State :=
  match (layerOf s t l).run.find? fun i => !i.scan && !i.final && nbFinalBit i.cmd && i.streamed with
  | none => s
  | some i =>
    awaitHalves s ⟨.slice t ((cmdSlices i.cmd).headD 0), cmdTag i.cmd⟩ ((cmdSlices i.cmd).map fun n => (t, sliceHalf n)) fun s =>
      let k := b2n (bitOf (nbCtl i.cmd) 6)
      let s := foldList (fun n st => foldList (fun b st => compareSet st t l n b k i) (cmdBanks i.cmd) st)
        (cmdSlices i.cmd) s
      let s := if par && nbSeg i.cmd != 0 then raiseTag s (nlPage t l) 9 (cmdTag i.cmd) else s
      let (ws, s) := deliverAll s t l i
      let x := layerOf s t l
      setLayer s t l { x with run := x.run.map fun y => if y = i then { y with wb := ws, final := true } else y }

def execNbuFinal (t : Fin 12) (l : Fin 8) (chainPar : Bool) (s : State) : Out := .next (nbuFinal s t l chainPar)

/-- NBU_DESC_COMPLETE: the oldest descriptor that has streamed and delivered ends, and its flag is set (R223). -/
def execNbuDescComplete (t : Fin 12) (l : Fin 8) (s : State) : Out :=
  .next (match (layerOf s t l).run.find? fun i => !i.scan && i.streamed && i.wb.isEmpty && (i.final || !nbFinalBit i.cmd) with
    | none => s
    | some i =>
      let x := layerOf s t l
      let s := setLayer s t l { x with run := x.run.erase i, done := (x.done + 1) % 2 ^ 12 }
      let s := count s (nlPage t l) 0x800 1
      let s := if bitOf (nbCtl i.cmd) 3 then setFlag s false t (field i.cmd 4 1) true else s
      showLayer (touchSlices s t i.cmd) t l)

/-- NBU_REFRESH_PREEMPT: the channel of a streaming bank index stops, and every bank of the index that takes part takes what it
owes; `due` says that a refresh falls due at this instant. The sets are held and the channel resumes (R231, R275). -/
def execNbuRefreshPreempt (t : Fin 12) (l : Fin 8) (b : Fin 16) (due : Bool) (s : State) : Out :=
  .next (match (layerOf s t l).run.find? fun i => i.left b with
    | none => s
    | some i =>
      foldList (fun n st => if due then dueRefresh st t n l b else takeRefresh st t n l b 0) (cmdSlices i.cmd) s)

end Sys2Proof.Machine
end

