-- ==== Sys2Proof/Machine/Scans.lean ====
section
/-!
DEFINITION. The tile scan sequencer: posts, the start of a scan, slice lists and completion (R241 to R248).
-/

namespace Sys2Proof.Machine

open Sys2Proof

/-- TC_SPOST (R247, R255). -/
def tcSpostWrite (t : Fin 12) (v : BitVec 32) (s : State) : State :=
  blockWrite s (tilePage t 0) fun s =>
    let n := fld v.toNat 26 24 + 1
    let x := scanOf s t
    if 8 < x.queue.length + n then raise s (tilePage t 0) 17
    else showScan (setScan s t { x with queue := x.queue ++ sramCommands s t (fld v.toNat 23 7 * 128) n }) t

/-- Bytes of a slice list (R245). -/
def listSize (c : List Byte) : Nat := divUp (128 + nbQ c * scK c * 8) 128 * 128

/-- Whether a scan command is legal (R241, R242). Fields outside the values of R241 that R242 does not name count as
illegal: DEDUCED (log 28). -/
def scanOk (s : State) (t : Nat) (c : List Byte) : Bool :=
  let d := scD c
  guarded c 64 && field c 0 1 = 1 && (nbFmt c = 0 || nbFmt c = 1) && 1 ≤ nbQ c && nbQ c ≤ 16 &&
  1 ≤ scK c && scK c ≤ 1024 && d % 32 = 0 && 64 ≤ d && d ≤ 4096 &&
  !(cmdSlices c).isEmpty && !(scLayers c).isEmpty && !(cmdBanks c).isEmpty && 1 ≤ scBpb c &&
  nbLine0 c + scBpb c * blockLines c ≤ 98304 &&
  field c 0x18 4 % 128 = 0 && field c 0x1C 4 % 128 = 0 && field c 0x20 4 % 128 = 0 &&
  field c 0x18 4 + nbQ c * d * 2 ≤ tileSramEnd &&
  field c 0x1C 4 + ((cmdSlices c).length - 1) * field c 0x20 4 + listSize c ≤ tileSramEnd &&
  listSize c ≤ field c 0x20 4 &&
  (scLayers c).all fun l => groupsOk s t l c && nbCap s t l 0

/-- SCAN: the front command is taken while none runs, checked, and presented to every named layer control (R247). -/
def startScan (s : State) (t : Nat) : State :=
  let x := scanOf s t
  match x.run, x.queue with
  | none, c :: rest =>
    let s := setScan s t { x with queue := rest }
    if !scanOk s t c then showScan (raiseTag s (tilePage t 0) 16 (cmdTag c)) t
    else
      let s := foldList (fun l st =>
        let y := layerOf st t l
        setLayer (wakeSlices st t l c) t l { y with queue := y.queue ++ [⟨true, c, 0, [], [], false⟩] }) (scLayers c) s
      let s := setScan s t { scanOf s t with run := some ⟨c, [], [], [], []⟩ }
      let s := setCurop s (tilePage t 0) [0, cmdTag c]
      showScan s t
  | _, _ => s

def execScan (t : Fin 12) (s : State) : Out := .next (startScan s t)

/-- The bytes of the list of a slice (R245). -/
def listBytes (r : ScanRun) (n : Nat) : List Byte :=
  let c := r.cmd
  let ls := (List.range (nbQ c)).map fun q => kget [] r.lists (n * 16 + q)
  let pad := (0x7FC00000#32, 0xFFFFFFFF)
  let head := (ls.flatMap fun l => leBytes 2 l.length) ++ List.replicate (32 - 2 * nbQ c) 0#8 ++
    leBytes 2 (b2n (r.poison.contains n)) ++ List.replicate 0x5E 0#8
  let body := ls.flatMap fun l =>
    (l ++ List.replicate (scK c - l.length) pad).flatMap fun e => leBytes 4 e.1.toNat ++ leBytes 4 e.2
  head ++ body ++ List.replicate (listSize c - (head.length + body.length)) 0#8

/-- SLICE_LIST_WRITE: the last block of a named slice is filtered, and its list is written (R245); `par` says that the filter's store
has a parity error, which marks the list POISON (R257). -/
def execSliceListWrite (t : Fin 12) (n : Fin 32) (par : Bool) (s : State) : Out :=
  .next (match (scanOf s t).run with
    | none => s
    | some r =>
      let c := r.cmd
      let blocks := (scLayers c).length * (cmdBanks c).length * scBpb c
      if !(cmdSlices c).contains n || kget 0 r.blocks n != blocks || r.written.contains n then s
      else
        let a := field c 0x1C 4 + (cmdSlices c).idxOf n.val * field c 0x20 4
        awaitHalves s ⟨.slice t n, cmdTag c⟩ ((t.val, sliceHalf n) :: tlaHalves t a (listSize c)) fun s =>
          let s := if par then raiseTag s (tilePage t 0) 18 (cmdTag c) else s
          let r := if par && !r.poison.contains n.val then { r with poison := r.poison ++ [n.val] } else r
          let s := (tlaWrite s ⟨.slice t n, cmdTag c⟩ t a (listBytes r n)).2
          setScan s t { scanOf s t with run := some { r with written := r.written ++ [n.val] } })

/-- SCAN_COMPLETE: every named slice has written its list (R248). -/
def execScanComplete (t : Fin 12) (s : State) : Out :=
  .next (match (scanOf s t).run with
    | none => s
    | some r =>
      let c := r.cmd
      if !(cmdSlices c).all r.written.contains then s
      else
        let s := foldList (fun l st =>
          let y := layerOf st t l
          showLayer (setLayer st t l { y with run := y.run.filter fun i => !(i.scan && i.cmd = c) }) t l) (scLayers c) s
        let x := scanOf s t
        let s := setScan s t { x with run := none, done := (x.done + 1) % 2 ^ 16 }
        let s := count s (tilePage t 0) 0x880 1
        let s := if bitOf (nbCtl c) 1 then setFlag s false t (field c 4 1) true else s
        showScan (touchSlices s t c) t)

end Sys2Proof.Machine
end

