-- ==== Sys2Proof/Machine/RegRead.lean ====
section
/-!
DEFINITION. What a read of a register returns (R486 to R492): stored registers, registers that show other state, counters,
complements, and the latches of 64-bit pairs.
-/

namespace Sys2Proof.Machine

open Sys2Proof

/-! The common part (R490 to R492). -/

/-- BLK_ID (R491). -/
def blkId (b : Block) (page : Nat) : Nat := b.typeCode + pageDie page * 2 ^ 16 + pageIndex page * 2 ^ 24

/-- BLK_VER (R491). -/
def blkVer (s : State) (page : Nat) : Nat :=
  match pagePlace page with
  | .tile t _ => tileRev s t * 2 ^ 8 + tileRev s t * 2 ^ 16
  | .base a _ => (baseRev s a - 1) + 2 ^ 8 + baseRev s a * 2 ^ 16
  | _ => 2 ^ 8

/-- Whether the unit of a page is quarantined (R492). DEDUCED: a layer control shows it where one of its groups is
(log 43). -/
def pageQuarantined (s : State) (page : Nat) : Bool :=
  match pagePlace page with
  | .tile t i =>
    if i = 1 then quarantined s t 40
    else if 2 ≤ i && i < 42 then quarantined s t (i - 2)
    else if 74 ≤ i && i < 82 then pget s page 0x0B4 != 0
    else false
  | _ => false

/-- Whether the die of a page is fenced (R478, R479). -/
def dieFenced (s : State) (page : Nat) : Bool :=
  match pagePlace page with
  | .tile t _ => tileSvc s t = 6
  | .base a _ => s.store.baseFenced.contains a
  | _ => false

/-- Whether checksum comparison is off on a page (R80, R220). -/
def pageUnchecked (s : State) (b : Block) (page : Nat) : Bool :=
  match b with
  | .matrixCore => !bitOf (pget s page 0x080) 8
  | .layerCtl => !bitOf (pget s page 0x090) 8
  | _ => false

/-- BLK_STAT (R492). -/
def blkStat (s : State) (b : Block) (page : Nat) : Nat :=
  let v := pget s page 0x020
  b2n (inReset s page) + 2 * b2n (pageUnchecked s b page) + 4 * b2n (pageQuarantined s page) + 8 * b2n (dieFenced s page) +
    16 * b2n (v != 0) + 32 * b2n ((setBits v 32).any fun src => settingClass s page src = 2)

/-! Registers that show other state. -/

/-- 32 flags of a list, from the number `lo` on. -/
def flagWord (l : List Nat) (lo : Nat) : Nat := maskOf ((List.range 32).filter fun i => l.contains (lo + i))

/-- TB_STAT and MB_STAT (R132, R133): generation, members arrived, a held mask; `n` members, MASK_PENDING at `at`. -/
def barStat (b : BarGroup) (n pos : Nat) : Nat :=
  b.gen % 2 ^ 16 + popCount b.arrived n * 2 ^ 16 + b2n b.pend.isSome * 2 ^ pos

/-- Code of a run state (R132). -/
def RunState.code : RunState → Nat
  | .idle => 0 | .running => 1 | .waiting => 2 | .trapped => 3

/-- PSTATE of a participant (R132): the TCC reads RUNNING unless it is halted. -/
def pstate (s : State) (t p : Nat) : Nat :=
  if p = 40 then b2n (!(tccOf s t).halted) else (coreOf s (coreId t p)).run.code

/-- PSTATEm (R132). -/
def pstateWord (s : State) (t m : Nat) : Nat :=
  (List.range 16).foldl (fun v i => if 16 * m + i ≤ 40 then v + pstate s t (16 * m + i) * 4 ^ i else v) 0

/-- Synchronisation registers of a tile control page (R132). -/
def tileSyncWord (s : State) (t o : Nat) : Option Nat :=
  if 0x400 ≤ o && o < 0x420 then some (flagWord s.sync.tf (t * 256 + (o - 0x400) * 8))
  else if 0x440 ≤ o && o < 0x4C0 then
    let m := (barOf s false t ((o - 0x440) / 8)).members
    some (if o % 8 = 0 then m % 2 ^ 32 else m / 2 ^ 32)
  else if 0x4C0 ≤ o && o < 0x500 then some (barStat (barOf s false t ((o - 0x4C0) / 4)) 41 22)
  else if 0x500 ≤ o && o < 0x50C then some (pstateWord s t ((o - 0x500) / 4))
  else none

/-- Synchronisation registers of A0's base control page (R133, R378); those of the other base dies are not there. -/
def moduleSyncWord (s : State) (a o : Nat) : Option Nat :=
  if o < 0x400 || 0x480 ≤ o then none
  else if a != 0 then some 0
  else if o < 0x408 then some (flagWord s.sync.mf ((o - 0x400) * 8))
  else if 0x420 ≤ o && o < 0x440 then some (barOf s true 0 ((o - 0x420) / 4)).members
  else if 0x440 ≤ o && o < 0x460 then some (barStat (barOf s true 0 ((o - 0x440) / 4)) 12 20)
  else if 0x470 ≤ o then
    let c := kget .reset s.sync.cb ((o - 0x470) / 4)
    some (c.arrived % 2 ^ 12 + b2n c.waitRel * 2 ^ 16)
  else none

/-- Registers of the TCC page (R138). -/
def tccWord (s : State) (t o : Nat) : Option Nat :=
  let k := tccOf s t
  let x := coreOf s (coreId t 40)
  match o with
  | 0x088 => some (fld k.epc 18 3 * 8)
  | 0x08C => some k.cause
  | 0x090 => some (b2n k.inTrap + 2 * b2n k.halted + 4 * b2n (x.run = .waiting) + min 255 k.pend.length * 2 ^ 8)
  | 0x094 => some (fld x.pc 18 3 * 8)
  | _ => none

/-- MC_STAT and the current operation (R87). -/
def mcWord (s : State) (t n o : Nat) : Option Nat :=
  let m := mcOf s t n
  match o with
  | 0x094 => some (b2n m.cur.isSome + 2 * b2n m.bankA.isOpen + 4 * b2n m.bankB.isOpen + 8 * b2n m.bankA.poison +
      16 * b2n m.bankB.poison + 32 * b2n m.waiting.isSome + min 255 m.ring.length * 2 ^ 8)
  | 0x098 => (mcCurop s t n)[0]?
  | 0x09C => (mcCurop s t n)[1]?
  | _ => none

/-- What a vector core waits for, as VC_STAT shows it (R134). -/
def waitBits : Option Wait → Nat
  | some (.flag md num _) => 16 * b2n md + num * 2 ^ 8
  | some (.barrier md g _) => 8 + 16 * b2n md + g * 2 ^ 8
  | _ => 0

/-- VC_STAT, VC_PC and the current operation (R134). DESIGN CHOICE: the wait fields of a TRAPPED core read 0 (log 122). -/
def vcWord (s : State) (t p o : Nat) : Option Nat :=
  let k := coreOf s (coreId t p)
  match o with
  | 0x080 => some (k.run.code + 4 * b2n k.aborted + (if k.run = .waiting then waitBits k.wait else 0))
  | 0x084 => some (fld k.pc 19 3 * 8)
  | 0x088 => (vcCurop s t p)[0]?
  | 0x08C => (vcCurop s t p)[1]?
  | _ => none

/-- SC_STAT, SC_RANGES and the current operation (R280): entries in use, the largest owed count, and ranges counted after merging. -/
def scWord (s : State) (t n o : Nat) : Option Nat :=
  let x := sliceOf s t n
  let op := curopWords s (scPage t n)
  let lo := sliceBase t n
  let mine (a : Nat) : Bool := lo ≤ a && a < lo + sliceBytes
  match o with
  | 0x08C =>
    let owed := (x.owed.map Prod.snd).foldl max 0
    some (setFld (setFld (pget s (scPage t n) 0x08C) 13 8 x.mb.length) 18 16 owed)
  | 0x090 =>
    let g := s.store.golden.filterMap fun r => if mine r.lo then some (r.lo, r.len, r.copy) else none
    let w := s.store.owned.filterMap fun r => if mine r.lo then some (r.lo, r.hi - r.lo, r.lo) else none
    some (mergedCount g + mergedCount w * 2 ^ 16)
  | 0x094 => op[0]?
  | 0x098 => op[1]?
  | 0x09C => op[2]?
  | _ => none

/-- FB_SEAM (R323): the flits of the seam FIFOs toward the east half and toward the west half. -/
def fbSeam (s : State) (t : Nat) : Nat :=
  (kget [] s.store.seam (t * 2 + 1)).length + (kget [] s.store.seam (t * 2)).length * 2 ^ 8

/-- FA_SUM index of a page at the aggregator of base die a (R456). -/
def faIndex (a page : Nat) : Option Nat :=
  match pagePlace page with
  | .base b i => if a = b then some i else none
  | .tile t i => if t / 3 = a then some (64 + 128 * (t % 3) + i) else none
  | _ => none

/-- FA_SUMw (R456). -/
def faSum (s : State) (a w : Nat) : Nat :=
  maskOf ((stickyPages s).filterMap fun x => match faIndex a x.1 with
    | some i => if i / 32 = w then some (i % 32) else none
    | none => none)

/-- FS_MOD0, FS_MOD1 and FS_DIE (R500). -/
def fsWord (s : State) (o : Nat) : Option Nat :=
  let places := (stickyPages s).map fun x => pagePlace x.1
  match o with
  | 0x080 => some (maskOf (places.filterMap fun p => match p with | .module i => if i < 32 then some i else none | _ => none))
  | 0x084 => some (maskOf (places.filterMap fun p => match p with | .module i => if i < 32 then none else some (i - 32) | _ => none))
  | 0x088 =>
    let base := maskOf (places.filterMap fun p => match p with | .base a _ => some a | _ => none)
    let tile := maskOf (places.filterMap fun p => match p with | .tile t _ => some t | _ => none)
    some (base + tile * 2 ^ 16 + b2n (fatalHold s) * 2 ^ 31)
  | _ => none

/-- Registers of the timebase page (R502). -/
def timeWord (s : State) (o : Nat) : Option Nat :=
  match o with
  | 0x080 => some (s.clock.now % 2 ^ 32)
  | 0x084 => some (s.clock.now / 2 ^ 32 % 2 ^ 32)
  | 0x094 =>
    some (setBitN (setBitN (pget s (modPage 7) 0x094) 2 (parentPort s).isNone) 5 (bitOf (pget s (modPage 2) 0x08C) 16))
  | _ => none

/-- ID_TILES (R498): tiles IN_SERVICE, and tiles FENCED or OUT. -/
def idTiles (s : State) : Nat :=
  maskOf ((List.range 12).filter fun t => tileSvc s t = 0) +
    maskOf ((List.range 12).filter fun t => tileSvc s t = 6 || tileSvc s t = 7) * 2 ^ 16

/-- HI_Q_STAT (R350). -/
def qStatWord (s : State) (o : Nat) : Option Nat :=
  if 0x080 ≤ o && o < 0x480 && o % 16 = 8 then
    let x := pairOf s ((o - 0x080) / 16)
    some (x.sqHead % 2 ^ 12 + x.cqTail % 2 ^ 12 * 2 ^ 12 + pget s (modPage 10) o / 2 ^ 24 * 2 ^ 24)
  else none

/-- A block-specific register that shows state held elsewhere. -/
def viewWord (s : State) (b : Block) (page o : Nat) : Option Nat :=
  match b, pagePlace page with
  | .tileControl, .tile t _ => tileSyncWord s t o
  | .tcc, .tile t _ => tccWord s t o
  | .matrixCore, .tile t i => mcWord s t (i - 2) o
  | .vectorCore, .tile t i => vcWord s t (i - 2) o
  | .sliceCtl, .tile t i => scWord s t (i - 42) o
  | .layerCtl, .tile t i => if o = 0x084 then some (setFld (pget s page 0x084) 19 16 (limOf s t (i - 74))) else none
  | .fabric, .tile t _ => if o = 0x08C then some (fbSeam s t) else none
  | .temper, .tile t _ => if o = 0x088 then some (setBitN (pget s page 0x088) 9 (kfind s.tests t).isSome) else none
  | .baseControl, .base a _ => moduleSyncWord s a o
  | .aggregator, .base a _ => if 0x080 ≤ o && o < 0x0B8 then some (faSum s a ((o - 0x080) / 4)) else none
  | .chainPort, .base a i =>
    if o = 0x098 then some (setBitN (pget s page 0x098) 2 (parentPort s = some (2 * a + (i - 6)))) else none
  | .identity, _ => if o = 0x0A4 then some (idTiles s) else none
  | .configuration, _ => if o = 0x08C then some (setBitN (pget s page 0x08C) 3 (!s.svc.writes.isEmpty)) else none
  | .faultSummary, _ => fsWord s o
  | .timebase, _ => timeWord s o
  | .queueBell, _ => qStatWord s o
  | _, _ => none

/-! One word of a page. -/

/-- The value register of a guarded pair whose complement stands at an offset (R439, R494). -/
def guardOf (b : Block) (o : Nat) : Option Nat :=
  if b = .msix then none
  else if 0x030 ≤ o && o < 0x070 then (if o % 8 = 4 then some (o - 4) else none)
  else match regDesc b (o - 4) with
    | some d => if d.rwg != 0 && 4 ≤ o then some (o - 4) else none
    | none => none

/-- A register of the common part (R490). -/
def commonWord (s : State) (b : Block) (page o : Nat) : Nat :=
  match o with
  | 0x000 => blkId b page
  | 0x004 => blkVer s page
  | 0x008 => capWord s page
  | 0x014 => blkStat s b page
  | 0x010 => 0
  | 0x024 => 0
  | _ => if 0x074 ≤ o then 0 else pget s page o

/-- A word of a 64-bit counter (R488). -/
def counterWord (s : State) (page o : Nat) : Nat :=
  let v := cntGet s page (o / 8 * 8)
  if o % 8 = 0 then v % 2 ^ 32 else v / 2 ^ 32

/-- The pending-bit array (R344): eight words. -/
def pbaWord (s : State) (o : Nat) : Nat := if o < 32 then flagWord s.host.msixPend (o * 8) else 0

/-- The block-specific part of a page, and its counters. In block reset they return their reset values (R492). -/
def specificWord (s : State) (b : Block) (page o : Nat) : Nat :=
  if inReset s page then
    if 0x800 ≤ o then 0
    else if s.svc.settings.2.any (fun x => x.1 = regOff page o) then (viewWord s b page o).getD (pget s page o)
    else regReset (regOff page o)
  else if 0x800 ≤ o then counterWord s page o
  else (viewWord s b page o).getD (match regDesc b o with
    | some _ => pget s page o
    | none => 0)

/-- The word at an offset of a page (R487, R490). Unassigned pages read 0 (R496). -/
def regWord (s : State) (page o : Nat) : Nat :=
  match pageBlock page with
  | none => 0
  | some .msix => if page = 16 then pget s page o else pbaWord s o
  | some b => match guardOf b o with
    | some v => 0xFFFFFFFF - (if v < 0x080 then commonWord s b page v else specificWord s b page v)
    | none => if o < 0x080 then commonWord s b page o else specificWord s b page o

/-! Latches of 64-bit pairs (R488). -/

/-- Number of an agent of R486. -/
def agentNum : Agent → Nat
  | .host => 0
  | .vexondane => 1
  | .tcc t => 2 + t.val
  | .aggregator a => 14 + a.val

/-- The LO registers of the 64-bit pairs of a block that are no counters, and whether software writes them. -/
def loPair (b : Block) (o : Nat) : Option Bool :=
  match b with
  | .identity => if o = 0x094 || o = 0x164 then some false else none
  | .hostIf => if o = 0x084 then some true else none
  | .bellows => if o = 0x098 then some true else none
  | .configuration => if o = 0x098 then some false else none
  | .timebase => if o = 0x080 then some false else if o = 0x088 then some true else none
  | .sequences => if o = 0x088 then some true else if o = 0x090 || o = 0x098 then some false else none
  | .queueCfg =>
    if 0x100 ≤ o && o < 0x700 && ((o - 0x100) % 0x18 = 0 || (o - 0x100) % 0x18 = 8) then some true else none
  | .aggregator => if o = 0x0C4 then some false else none
  | .tongs => if o = 0x280 || o = 0x288 then some true else none
  | .tileControl => if 0x440 ≤ o && o < 0x4C0 && o % 8 = 0 then some true else none
  | _ => none

/-- Whether an offset is a LO register: a counter's low word, or that of a pair; and whether software writes it. -/
def isLo (b : Block) (o : Nat) : Option Bool := if 0x800 ≤ o && o % 8 = 0 then some false else loPair b o

/-- Key of the latch of an agent for a HI register. -/
def latchKey (ag : Agent) (page o : Nat) : Nat := agentNum ag * 2 ^ 26 + regOff page o

/-- The state with the latch of an agent loaded. -/
def setLatch (s : State) (ag : Agent) (page o v : Nat) : State :=
  s.setRegs { s.regs with latches := kinsert s.regs.latches (latchKey ag page o) (BitVec.ofNat 32 v) }

/-- A served read of a word by an agent (R488): LO latches HI, and HI returns the latch. A HI register never latched returns
0; one that software writes returns its value. DEDUCED (log 42). -/
def latchedRead (s : State) (ag : Agent) (page o : Nat) : Nat × State :=
  match pageBlock page with
  | none => (0, s)
  | some .msix => (regWord s page o, s)
  | some b =>
    match isLo b o with
    | some _ => (regWord s page o, setLatch s ag page (o + 4) (regWord s page (o + 4)))
    | none =>
      if 4 ≤ o && (isLo b (o - 4)).isSome then
        match kfind s.regs.latches (latchKey ag page o) with
        | some w => (w.toNat, s)
        | none => (if isLo b (o - 4) = some true then regWord s page o else 0, s)
      else (regWord s page o, s)

/-- Status of a read of a page (R32, R489). -/
def pageStatus (s : State) (page : Nat) : ASt :=
  match pagePlace page with
  | .unmapped => .error
  | .module _ => .ok
  | .base a i => if s.store.baseFenced.contains a && i != 12 then .poison else .ok
  | .tile t i =>
    if s.store.baseFenced.contains (tileDie t) then .poison
    else if tileAway s t then (if i = 0 || i = 82 || i = 83 || i = 85 then .ok else .poison)
    else if (pageHalf i).any (halfGated s t) then .poison
    else .ok

/-- The request that an agent's register access is on the fabric (R319, R486): the aggregators are no requesters there. -/
def agentReq (s : State) : Agent → Option Req
  | .host => some hostReq
  | .vexondane => some (ownReq 0)
  | .tcc t => some ⟨.part t 40, (coreOf s (coreId t 40)).tag.toNat⟩
  | .aggregator _ => none

/-- The leaf that sends an agent's accesses (R310). -/
def agentLeaf : Agent → Leaf
  | .host => .host
  | .tcc t => .part t 40
  | .vexondane | .aggregator _ => .vexondane

/-- Whether an agent's access reaches a page over the fabric (R310, R313). -/
def carryPage (s : State) (ag : Agent) (page : Nat) : Bool × State :=
  match agentReq s ag with
  | some q => carry s q (pageLoc page) 1
  | none => (true, s)

/-- GATED_ACCESS of an agent's access to a page (R318). -/
def gatedAccess (s : State) (ag : Agent) (page : Nat) : State := gatedPage s page ((agentReq s ag).map Req.tag |>.getD 0)

/-- The halves that the block of a register page stands in (R317, R489). -/
def pageHalves (page : Nat) : List (Nat × Nat) :=
  match pagePlace page with
  | .tile t i => (pageHalf i).toList.map fun h => (t, h)
  | _ => []

/-- A read of the word at an offset of register space by an agent (R486, R489). -/
def regRead (s : State) (ag : Agent) (off : Nat) : (Nat × ASt) × State :=
  let page := off / 0x1000
  let s := reach s page
  match pageStatus s page with
  | .ok =>
    let (up, s) := carryPage s ag page
    if !up then ((0, .poison), s)
    else
      let (v, s) := latchedRead s ag page (off % 0x1000 / 4 * 4)
      ((v, .ok), s)
  | st => ((0, st), gatedAccess s ag page)

end Sys2Proof.Machine
end

