-- ==== Sys2Proof/Machine/Storages.lean ====
section
/-!
DEFINITION. Events of the storage controllers: writes and reads of bonded memory with their re-read and golden fetch,
refresh, LPDDR5X accesses and housekeeping, shared-buffer accesses (R260 to R275, R288 to R298).
-/

namespace Sys2Proof.Machine

open Sys2Proof

/-- An access of a requester that arrives in a sleep state wakes the module first (R292, R389). -/
def rouse (s : State) : Leaf → State
  | .port _ => wakeFor s 4
  | _ => wakeFor s 1

/-! Bonded memory. -/

/-- Lines of a slice (R26, R259). -/
def sliceLines : Nat := 12582912

/-- An access to a line of a slice: a line that the slice does not have changes nothing; while Quench holds the half the access waits
(R420). The banks that owe refreshes take them in the idle slot that follows (R275). -/
def sliceAccess (s : State) (i : HeldAccess) (q : Req) (t n line : Nat) (f : State → State) : State :=
  if sliceLines ≤ line then s
  else awaitAccess (rouse s q.who) q [(t, sliceHalf n)] i fun s => idleSlot (f s) t n

/-- BONDED_WHOLE_WRITE (R260). -/
def execBondedWholeWrite (t : Fin 12) (n : Fin 32) (line : BitVec 24) (data : List Byte) (who : Leaf) (tag : BitVec 32)
    (s : State) : Out :=
  .next (sliceAccess s (.wholeWrite t n line data who tag) ⟨who, tag.toNat⟩ t n line.toNat fun s =>
    reqWrite who (chunkWrite s ⟨who, tag.toNat⟩ (sliceBase t n + 128 * line.toNat) (fitBytes 128 data)))

/-- The bytes of a narrow write that stay in its line. -/
def narrowData (off : Nat) (data : List Byte) : List Byte := data.take (128 - off)

/-- BONDED_NARROW_WRITE (R265). -/
def execBondedNarrowWrite (t : Fin 12) (n : Fin 32) (line : BitVec 24) (off : Fin 128) (data : List Byte) (who : Leaf)
    (tag : BitVec 32) (s : State) : Out :=
  .next (if data.isEmpty then s
    else sliceAccess s (.narrowWrite t n line off data who tag) ⟨who, tag.toNat⟩ t n line.toNat fun s =>
      reqWrite who (chunkWrite s ⟨who, tag.toNat⟩ (sliceBase t n + 128 * line.toNat + off) (narrowData off data)))

/-- MB_TIMEOUT (R266): entry i gathered nothing for SC_CFG.MB_TIMEOUT µs; it leaves by RMW. -/
def execMbTimeout (t : Fin 12) (n i : Fin 32) (s : State) : Out :=
  let x := sliceOf s t n
  .next (match x.mb[i.val]? with
    | some e =>
      if !lapsed s e.time (mbTime s t n) then s
      else touchHalf (setSlice s t n { x with mb := x.mb.set i { e with rmw := true } }) t (sliceHalf n)
    | none => s)

/-- RMW_DONE (R267): the read-modify-write of an entry that leaves; `par` says that the entry has a parity error (R282). -/
def execRmwDone (t : Fin 12) (n i : Fin 32) (par : Bool) (s : State) : Out :=
  .next (match (sliceOf s t n).mb[i.val]? with
    | some e => if !e.rmw then s else idleSlot (if par then sliceParity s t n e else sliceRmw s t n e) t n
    | none => s)

/-- A line delivered by a slice controller. -/
def sliceDeliver (s : State) (t n line : Nat) (data : List Byte) (st : ASt) : State :=
  setSlice s t n { sliceOf s t n with delivered := some ⟨line, data, st⟩ }

/-- BONDED_LINE_READ (R266, R268): `flips` are the bit positions in which this read differs from what is stored. A line that
fails its check waits for its re-read. -/
def execBondedLineRead (t : Fin 12) (n : Fin 32) (line : BitVec 24) (who : Leaf) (tag : BitVec 32)
    (flips : List (Fin 1056)) (s : State) : Out :=
  .next (sliceAccess s (.lineRead t n line who tag flips) ⟨who, tag.toNat⟩ t n line.toNat fun s =>
    let da := sliceBase t n + 128 * line.toNat
    let (up, s) := sliceReach s ⟨who, tag.toNat⟩ t n
    if !up then sliceDeliver s t n line.toNat zeroLine .poison
    else
      let s := sliceFlush s t n (da / 128)
      let r := s.mem.readLine da (flips.map Fin.val)
      if r.2 then sliceDeliver (count s (scPage t n) 0x800 1) t n line.toNat r.1 .ok
      else
        let x := sliceOf s t n
        setSlice s t n { x with
          reads := x.reads ++ [⟨line.toNat, overBonds who t n, tag.toNat, flips.map Fin.val, false⟩] })

/-- Bit positions counted against a bond group; at 16 the group is due for a repair bond (R273). -/
def countBonds (s : State) (t n op o tag : Nat) (bits : List Nat) : State :=
  foldList (fun b st =>
    let x := sliceOf st t n
    let g := min 16 (b / 64)
    let k := kget 0 x.bonds g + 1
    let st := setSlice st t n { x with bonds := kinsert x.bonds g k }
    if k = 16 then raiseOp st (scPage t n) (if 2 ≤ kget 0 x.repairs g then 9 else 8) (scOp op o tag) else st)
    bits (count s (scPage t n) 0x858 bits.length)

/-- The bit positions in which two reads of a line differ (R268). -/
def flipDiff (a b : List Nat) : List Nat :=
  (a.eraseDups.filter fun x => !b.contains x) ++ b.eraseDups.filter fun x => !a.contains x

/-- CRC_REREAD_RETURN (R268): the re-read of waiting read i returns. -/
def execCrcRereadReturn (t : Fin 12) (n : Fin 32) (i : Nat) (flips : List (Fin 1056)) (s : State) : Out :=
  let x := sliceOf s t n
  .next (match x.reads[i]? with
    | none => s
    | some r =>
      let o := 128 * r.line
      let da := sliceBase t n + o
      let pg := scPage t n
      let op := readOp r.bond
      let again := s.mem.readLine da (flips.map Fin.val)
      if r.golden then s
      else if again.2 then
        let s := setSlice s t n { x with reads := x.reads.eraseIdx i }
        let s := raiseOp (count (count s pg 0x800 1) pg 0x820 1) pg 0 (scOp op o r.tag)
        let s := countBonds s t n op o r.tag (flipDiff r.flips (flips.map Fin.val))
        sliceDeliver s t n r.line again.1 .ok
      else if (goldenOf s da).isSome then setSlice s t n { x with reads := x.reads.set i { r with golden := true } }
      else
        let s := setSlice s t n { x with reads := x.reads.eraseIdx i }
        let ((d, _), s) := badLine (count s pg 0x800 1) r.bond r.tag t n o
        sliceDeliver s t n r.line d .poison)

/-- GOLDEN_FETCH_DONE (R268): the golden copy of waiting read i arrives. -/
def execGoldenFetchDone (t : Fin 12) (n : Fin 32) (i : Nat) (s : State) : Out :=
  let x := sliceOf s t n
  .next (match x.reads[i]? with
    | none => s
    | some r =>
      if !r.golden then s
      else
        let s := count (setSlice s t n { x with reads := x.reads.eraseIdx i }) (scPage t n) 0x800 1
        let ((d, st), s) := badLine s r.bond r.tag t n (128 * r.line)
        sliceDeliver s t n r.line d st)

/-! Refresh (R274, R275). -/

/-- tREFI in ns (R274). -/
def tRefi (s : State) (t n : Nat) : Nat := if bitOf (pget s (scPage t n) 0x08C) 0 then 1950 else 3900

/-- REFRESH_DUE: a bank's refresh falls due; it is taken with those it owes, or postponed, up to four. In self-refresh the
DRAM refreshes itself (R276). -/
def execRefreshDue (t : Fin 12) (n : Fin 32) (l : Fin 8) (b : Fin 16) (postpone : Bool) (s : State) : Out :=
  let x := sliceOf s t n
  let pg := scPage t n
  let k := kget 0 x.owed (refKey l b)
  .next (if bitOf (pget s pg 0x08C) 1 then s
    else if postpone && k < 4 then
      showOwed (count (setSlice s t n { x with owed := kinsert x.owed (refKey l b) (k + 1) }) pg 0x840 1) t n
    else dueRefresh s t n l b)

/-- REFRESH_MISS: more than five tREFI since the last refresh of a bank (R275). -/
def execRefreshMiss (t : Fin 12) (n : Fin 32) (l : Fin 8) (b : Fin 16) (s : State) : Out :=
  let x := sliceOf s t n
  .next (if bitOf (pget s (scPage t n) 0x08C) 1 || s.clock.now ≤ kget x.epoch x.lastRef (refKey l b) + 5 * tRefi s t n
    then s else raise s (scPage t n) 11)

/-! LPDDR5X. -/

/-- A line delivered by an LPDDR5X controller. -/
def lpDeliver (s : State) (p line : Nat) (data : List Byte) (st : ASt) : State :=
  setLp s p { lpOf s p with delivered := some ⟨line, data, st⟩ }

/-- LP_LINE_READ (R289). A line above the addressable part reads as zeros with error status (R32). -/
def execLpLineRead (a : Fin 4) (line : BitVec 31) (who : Leaf) (tag : BitVec 32) (r : LpRead) (s : State) : Out :=
  let q := 128 * line.toNat
  let s := rouse s who
  .next (if regionFenced s a then lpDeliver s (4 * a) line.toNat zeroLine .poison
    else if regionTop s a ≤ q then lpDeliver (reqAddrErr (lpTail s a tag.toNat) who false) (4 * a) line.toNat zeroLine .error
    else
      let p := (regionChan s a q).1 / 4
      let (up, s) := carry s ⟨who, tag.toNat⟩ ⟨a, none, none⟩ 1
      if !up then lpDeliver s p line.toNat zeroLine .poison
      else
        let ((d, st), s) := lpReadLine s 1 tag.toNat a q r
        lpDeliver s p line.toNat d st)

/-- LP_WHOLE_WRITE (R288). -/
def execLpWholeWrite (a : Fin 4) (line : BitVec 31) (data : List Byte) (who : Leaf) (tag : BitVec 32) (s : State) : Out :=
  .next (reqWrite who (chunkWrite (rouse s who) ⟨who, tag.toNat⟩ (regionBase a + 128 * line.toNat) (fitBytes 128 data)))

/-- LP_NARROW_WRITE (R288). -/
def execLpNarrowWrite (a : Fin 4) (line : BitVec 31) (off : Fin 128) (data : List Byte) (who : Leaf) (tag : BitVec 32)
    (s : State) : Out :=
  .next (if data.isEmpty then s
    else reqWrite who (chunkWrite (rouse s who) ⟨who, tag.toNat⟩ (regionBase a + 128 * line.toNat + off) (narrowData off data)))

/-- GB_TIMEOUT (R288): entry i gathered nothing for LP_CFG.GB_TIMEOUT µs; it leaves by RMW, `par` with a parity error (R307). -/
def execGbTimeout (p : Fin 16) (i : Fin 64) (par : Bool) (s : State) : Out :=
  .next (match (lpOf s p).gb[i.val]? with
    | some e =>
      if !lapsed s e.time (gbTime s p) then s
      else lpMerge s p e par
    | none => s)

/-- Whether the channels operate: not in self-refresh or deep sleep (R292). -/
def lpOperating (s : State) : Bool := pState s ≤ 1

/-- A channel's record changed. -/
def mapChan (s : State) (p c : Nat) (f : LpChan → LpChan) : State :=
  let l := lpOf s p
  setLp s p { l with chans := kput .reset l.chans c (f (kget .reset l.chans c)) }

/-- Whether a channel has missed a refresh (R291): more REFpb intervals of tREFI / 16 have passed since its last one than
JESD209-5C lets it postpone, and one, the time counted from the start of operation where there is none. DESIGN CHOICE: that number is
a free value (log 109). -/
def lpMissed (s : State) (p c : Nat) : Bool :=
  let t0 := (kget LpChan.reset (lpOf s p).chans c).lastRef.getD (lpOf s p).epoch
  (Config.lpPostpone + 1) * 3900 < (s.clock.now - t0) * 16 * 2 ^ fld (pget s (lpPage p) 0x080) (8 * c + 5) (8 * c + 4)

/-- LP_REFRESH_MISS where a channel has missed a refresh (R307). -/
def lpMissCheck (s : State) (p c : Nat) : State := if lpMissed s p c then raiseOp s (lpPage p) 8 [c, 0, 0] else s

/-- LP_REFRESH (R291, R296): one REFpb, rotating through the banks. -/
def execLpRefresh (p : Fin 16) (c : Fin 4) (s : State) : Out :=
  .next (if chState s p c != 0 || !lpOperating s then s
    else mapChan (count (lpMissCheck s p c) (lpPage p) (lpCnt c 4) 8) p c fun k =>
      { k with refBank := (k.refBank + 1) % 16, lastRef := some s.clock.now })

/-- MR4_READ (R291): the multiplier that the channel reports, and whether it is above its operating limit. -/
def execMr4Read (p : Fin 16) (c : Fin 4) (mult : Fin 3) (hot : Bool) (s : State) : Out :=
  .next (if chState s p c != 0 || !lpOperating s then s
    else
      let s := lpMissCheck s p c
      let v := pget s (lpPage p) 0x080
      let s := pset s (lpPage p) 0x080 (setFld v (8 * c + 5) (8 * c + 4) mult)
      if hot then raiseOp s (lpPage p) 7 [c, 0, 0] else s)

/-- Cycles of a window (R296). -/
def effWindow : Nat := 1000000

/-- LP_EFF_WINDOW (R296): the terms of the window just ended, in 1/256; the cycles of the window are counted. -/
def execLpEffWindow (p : Fin 16) (c : Fin 4) (s : State) : Out :=
  .next (
    let pg := lpPage p
    let cur := [1, 2, 3, 4].map fun k => cntGet s pg (lpCnt c k)
    let old := (kget LpChan.reset (lpOf s p).chans c).window
    let term (k : Nat) : Nat := min 255 ((cur.getD k 0 + 2 ^ 64 - old.getD k 0) % 2 ^ 64 * 256 / effWindow)
    let s := pset s pg (0x0A0 + 4 * c) (term 0 + term 1 * 2 ^ 8 + term 2 * 2 ^ 16 + term 3 * 2 ^ 24)
    mapChan (count s pg (lpCnt c 0) effWindow) p c fun k => { k with window := cur })

/-- LP_UNC_CLEAR (R305). -/
def lpUncClearWrite (p : Fin 16) (c : Fin 4) (s : State) : State :=
  blockWrite s (lpPage p) fun s =>
    pset s (lpPage p) 0x090 (setFld (pget s (lpPage p) 0x090) (8 * c + 7) (8 * c) 0)

/-- LP_IDLE_POWER_DOWN (R292): a channel that has had no request for 1 µs; the next line transferred ends it. -/
def execLpIdlePowerDown (p : Fin 16) (c : Fin 4) (s : State) : Out :=
  let since := max (lpOf s p).epoch (kget LpChan.reset (lpOf s p).chans c).lastReq
  .next (if chState s p c != 0 || !lpOperating s || s.clock.now < since + 1000 then s
    else mapChan s p c fun k => { k with down := true })

/-! Shared buffer. -/

/-- SB_READ (R298) of one word: `bad` reads in a row find bad parity, the first alone or the re-read with it, from which on the word
is bad. -/
def execSbRead (a : Fin 4) (off : BitVec 26) (who : Leaf) (tag : BitVec 32) (bad : Fin 3) (s : State) : Out :=
  let o := off.toNat / 4 * 4
  let s := rouse s who
  .next (
    let (up, s) := if baseUp s a then carry s ⟨who, tag.toNat⟩ ⟨a, none, none⟩ 1 else (false, s)
    let s := if up && bad.val = 2 then s.setMem (s.mem.setParity (sbBase a + o) 4 true) else s
    let ((d, st), s) := if up then sbRead s 1 tag.toNat a o 4 else ((List.replicate 4 0#8, .poison), s)
    let s := if bad.val = 1 && st = .ok then raiseOp (count s (sbPage a) 0x820 1) (sbPage a) 0 [1, o, tag.toNat] else s
    s.setStore { s.store with sbOut := kinsert s.store.sbOut a ⟨o, d, st⟩ })

/-- SB_WRITE (R298): `bad` arrivals in a row have bad parity; the sender replays once, and at the second nothing is
written. -/
def execSbWrite (a : Fin 4) (off : BitVec 26) (data : List Byte) (who : Leaf) (tag : BitVec 32) (bad : Fin 3) (s : State) :
    Out :=
  let s := rouse s who
  .next (if data.isEmpty then s
    else if bad.val = 2 then raiseOp s (sbPage a) 2 [2, off.toNat, tag.toNat]
    else reqWrite who (chunkWrite s ⟨who, tag.toNat⟩ (sbBase a + off.toNat) (narrowData (off.toNat % 128) data)))

end Sys2Proof.Machine
end

