-- ==== Sys2Proof/Machine/Registers.lean ====
section
/-!
DEFINITION. Writes of registers (R486 to R489, R492, R494, R495), what each register does with a value, and the rows that
access registers.
-/

namespace Sys2Proof.Machine

open Sys2Proof

/-! Selections: each takes a snapshot. -/

/-- SP_SEQ_SEL (R167). -/
def seqSelect (s : State) (v : Nat) : State :=
  let i := v % 4096
  let l := seqBytes (seqOf s i)
  foldList (fun k st => pset st (modPage 11) (0x100 + 4 * k) (field l (4 * k) 4)) (List.range 16) (pset s (modPage 11) 0x0C4 i)

/-- FS_HREC_SEL (R501): beyond the records that Hearth holds it shows zeros. -/
def hrecSelect (s : State) (v : Nat) : State :=
  let l := (s.flt.records[v % 256]?).getD []
  foldList (fun k st => pset st (modPage 6) (0x200 + 4 * k) (field l (4 * k) 4)) (List.range 82)
    (pset s (modPage 6) 0x0A0 (v % 256))

/-- TO_PORT_SEL (R503): a port that the descriptor does not use shows node 0xFFFF. -/
def portSelect (s : State) (v : Nat) : State :=
  let c := v % 8
  let (node, port) := (kfind s.chain.expect c).getD (0xFFFF, 0)
  let stat := pget s (cpPage c) 0x08C / 2 ^ 16
  let agrees := (kfind s.chain.expect c).isSome && stat = node && pget s (cpPage c) 0x090 % 8 = port
  pset (pset s (modPage 8) 0x088 c) (modPage 8) 0x08C (node + port * 2 ^ 16 + b2n agrees * 2 ^ 19)

/-- TO_RT_SEL (R503): entries beyond the table are unused. -/
def routeSelect (s : State) (v : Nat) : State :=
  let i := v % 64
  let (lo, hi, m) := (s.chain.routes[i]?).getD (0xFFFF, 0, 0)
  let up := maskOf ((setBits m 8).filter fun c => portState s c = 2)
  let s := pset (pset s (modPage 8) 0x090 i) (modPage 8) 0x094 (lo + hi * 2 ^ 16)
  pset s (modPage 8) 0x098 (m % 256 + up * 2 ^ 8)

/-- TC_STRIKE_SEL (R455): a value naming no unit is applied as 0. -/
def strikeSelect (s : State) (t v : Nat) : State :=
  let u := if unitOk (v % 512) then v % 512 else 0
  let r := unitOf s t u
  pset (pset s (tilePage t 0) 0x758 u) (tilePage t 0) 0x75C (min 15 r.strikes + 16 * b2n r.quarantined)

/-! Other registers with an effect of their own. -/

/-- HI_Q_CFG (R334, R350): sizes only while EN is 0. -/
def queueCfgWrite (s : State) (q : Fin 64) (v : Nat) : State :=
  let old := regGet s (qReg q 0x10)
  let en := (pairOf s q).en
  let sizes := if en then old % 2 ^ 24 else atLeastOne (atLeastOne (v % 2 ^ 24) 11 0) 23 12
  let s := regSet s (qReg q 0x10) (sizes + b2n (bitOf old 24) * 2 ^ 24 + b2n (bitOf v 25) * 2 ^ 25)
  pairEnable q (bitOf v 24) s

/-- A register of the queue-configuration page: bases and sizes are ignored while EN is 1 (R334). -/
def queuePageWrite (s : State) (o v : Nat) : State :=
  let q : Fin 64 := Fin.ofNat 64 ((o - 0x100) / 0x18)
  let r := (o - 0x100) % 0x18
  match regDesc .queueCfg o with
  | none => s
  | some d =>
    if r = 0x10 then queueCfgWrite s q v
    else if r < 0x10 && (pairOf s q).en then s
    else pset s (modPage 9) o (clampWord .queueCfg o (maskedWord d (pget s (modPage 9) o) v))

/-- Bytes of host memory that fetches bring: as many entries of 64 bytes (R335). -/
def drawEntries (s : State) (n : Nat) : List (List Byte) × State :=
  ((List.range n).map fun i => (List.range 64).map fun b => Config.hostByte s.free (64 * i + b), s.setFree (s.free + 1))

/-- A register of the doorbell page. What the host answers to the fetch that SQ_TAIL starts is free here: the row SQ_TAIL has it as
operands. A doorbell wakes the module by a cause of its own (R389, R403). -/
def doorbellWrite (s : State) (o v : Nat) : State :=
  let q : Fin 64 := Fin.ofNat 64 ((o - 0x080) / 16)
  if o < 0x080 || 0x480 ≤ o then s
  else match (o - 0x080) % 16 with
    | 0 =>
      let (ok, s) := drawBool s
      let (w, s) := drawWord s
      let (l, s) := drawEntries s (newEntries (sqSize s q) (pairOf s q).sqTail (v % 4096))
      sqTail q (BitVec.ofNat 12 v) l (if ok then none else some (w.setWidth 12)) s
    | 4 => cqHeadWrite q (BitVec.ofNat 12 v) s
    | 8 => pset s (modPage 10) o (pget s (modPage 10) o &&& (0xFFFFFFFF - (v &&& 0x3000000)))
    | _ => s

/-- A word of the MSI-X table (R344): a Mask bit that falls releases a pending message. -/
def msixWrite (s : State) (page o v : Nat) : State :=
  if page != 16 then s
  else if o % 16 = 12 then
    msixUnmask (some (Fin.ofNat 256 (o / 16))) (bitOf v 0) s
  else pset s page o v

/-- LP_UNC (R305): writing 0xFF clears the count of a channel. -/
def lpUncWrite (s : State) (p v : Nat) : State :=
  foldList (fun c st =>
    if fld v (8 * c + 7) (8 * c) = 0xFF then pset st (lpPage p) 0x090 (setFld (pget st (lpPage p) 0x090) (8 * c + 7) (8 * c) 0)
    else st) (List.range 4) s

/-- PWR_SAVE (R388, R403). -/
def saveWrite (s : State) (o v : Nat) : State :=
  refreshSave (pset s pwrPage o (v &&& (if o = 0x098 then 0xFFFFF000 else 0x8000FFFF)))

/-- SP_CTRL (R171, R504). -/
def spCtrlWrite (s : State) (v : Nat) : State :=
  let s := pset s (modPage 11) 0x080 (setBitN (pget s (modPage 11) 0x080) 1 (bitOf v 1))
  runWrite s (bitOf v 0)

/-- TCC_CTL (R138): RESTART first, then HALT. -/
def tccCtlWrite (s : State) (t v : Nat) : State :=
  haltWrite (if bitOf v 1 then tccRestart s t else s) t (bitOf v 0)

/-- A register of a Tongs page with an effect of its own (R201, R263, R264, R300): those of a FILL are discarded while one
runs. -/
def tongsWrite (s : State) (a o v : Nat) : Option State :=
  let w := BitVec.ofNat 32 v
  let t (base : Nat) : Fin 12 := Fin.ofNat 12 (3 * a + (o - base) / 16)
  if 0x200 ≤ o && o < 0x230 && o % 16 = 0 then some (tgWpostWrite (t 0x200) w s)
  else if 0x300 ≤ o && o < 0x330 && o % 16 = 0 then some (tgMpostWrite (t 0x300) w s)
  else if o = 0x290 then some (if bitOf v 0 then fillWrite (Fin.ofNat 4 a) s else s)
  else if 0x280 ≤ o && o < 0x298 && bitOf (pget s (tgPage a) 0x294) 0 then some s
  else none

/-- A register of a tile control page with an effect of its own (R121 to R124, R132, R247, R455). -/
def tileCtlWrite (s : State) (t : Fin 12) (o v : Nat) : Option State :=
  let w := BitVec.ofNat 32 v
  if o = 0x420 then some (tfSetWrite t (BitVec.ofNat 8 v) s)
  else if o = 0x424 then some (tfClrWrite t (BitVec.ofNat 8 v) s)
  else if 0x440 ≤ o && o < 0x4C0 then some (tbMembersWrite t (Fin.ofNat 16 ((o - 0x440) / 8)) (o % 8 = 4) w s)
  else if 0x4C0 ≤ o && o < 0x500 then
    some (if bitOf v 31 then tbAbortWrite t (Fin.ofNat 16 ((o - 0x4C0) / 4)) s else s)
  else if o = 0x700 then some (tcSpostWrite t w s)
  else if o = 0x758 then some (strikeSelect s t v)
  else none

/-- A register of A0's base control page with an effect of its own (R133, R378); there is none on the other base dies. -/
def baseCtlWrite (s : State) (a o v : Nat) : Option State :=
  if o < 0x400 || 0x480 ≤ o then none
  else if a != 0 then some s
  else if o = 0x408 then some (mfSetWrite (BitVec.ofNat 6 v) s)
  else if o = 0x40C then some (mfClrWrite (BitVec.ofNat 6 v) s)
  else if 0x420 ≤ o && o < 0x440 then some (mbMembersWrite (Fin.ofNat 8 ((o - 0x420) / 4)) (BitVec.ofNat 12 v) s)
  else if 0x440 ≤ o && o < 0x460 then some (if bitOf v 31 then mbAbortWrite (Fin.ofNat 8 ((o - 0x440) / 4)) s else s)
  else if 0x460 ≤ o && o < 0x470 then some (cbCfgWrite (Fin.ofNat 4 ((o - 0x460) / 4)) (BitVec.ofNat 32 v) s)
  else some s

/-- A register of a tile page with an effect of its own. -/
def tileWrite (s : State) (b : Block) (t : Fin 12) (i o v : Nat) : Option State :=
  let w := BitVec.ofNat 32 v
  match b, o with
  | .tileControl, _ => tileCtlWrite s t o v
  | .tcc, 0x098 => some (tccCtlWrite s t v)
  | .matrixCore, 0x08C => some (mcWringWrite t (Fin.ofNat 32 (i - 2)) false w s)
  | .matrixCore, 0x090 => some (mcWringWrite t (Fin.ofNat 32 (i - 2)) true w s)
  | .layerCtl, 0x080 => some (nlPostWrite t (Fin.ofNat 8 (i - 74)) w s)
  | .fabric, 0x080 => some (fbHalfCtlWrite t w s)
  | .tileThermal, 0x080 => some (ttHsSelWrite (Fin.ofNat 16 (4 + t.val)) (BitVec.ofNat 6 v) s)
  | .tileThermal, 0x09C => some (if bitOf v 0 then ttSensClrWrite (Fin.ofNat 16 (4 + t.val)) s else s)
  | .temper, 0x080 =>
    let s := pset s (tmPage t) 0x080 (v % 2)
    some (if bitOf v 1 then runNowAll s t else s)
  | .temper, 0x08C => some (tmSelect s t v)
  | _, _ => none

/-- A register of a base-die page with an effect of its own. -/
def baseWrite (s : State) (b : Block) (a i o v : Nat) : Option State :=
  match b, o with
  | .baseControl, _ => baseCtlWrite s a o v
  | .lpddr, 0x090 => some (lpUncWrite s (4 * a + (i - 1)) v)
  | .chainPort, 0x088 => some (if bitOf v 0 then cpRetrainWrite (Fin.ofNat 8 (2 * a + (i - 6))) s else s)
  | .baseThermal, 0x080 => some (ttHsSelWrite (Fin.ofNat 16 a) (BitVec.ofNat 6 v) s)
  | .baseThermal, 0x09C => some (if bitOf v 0 then ttSensClrWrite (Fin.ofNat 16 a) s else s)
  | .tongs, _ => tongsWrite s a o v
  | _, _ => none

/-- A register of a module page with an effect of its own. PWR_CMD.WAKE finds the module awake (R389). -/
def moduleWrite (s : State) (b : Block) (o v : Nat) : Option State :=
  match b, o with
  | .hostIf, 0x084 => some (bar4Write s false v)
  | .hostIf, 0x088 => some (bar4Write s true v)
  | .bellows, 0x098 => some (saveWrite s o v)
  | .bellows, 0x09C => some (saveWrite s o v)
  | .faultSummary, 0x090 => some (ringDaWrite s v)
  | .faultSummary, 0x094 => some (ringCfgWrite s v)
  | .faultSummary, 0x09C => some (ringTailWrite s v)
  | .faultSummary, 0x0A0 => some (hrecSelect s v)
  | .timebase, 0x090 => some (if bitOf v 0 then timeLoadWrite s else s)
  | .topology, 0x088 => some (portSelect s v)
  | .topology, 0x090 => some (routeSelect s v)
  | .queueCfg, _ => some (queuePageWrite s o v)
  | .queueBell, _ => some (doorbellWrite s o v)
  | .sequences, 0x080 => some (spCtrlWrite s v)
  | .sequences, 0x0C4 => some (seqSelect s v)
  | _, _ => none

/-- A register with an effect of its own, by page. -/
def ownWrite (s : State) (b : Block) (page o v : Nat) : Option State :=
  match pagePlace page with
  | .tile t i => tileWrite s b (Fin.ofNat 12 t) i o v
  | .base a i => baseWrite s b a i o v
  | .module _ => moduleWrite s b o v
  | .unmapped => none

/-! Guarded pairs (R494, R495). -/

/-- Whether an offset is the value word of a guarded pair. -/
def isGuarded (b : Block) (o : Nat) : Bool := b != .msix && guardOf b (o + 4) = some o

/-- GUARD (source 31), and no pending value. -/
def guardFails (s : State) (page : Nat) : State :=
  raise (s.setRegs { s.regs with guards := kerase s.regs.guards page }) page 31

/-- Step 1: the value is pending; one that waits for another register is discarded, with GUARD. -/
def guardValue (s : State) (page o v : Nat) : State :=
  let s := match kfind s.regs.guards page with
    | some (p, _) => if p = o then s else guardFails s page
    | none => s
  s.setRegs { s.regs with guards := kinsert s.regs.guards page (o, BitVec.ofNat 32 v) }

/-- A guarded value applied (R432, R494, step 3). -/
def guardApply (s : State) (b : Block) (page o v : Nat) : State :=
  if o < 0x080 then pset s page o (clampReact b page ((o - 0x030) / 8) v)
  else match b, pagePlace page, regDesc b o with
    | .lpddr, .base a i, _ => lpMapoutWrite (Fin.ofNat 16 (4 * a + (i - 1))) (BitVec.ofNat 4 v) s
    | .chainPort, .base a i, some d =>
      let s := pset s page o (maskedWord d (pget s page o) v)
      portEnable s (2 * a + (i - 6)) (bitOf v 0)
    | _, _, some d => pset s page o (clampWord b o (maskedWord d (pget s page o) v))
    | _, _, none => s

/-- Steps 2 to 4: the complement of the register at `o` (R494, R495). -/
def guardComplement (s : State) (b : Block) (page o v : Nat) : State :=
  match kfind s.regs.guards page with
  | some (p, w) =>
    if p = o && w.toNat + v = 0xFFFFFFFF then
      guardApply (s.setRegs { s.regs with guards := kerase s.regs.guards page }) b page o w.toNat
    else guardFails s page
  | none => guardFails s page

/-! One word written. -/

/-- A block-specific register written (R487): counters are RO, and RO registers keep their value. -/
def specificPut (s : State) (b : Block) (page o v : Nat) : State :=
  if 0x800 ≤ o then s
  else match ownWrite s b page o v with
    | some s => s
    | none => match regDesc b o with
      | none => s
      | some d =>
        let s := if cntCtl b = some o && bitOf v 0 then cntClear s page else s
        if d.rw = 0 && d.w1c = 0 then s else pset s page o (clampWord b o (maskedWord d (pget s page o) v))

/-- Sources of a word of FLT_CLASS that are set keep the class of their setting (R428, R493). -/
def keepClasses (s : State) (page w : Nat) : State :=
  let l := ((List.range 16).map (16 * w + ·)).filter (sticky s page)
  s.setFlt { s.flt with classes := foldList (fun src m => kinsert m (page * 32 + src) (settingClass s page src)) l s.flt.classes }

/-- A register of the common part written (R490). -/
def commonPut (s : State) (b : Block) (page o v : Nat) : State :=
  match o with
  | 0x010 => if bitOf v 0 then blockReset s page else s
  | 0x018 => blockPowerRequestWrite (BitVec.ofNat 11 page) (BitVec.ofNat 2 v) s
  | 0x020 => writeSticky s page v
  | 0x024 => writeForce s page v
  | 0x028 => pset (keepClasses s page 0) page o (clampClass b 0 v)
  | 0x02C => pset (keepClasses s page 1) page o (clampClass b 1 v)
  | _ => s

/-- A 32-bit write to a page that serves (R489): while the page is in block reset only its common part takes it (R492). -/
def regPut (s : State) (b : Block) (page o v : Nat) : State :=
  if b = .msix then msixWrite s page o v
  else if inReset s page && 0x080 ≤ o then s
  else if isGuarded b o then guardValue s page o v
  else match guardOf b o with
    | some p => guardComplement s b page p v
    | none => if o < 0x080 then commonPut s b page o v else specificPut s b page o v

/-- The latch of a writer follows a HI register that it writes (R486, R488). DEDUCED (log 42). -/
def latchWrite (s : State) (ag : Agent) (b : Block) (page o : Nat) : State :=
  if 4 ≤ o && loPair b (o - 4) = some true then setLatch s ag page o (regWord s page o) else s

/-- Whether a word is a doorbell: SQ_TAIL or CQ_HEAD of a queue pair (R350). -/
def isDoorbell (page o : Nat) : Bool := page = 10 && 0x080 ≤ o && o < 0x480 && ((o - 0x080) % 16 = 0 || (o - 0x080) % 16 = 4)

/-- A write of a word of register space by an agent (R486): the module, and a half that is DOWN, wake first; PWR_CMD.WAKE
and a doorbell wake by causes of their own (R389, R403). A page that does not serve, and an unassigned one, discard it (R489, R496), and so does a poisoned
flit (log 83). The status is an error where the page is unmapped. -/
def regWrite (s : State) (ag : Agent) (off v : Nat) : ASt × State :=
  let page := off / 0x1000
  let o := off % 0x1000 / 4 * 4
  let s := if page = 3 && o = 0x088 && bitOf v 0 then pwrCmdWakeWrite s
    else if isDoorbell page o then wakeFor s 2
    else reach s page
  if pagePlace page = .unmapped then (.error, s)
  else match pageBlock page with
    | none => (.ok, s)
    | some b =>
      if !pageServes s page then (.ok, gatedAccess s ag page)
      else
        let (up, s) := carryPage s ag page
        (.ok, if up then latchWrite (regPut s b page o v) ag b page o else s)

/-! Rows that access registers. -/

/-- ADDR_ERR of the TCC (R32, R139). -/
def tccAddrErr (s : State) (t : Nat) : State := raiseTag s (tccPage t) 4 (coreOf s (coreId t 40)).tag.toNat

/-- What an agent's write to an unmapped page leaves (R32, R333): HI_WR_DISCARD, or ADDR_ERR of the TCC. Vexondane and the fault
aggregators have no address-error source. -/
def agentWrite (ag : Agent) (x : ASt × State) : State :=
  match x.1, ag with
  | .error, .host => postedDiscard x.2
  | .error, .tcc t => tccAddrErr x.2 t
  | _, _ => x.2

/-- An agent's write of a word of register space; while Quench holds the half of the page it waits (R317, R420). -/
def agentStore (s : State) (ag : Agent) (off : BitVec 26) (v : BitVec 32) : State :=
  awaitAccess s ⟨agentLeaf ag, 0⟩ (pageHalves (off.toNat / 0x1000)) (.register ag off v) fun s =>
    agentWrite ag (regWrite s ag off.toNat v.toNat)

/-- REGISTER_WRITE (R486). -/
def execRegisterWrite (ag : Agent) (off : BitVec 26) (v : BitVec 32) (s : State) : Out :=
  .next (agentStore s ag off v)

/-- GUARDED_WRITE (R494, R495): a write to the complement word of a guarded pair. A word that is none completes nothing. -/
def execGuardedWrite (ag : Agent) (off : BitVec 26) (v : BitVec 32) (s : State) : Out :=
  let page := off.toNat / 0x1000
  .next (match pageBlock page with
    | some b => if (guardOf b (off.toNat % 0x1000 / 4 * 4)).isSome then
        agentStore s ag off v
      else s
    | none => s)

/-- COUNTER_CLEAR (R88): CNTCTL.CLEAR of a page that has it. -/
def execCounterClear (page : BitVec 11) (s : State) : Out :=
  let pg := page.toNat
  .next (if ((pageBlock pg).bind cntCtl).isSome then blockWrite (reach s pg) pg fun s => cntClear s pg else s)

/-- Whether a host write has a legal width (R331): 4 or 8 bytes, aligned. -/
def hostWidth (off n : Nat) : Bool := (n = 4 || n = 8) && off % n = 0

/-- A host write of words, the low address first (R331); one that is unmapped sets HI_WR_DISCARD (R333). -/
def hostWords (s : State) (off : Nat) : List (List Byte) → State
  | [] => s
  | w :: l =>
    let (st, s) := regWrite s .host off (leNat w)
    hostWords (if st = .error then postedDiscard s else s) (off + 4) l

/-- A host read of words, low address first: bytes and the worst status. -/
def hostReadWords (s : State) (off : Nat) : Nat → (List Byte × ASt) × State
  | 0 => (([], .ok), s)
  | n + 1 =>
    let ((v, st), s) := regRead s .host off
    let ((l, st'), s) := hostReadWords s (off + 4) n
    ((leBytes 4 v ++ l, st.worse st'), s)

/-- BAR0_ACCESS (R331, R333): a write of 4 or 8 aligned bytes, any other is discarded; a read returns the addressed bytes. -/
def execBar0Access (off : BitVec 26) (size : Fin 9) (data : Option (List Byte)) (s : State) : Out :=
  .next (awaitAccess s hostReq (pageHalves (off.toNat / 0x1000)) (.bar0 off size data) fun s =>
    let o := off.toNat
    match data with
    | some d =>
      if hostWidth o d.length then hostWords s o (chunksOf 4 2 d)
      else raiseTag (wakeFor s 1) hiPage 3 0
    | none =>
      let n := size.val
      let ((l, st), s) := hostReadWords s (o / 4 * 4) (divUp (o % 4 + n) 4)
      hostReply s n ((l.drop (o % 4)).take n) st)

/-- The device address of LDG and STG (R115): G[GA] plus the sign-extended immediate; bits [1:0] are ignored. -/
def globalAddr (s : State) (t : Nat) (f : SFields) : Nat := (getG s t 40 f.ga.toNat + sext32 f.imm).toNat / 4 * 4

/-- The halves that an LDG or STG needs (R317, R420). -/
def globalHalves (da : Nat) : List (Nat × Nat) :=
  match daKind da with
  | .register off => pageHalves (off / 0x1000)
  | _ => daHalves da 4

/-- LDG or STG of a TCC: while Quench holds a half that it needs it waits, and the wake is latched (R94, R420). -/
def globalOp (s : State) (i : Instr) (t op : Nat) (f : SFields) (g : Nat → State → State) : State :=
  let da := globalAddr s t f
  let hs := globalHalves da
  issueWhen (if ready s t 40 then awaitHalves s (partReq s t 40) hs id else s) i t 40 op (!hs.any (halfHeld s)) (g da)

/-- Whether a read of a requester at a device address is delivered by a controller that answers a bad line with zeros (R268, R289). -/
def lineServed (s : State) (q : Req) (da : Nat) : Bool :=
  match daKind da with
  | .bonded t m _ => (sliceReach s q t m).1
  | .lpddr a _ => !regionFenced s a && (carry s q (daLoc da) 1).1
  | _ => false

/-- LDG (R115): a read without an address gives zeros (R32), and so does a bad line (R268, R289); for any other poisoned read the spec
states no data, and GD is free (log 66). -/
def execLdg (t : Fin 12) (f : SFields) (s : State) : Out :=
  .next (globalOp s (.ldg t f) t 0xC4 f fun da s =>
    let q : Req := ⟨.part t 40, (coreOf s (coreId t 40)).tag.toNat⟩
    let s := landLine s t da
    let zero := lineServed s q da
    let ((v, st), s) := match daKind da with
      | .register off => regRead s (.tcc t) off
      | _ =>
        let ((l, st), s) := daRead s q da 4
        ((leNat l, st), s)
    match st with
    | .ok => nextPc (setG s t 40 f.gd.toNat (BitVec.ofNat 64 v)) t 40
    | .error => nextPc (setG (tccAddrErr s t) t 40 f.gd.toNat 0#64) t 40
    | .poison =>
      let (w, s) := if zero then (0#32, s) else drawWord s
      nextPc (setG s t 40 f.gd.toNat (w.setWidth 64)) t 40)

/-- STG (R115): an unmapped address and a held range set ADDR_ERR (R32, R153). -/
def execStg (t : Fin 12) (f : SFields) (s : State) : Out :=
  .next (globalOp s (.stg t f) t 0xC5 f fun da s =>
    let w := (getG s t 40 f.gb.toNat).toNat % 2 ^ 32
    let s := landLine (nextPc s t 40) t da
    let (st, s) := match daKind da with
      | .register off => regWrite s (.tcc t) off w
      | _ => daWrite s ⟨.part t 40, (coreOf s (coreId t 40)).tag.toNat⟩ da (leBytes 4 w)
    if st = .error then tccAddrErr s t else s)

/-! Rows of single registers. Each is a register write: a sleeping module, or a half, wakes first (R486, R489). -/

/-- SP_SEQ_SEL (R167). -/
def execSpSeqSel (v : BitVec 32) (s : State) : Out := .next (seqSelect (wakeFor s 1) v.toNat)

/-- FS_HREC_SEL (R501). -/
def execFsHrecSel (v : BitVec 32) (s : State) : Out := .next (hrecSelect (wakeFor s 1) v.toNat)

/-- FS_RING_TAIL (R501). -/
def execFsRingTail (v : BitVec 32) (s : State) : Out := .next (ringTailWrite (wakeFor s 1) v.toNat)

/-- FS_RING_CFG_WRITE (R501): FS_RING_CFG, or FS_RING_DA_LO. -/
def execFsRingCfgWrite (da : Bool) (v : BitVec 32) (s : State) : Out :=
  let s := wakeFor s 1
  .next (if da then ringDaWrite s v.toNat else ringCfgWrite s v.toNat)

/-- TO_PORT_SEL (R503). -/
def execToPortSel (v : BitVec 32) (s : State) : Out := .next (portSelect (wakeFor s 1) v.toNat)

/-- TO_RT_SEL (R503). -/
def execToRtSel (v : BitVec 32) (s : State) : Out := .next (routeSelect (wakeFor s 1) v.toNat)

/-- TC_STRIKE_SEL (R455). -/
def execTcStrikeSel (t : Fin 12) (v : BitVec 32) (s : State) : Out :=
  .next (blockWrite (wakeFor s 1) (tilePage t 0) fun s => strikeSelect s t v.toNat)

/-- TF_SET (R132). -/
def execTfSet (t : Fin 12) (flag : BitVec 8) (s : State) : Out := .next (tfSetWrite t flag (wakeFor s 1))

/-- TF_CLR (R132). -/
def execTfClr (t : Fin 12) (flag : BitVec 8) (s : State) : Out := .next (tfClrWrite t flag (wakeFor s 1))

/-- MF_SET (R133). -/
def execMfSet (flag : BitVec 6) (s : State) : Out := .next (mfSetWrite flag (wakeFor s 1))

/-- MF_CLR (R133). -/
def execMfClr (flag : BitVec 6) (s : State) : Out := .next (mfClrWrite flag (wakeFor s 1))

/-- TB_MEMBERS_WRITE (R124). -/
def execTbMembersWrite (t : Fin 12) (g : Fin 16) (high : Bool) (v : BitVec 32) (s : State) : Out :=
  .next (tbMembersWrite t g high v (wakeFor s 1))

/-- MB_MEMBERS_WRITE (R124). -/
def execMbMembersWrite (g : Fin 8) (v : BitVec 12) (s : State) : Out := .next (mbMembersWrite g v (wakeFor s 1))

/-- TB_ABORT (R123). -/
def execTbAbort (t : Fin 12) (g : Fin 16) (s : State) : Out := .next (tbAbortWrite t g (wakeFor s 1))

/-- MB_ABORT (R123). -/
def execMbAbort (g : Fin 8) (s : State) : Out := .next (mbAbortWrite g (wakeFor s 1))

/-- TCC_HALT_WRITE (R138). -/
def execTccHaltWrite (t : Fin 12) (halt : Bool) (s : State) : Out := .next (tccHaltReg t halt (wakeFor s 1))

/-- TCC_RESTART (R138). -/
def execTccRestart (t : Fin 12) (s : State) : Out := .next (tccRestartWrite t (wakeFor s 1))

/-- MC_WRING_WRITE (R86). -/
def execMcWringWrite (t : Fin 12) (n : Fin 32) (size : Bool) (v : BitVec 32) (s : State) : Out :=
  .next (mcWringWrite t n size v (reach s (mcPage t n)))

/-- TG_WPOST (R201). -/
def execTgWpost (t : Fin 12) (v : BitVec 32) (s : State) : Out := .next (tgWpostWrite t v (wakeFor s 1))

/-- TG_MPOST (R300). -/
def execTgMpost (t : Fin 12) (v : BitVec 32) (s : State) : Out := .next (tgMpostWrite t v (wakeFor s 1))

/-- NL_POST (R230). -/
def execNlPost (t : Fin 12) (l : Fin 8) (v : BitVec 32) (s : State) : Out := .next (nlPostWrite t l v (wakeFor s 1))

/-- TC_SPOST (R247). -/
def execTcSpost (t : Fin 12) (v : BitVec 32) (s : State) : Out := .next (tcSpostWrite t v (wakeFor s 1))

/-- FILL (R264). -/
def execFill (a : Fin 4) (s : State) : Out := .next (fillWrite a (wakeFor s 1))

/-- LP_MAPOUT (R295). -/
def execLpMapout (p : Fin 16) (mask : BitVec 4) (s : State) : Out := .next (lpMapoutWrite p mask (wakeFor s 1))

/-- LP_UNC_CLEAR (R305). -/
def execLpUncClear (p : Fin 16) (c : Fin 4) (s : State) : Out := .next (lpUncClearWrite p c (wakeFor s 1))

/-- FB_HALF_CTL_WRITE (R317). -/
def execFbHalfCtlWrite (t : Fin 12) (v : BitVec 32) (s : State) : Out := .next (fbHalfCtlWrite t v (wakeFor s 1))

/-- CP_RETRAIN (R352). -/
def execCpRetrain (c : Fin 8) (s : State) : Out := .next (cpRetrainWrite c (wakeFor s 1))

/-- CB_CFG_WRITE (R365). -/
def execCbCfgWrite (g : Fin 4) (v : BitVec 32) (s : State) : Out := .next (cbCfgWrite g v (wakeFor s 1))

/-- PWR_CMD_WAKE (R389). -/
def execPwrCmdWake (s : State) : Out := .next (pwrCmdWakeWrite s)

/-- BLOCK_POWER_REQUEST (R395). -/
def execBlockPowerRequest (page : BitVec 11) (req : BitVec 2) (s : State) : Out :=
  .next (blockPowerRequestWrite page req (reach s page.toNat))

/-- TIME_LOAD (R399). -/
def execTimeLoad (s : State) : Out := .next (timeLoadWrite (wakeFor s 1))

/-- TT_HS_SEL (R423). -/
def execTtHsSel (d : Fin 16) (hs : BitVec 6) (s : State) : Out := .next (ttHsSelWrite d hs (wakeFor s 1))

/-- TT_SENS_CLR (R423). -/
def execTtSensClr (d : Fin 16) (s : State) : Out := .next (ttSensClrWrite d (wakeFor s 1))

end Sys2Proof.Machine
end

