-- ==== Sys2Proof/Machine/TestAccess.lean ====
section
/-!
DEFINITION. The test access port: the chain of the base dies' TAPs and the IDCODE of every die (R520 to R522). The states of a TAP
are those of IEEE 1149.1, which R522 names (log 106).
-/

namespace Sys2Proof.Machine

open Sys2Proof

/-- A die that carries an IDCODE: a base die, a tile logic die, or a DRAM layer of a tile's stack (R522). -/
inductive TestDie where
  | base (a : Nat)
  | tile (t : Nat)
  | layer (t l : Nat)
  deriving DecidableEq, Repr

/-- IDCODE of a die (R522), by its revision: AB1 or FT1, AB2 or FT2. -/
def idcode (s : State) : TestDie → BitVec 32
  | .base a => if baseRev s a = 1 then 0x1A512B47#32 else 0x2A512B47#32
  | .tile t => if tileRev s t = 1 then 0x1F712B47#32 else 0x2F712B47#32
  | .layer _ _ => 0x1D808B47#32

/-- Dies of the stack that a base die's primary TAP reaches: itself, its three tiles and their layers (R522). -/
def stackDies (a : Nat) : List TestDie :=
  .base a :: [3 * a, 3 * a + 1, 3 * a + 2].flatMap fun t => .tile t :: (List.range 8).map fun l => .layer t l

/-- Base dies in the order of the chain, from TDI to TDO (R522). -/
def tapOrder : List Nat := [0, 1, 3, 2]

/-- The state that follows at a rise of TCK with a level of TMS. -/
def TapCtrl.next (c : TapCtrl) (tms : Bool) : TapCtrl :=
  match c, tms with
  | .reset, false => .idle | .reset, true => .reset
  | .idle, false => .idle | .idle, true => .selectDr
  | .selectDr, false => .captureDr | .selectDr, true => .selectIr
  | .captureDr, false => .shiftDr | .captureDr, true => .exit1Dr
  | .shiftDr, false => .shiftDr | .shiftDr, true => .exit1Dr
  | .exit1Dr, false => .pauseDr | .exit1Dr, true => .updateDr
  | .pauseDr, false => .pauseDr | .pauseDr, true => .exit2Dr
  | .exit2Dr, false => .shiftDr | .exit2Dr, true => .updateDr
  | .updateDr, false => .idle | .updateDr, true => .selectDr
  | .selectIr, false => .captureIr | .selectIr, true => .reset
  | .captureIr, false => .shiftIr | .captureIr, true => .exit1Ir
  | .shiftIr, false => .shiftIr | .shiftIr, true => .exit1Ir
  | .exit1Ir, false => .pauseIr | .exit1Ir, true => .updateIr
  | .pauseIr, false => .pauseIr | .pauseIr, true => .exit2Ir
  | .exit2Ir, false => .shiftIr | .exit2Ir, true => .updateIr
  | .updateIr, false => .idle | .updateIr, true => .selectDr

/-- Bits of a word, least significant first. -/
def lowBits (n v : Nat) : List Bool := (List.range n).map (bitOf v)

/-- The data register that an instruction selects (R522): bypass, IDCODE, or one of which the spec gives no content. -/
def dataRegister (s : State) (a : Nat) : Option (BitVec 8) → List Bool
  | none => lowBits 32 (idcode s (.base a)).toNat
  | some ir =>
    if ir = 0xFF#8 then [false]
    else if ir = Config.idcodeInstruction then lowBits 32 (idcode s (.base a)).toNat
    else Config.tapRegister a ir

/-- One shift through the chain: the bit that leaves it, and its TAPs. -/
def shiftChain (b : Bool) : List Tap → Bool × List Tap
  | [] => (b, [])
  | t :: l =>
    let (out, sr) := match t.sr with
      | [] => (b, [])
      | x :: r => (x, r ++ [b])
    let (o, l) := shiftChain out l
    (o, { t with sr := sr } :: l)

/-- What a rise of TCK does in a state of the controllers: capture, shift or update, with TDO while it shifts. -/
def tapAction (s : State) (p : TestPort) (tdi : Bool) : TestPort :=
  let each (f : Nat → Tap → Tap) : List Tap := (tapOrder.zip p.taps).map fun x => f x.1 x.2
  match p.ctrl with
  | .reset => { p with taps := each fun _ t => { t with ir := none } }
  | .captureDr => { p with taps := each fun a t => { t with sr := dataRegister s a t.ir } }
  | .captureIr => { p with taps := each fun a t => { t with sr := true :: false :: lowBits 6 (Config.irCapture a).toNat } }
  | .shiftDr | .shiftIr =>
    let (o, l) := shiftChain tdi p.taps
    { p with taps := l, tdo := p.tdo ++ [o] }
  | .updateIr =>
    { p with taps := each fun _ t => { t with ir := some (BitVec.ofNat 8 (maskOf ((List.range 8).filter fun i => t.sr.getD i false))) } }
  | _ => p

/-- Clocks of J4 while TEST_EN_N is low: TMS and TDI at each rise of TCK (R520, R521). -/
def tapClocks (l : List (Bool × Bool)) (s : State) : State :=
  s.setSvc { s.svc with port := foldList (fun (x : Bool × Bool) p =>
    { tapAction s p x.2 with ctrl := p.ctrl.next x.1 }) l s.svc.port }

end Sys2Proof.Machine
end

