-- ==== Sys2Proof/Machine/BringUp.lean ====
section
/-!
DEFINITION. Bring-up: configuration slots, training, the topology check, service states, the input, PWR_EN and the hardware
trip (R397, R414, R458 to R470, R481, R482, R499, R514 to R518, R521).
-/

namespace Sys2Proof.Machine

open Sys2Proof

/-- The configuration page. -/
def cfPage : Nat := modPage 5

/-- CF_STATE (R499). -/
def setCf (s : State) (state cause step : Nat) : State := pset s cfPage 0x080 (state + cause * 2 ^ 8 + step * 2 ^ 16)

/-- CF_DETAIL0 and CF_DETAIL1. -/
def setDetail (s : State) (d0 d1 : Nat) : State := pset (pset s cfPage 0x084 d0) cfPage 0x088 d1

/-! Configuration slots (R460 to R462). -/

/-- A slot: A, or B for true. -/
def flashOf (s : State) (b : Bool) : Option FlashSlot := if b then s.svc.flashB else s.svc.flashA

/-- The checks of a header (R462). -/
def headerOk (s : State) (x : FlashSlot) : Bool :=
  let h := x.header
  h.length = 128 && field h 0 4 = 0x46435654 && guarded h 64 && field h 4 2 = 0x0100 &&
  field h 0x18 16 = s.svc.fuse.guid.toNat && field h 0x10 4 ≤ 0x1800000

/-- SEQ of a slot's header; 0xFFFFFFFF where the header fails (R499). -/
def flashSeq (s : State) (b : Bool) : Nat :=
  match flashOf s b with
  | some x => if headerOk s x then field x.header 8 4 else 0xFFFFFFFF
  | none => 0xFFFFFFFF

/-- FW_VER of a slot's header. -/
def flashFw (s : State) (b : Bool) : Nat := ((flashOf s b).map fun x => field x.header 0x14 4).getD 0

/-- Whether a slot passes R462. -/
def flashValid (s : State) (b : Bool) : Bool := (flashOf s b).any fun x => headerOk s x && x.crcOk

/-- Slots with a good header, by SEQ descending; on equal SEQ, A first (R462). -/
def slotOrder (s : State) : List Bool :=
  let l := [false, true].filter fun b => (flashOf s b).any (headerOk s)
  if l.length = 2 && flashSeq s false < flashSeq s true then [true, false] else l

/-- The selection among slots in order (R462): one whose CRC fails sets SLOT_A_BAD or SLOT_B_BAD; none sets NO_CONFIG. A slot
whose header fails is not in the order and sets no source, as the pseudocode has it. DEDUCED (log 123). -/
def selectSlot (s : State) : List Bool → Option Bool × State
  | [] => (none, raiseTag s cfPage 2 0)
  | b :: l => if flashValid s b then (some b, s) else selectSlot (raiseTag s cfPage (b2n b) 0) l

/-- CF_SLOT, CF_SEQ_A and CF_SEQ_B read again (R499). -/
def showSlots (s : State) : State :=
  let v := b2n (s.svc.current = some true) + 2 * b2n (flashValid s false) + 4 * b2n (flashValid s true)
  let s := pset s cfPage 0x08C (v + pget s cfPage 0x08C / 16 * 16)
  pset (pset s cfPage 0x090 (flashSeq s false)) cfPage 0x094 (flashSeq s true)

/-- The boot ROM selects the slot and starts Vexondane from it (R462, R465, step 2); with no slot the module is in
NO_CONFIG. -/
def startFirmware (s : State) : State :=
  match selectSlot s (slotOrder s) with
  | (some b, s) =>
    let s := s.setSvc { s.svc with current := some b, running := flashSeq s b }
    showSlots (pset (pset s (modPage 0) 0x09C (flashFw s b)) cfPage 0x0A0 0)
  | (none, s) => setCf (showSlots (s.setSvc { s.svc with current := none, running := 0 })) 4 0 0

/-! Step 4: repair, identity, revisions (R22, R470, R481, R482, R498). -/

/-- Positions that REPAIR_MAP entries of KIND 0x01 hide (R470): the position is the physical index, then 1 for a vector core
(log 45). -/
def repairHidden (l : List RepairEntry) : List (Nat × Bool × Nat) :=
  l.filterMap fun e => if e.kind = 1#8 then some (e.die.toNat, e.pos.getD 1 0 = 1, e.pos.getD 0 0) else none

/-- Positions hidden by the factory fuse map and by a REPAIR_MAP. -/
def hiddenUnion (s : State) (l : List RepairEntry) : List (Nat × Bool × Nat) :=
  ((s.svc.fuse.hidden.map fun x => (x.1.val, x.2.1, x.2.2.val)) ++ repairHidden l).eraseDups

/-- The identity registers that are fused (R3, R498): the ordering code and what it offers, the GUID, the serial number. -/
def showFused (s : State) : State :=
  let f := s.svc.fuse
  let pg := modPage 0
  let s := pset s pg 0x080 (f.code.toNat + 12 * 2 ^ 8)
  let s := foldList (fun i st => pset st pg (0x084 + 4 * i) (f.guid.toNat / 2 ^ (32 * i))) [0, 1, 2, 3] s
  let s := pset (pset s pg 0x094 (f.serial.toNat % 2 ^ 32)) pg 0x098 (f.serial.toNat / 2 ^ 32)
  pset s pg 0x0A0 (setBitN (pget s pg 0x0A0) 10 (offersCxl s))

/-- The identity registers that bring-up sets (R498). -/
def showIdentity (s : State) : State :=
  let pg := modPage 0
  let s := showFused (pset s pg 0x0A0 (if oldTile s then 0x1FD else 0x3FF))
  foldList (fun t st => pset st pg (0x0C0 + 4 * t) (exposedMc st t + exposedVc st t * 2 ^ 8)) (List.range 12) s

/-- Whether the intersection removes a feature that some die has (R482; log 46). -/
def featureMasked (s : State) : Bool := oldTile s && (List.range 12).any fun t => tileRev s t = 2

/-- BC_REV of every base die, and REV_MASKED on that of A0 (R482, R484). -/
def showRevisions (s : State) : State :=
  let m := featureMasked s
  let s := foldList (fun a st => pset st (basePage a 0) 0x504 (baseRev st a + tileRev st (3 * a) * 2 ^ 4 +
    tileRev st (3 * a + 1) * 2 ^ 8 + tileRev st (3 * a + 2) * 2 ^ 12 + b2n m * 2 ^ 16)) (List.range 4) s
  if m then raiseTag s (basePage 0 0) 4 0 else s

/-- The registers that show quarantined units (R498). -/
def showAllQuarantine (s : State) : State :=
  foldList (fun k st => showQuarantine st (k / 512) (k % 512)) ((s.units.filter fun x => x.2.quarantined).map Prod.fst) s

/-- Pages that are at reset when a bring-up begins, as first page and number: all, or all but those that Hearth holds (R473,
R515). SETTINGS give reset values, so they apply to these. -/
def coldPages : List (Nat × Nat) := [(0, 0x800)]
def risePages : List (Nat × Nat) := [(0, 2), (5, 1), (8, 0x7F8)]
def warmPages : List (Nat × Nat) := [(0, 2), (5, 1), (8, 3), (12, 0x7F4)]

/-- Steps 3 and 4 of R465 with an image: the converters, the repair map, the identity, the revisions, the spares, and SETTINGS. -/
def bringUpStart (s : State) (i : ConfigImage) (pages : List (Nat × Nat)) : State :=
  let s := s.setPower { s.power with mainOn := true }
  let s := s.setSvc { s.svc with
    hidden := hiddenUnion s i.repair, settings := (s.svc.running, i.settings.map fun x => (x.1.toNat, x.2.toNat)) }
  let s := applySpares (showRevisions (showAllQuarantine (showIdentity s))) (fun _ => true) i.repair
  refreshSave (foldList (fun (x : Nat × Nat) st => applySettings st x.1 x.2 0) pages s)

/-! The descriptor (R355, R503). -/

/-- The topology descriptor in force: TO_NODE, TO_DESC_CRC, the neighbours, the routes, and CP_CTL of each port. -/
def loadTopology (s : State) (t : Topology) : State :=
  let parent := if t.parent.toNat < 8 then t.parent.toNat else 15
  let s := pset s (modPage 8) 0x080 (t.node.toNat + parent * 2 ^ 16)
  let s := pset s (modPage 8) 0x084 t.crc.toNat
  let used := (List.range 8).filterMap fun c =>
    let (node, port) := t.ports.getD c (0xFFFF#16, 0#3)
    if node = 0xFFFF#16 then none else some (c, node.toNat, port.toNat)
  let s := s.setChain { s.chain with
    expect := used, routes := (t.routes.take 64).map fun r => (r.1.toNat, r.2.1.toNat, r.2.2.toNat) }
  foldList (fun c st => pset st (cpPage c) 0x080 (descCtl st c)) (List.range 8) s

/-! Step 5: training (R465, R467, R293, R352). -/

/-- The TRAINING section that the fast path may use (R467): it names the dies, and was taken under the repair map in
force. -/
def trainingValid (i : ConfigImage) : Bool :=
  match i.training with
  | some (dies, map) => dies && decide (map = i.repair)
  | none => false

/-- Channels that the REPAIR_MAP holds out of service (R470, KIND 0x05; log 48). -/
def mapRepairs (s : State) (l : List RepairEntry) : State :=
  foldList (fun (e : RepairEntry) st =>
    if e.kind = 5#8 then setChState st (e.pos.getD 0 0 % 16) (e.pos.getD 1 0 % 4) 2 else st) l s

/-- One channel trained at a rate of R294; one that fails all three is mapped out, and its repair recorded (R293). -/
def trainChannel (s : State) (k rate : Nat) : State :=
  let p := k / 4
  let c := k % 4
  if chState s p c != 0 then s
  else if rate = 3 then
    let s := raiseTag (setChState s p c 1) (lpPage p) 5 0
    let e : RepairEntry := ⟨5#8, BitVec.ofNat 8 (0x40 + p / 4), [p, c]⟩
    s.setSvc { s.svc with newRep := s.svc.newRep ++ [e], writes := s.svc.writes ++ [(3, none)] }
  else
    let v := setFld (pget s (lpPage p) 0x080) (8 * c + 3) (8 * c + 2) rate
    pset s (lpPage p) 0x080 v

/-- ID_LPCH (R498). -/
def showChannels (s : State) : State :=
  foldList (fun w st => pset st (modPage 0) (0x164 + 4 * w)
    (maskOf ((List.range 32).filter fun i => chState st (8 * w + i / 4) (i % 4) = 0))) [0, 1] s

/-- One chain port trained, with what the neighbour's IDENT says (R352, R355). -/
def trainPort (s : State) (r : BringUp) (c : Nat) : State :=
  if !bitOf (pget s (cpPage c) 0x080) 0 then setPortState s c 5
  else
    let s := trainingDone (setPortState s c 1) c (r.lanes.getD c 0#8).toNat
    match r.idents.getD c none with
    | some (node, port, _) => if portState s c = 2 then identArrives s c node.toNat port.toNat else s
    | none => s

/-- BR_STAT.LANES_REPAIRED at both ends of a trained bridge (R325). -/
def showLanes (s : State) (x n : Nat) : State :=
  let e := bridgeEnds x
  let put (s : State) (pg : Nat) : State := pset s pg 0x080 (setFld (pget s pg 0x080) 15 8 n)
  put (put s e.1) e.2

/-- Step 5 (R465): every interface; `full` says that saved settings are not used, and an interface whose saved settings
fail sets TRAIN_SAVED_BAD (R467). A new TRAINING section is written after a full training. -/
def trainAll (s : State) (r : BringUp) (full : Bool) : State :=
  let s := s.setSvc { s.svc with untrained := r.untrained.map BitVec.toNat }
  let s := if full then foldList (fun k st => trainedSlice st (k / 32) (k % 32)) (List.range 384) s
    else
      let s := foldList (fun (a : Fin 4) st => raiseTag st (basePage a 0) 3 0) r.savedBad s
      foldList (fun (x : Fin 12 × Fin 32) st => trainedSlice (raiseTag st (basePage (tileDie x.1) 0) 3 0) x.1 x.2) r.bondsBad s
  let s := foldList (fun x st => showLanes st x (r.bridgeLanes.getD x 0#8).toNat) (List.range 4) s
  let s := foldList (fun k st => trainChannel st k (r.rates.getD k 0#2).toNat) (List.range 64) s
  let s := foldList (fun c st => trainPort st r c) (List.range 8) (showCdat (showChannels s))
  if full || !r.savedBad.isEmpty || !r.bondsBad.isEmpty then s.setSvc { s.svc with writes := s.svc.writes ++ [(5, none)] } else s

/-! Step 7: the bring-up test set (R452, R465). -/

/-- UNIT_LOG of a unit of a tile (R437). -/
def unitWord (t u : Nat) : Nat := unitLog (if u ≤ 40 then ptPage t u else nlPage t ((u - 64) / 32))

/-- A unit that fails the bring-up test twice is condemned and quarantined; a TCC takes its tile OUT (R452, R477). -/
def failUnit (s : State) (t u : Nat) : State :=
  if !unitOk u then s
  else
    let s := failTest s t u
    if u = 40 then
      let s := setSvcReason (setSvc s t 7) t 5
      s.setSvc { s.svc with cycles := kerase s.svc.cycles t }
    else s

/-- The bring-up test set: the units that failed, and the ACTIVE time from which Temper counts again (R451). -/
def testAll (s : State) (r : BringUp) : State :=
  let l := r.failed.map fun x => (x.1.val, x.2.toNat)
  let s := foldList (fun (x : Nat × Nat) st => failUnit st x.1 x.2) l s
  let s := s.setPower { s.power with slept := s.clock.now, sleepFrom := none }
  (s.setUnits (s.units.map fun x => (x.1, { x.2 with tested := 0 }))).setSvc
    { s.svc with selftest := ((l.filter fun x => unitOk x.2).head?).map fun x => unitWord x.1 x.2 }

/-! Steps 8 and 9: agreement with the descriptor (R459, R468). -/

/-- Whether a tile is IN_SERVICE. -/
def tilesFound (s : State) : Nat := maskOf ((List.range 12).filter fun t => tileSvc s t = 0)

/-- Exposed matrix and vector cores of a tile that are not quarantined (R468). -/
def coresFound (s : State) (t : Nat) : Nat × Nat :=
  (((List.range 32).filter fun p => exposed s t p && !quarantined s t p).length,
    ((List.range 8).filter fun v => exposed s t (32 + v) && !quarantined s t (32 + v)).length)

/-- Channels of a package in service. -/
def chansFound (s : State) (p : Nat) : Nat := maskOf ((List.range 4).filter fun c => chState s p c = 0)

/-- Whether a count agrees (R468): 0xFF matches any. -/
def countAgrees (want : Option (BitVec 8)) (found : Nat) : Bool :=
  match want with
  | some w => w = 0xFF#8 || w.toNat = found
  | none => true

/-- Whether the dies form a pairing outside the table of R481. -/
def revisionBad (s : State) : Bool :=
  (List.range 4).any fun a =>
    let ts := [tileRev s (3 * a), tileRev s (3 * a + 1), tileRev s (3 * a + 2)]
    !(baseRev s a = 1 || baseRev s a = 2) || ts.any (fun v => v != 1 && v != 2) || (baseRev s a = 2 && ts.contains 1)

/-- The first port whose neighbour is not what the descriptor gives (R459, cause 0x07). -/
def chainBad (s : State) : Option Nat :=
  (List.range 8).find? fun c =>
    match kfind s.chain.expect c with
    | some (node, port) => portState s c = 3 || pget s (cpPage c) 0x08C / 2 ^ 16 != node || pget s (cpPage c) 0x090 % 8 != port
    | none => false

/-- A cause of R459 with its detail; a word of the detail that is `none` has a layout that the spec does not give
(log 50). -/
structure HeldCause where
  code : Nat
  d0 : Option Nat
  d1 : Option Nat
  deriving DecidableEq, Repr

/-- The first cause that holds the module, in the order of R459. -/
def heldCause (s : State) (i : ConfigImage) : Option HeldCause :=
  let t := i.topo
  let tile := (List.range 12).find? fun k =>
    !(countAgrees (t.mcs[k]?) (coresFound s k).1 && countAgrees (t.vcs[k]?) (coresFound s k).2)
  let pkg := (List.range 16).find? fun p => (t.chans.getD p 0xF#8).toNat != chansFound s p
  if revisionBad s then some ⟨1, none, none⟩
  else match s.svc.untrained, s.svc.selftest with
    | some x, _ => some ⟨2, some x, some 0⟩
    | none, some u => some ⟨3, some u, some 0⟩
    | none, none =>
      if t.tiles.toNat != tilesFound s then some ⟨4, some (tilesFound s), some 0⟩
      else match tile, pkg, chainBad s with
        | some k, _, _ => some ⟨5, some k, none⟩
        | none, some p, _ => some ⟨6, some p, some (chansFound s p)⟩
        | none, none, some c => some ⟨7, some c, some 0⟩
        | none, none, none => if i.calib then none else some ⟨8, some 0, some 0⟩

/-- A word of the detail, free where the spec gives no layout. -/
def detailWord (s : State) (d : Option Nat) : Nat × State :=
  match d with
  | some v => (v, s)
  | none =>
    let (w, s) := drawWord s
    (w.toNat, s)

/-- HELD with a cause; entry sets TOPO_HOLD (R459, R485). -/
def enterHeld (s : State) (x : HeldCause) : State :=
  let (d0, s) := detailWord s x.d0
  let (d1, s) := detailWord s x.d1
  let enters := svcState s != 1
  let s := setDetail (setCf s 1 x.code 0) d0 d1
  let s := if enters then raiseTag s cfPage 3 0 else s
  s.setSvc { s.svc with upOnce := true }

/-- READY (R458), with CF_READY_T. -/
def enterReady (s : State) : State :=
  let s := setDetail (setCf s 2 0 0) 0 0
  let s := pset (pset s cfPage 0x098 (s.clock.now % 2 ^ 32)) cfPage 0x09C (s.clock.now / 2 ^ 32)
  s.setSvc { s.svc with upOnce := true }

/-- The topology check and its outcome (R468). -/
def checkTopology (s : State) (i : ConfigImage) : State :=
  match heldCause s i with
  | some x => enterHeld s x
  | none => enterReady s

/-- Memory as a cold start leaves it (R262, R287, R297): zeros with poison check words, shared buffers zero with good
parity. What the stores hold is not stated. -/
def initMemory (s : State) : State :=
  foldList (fun a st => initLines st a) (List.range 4) (loseStores (s.setMem { Memory.reset with epoch := s.mem.epoch }))

/-- Halves that Quench holds DOWN stay so (R420). -/
def holdHalves (s : State) : State :=
  if s.quench.holding then foldList (fun t st => setHalf (setHalf st t 0 2) t 1 2) (List.range 12) s else s

/-- Steps 3 to 9 of R465 with the image of the current slot. -/
def bringUp (s : State) (r : BringUp) (pages : List (Nat × Nat)) : State :=
  match currentImage s with
  | none => s
  | some i =>
    let s := loadTopology (bringUpStart s i pages) i.topo
    let s := initMemory (trainAll (mapRepairs s i.repair) r (!trainingValid i))
    checkTopology (holdHalves (testAll (lpEpoch (advanceTo s r.time.toNat)) r)) i

/-! Cold power-on. -/

/-- What a module without power keeps: its flash, its fuses and what lies outside it. -/
def unpowered (s : State) : State :=
  { State.reset with
    pending := s.pending
    free := s.free
    mem := { Memory.reset with epoch := s.mem.epoch }
    host := { HostPort.reset with
      hostMem := s.host.hostMem, bar4Log := s.host.bar4Log, msixSent := s.host.msixSent, perst := s.svc.perstPin }
    svc := { Service.reset with
      flashA := s.svc.flashA, flashB := s.svc.flashB, fuse := s.svc.fuse, perstPin := s.svc.perstPin } }

/-- What the module leaves the factory with. -/
def factoryState (s : State) (x : Option (Fuse × Option FlashSlot × Option FlashSlot)) : State :=
  match x with
  | some (f, a, b) => s.setSvc { s.svc with fuse := f, flashA := a, flashB := b }
  | none => s

/-- COLD_POWER_ON (R465, R514, R515, R521): `factory` gives fuses and flash where this is their first power; TEST_EN_N low
stops after step 4, PWR_EN low after step 2. `clocks` gives TMS and TDI at each rise of TCK while the module is stopped there. -/
def execColdPowerOn (factory : Option (Fuse × Option FlashSlot × Option FlashSlot)) (test pwrEn : Bool)
    (strap : BitVec 4) (r : BringUp) (clocks : List (Bool × Bool)) (s : State) : Out :=
  .next (
    let s := showFused (factoryState (unpowered s) factory)
    let s := startFirmware (s.setSvc { s.svc with test := test, pwrEn := pwrEn, strap := strap.toNat })
    match currentImage s with
    | none => s
    | some i =>
      if !pwrEn then setCf s 0 0 2
      else if test then tapClocks clocks (setCf (bringUpStart s i coldPages) 0 0 4)
      else bringUp s r coldPages)

/-- HEARTH_POWER_LOSS (R518): the input below 30 V. -/
def execHearthPowerLoss (s : State) : Out := .next (showFused (unpowered s))

/-! The main converters (R397, R414, R515). -/

/-- Module pages that Hearth holds (R515). -/
def hearthPage (p : Nat) : Bool := p = 2 || p = 3 || p = 4 || p = 6 || p = 7

/-- Whether Hearth holds a register: those of its pages, and the length and base of the period schedule (R379, R515). -/
def hearthReg (k : Nat) : Bool :=
  hearthPage (k / 0x1000) || k = regOff (modPage 11) 0x084 || k = regOff (modPage 11) 0x088 || k = regOff (modPage 11) 0x08C

/-- Registers that Hearth holds. -/
def hearthRegs (r : Regs) : Regs :=
  { Regs.reset with
    vals := r.vals.filter fun x => hearthReg x.1
    counters := r.counters.filter fun x => hearthPage (x.1 / 0x1000)
    guards := r.guards.filter fun x => hearthPage x.1 }

/-- Fault handling of Hearth: the records, and the settings of its own pages. -/
def hearthFaults (f : Flt) : Flt :=
  { f with
    stamps := f.stamps.filter fun x => hearthPage x.page
    marks := []
    storms := f.storms.filter fun x => hearthPage (x.1 / 32)
    reported := f.reported.filter fun k => hearthPage (k / 32)
    classes := f.classes.filter fun x => hearthPage (x.1 / 32)
    lost := f.lost.filter fun x => hearthPage x.1
    restartReq := false }

/-- The main converters off: everything is lost but what Hearth holds (R379, R515): the timebase, the period schedule and its count,
and what Vexondane, the fault aggregator, Quench and Bellows keep. -/
def mainsOff (s : State) : State :=
  let p : Power := { Power.reset with epoch := s.power.epoch }
  let c : Service := { s.svc with
    settings := (0, []), hidden := [], spared := [], untrained := none, selftest := none, port := .reset, restart := none, repairs := []
    mapouts := [], cycles := [], heldReset := false, upOnce := false }
  let t := { State.reset with
    pending := s.pending
    free := s.free
    mem := { Memory.reset with epoch := s.mem.epoch }
    regs := hearthRegs s.regs
    flt := hearthFaults s.flt
    host := { HostPort.reset with
      hostMem := s.host.hostMem, bar4Log := s.host.bar4Log, msixSent := s.host.msixSent, perst := s.svc.perstPin }
    clock := s.clock
    power := p
    sched := { Sched.reset with num := s.sched.num, start := s.sched.start, len := s.sched.len }
    units := s.units
    quench := s.quench
    svc := c }
  let fw := pget s (modPage 0) 0x09C
  let s := showFused (liveSensors (refreshSave (setPwrStat (setPwrStat t 4 0 0) 7 5 0)))
  setCf (showSlots (pset s (modPage 0) 0x09C fw)) (if s.svc.current.isNone then 4 else 0) 0 (if s.svc.current.isNone then 0 else 2)

/-- Whether the input is in range: no undervoltage or overvoltage warning stands (R397). -/
def inputGood (s : State) : Bool := !liveBit s hhPage 0 && !liveBit s hhPage 2

/-- A rise of PWR_EN that is acted upon (R515, R521): steps 3 to 9, with the input in range. -/
def powerUp (s : State) (r : BringUp) : State :=
  if s.power.mainOn || !inputGood s then s
  else match currentImage s with
    | none => s
    | some i => if s.svc.test then setCf (bringUpStart s i risePages) 0 0 4 else bringUp s r risePages

/-- PWR_EN_FALL (R515). -/
def execPwrEnFall (s : State) : Out :=
  .next (if !s.svc.pwrEn then s
    else
      let s := s.setSvc { s.svc with pwrEn := false, fell := s.clock.now, riseWaits := false }
      if s.power.mainOn then mainsOff s else s)

/-- PWR_EN_RISE (R515, R516): ignored while THERM_TRIP_N is asserted; after less than 100 ms of low it waits. -/
def execPwrEnRise (r : BringUp) (s : State) : Out :=
  .next (if s.svc.pwrEn then s
    else
      let s := s.setSvc { s.svc with pwrEn := true }
      if s.quench.tripped then s
      else if s.clock.now < s.svc.fell + 100000000 then s.setSvc { s.svc with riseWaits := true }
      else powerUp s r)

/-- PWR_EN_LOW_HOLDOFF_END (R515). -/
def execPwrEnLowHoldoffEnd (r : BringUp) (s : State) : Out :=
  .next (if s.svc.riseWaits && !s.quench.tripped then
      let s := advanceTo s (s.svc.fell + 100000000)
      powerUp (s.setSvc { s.svc with riseWaits := false }) r
    else s)

/-- INPUT_UV_WARN (R397). -/
def execInputUvWarn (s : State) : Out := .next (raiseLive s hhPage 0)

/-- INPUT_OV_WARN (R397). -/
def execInputOvWarn (s : State) : Out := .next (raiseLive s hhPage 2)

/-- A shutdown by the input (R397): its source, and the main converters off. -/
def inputShutdown (s : State) (src : Nat) : State :=
  let s := raiseLive s hhPage src
  if s.power.mainOn then mainsOff s else s

/-- INPUT_UV (R397). -/
def execInputUv (s : State) : Out := .next (inputShutdown s 1)

/-- INPUT_OV (R397). -/
def execInputOv (s : State) : Out := .next (inputShutdown s 3)

/-- INPUT_WARNING_CLEAR (R397): the undervoltage conditions, or the overvoltage ones, end. -/
def execInputWarningClear (high : Bool) (s : State) : Out :=
  .next (if high then setLive (setLive s hhPage 2 false) hhPage 3 false else setLive (setLive s hhPage 0 false) hhPage 1 false)

/-- Whether a hot spot trips (R414): both comparators, or one where Quench has masked the other as FAILED. -/
def spotTrips (failed0 failed1 c0 c1 : Bool) : Bool :=
  let a := c0 && !failed0
  let b := c1 && !failed1
  (a && b) || (a && failed1) || (b && failed0)

/-- The sensors of a hot spot that Quench has masked as FAILED: place 16 holds the air hot spots, the inlet and the outlet (R410). -/
def maskedSensors (s : State) (d i : Nat) : Bool × Bool :=
  if d < 16 then ((spotOf s d i).st0 = 2, (spotOf s d i).st1 = 2)
  else
    let bad := (if i = 0 then s.quench.inlet else s.quench.outlet).bad
    (bitOf bad 0, bitOf bad 1)

/-- Hot spots of a place: those of a die, or the two of the air. -/
def placeSpots (d : Nat) : Nat := if d < 16 then spotCount d else 2

/-- HW_TRIP (R414): the comparators of the two diodes of a hot spot. -/
def execHwTrip (d : Fin 17) (i : Fin 34) (c0 c1 : Bool) (s : State) : Out :=
  .next (if i.val < placeSpots d && spotTrips (maskedSensors s d i).1 (maskedSensors s d i).2 c0 c1 then
      let s := raiseTag s qnPage 5 0
      let s := s.setQuench { s.quench with tripped := true }
      if s.power.mainOn then mainsOff s else s
    else s)

/-- THERM_TRIP_RELEASE (R516): PWR_EN low and every diode below 100 °C, both for 10 s. -/
def execThermTripRelease (s : State) : Out :=
  .next (match s.quench.below with
    | some t =>
      if s.quench.tripped && !s.svc.pwrEn then
        let s := advanceTo s (max t s.svc.fell + 10000000000)
        s.setQuench { s.quench with tripped := false }
      else s
    | none => s)

/-! Pins (R345, R509, R511). -/

/-- Whether the module holds the reset and low-power signals of the plug of a chain port asserted (R511): while it is DISABLED. -/
def plugHeld (s : State) (c : Nat) : Bool := portState s c = 5

/-- Levels of PWR_GOOD, THERM_TRIP_N and ALERT_N. -/
def pwrGood (s : State) : Bool := s.power.mainOn
def thermTripN (s : State) : Bool := !s.quench.tripped
def alertN (s : State) : Bool := s.svc.events = 0

/-- HELD_REEVALUATE (R459): the descriptor read again, and the ports against it. -/
def execHeldReevaluate (s : State) : Out :=
  .next (match currentImage s with
    | some i =>
      if svcState s != 1 then s
      else
        let s := loadTopology s i.topo
        checkTopology (foldList (fun c st => recheckPort st c) (List.range 8) s) i
    | none => s)
where
  /-- A port after a change of the descriptor: DISABLED, training, or compared with its neighbour. -/
  recheckPort (s : State) (c : Nat) : State :=
    let s := portEnable s c (bitOf (pget s (cpPage c) 0x080) 0)
    let node := pget s (cpPage c) 0x08C / 2 ^ 16
    if (portState s c = 2 || portState s c = 3) && node != 0xFFFF then identArrives s c node (pget s (cpPage c) 0x090 % 8)
    else s

end Sys2Proof.Machine
end

