-- ==== Sys2Proof/Machine/Release.lean ====
section
/-!
DEFINITION. The end of a thermal stop: the halves are released, and the accesses that waited for them are carried out (R317, R420).
-/

namespace Sys2Proof.Machine

open Sys2Proof

/-- The command of an access that waited for a half. -/
def HeldAccess.run (s : State) : HeldAccess → Out
  | .wholeWrite t n line data who tag => execBondedWholeWrite t n line data who tag s
  | .narrowWrite t n line off data who tag => execBondedNarrowWrite t n line off data who tag s
  | .lineRead t n line who tag flips => execBondedLineRead t n line who tag flips s
  | .register ag off v => execRegisterWrite ag off v s
  | .bar0 off size data => execBar0Access off size data s
  | .bar4 bar2 off len data => execBar4Access bar2 none off len data s

/-- The accesses that waited for the halves carried out, in the order of their requests (R314, R317). -/
def resumeAccesses (s : State) : List HeldAccess → Out
  | [] => .next s
  | x :: l =>
    match x.run s with
    | .next t => resumeAccesses t l
    | out => out

/-- THERMAL_STOP_EXIT (R420): the halves are released, and FLOOR follows. -/
def execThermalStopExit (s : State) : Out :=
  match s.quench.cool with
  | some t =>
    if qnMode s = 2 && 400 ≤ s.quench.raw then
      let s := setMode (advanceTo s (t + 100000000)) 1
      let l := s.store.waits
      resumeAccesses ((s.setQuench { s.quench with holding := false }).setStore { s.store with waits := [] }) l
    else .next s
  | none => .next s

end Sys2Proof.Machine
end

