-- ==== Sys2Proof/Machine/Restart.lean ====
section
/-!
DEFINITION. Warm restart and repair pass, writes of configuration images, and the sideband (R348, R463, R464, R471 to R473,
R517).
-/

namespace Sys2Proof.Machine

open Sys2Proof

/-! Configuration images (R463, R464). -/

/-- Numbers of the units of a tile that a repair replaces: quarantined or condemned matrix and vector cores (R470, R471). -/
def unitEntries (s : State) : List RepairEntry :=
  (s.units.filter fun x => (x.2.quarantined || x.2.condemned) && x.1 % 512 < 40).map fun x =>
    let t := x.1 / 512
    let u := x.1 % 512
    ⟨1#8, BitVec.ofNat 8 t, [physPos s t u, b2n (decide (32 ≤ u))]⟩

/-- Entries of the bond groups with BOND_DEGRADE (R273, R471); which lane failed is not kept, and its field is free
(log 51). -/
def bondEntries (s : State) (t n : Nat) : List RepairEntry :=
  ((sliceOf s t n).bonds.filter fun x => 16 ≤ x.2).map fun x =>
    ⟨4#8, BitVec.ofNat 8 t, [physPos s t n, x.1, (Config.freeWord (s.free + 2 + (t * 32 + n) * 32 + x.1 % 32)).toNat % 64]⟩

/-- The REPAIR_MAP of a repair pass with FLAGS (R471, step 2): the old one, new entries, rows that the LPDDR5X devices report
with HPPR, and no KIND 0x05 entries with RETRY_CHANNELS. -/
def repairMap (s : State) (old hppr : List RepairEntry) (flags : Nat) : List RepairEntry :=
  let rows := (List.range 12).flatMap fun t => (spareRows s t).map (rowEntry s t)
  let bonds := (List.range 384).flatMap fun k => bondEntries s (k / 32) (k % 32)
  let l := old ++ s.svc.newRep ++ unitEntries s ++ rows ++ bonds ++
    (if bitOf flags 0 then hppr.filter fun e => e.kind = 6#8 else [])
  if bitOf flags 1 then l.filter fun e => e.kind != 5#8 else l

/-- A TOPOLOGY section with the counts and masks found (R468). -/
def foundTopology (s : State) (t : Topology) : Topology :=
  { t with
    tiles := BitVec.ofNat 12 (tilesFound s)
    mcs := (List.range 12).map fun k => BitVec.ofNat 8 (coresFound s k).1
    vcs := (List.range 12).map fun k => BitVec.ofNat 8 (coresFound s k).2
    chans := (List.range 16).map fun p => BitVec.ofNat 8 (chansFound s p) }

/-- A TOPOLOGY section for the machine that a repair pass leaves (R471, step 3). -/
def repairedTopology (s : State) (t : Topology) (l : List RepairEntry) : Topology :=
  let s := (s.setSvc { s.svc with hidden := hiddenUnion s l }).setUnits []
  let out (p c : Nat) : Bool := l.any fun e => e.kind = 5#8 && e.pos.getD 0 0 = p && e.pos.getD 1 0 = c
  { t with
    tiles := 0xFFF#12
    mcs := (List.range 12).map fun k => BitVec.ofNat 8 (exposedMc s k)
    vcs := (List.range 12).map fun k => BitVec.ofNat 8 (exposedVc s k)
    chans := (List.range 16).map fun p => BitVec.ofNat 8 (maskOf ((List.range 4).filter fun c => !out p c)) }

/-- The new image for a request (R464): a section replaced by staged bytes, whose contents are `sec`, or by what the module
itself has found. -/
def nextImage (s : State) (type : Nat) (staged : Bool) (sec : ConfigImage) : ConfigImage :=
  let base := (currentImage s).getD sec
  match type, staged, s.svc.repairs with
  | 2, true, _ => { base with topo := sec.topo }
  | 2, false, _ => { base with topo := foundTopology s base.topo }
  | 3, true, _ => { base with repair := sec.repair }
  | 3, false, f :: _ =>
    let l := repairMap s base.repair sec.repair f
    { base with repair := l, topo := repairedTopology s base.topo l }
  | 3, false, [] => { base with repair := base.repair ++ s.svc.newRep }
  | 4, _, _ => { base with calib := sec.calib }
  | 5, true, _ => { base with training := sec.training }
  | 5, false, _ => { base with training := some (true, base.repair) }
  | 6, _, _ => { base with settings := sec.settings }
  | _, _, _ => base

/-- SEQ of the next image: one more than the current one, never 0xFFFFFFFF (R461, R463). -/
def nextSeq (s : State) : Nat :=
  let cur := match s.svc.current with | some b => flashSeq s b | none => 0
  if (cur + 1) % 2 ^ 32 = 0xFFFFFFFF then 0 else (cur + 1) % 2 ^ 32

/-- FW_VER of the next image: what PLDM staged, else that of the current image. -/
def nextFw (s : State) (type : Nat) : Nat :=
  match type, s.svc.staged with
  | 1, some v => v
  | _, _ => match s.svc.current with | some b => flashFw s b | none => s.svc.staged.getD 0

/-- The header of a new image (R461), with its CRC and size. -/
def newHeader (s : State) (i : ConfigImage) (seq fw crc size : Nat) : List Byte :=
  let n := 4 + b2n i.training.isSome + b2n (!i.settings.isEmpty)
  let h := record 64 [(0, 4, 0x46435654), (4, 2, 0x0100), (6, 2, n), (8, 4, seq), (0x0C, 4, crc), (0x10, 4, size % 0x1800001),
    (0x14, 4, fw), (0x18, 16, s.svc.fuse.guid.toNat)]
  h ++ h.map fun b => ~~~b

/-- A slot written. -/
def putFlash (s : State) (b : Bool) (x : FlashSlot) : State :=
  s.setSvc (if b then { s.svc with flashB := some x } else { s.svc with flashA := some x })

/-- One write of R463 with the image it writes: into the slot that is not current; it succeeds at the first or the second
attempt, or sets CFG_WRITE_FAIL. The CRC and the size of an image are not in the model: they are free words (log 52). -/
def writeImage (s : State) (type : Nat) (i : ConfigImage) (ok : Bool) : State :=
  let target := match s.svc.current with | some b => !b | none => false
  let (crc, s) := drawWord s
  let (size, s) := drawWord s
  let fw := nextFw s type
  let x : FlashSlot := ⟨newHeader s i (nextSeq s) fw crc.toNat size.toNat, ok, i⟩
  let s := putFlash s target x
  if !ok then
    let s := raiseTag (showSlots s) cfPage 6 0
    pset s cfPage 0x08C (setBitN (pget s cfPage 0x08C) 4 false)
  else
    let boots := s.svc.current.isNone
    let s := s.setSvc { s.svc with
      current := if boots then none else some target
      newRep := if type = 3 then [] else s.svc.newRep
      staged := if type = 1 then none else s.svc.staged }
    let s := showSlots s
    let s := pset s cfPage 0x08C (setBitN (pget s cfPage 0x08C) 4 true)
    if type = 1 then pset s cfPage 0x0A0 fw else s

/-- CONFIG_IMAGE_WRITE (R463): the oldest request; `sec` holds the contents of staged bytes, and of what LPDDR5X devices
report; the two flags say whether the attempts pass their check. -/
def execConfigImageWrite (sec : ConfigImage) (ok1 ok2 : Bool) (s : State) : Out :=
  .next (match s.svc.writes with
    | [] => s
    | (type, bytes) :: rest =>
      let i := nextImage s type bytes.isSome sec
      let free := s.free + 2 ^ 14
      (writeImage (s.setSvc { s.svc with writes := rest }) type i (ok1 || ok2)).setFree free)

/-! Warm restart (R472, R473). -/

/-- RESTART (R472, R474). -/
def execRestart (q : Fin 64) (cid : BitVec 16) (flags : BitVec 8) (s : State) : Out :=
  .next (maintCmd q cid 0x06 [(0x0C, 1, flags.toNat)] (fun s =>
    (complete s q cid.toNat 0 []).setSvc { (complete s q cid.toNat 0 []).svc with restart := some (flags.toNat % 4) }) s)

/-- Whether a warm restart is due: a trigger of R472, or a repair pass whose image is written (R471). -/
def restartDue (s : State) : Bool :=
  s.svc.upOnce && s.power.mainOn && !s.svc.heldReset && s.svc.current.isSome &&
  (s.svc.restart.isSome || s.flt.restartReq || (!s.svc.repairs.isEmpty && s.svc.writes.isEmpty))

/-- Every group without a commit point dropped with reason FENCED (R473); groups that await their chain too. -/
def dropAllGroups (s : State) : State :=
  let k := s.sched.num
  let at' := s.clock.now
  let s := unadmit s
  let s := foldList (fun g st => dropGroup st g 4 at' k) (s.sched.groups.filter fun g => g.fate = .running) s
  let s := foldList (fun (x : Nat × Nat × StepGroup) st => dropGroup st x.2.2 4 at' x.1) s.sched.awaiting s
  s.setSched { s.sched with cmds := [], later := [], awaiting := [], early := [] }

/-- Plan-slot commands under way (R473): loads are abandoned, pending unloads take effect; neither completes. -/
def endSlotCommands (s : State) : State :=
  foldList (fun i st =>
    let p := planOf st i
    if p.state = .loading then releaseSlot st i
    else if p.unload.isSome then doUnload (setPlan st i { p with unload := none }) i
    else st) (List.range 4) s

/-- The sequence table as last committed (R473): entries whose SEQ_OPEN has not taken effect are FREE. -/
def committedTable (s : State) : State :=
  s.setSeqs ((s.seqs.filter fun x => !x.2.opening).map fun x => (x.1, { x.2 with ending := x.2.ending && x.2.state = .active }))

/-- Module pages that a warm restart keeps (R473). -/
def warmPage (p : Nat) : Bool := hearthPage p || p = 11

/-- Every page but those kept returned to reset (R473). A FATAL source that is set stays set, FATAL as at its setting, and what
LP_CHSTAT and BR_STAT show of channels and bridges out of service stays (R293, R322). -/
def resetMostPages (s : State) : State :=
  let fatal := (stickySources s).filter fun x => settingClass s x.1 x.2 = 2 && !warmPage x.1
  let shown := ((List.range 16).map fun p => (lpPage p, pget s (lpPage p) 0x080)) ++
    (List.range 8).map fun k => (basePage (k / 2) (8 + k % 2), pget s (basePage (k / 2) (8 + k % 2)) 0x080)
  let cf := [0x08C, 0x0A0].map fun o => (o, pget s cfPage o)
  let fw := pget s (modPage 0) 0x09C
  let s := s.setRegs { Regs.reset with
    vals := s.regs.vals.filter fun x => warmPage (x.1 / 0x1000)
    counters := s.regs.counters.filter fun x => warmPage (x.1 / 0x1000)
    guards := s.regs.guards.filter fun x => warmPage x.1 }
  let s := foldList (fun (x : Nat × Nat) st =>
    (psetBits st x.1 0x020 (2 ^ x.2)).setFlt { st.flt with classes := kinsert st.flt.classes (x.1 * 32 + x.2) 2 }) fatal s
  let s := foldList (fun (x : Nat × Nat) st => pset st x.1 0x080 x.2) shown s
  let s := liveSensors (foldList (fun k st => liveBridge st (basePage (k / 2) (8 + k % 2))) (List.range 8) s)
  let s := foldList (fun (x : Nat × Nat) st => pset st cfPage x.1 x.2) cf s
  showFused (showSlots (pset s (modPage 0) 0x09C fw))

/-- What the reset of every die but Hearth takes from the engines and cores (R473): slices keep what they know of their
bonds. -/
def resetEngines (s : State) : State :=
  let slices := (s.store.slices.map fun x => (x.1, { SliceSt.reset with bonds := x.2.bonds, repairs := x.2.repairs })).filter
    fun x => x.2 != SliceSt.reset
  let s := endReductions s fun _ => true
  let s := ((((s.setCores []).setTccs []).setMcs []).setSync .reset).setEng .reset
  let s := (s.setTests []).setStore { Storage.reset with
    slices := slices, held := s.store.held, golden := s.store.golden, owned := s.store.owned }
  let s := s.setChain { Chain.reset with drops := s.chain.drops, commits := s.chain.commits }
  let s := s.setPower { Power.reset with
    mainOn := true, shallow := s.power.shallow, epoch := s.power.epoch, lagging := s.power.lagging }
  setPwrStat s 4 0 0

/-- Settings of sources that are still to be reported: those of Hearth's pages, and the triggers, which R472 reports
first (log 53). -/
def warmFaults (f : Flt) : Flt :=
  { f with
    stamps := f.stamps.filter fun x => warmPage x.page || bitOf x.react 4
    marks := []
    storms := f.storms.filter fun x => warmPage (x.1 / 32)
    reported := f.reported
    lost := f.lost.filter fun x => warmPage x.1
    restartReq := false }

/-- Fenced tiles, and tiles of fenced base dies: their bonded contents are initialised again (R476, R478; log 49). -/
def fencedTiles (s : State) : List Nat := (List.range 12).filter fun t => tileSvc s t = 6 || !baseUp s (tileDie t)

/-- Storage of the fenced dies initialised: tiles, and the LPDDR5X region and shared buffer of a base die. -/
def initFenced (s : State) (ts as : List Nat) : State :=
  let m := ts.foldl (fun m t => (m.zeroRange (t * tileBytes) tileBytes).markPoison (t * tileBytes) tileBytes) s.mem
  let m := as.foldl (fun m a =>
    let m := (m.zeroRange (regionBase a) 0x4000000000).markPoison (regionBase a) 0x4000000000
    (m.zeroRange (sbBase a) 0x4000000).setParity (sbBase a) 0x4000000 false) m
  s.setMem m

/-- Steps 1 and 2 of R472. -/
def warmStop (s : State) : State :=
  let s := flushLp (flushSlices (endSlotCommands (dropAllGroups s)))
  let s := foldList (fun w st => snoopOut st w.line) s.host.bisnps s
  let s := committedTable (hostReset s)
  let s := s.setHost { s.host with linkUp := false, snoop := [], cache := [], hdm := true }
  let ts := fencedTiles s
  let as := s.store.baseFenced
  let s := resetEngines (resetMostPages s)
  let s := (initFenced s ts as).setFlt (warmFaults s.flt)
  setCf (s.setSvc { s.svc with cycles := [], untrained := none, selftest := none }) 0 0 2

/-- Plan slots without a held image become FAILED (R473). -/
def failUnheld (s : State) : State :=
  foldList (fun i st =>
    let p := planOf st i
    if p.state != .empty && p.state != .failed && !p.held then setSlotState st i .failed 0 else st) (List.range 4) s

/-- Step 8 of R472 for one plan: its CODE records, and its control block where no SBUF_INIT record holds it. A reload begins
anew (R473). -/
def replacePlan (s : State) (i : Nat) : State :=
  let p := planOf s i
  if !p.held || p.state = .empty || p.state = .failed || p.state = .reloading then s
  else
    let s := foldList (fun c st => recode st i c) (p.code.filter fun c => c.vmask &&& placedMask p != 0) s
    if p.sbuf.any fun x => x.1 < p.man.pcb + 256 && p.man.pcb < x.1 + x.2.1 then s
    else writePcb s p.man.pcb (List.replicate 128 0#8)

/-- Tiles with a quarantined TCC stay OUT (R474). -/
def keepOut (s : State) : State :=
  foldList (fun t st => if quarantined st t 40 then setSvcReason (setSvc st t 7) t 4 else st) (List.range 12) s

/-- The reports of DIAG (R467): one for each interface, with its settings. The spec names no source for them; it, the
temperature and the voltage are free (log 54). -/
def diagReports (s : State) (l : List (BitVec 11 × List (BitVec 32))) : State :=
  foldList (fun (x : BitVec 11 × List (BitVec 32)) st =>
    let (src, st) := drawWord st
    let (v, st) := drawWord st
    let stamp : Stamp := {
      page := x.1.toNat, source := src.toNat % 32, time := st.clock.now, late := false, forced := false, cls := 0, react := 0,
      curop := [], tag := 0, uid := 0, period := st.sched.num, detail := x.2.take 8, outcome := none, urgent := false }
    deliverRecord st (cper st stamp ⟨v.toNat % 2 ^ 16, v.toNat / 2 ^ 16, st.clock.now, false, 6, 0xFFFFFFFF⟩)) l s

/-- What a repair pass starts anew (R471): memory initialised, sequences FREE, strikes, sensors and units at reset, every
channel and bridge to be trained. -/
def repairReset (s : State) : State :=
  let s := initFenced s (List.range 12) (List.range 4)
  let s := (s.setSeqs []).setUnits []
  let s := foldList (fun d st => clearSensors st d) (List.range 16) s
  let s := foldList (fun p st => pset st (lpPage p) 0x080 0) (List.range 16) s
  let s := foldList (fun k st =>
    liveBridge (pset st (basePage (k / 2) (8 + k % 2)) 0x080 0xF) (basePage (k / 2) (8 + k % 2))) (List.range 8) s
  (s.setQuench { s.quench with inlet := { s.quench.inlet with bad := 0 }, outlet := { s.quench.outlet with bad := 0 } }).setSvc { s.svc with repairs := [], mapouts := [] }

/-- Steps 3 to 9 of R472 with an image; `repair` for a repair pass. -/
def warmBringUp (s : State) (r : BringUp) (i : ConfigImage) (flags : Nat) (repair : Bool) : State :=
  let full := repair || bitOf flags 0 || !trainingValid i
  let s := if repair then mapRepairs (repairReset s) i.repair else s
  let s := loadTopology (bringUpStart s i warmPages) i.topo
  let s := trainAll s r full
  let s := foldList (fun k st => setSlice st (k / 32) (k % 32) { sliceOf st (k / 32) (k % 32) with epoch := s.clock.now })
    (List.range 384) s
  let s := keepOut (holdHalves (loseStores (loseSram s)))
  let s := testAll (lpEpoch (advanceTo s r.time.toNat)) r
  let s := foldList (fun k st => replacePlan st k) (List.range 4) (failUnheld s)
  checkTopology (if bitOf flags 0 then diagReports s r.diag else s) i

/-- A warm restart goes on from step 2: with SELECT the slot is selected again (R472). -/
def warmRest (s : State) (r : BringUp) : State :=
  let flags := s.svc.restart.getD 0
  let repair := !s.svc.repairs.isEmpty
  let s := s.setSvc { s.svc with restart := none, heldReset := false }
  let s := if bitOf flags 1 then startFirmware s else s
  match currentImage s with
  | some i => warmBringUp s r i flags repair
  | none => s

/-- WARM_RESTART (R472): steps 1 and 2, and the rest unless MOD_RST_N holds the module (R517). -/
def execWarmRestart (r : BringUp) (s : State) : Out :=
  .next (if !restartDue s then s
    else
      let s := warmStop s
      if s.svc.modRst then s.setSvc { s.svc with heldReset := true } else warmRest s r)

/-- MOD_RST_N (R346, R517, R518): a low level of a length in ns that begins now; a level of 1 µs or more stays until
MOD_RST_N_RELEASE. Between 100 ns and 1 µs it is taken or not. -/
def execModRstN (ns : BitVec 16) (s : State) : Out :=
  .next (if !s.svc.pwrEn || !s.svc.upOnce || ns.toNat < 100 then s
    else if ns.toNat < 1000 then
      let (taken, s) := drawBool s
      if taken then trigger s false else s
    else trigger s true)
where
  /-- The link and the host interface reset, and the warm restart is due. -/
  trigger (s : State) (low : Bool) : State :=
    let s := hostReset s
    let s := s.setHost { s.host with linkUp := false }
    s.setSvc { s.svc with restart := some 0, modRst := low }

/-- MOD_RST_N_RELEASE (R517). -/
def execModRstNRelease (r : BringUp) (s : State) : Out :=
  let t := s.setSvc { s.svc with modRst := false }
  .next (if s.svc.heldReset then warmRest t r else t)

/-! The sideband (R348). -/

/-- The static address of the I3C target. -/
def staticAddr (s : State) : Nat := 0x30 + s.svc.strap

/-- The oldest record whose event is pending (R348): `events` counts the newest ones. -/
def oldestEvent (s : State) : List Byte := (s.flt.records[min s.svc.events s.flt.records.length - 1]?).getD []

/-- SIDEBAND_MESSAGE (R348): what the last message returned stands in `reply`. A message of those protocols whose effect the
spec does not give is refused by name. -/
def execSidebandMessage (m : Sideband) (s : State) : Out :=
  match m with
  | .assign a => .next (s.setSvc { s.svc with i3c := a.toNat, reply := [] })
  | .setEid e => .next (s.setSvc { s.svc with eid := e.toNat, reply := [] })
  | .readSensor n => .next (s.setSvc { s.svc with reply := leBytes 4 (s.svc.sensors.getD n 0) })
  | .pollEvent =>
    .next (if s.svc.events = 0 then s.setSvc { s.svc with reply := [] }
      else s.setSvc { s.svc with events := s.svc.events - 1, reply := oldestEvent s })
  | .firmware v => .next (s.setSvc { s.svc with staged := some v.toNat, writes := s.svc.writes ++ [(1, none)], reply := [] })
  | .other => .refused .unknownMessage

/-- PLDM_SENSOR_UPDATE (R348): input voltage, current and power, the cap, the power state, inlet and outlet air, then the
hottest DRAM layer and logic of each tile. -/
def execPldmSensorUpdate (s : State) : Out :=
  let head := [pget s hhPage 0x080, pget s hhPage 0x084, pget s hhPage 0x088, capNow s, pState s,
    pget s qnPage 0x09C % 2 ^ 16, pget s qnPage 0x09C / 2 ^ 16]
  let tiles := (List.range 12).flatMap fun t =>
    [pget s (tilePage t 82) 0x094 % 2 ^ 16, pget s (tilePage t 82) 0x098 % 2 ^ 16]
  .next (s.setSvc { s.svc with sensors := head ++ tiles })

end Sys2Proof.Machine
end

