-- ==== Sys2Proof/Machine/Dispatch.lean ====
section
/-!
DEFINITION. The meaning of each command: one arm for each constructor of Instr.
-/

namespace Sys2Proof.Machine

open Sys2Proof

def exec (i : Instr) (s : State) : Host.Outcome State Fault Refusal :=
  match i with
  | .nop t p f => Sys2Proof.Machine.execNop t p f s
  | .endProgram t p f => Sys2Proof.Machine.execEndProgram t p f s
  | .trap t p f => Sys2Proof.Machine.execTrap t p f s
  | .fence t p f => Sys2Proof.Machine.execFence t p f s
  | .time t p f => Sys2Proof.Machine.execTime t p f s
  | .ldi t p f => Sys2Proof.Machine.execLdi t p f s
  | .ldih t p f => Sys2Proof.Machine.execLdih t p f s
  | .add t p f => Sys2Proof.Machine.execAdd t p f s
  | .sub t p f => Sys2Proof.Machine.execSub t p f s
  | .and t p f => Sys2Proof.Machine.execAnd t p f s
  | .or t p f => Sys2Proof.Machine.execOr t p f s
  | .xor t p f => Sys2Proof.Machine.execXor t p f s
  | .shl t p f => Sys2Proof.Machine.execShl t p f s
  | .shr t p f => Sys2Proof.Machine.execShr t p f s
  | .sar t p f => Sys2Proof.Machine.execSar t p f s
  | .mul t p f => Sys2Proof.Machine.execMul t p f s
  | .slt t p f => Sys2Proof.Machine.execSlt t p f s
  | .sltu t p f => Sys2Proof.Machine.execSltu t p f s
  | .ld t p f => Sys2Proof.Machine.execLd t p f s
  | .st t p f => Sys2Proof.Machine.execSt t p f s
  | .ldw t p f => Sys2Proof.Machine.execLdw t p f s
  | .stw t p f => Sys2Proof.Machine.execStw t p f s
  | .br t p f => Sys2Proof.Machine.execBr t p f s
  | .beq t p f => Sys2Proof.Machine.execBeq t p f s
  | .bne t p f => Sys2Proof.Machine.execBne t p f s
  | .blt t p f => Sys2Proof.Machine.execBlt t p f s
  | .bge t p f => Sys2Proof.Machine.execBge t p f s
  | .loop t p f => Sys2Proof.Machine.execLoop t p f s
  | .call t p f => Sys2Proof.Machine.execCall t p f s
  | .jr t p f => Sys2Proof.Machine.execJr t p f s
  | .xfer t p f => Sys2Proof.Machine.execXfer t p f s
  | .xferComplete t p k => Sys2Proof.Machine.execXferComplete t p k s
  | .fset t p f => Sys2Proof.Machine.execFset t p f s
  | .fclr t p f => Sys2Proof.Machine.execFclr t p f s
  | .fwait t p f => Sys2Proof.Machine.execFwait t p f s
  | .fwaitRelease t p => Sys2Proof.Machine.execFwaitRelease t p s
  | .ftst t p f => Sys2Proof.Machine.execFtst t p f s
  | .bara t p f => Sys2Proof.Machine.execBara t p f s
  | .barw t p f => Sys2Proof.Machine.execBarw t p f s
  | .bar t p f => Sys2Proof.Machine.execBar t p f s
  | .barrierComplete module t g => Sys2Proof.Machine.execBarrierComplete module t g s
  | .illegalInstruction t p w => Sys2Proof.Machine.execIllegalInstruction t p w s
  | .pcOutOfStore t p => Sys2Proof.Machine.execPcOutOfStore t p s
  | .mxa t n f => Sys2Proof.Machine.execMxa t n f s
  | .mxaStart t n => Sys2Proof.Machine.execMxaStart t n s
  | .mxaEnd t n up => Sys2Proof.Machine.execMxaEnd t n up s
  | .mxr t n f => Sys2Proof.Machine.execMxr t n f s
  | .wstrm t n f => Sys2Proof.Machine.execWstrm t n f s
  | .ringTileEligible t n => Sys2Proof.Machine.execRingTileEligible t n s
  | .wflush t n => Sys2Proof.Machine.execWflush t n s
  | .vld t v f => Sys2Proof.Machine.execVld t v f s
  | .vst t v f => Sys2Proof.Machine.execVst t v f s
  | .vmxq t v f => Sys2Proof.Machine.execVmxq t v f s
  | .vadd t v f => Sys2Proof.Machine.execVadd t v f s
  | .vsub t v f => Sys2Proof.Machine.execVsub t v f s
  | .vmul t v f => Sys2Proof.Machine.execVmul t v f s
  | .vfma t v f => Sys2Proof.Machine.execVfma t v f s
  | .vmax t v f => Sys2Proof.Machine.execVmax t v f s
  | .vmin t v f => Sys2Proof.Machine.execVmin t v f s
  | .vbc t v f => Sys2Proof.Machine.execVbc t v f s
  | .vabs t v f => Sys2Proof.Machine.execVabs t v f s
  | .vneg t v f => Sys2Proof.Machine.execVneg t v f s
  | .vexp2 t v f => Sys2Proof.Machine.execVexp2 t v f s
  | .vrcp t v f => Sys2Proof.Machine.execVrcp t v f s
  | .vrsq t v f => Sys2Proof.Machine.execVrsq t v f s
  | .vsel t v f => Sys2Proof.Machine.execVsel t v f s
  | .vcmp t v f => Sys2Proof.Machine.execVcmp t v f s
  | .viadd t v f => Sys2Proof.Machine.execViadd t v f s
  | .viota t v f => Sys2Proof.Machine.execViota t v f s
  | .vf2i t v f => Sys2Proof.Machine.execVf2i t v f s
  | .vi2f t v f => Sys2Proof.Machine.execVi2f t v f s
  | .vrsum t v f => Sys2Proof.Machine.execVrsum t v f s
  | .vrmax t v f => Sys2Proof.Machine.execVrmax t v f s
  | .vperm t v f => Sys2Proof.Machine.execVperm t v f s
  | .vrope t v f => Sys2Proof.Machine.execVrope t v f s
  | .vsort t v f => Sys2Proof.Machine.execVsort t v f s
  | .vtkm t v f => Sys2Proof.Machine.execVtkm t v f s
  | .cstart t f => Sys2Proof.Machine.execCstart t f s
  | .cwait t f => Sys2Proof.Machine.execCwait t f s
  | .cwaitRelease t => Sys2Proof.Machine.execCwaitRelease t s
  | .cabort t f => Sys2Proof.Machine.execCabort t f s
  | .cresume t f => Sys2Proof.Machine.execCresume t f s
  | .ldg t f => Sys2Proof.Machine.execLdg t f s
  | .stg t f => Sys2Proof.Machine.execStg t f s
  | .tret t f => Sys2Proof.Machine.execTret t f s
  | .waitev t f => Sys2Proof.Machine.execWaitev t f s
  | .waitevRelease t => Sys2Proof.Machine.execWaitevRelease t s
  | .tccTrapEntry t => Sys2Proof.Machine.execTccTrapEntry t s
  | .coreSourceTrap t p => Sys2Proof.Machine.execCoreSourceTrap t p s
  | .tfSet t flag => Sys2Proof.Machine.execTfSet t flag s
  | .tfClr t flag => Sys2Proof.Machine.execTfClr t flag s
  | .mfSet flag => Sys2Proof.Machine.execMfSet flag s
  | .mfClr flag => Sys2Proof.Machine.execMfClr flag s
  | .tbMembersWrite t g high v => Sys2Proof.Machine.execTbMembersWrite t g high v s
  | .mbMembersWrite g v => Sys2Proof.Machine.execMbMembersWrite g v s
  | .tbAbort t g => Sys2Proof.Machine.execTbAbort t g s
  | .mbAbort g => Sys2Proof.Machine.execMbAbort g s
  | .tccHaltWrite t halt => Sys2Proof.Machine.execTccHaltWrite t halt s
  | .tccRestart t => Sys2Proof.Machine.execTccRestart t s
  | .mcWringWrite t n size v => Sys2Proof.Machine.execMcWringWrite t n size v s
  | .loadPlan q cid imageDa imageSize slot pin => Sys2Proof.Machine.execLoadPlan q cid imageDa imageSize slot pin s
  | .loadPlanDone slot => Sys2Proof.Machine.execLoadPlanDone slot s
  | .unloadPlan q cid slot => Sys2Proof.Machine.execUnloadPlan q cid slot s
  | .planCtl q cid slot pin => Sys2Proof.Machine.execPlanCtl q cid slot pin s
  | .planSignal q cid slot arg => Sys2Proof.Machine.execPlanSignal q cid slot arg s
  | .chainActivation slot segs => Sys2Proof.Machine.execChainActivation slot segs s
  | .reloadPlacementDone slot => Sys2Proof.Machine.execReloadPlacementDone slot s
  | .seqOpen q cid o => Sys2Proof.Machine.execSeqOpen q cid o s
  | .seqSuspend q cid seq => Sys2Proof.Machine.execSeqSuspend q cid seq s
  | .seqResume q cid seq => Sys2Proof.Machine.execSeqResume q cid seq s
  | .seqEnd q cid seq => Sys2Proof.Machine.execSeqEnd q cid seq s
  | .seqRelease q cid seq => Sys2Proof.Machine.execSeqRelease q cid seq s
  | .dma q cid dir host da len => Sys2Proof.Machine.execDma q cid dir host da len s
  | .dmaDone k data => Sys2Proof.Machine.execDmaDone k data s
  | .chMapout q cid pkg ch => Sys2Proof.Machine.execChMapout q cid pkg ch s
  | .mapoutRemapDone => Sys2Proof.Machine.execMapoutRemapDone s
  | .tileCycle q cid tile flags => Sys2Proof.Machine.execTileCycle q cid tile flags s
  | .tileRejoin q cid tile flags => Sys2Proof.Machine.execTileRejoin q cid tile flags s
  | .tileParked t => Sys2Proof.Machine.execTileParked t s
  | .tileReloadDone t bad => Sys2Proof.Machine.execTileReloadDone t bad s
  | .repairPass q cid flags => Sys2Proof.Machine.execRepairPass q cid flags s
  | .saveTraining q cid => Sys2Proof.Machine.execSaveTraining q cid s
  | .restart q cid flags => Sys2Proof.Machine.execRestart q cid flags s
  | .cfgWrite q cid type src len => Sys2Proof.Machine.execCfgWrite q cid type src len s
  | .acceptTopology q cid => Sys2Proof.Machine.execAcceptTopology q cid s
  | .nopCommand q cid => Sys2Proof.Machine.execNopCommand q cid s
  | .invalidOpcode q cid opc oper => Sys2Proof.Machine.execInvalidOpcode q cid opc oper s
  | .sqTail q tail entries bad => Sys2Proof.Machine.execSqTail q tail entries bad s
  | .cqHead q head => Sys2Proof.Machine.execCqHead q head s
  | .cqRoomPost q => Sys2Proof.Machine.execCqRoomPost q s
  | .queuePairEnable q en => Sys2Proof.Machine.execQueuePairEnable q en s
  | .irqCoalesceTimeout q => Sys2Proof.Machine.execIrqCoalesceTimeout q s
  | .msixUnmask v mask => Sys2Proof.Machine.execMsixUnmask v mask s
  | .spRunWrite run => Sys2Proof.Machine.execSpRunWrite run s
  | .admissionCutoff away => Sys2Proof.Machine.execAdmissionCutoff away s
  | .periodStart routes => Sys2Proof.Machine.execPeriodStart routes s
  | .periodEnd parts => Sys2Proof.Machine.execPeriodEnd parts s
  | .stepGroupCommit g tc ends outs => Sys2Proof.Machine.execStepGroupCommit g tc ends outs s
  | .pieceReplay g page n da inputs => Sys2Proof.Machine.execPieceReplay g page n da inputs s
  | .groupRerun g => Sys2Proof.Machine.execGroupRerun g s
  | .replayResolve g piece r => Sys2Proof.Machine.execReplayResolve g piece r s
  | .tgWpost t v => Sys2Proof.Machine.execTgWpost t v s
  | .walk t => Sys2Proof.Machine.execWalk t s
  | .walkDelivery t k => Sys2Proof.Machine.execWalkDelivery t k s
  | .walkComplete t k => Sys2Proof.Machine.execWalkComplete t k s
  | .nlPost t l v => Sys2Proof.Machine.execNlPost t l v s
  | .stream t l => Sys2Proof.Machine.execStream t l s
  | .rowGrant t l upsets => Sys2Proof.Machine.execRowGrant t l upsets s
  | .nbuFinal t l chainPar => Sys2Proof.Machine.execNbuFinal t l chainPar s
  | .nbuDescComplete t l => Sys2Proof.Machine.execNbuDescComplete t l s
  | .nbuRefreshPreempt t l b due => Sys2Proof.Machine.execNbuRefreshPreempt t l b due s
  | .tcSpost t v => Sys2Proof.Machine.execTcSpost t v s
  | .scan t => Sys2Proof.Machine.execScan t s
  | .sliceListWrite t n par => Sys2Proof.Machine.execSliceListWrite t n par s
  | .scanComplete t => Sys2Proof.Machine.execScanComplete t s
  | .tgMpost t v => Sys2Proof.Machine.execTgMpost t v s
  | .reduce t => Sys2Proof.Machine.execReduce t s
  | .reduceRetry a t k => Sys2Proof.Machine.execReduceRetry a t k s
  | .redTimeout a t k => Sys2Proof.Machine.execRedTimeout a t k s
  | .atomic t => Sys2Proof.Machine.execAtomic t s
  | .send t => Sys2Proof.Machine.execSend t s
  | .sendCombine t => Sys2Proof.Machine.execSendCombine t s
  | .rflag t => Sys2Proof.Machine.execRflag t s
  | .fill a => Sys2Proof.Machine.execFill a s
  | .fillDone a => Sys2Proof.Machine.execFillDone a s
  | .bondedWholeWrite t n line data who tag => Sys2Proof.Machine.execBondedWholeWrite t n line data who tag s
  | .bondedNarrowWrite t n line off data who tag => Sys2Proof.Machine.execBondedNarrowWrite t n line off data who tag s
  | .mbTimeout t n k => Sys2Proof.Machine.execMbTimeout t n k s
  | .rmwDone t n k par => Sys2Proof.Machine.execRmwDone t n k par s
  | .bondedLineRead t n line who tag flips => Sys2Proof.Machine.execBondedLineRead t n line who tag flips s
  | .crcRereadReturn t n k flips => Sys2Proof.Machine.execCrcRereadReturn t n k flips s
  | .goldenFetchDone t n k => Sys2Proof.Machine.execGoldenFetchDone t n k s
  | .refreshDue t n l b postpone => Sys2Proof.Machine.execRefreshDue t n l b postpone s
  | .refreshMiss t n l b => Sys2Proof.Machine.execRefreshMiss t n l b s
  | .lpLineRead a line who tag r => Sys2Proof.Machine.execLpLineRead a line who tag r s
  | .lpWholeWrite a line data who tag => Sys2Proof.Machine.execLpWholeWrite a line data who tag s
  | .lpNarrowWrite a line off data who tag => Sys2Proof.Machine.execLpNarrowWrite a line off data who tag s
  | .gbTimeout p k par => Sys2Proof.Machine.execGbTimeout p k par s
  | .lpRefresh p c => Sys2Proof.Machine.execLpRefresh p c s
  | .mr4Read p c mult hot => Sys2Proof.Machine.execMr4Read p c mult hot s
  | .lpEffWindow p c => Sys2Proof.Machine.execLpEffWindow p c s
  | .lpMapout p mask => Sys2Proof.Machine.execLpMapout p mask s
  | .lpUncClear p c => Sys2Proof.Machine.execLpUncClear p c s
  | .sbRead a off who tag bad => Sys2Proof.Machine.execSbRead a off who tag bad s
  | .sbWrite a off data who tag bad => Sys2Proof.Machine.execSbWrite a off data who tag bad s
  | .flitParityReplay t seg src tag again => Sys2Proof.Machine.execFlitParityReplay t seg src tag again s
  | .arbiterGrant arb inputs => Sys2Proof.Machine.execArbiterGrant arb inputs s
  | .halfIdleTimeout t h => Sys2Proof.Machine.execHalfIdleTimeout t h s
  | .halfDown t h => Sys2Proof.Machine.execHalfDown t h s
  | .halfWakeRequest t h who tag => Sys2Proof.Machine.execHalfWakeRequest t h who tag s
  | .halfAwake t h => Sys2Proof.Machine.execHalfAwake t h s
  | .gatedAccess t h tag => Sys2Proof.Machine.execGatedAccess t h tag s
  | .fbHalfCtlWrite t v => Sys2Proof.Machine.execFbHalfCtlWrite t v s
  | .bridgeModuleFail x m lost => Sys2Proof.Machine.execBridgeModuleFail x m lost s
  | .bar0Access off size data => Sys2Proof.Machine.execBar0Access off size data s
  | .bar2Atomicop bar off bytes op a b => Sys2Proof.Machine.execBar2Atomicop bar off bytes op a b s
  | .bar4Access bar2 resize off len data => Sys2Proof.Machine.execBar4Access bar2 resize off len data s
  | .cxlMemRead y => Sys2Proof.Machine.execCxlMemRead y s
  | .cxlMemWrite y data => Sys2Proof.Machine.execCxlMemWrite y data s
  | .backInvalidate da data tag answered => Sys2Proof.Machine.execBackInvalidate da data tag answered s
  | .bisnpTimeout k => Sys2Proof.Machine.execBisnpTimeout k s
  | .perstN cause => Sys2Proof.Machine.execPerstN cause s
  | .functionLevelReset => Sys2Proof.Machine.execFunctionLevelReset s
  | .cxlReset => Sys2Proof.Machine.execCxlReset s
  | .linkTrained rate width flit cxl => Sys2Proof.Machine.execLinkTrained rate width flit cxl s
  | .portTrainingDone c lanes => Sys2Proof.Machine.execPortTrainingDone c lanes s
  | .cpRetrain c => Sys2Proof.Machine.execCpRetrain c s
  | .frameReceive c f good => Sys2Proof.Machine.execFrameReceive c f good s
  | .framePassThrough c => Sys2Proof.Machine.execFramePassThrough c s
  | .ident c => Sys2Proof.Machine.execIdent c s
  | .ack c => Sys2Proof.Machine.execAck c s
  | .nak c => Sys2Proof.Machine.execNak c s
  | .syncExchange c ns => Sys2Proof.Machine.execSyncExchange c ns s
  | .syncReq c ns2 ns3 => Sys2Proof.Machine.execSyncReq c ns2 ns3 s
  | .syncRsp c ns => Sys2Proof.Machine.execSyncRsp c ns s
  | .act c => Sys2Proof.Machine.execAct c s
  | .cmb c => Sys2Proof.Machine.execCmb c s
  | .flagFrame c => Sys2Proof.Machine.execFlagFrame c s
  | .barArr c => Sys2Proof.Machine.execBarArr c s
  | .barRel c => Sys2Proof.Machine.execBarRel c s
  | .barAbt c => Sys2Proof.Machine.execBarAbt c s
  | .admitFrame c => Sys2Proof.Machine.execAdmitFrame c s
  | .report c => Sys2Proof.Machine.execReport c s
  | .commit c => Sys2Proof.Machine.execCommit c s
  | .drop c => Sys2Proof.Machine.execDrop c s
  | .chainLateTimeout k => Sys2Proof.Machine.execChainLateTimeout k s
  | .seqSync c => Sys2Proof.Machine.execSeqSync c s
  | .seqAck c => Sys2Proof.Machine.execSeqAck c s
  | .seqSyncTimeout k => Sys2Proof.Machine.execSeqSyncTimeout k s
  | .rplReq c => Sys2Proof.Machine.execRplReq c s
  | .rplRes c => Sys2Proof.Machine.execRplRes c s
  | .cbCfgWrite g v => Sys2Proof.Machine.execCbCfgWrite g v s
  | .bellowsEvaluation => Sys2Proof.Machine.execBellowsEvaluation s
  | .sleepEntryDone => Sys2Proof.Machine.execSleepEntryDone s
  | .timedWake => Sys2Proof.Machine.execTimedWake s
  | .wake cause => Sys2Proof.Machine.execWake cause s
  | .wakeDone => Sys2Proof.Machine.execWakeDone s
  | .pllLockTimeout => Sys2Proof.Machine.execPllLockTimeout s
  | .pwrCmdWake => Sys2Proof.Machine.execPwrCmdWake s
  | .budgetEpoch x => Sys2Proof.Machine.execBudgetEpoch x s
  | .budgetReport d flips => Sys2Proof.Machine.execBudgetReport d flips s
  | .budgetRequest d flips => Sys2Proof.Machine.execBudgetRequest d flips s
  | .grant d flips => Sys2Proof.Machine.execGrant d flips s
  | .grantLapse d => Sys2Proof.Machine.execGrantLapse d s
  | .arrStepChange t => Sys2Proof.Machine.execArrStepChange t s
  | .blockPowerRequest page req => Sys2Proof.Machine.execBlockPowerRequest page req s
  | .blockParked page => Sys2Proof.Machine.execBlockParked page s
  | .refclkLoss => Sys2Proof.Machine.execRefclkLoss s
  | .refclkRestore => Sys2Proof.Machine.execRefclkRestore s
  | .refclkTick => Sys2Proof.Machine.execRefclkTick s
  | .trimMeasure err => Sys2Proof.Machine.execTrimMeasure err s
  | .timeLoad => Sys2Proof.Machine.execTimeLoad s
  | .inputUvWarn => Sys2Proof.Machine.execInputUvWarn s
  | .inputUv => Sys2Proof.Machine.execInputUv s
  | .inputOvWarn => Sys2Proof.Machine.execInputOvWarn s
  | .inputOv => Sys2Proof.Machine.execInputOv s
  | .hearthPowerLoss => Sys2Proof.Machine.execHearthPowerLoss s
  | .quenchEvaluation l inlet outlet busy => Sys2Proof.Machine.execQuenchEvaluation l inlet outlet busy s
  | .floorExit => Sys2Proof.Machine.execFloorExit s
  | .thermalStopExit => Sys2Proof.Machine.execThermalStopExit s
  | .hwTrip d k c0 c1 => Sys2Proof.Machine.execHwTrip d k c0 c1 s
  | .thermTripRelease => Sys2Proof.Machine.execThermTripRelease s
  | .ttHsSel d hs => Sys2Proof.Machine.execTtHsSel d hs s
  | .ttSensClr d => Sys2Proof.Machine.execTtSensClr d s
  | .fltForce page bits => Sys2Proof.Machine.execFltForce page bits s
  | .fltStickyClear page bits => Sys2Proof.Machine.execFltStickyClear page bits s
  | .faultReport temp volt time => Sys2Proof.Machine.execFaultReport temp volt time s
  | .vexondaneClear page src => Sys2Proof.Machine.execVexondaneClear page src s
  | .blockReset page => Sys2Proof.Machine.execBlockReset page s
  | .blockResetDone page => Sys2Proof.Machine.execBlockResetDone page s
  | .temperTest t u => Sys2Proof.Machine.execTemperTest t u s
  | .temperTestDone t pass => Sys2Proof.Machine.execTemperTestDone t pass s
  | .temperOverdue t u => Sys2Proof.Machine.execTemperOverdue t u s
  | .temperAbandon t u => Sys2Proof.Machine.execTemperAbandon t u s
  | .tmRunNow t => Sys2Proof.Machine.execTmRunNow t s
  | .tmSel t v => Sys2Proof.Machine.execTmSel t v s
  | .coldPowerOn factory test pwrEn strap r clocks => Sys2Proof.Machine.execColdPowerOn factory test pwrEn strap r clocks s
  | .warmRestart r => Sys2Proof.Machine.execWarmRestart r s
  | .modRstN ns => Sys2Proof.Machine.execModRstN ns s
  | .pwrEnFall => Sys2Proof.Machine.execPwrEnFall s
  | .pwrEnRise r => Sys2Proof.Machine.execPwrEnRise r s
  | .heldReevaluate => Sys2Proof.Machine.execHeldReevaluate s
  | .configImageWrite sec ok1 ok2 => Sys2Proof.Machine.execConfigImageWrite sec ok1 ok2 s
  | .tileFence t clock => Sys2Proof.Machine.execTileFence t clock s
  | .baseFence a lost => Sys2Proof.Machine.execBaseFence a lost s
  | .spSeqSel v => Sys2Proof.Machine.execSpSeqSel v s
  | .fsHrecSel v => Sys2Proof.Machine.execFsHrecSel v s
  | .fsRingTail v => Sys2Proof.Machine.execFsRingTail v s
  | .fsRingCfgWrite da v => Sys2Proof.Machine.execFsRingCfgWrite da v s
  | .toPortSel v => Sys2Proof.Machine.execToPortSel v s
  | .toRtSel v => Sys2Proof.Machine.execToRtSel v s
  | .tcStrikeSel t v => Sys2Proof.Machine.execTcStrikeSel t v s
  | .counterClear page => Sys2Proof.Machine.execCounterClear page s
  | .guardedWrite ag off v => Sys2Proof.Machine.execGuardedWrite ag off v s
  | .registerWrite ag off v => Sys2Proof.Machine.execRegisterWrite ag off v s
  | .chainPlugRemoved c => Sys2Proof.Machine.execChainPlugRemoved c s
  | .chainPlugInserted c => Sys2Proof.Machine.execChainPlugInserted c s
  | .perstNRelease => Sys2Proof.Machine.execPerstNRelease s
  | .modRstNRelease r => Sys2Proof.Machine.execModRstNRelease r s
  | .pwrEnLowHoldoffEnd r => Sys2Proof.Machine.execPwrEnLowHoldoffEnd r s
  | .ucieAdapterRetry x far => Sys2Proof.Machine.execUcieAdapterRetry x far s
  | .sidebandMessage m => Sys2Proof.Machine.execSidebandMessage m s
  | .pldmSensorUpdate => Sys2Proof.Machine.execPldmSensorUpdate s
  | .inputWarningClear high => Sys2Proof.Machine.execInputWarningClear high s
  | .lpIdlePowerDown p c => Sys2Proof.Machine.execLpIdlePowerDown p c s

end Sys2Proof.Machine
end

