-- ==== Sys2Proof/WellFormed.lean ====
section
/-!
DEFINITION. Well-formed commands: what the operands' types leave to check. A command that is not well-formed is none that a
sender of the spec sends.
-/

namespace Sys2Proof

/-- No value occurs twice. -/
def distinct {α : Type} [DecidableEq α] (l : List α) : Bool := decide l.Nodup

/-- A write of part of a line of 128 bytes (R265, R288). -/
def narrowOk (off : Nat) (data : List Byte) : Bool := 0 < data.length && data.length < 128 && off + data.length ≤ 128

/-- A unit of a tile (R447, R455): a core, or an NBU group. -/
def unitNumberOk (u : BitVec 9) : Bool := u.toNat ≤ 40 || (64 ≤ u.toNat && u.toNat < 320)

/-- A hot spot of a place (R410): 3 on a base die, 34 on a tile, 2 in the air. -/
def spotOk (die spot : Nat) : Bool := if die < 4 then spot < 3 else if die < 16 then spot < 34 else spot < 2

/-- A segment record (R165, R372): its index lies below the count, and 1 to 8 ports lead to the next segment. -/
def segOk (x : ChainSeg) : Bool := x.index < x.count && 1 ≤ x.ports.toNat && x.ports.toNat ≤ 8

/-- A frame (R359): up to 4,096 bytes of payload, and the reserved bits of FL are 0. -/
def frameOk (f : Frame) : Bool := f.payload.length ≤ 4096 && f.fl.toNat < 2

/-- A REPAIR_MAP entry (R470): a KIND of its table with the fields of its position. -/
def repairOk (e : RepairEntry) : Bool :=
  match e.kind.toNat with
  | 1 => e.pos.length = 2
  | 2 => e.pos.length = 4
  | 3 => e.pos.length = 4
  | 4 => e.pos.length = 3
  | 5 => e.pos.length = 2
  | 6 => e.pos.length = 4
  | _ => false

/-- A fused identity (R22, R272, R481): four base dies, twelve tiles, no position hidden twice, spares of rows, columns and lanes. -/
def fuseOk (f : Fuse) : Bool := f.bases.length = 4 && f.tiles.length = 12 && distinct f.hidden &&
  f.spares.all fun e => repairOk e && 2 ≤ e.kind.toNat && e.kind.toNat ≤ 4

/-- A TOPOLOGY section (R355, R468). -/
def topologyOk (t : Topology) : Bool :=
  t.mcs.length = 12 && t.vcs.length = 12 && t.chans.length = 16 && t.chans.all (fun c => c.toNat < 16) &&
  t.ports.length = 8 && t.routes.length ≤ 64

/-- The sections of a configuration image (R461). -/
def imageOk (i : ConfigImage) : Bool :=
  topologyOk i.topo && i.repair.all repairOk && i.training.all (fun x => x.2.all repairOk) &&
  i.settings.all fun x => x.1.toNat % 4 = 0

/-- A slot of the configuration flash (R461): a header of 128 bytes. -/
def slotOk (x : FlashSlot) : Bool := x.header.length = 128 && imageOk x.image

/-- What a bring-up finds (R465 to R467). -/
def bringUpOk (r : BringUp) : Bool :=
  r.rates.length = 64 && r.bridgeLanes.length = 4 && distinct r.bondsBad && r.lanes.length = 8 && r.idents.length = 8 && distinct r.savedBad &&
  distinct r.failed && r.failed.all (fun x => unitNumberOk x.2) && r.diag.all fun x => x.2.length ≤ 8

/-- A leaf requester of the module (R320). -/
def leafOk : Leaf → Bool
  | .part t p => t < 12 && p < 41
  | .slice t n => t < 12 && n < 32
  | .tongs t => t < 12
  | .port c => c < 8
  | .host => true
  | .vexondane => true

/-- An arbiter output of the module (R319). -/
def arbOk : ArbOut → Bool
  | .mesh t h _ => t < 12 && h < 2
  | .slice t n => t < 12 && n < 32
  | .strip t k => t < 12 && k < 3
  | .die a _ => a < 4
  | .ring a _ => a < 4

/-- What feeds an input of an arbiter. -/
def sourceOk : ArbSrc → Bool
  | .leaf x => leafOk x
  | .out o => arbOk o

/-- Whether a command is well-formed. -/
def wellFormed : Instr → Bool
  | .nop _ _ _ => true
  | .endProgram _ _ _ => true
  | .trap _ _ _ => true
  | .fence _ _ _ => true
  | .time _ _ _ => true
  | .ldi _ _ _ => true
  | .ldih _ _ _ => true
  | .add _ _ _ => true
  | .sub _ _ _ => true
  | .and _ _ _ => true
  | .or _ _ _ => true
  | .xor _ _ _ => true
  | .shl _ _ _ => true
  | .shr _ _ _ => true
  | .sar _ _ _ => true
  | .mul _ _ _ => true
  | .slt _ _ _ => true
  | .sltu _ _ _ => true
  | .ld _ _ _ => true
  | .st _ _ _ => true
  | .ldw _ _ _ => true
  | .stw _ _ _ => true
  | .br _ _ _ => true
  | .beq _ _ _ => true
  | .bne _ _ _ => true
  | .blt _ _ _ => true
  | .bge _ _ _ => true
  | .loop _ _ _ => true
  | .call _ _ _ => true
  | .jr _ _ _ => true
  | .xfer _ _ _ => true
  | .xferComplete _ _ _ => true
  | .fset _ _ _ => true
  | .fclr _ _ _ => true
  | .fwait _ _ _ => true
  | .fwaitRelease _ _ => true
  | .ftst _ _ _ => true
  | .bara _ _ _ => true
  | .barw _ _ _ => true
  | .bar _ _ _ => true
  | .barrierComplete module _ g => !module || g.val < 8
  | .illegalInstruction _ _ _ => true
  | .pcOutOfStore _ _ => true
  | .mxa _ _ _ => true
  | .mxaStart _ _ => true
  | .mxaEnd _ _ _ => true
  | .mxr _ _ _ => true
  | .wstrm _ _ _ => true
  | .ringTileEligible _ _ => true
  | .wflush _ _ => true
  | .vld _ _ _ => true
  | .vst _ _ _ => true
  | .vmxq _ _ _ => true
  | .vadd _ _ _ => true
  | .vsub _ _ _ => true
  | .vmul _ _ _ => true
  | .vfma _ _ _ => true
  | .vmax _ _ _ => true
  | .vmin _ _ _ => true
  | .vbc _ _ _ => true
  | .vabs _ _ _ => true
  | .vneg _ _ _ => true
  | .vexp2 _ _ _ => true
  | .vrcp _ _ _ => true
  | .vrsq _ _ _ => true
  | .vsel _ _ _ => true
  | .vcmp _ _ _ => true
  | .viadd _ _ _ => true
  | .viota _ _ _ => true
  | .vf2i _ _ _ => true
  | .vi2f _ _ _ => true
  | .vrsum _ _ _ => true
  | .vrmax _ _ _ => true
  | .vperm _ _ _ => true
  | .vrope _ _ _ => true
  | .vsort _ _ _ => true
  | .vtkm _ _ _ => true
  | .cstart _ _ => true
  | .cwait _ _ => true
  | .cwaitRelease _ => true
  | .cabort _ _ => true
  | .cresume _ _ => true
  | .ldg _ _ => true
  | .stg _ _ => true
  | .tret _ _ => true
  | .waitev _ _ => true
  | .waitevRelease _ => true
  | .tccTrapEntry _ => true
  | .coreSourceTrap _ _ => true
  | .tfSet _ _ => true
  | .tfClr _ _ => true
  | .mfSet _ => true
  | .mfClr _ => true
  | .tbMembersWrite _ _ _ _ => true
  | .mbMembersWrite _ _ => true
  | .tbAbort _ _ => true
  | .mbAbort _ => true
  | .tccHaltWrite _ _ => true
  | .tccRestart _ => true
  | .mcWringWrite _ _ _ _ => true
  | .loadPlan _ _ _ _ _ _ => true
  | .loadPlanDone _ => true
  | .unloadPlan _ _ _ => true
  | .planCtl _ _ _ _ => true
  | .planSignal _ _ _ _ => true
  | .chainActivation _ segs => segs.all segOk
  | .reloadPlacementDone _ => true
  | .seqOpen _ _ _ => true
  | .seqSuspend _ _ _ => true
  | .seqResume _ _ _ => true
  | .seqEnd _ _ _ => true
  | .seqRelease _ _ _ => true
  | .dma _ _ _ _ _ _ => true
  | .dmaDone _ data => data.length < 2 ^ 64
  | .chMapout _ _ _ _ => true
  | .mapoutRemapDone => true
  | .tileCycle _ _ _ _ => true
  | .tileRejoin _ _ _ _ => true
  | .tileParked _ => true
  | .tileReloadDone _ bad => distinct bad && bad.all unitNumberOk
  | .repairPass _ _ _ => true
  | .saveTraining _ _ => true
  | .restart _ _ _ => true
  | .cfgWrite _ _ _ _ _ => true
  | .acceptTopology _ _ => true
  | .nopCommand _ _ => true
  | .invalidOpcode _ _ _ _ => true
  | .sqTail _ _ entries _ => entries.all fun e => e.length = 64
  | .cqHead _ _ => true
  | .cqRoomPost _ => true
  | .queuePairEnable _ _ => true
  | .irqCoalesceTimeout _ => true
  | .msixUnmask _ _ => true
  | .spRunWrite _ => true
  | .admissionCutoff away => distinct away
  | .periodStart routes => distinct (routes.map Prod.fst) && routes.all fun r => r.2.all segOk
  | .periodEnd parts => distinct (parts.map Prod.fst) && parts.all fun x => distinct (x.2.map Prod.fst)
  | .stepGroupCommit _ _ ends outs => distinct (ends.map Prod.fst) && distinct (outs.map Prod.fst)
  | .pieceReplay _ _ _ _ _ => true
  | .groupRerun _ => true
  | .replayResolve _ _ _ => true
  | .tgWpost _ _ => true
  | .walk _ => true
  | .walkDelivery _ _ => true
  | .walkComplete _ _ => true
  | .nlPost _ _ _ => true
  | .stream _ _ => true
  | .rowGrant _ _ _ => true
  | .nbuFinal _ _ _ => true
  | .nbuDescComplete _ _ => true
  | .nbuRefreshPreempt _ _ _ _ => true
  | .tcSpost _ _ => true
  | .scan _ => true
  | .sliceListWrite _ _ _ => true
  | .scanComplete _ => true
  | .tgMpost _ _ => true
  | .reduce _ => true
  | .reduceRetry _ _ _ => true
  | .redTimeout _ _ _ => true
  | .atomic _ => true
  | .send _ => true
  | .sendCombine _ => true
  | .rflag _ => true
  | .fill _ => true
  | .fillDone _ => true
  | .bondedWholeWrite _ _ _ data who _ => data.length = 128 && leafOk who
  | .bondedNarrowWrite _ _ _ off data who _ => narrowOk off.val data && leafOk who
  | .mbTimeout _ _ _ => true
  | .rmwDone _ _ _ _ => true
  | .bondedLineRead _ _ _ who _ flips => leafOk who && distinct flips
  | .crcRereadReturn _ _ _ flips => distinct flips
  | .goldenFetchDone _ _ _ => true
  | .refreshDue _ _ _ _ _ => true
  | .refreshMiss _ _ _ _ => true
  | .lpLineRead _ _ who _ r => leafOk who && distinct r.flips && distinct r.again
  | .lpWholeWrite _ _ data who _ => data.length = 128 && leafOk who
  | .lpNarrowWrite _ _ off data who _ => narrowOk off.val data && leafOk who
  | .gbTimeout _ _ _ => true
  | .lpRefresh _ _ => true
  | .mr4Read _ _ _ _ => true
  | .lpEffWindow _ _ => true
  | .lpMapout _ _ => true
  | .lpUncClear _ _ => true
  | .sbRead _ _ who _ _ => leafOk who
  | .sbWrite _ off data who _ _ => leafOk who && 0 < data.length && off.toNat + data.length ≤ 2 ^ 26
  | .flitParityReplay _ _ _ _ _ => true
  | .arbiterGrant arb inputs => arbOk arb && inputs.all fun i => sourceOk i.src
  | .halfIdleTimeout _ _ => true
  | .halfDown _ _ => true
  | .halfWakeRequest _ _ who _ => leafOk who
  | .halfAwake _ _ => true
  | .gatedAccess _ _ _ => true
  | .fbHalfCtlWrite _ _ => true
  | .bridgeModuleFail _ _ lost => lost.all fun x => leafOk x.1
  | .bar0Access _ size data => 0 < size.val && data.all fun d => d.length = size.val
  | .bar2Atomicop _ _ _ _ _ _ => true
  | .bar4Access _ _ _ len data => 0 < len && data.all fun d => d.length = len
  | .cxlMemRead _ => true
  | .cxlMemWrite _ data => data.length = 64
  | .backInvalidate da data _ _ => da.toNat % 128 + data.length ≤ 128
  | .bisnpTimeout _ => true
  | .perstN _ => true
  | .functionLevelReset => true
  | .cxlReset => true
  | .linkTrained _ _ _ _ => true
  | .portTrainingDone _ _ => true
  | .cpRetrain _ => true
  | .frameReceive _ f _ => frameOk f
  | .framePassThrough _ => true
  | .ident _ => true
  | .ack _ => true
  | .nak _ => true
  | .syncExchange _ _ => true
  | .syncReq _ _ _ => true
  | .syncRsp _ _ => true
  | .act _ => true
  | .cmb _ => true
  | .flagFrame _ => true
  | .barArr _ => true
  | .barRel _ => true
  | .barAbt _ => true
  | .admitFrame _ => true
  | .report _ => true
  | .commit _ => true
  | .drop _ => true
  | .chainLateTimeout _ => true
  | .seqSync _ => true
  | .seqAck _ => true
  | .seqSyncTimeout _ => true
  | .rplReq _ => true
  | .rplRes _ => true
  | .cbCfgWrite _ _ => true
  | .bellowsEvaluation => true
  | .sleepEntryDone => true
  | .timedWake => true
  | .wake _ => true
  | .wakeDone => true
  | .pllLockTimeout => true
  | .pwrCmdWake => true
  | .budgetEpoch x => x.domains.length = 52 && x.req.length = 16 && distinct (x.cycles.map fun c => (c.page, c.off))
  | .budgetReport _ _ => true
  | .budgetRequest _ _ => true
  | .grant _ _ => true
  | .grantLapse _ => true
  | .arrStepChange _ => true
  | .blockPowerRequest _ _ => true
  | .blockParked _ => true
  | .refclkLoss => true
  | .refclkRestore => true
  | .refclkTick => true
  | .trimMeasure _ => true
  | .timeLoad => true
  | .inputUvWarn => true
  | .inputUv => true
  | .inputOvWarn => true
  | .inputOv => true
  | .hearthPowerLoss => true
  | .quenchEvaluation l _ _ _ => distinct (l.map fun r => (r.die, r.spot)) && l.all fun r => spotOk r.die.val r.spot.val
  | .floorExit => true
  | .thermalStopExit => true
  | .hwTrip d i _ _ => spotOk d.val i.val
  | .thermTripRelease => true
  | .ttHsSel _ _ => true
  | .ttSensClr _ => true
  | .fltForce _ _ => true
  | .fltStickyClear _ _ => true
  | .faultReport _ _ _ => true
  | .vexondaneClear _ _ => true
  | .blockReset _ => true
  | .blockResetDone _ => true
  | .temperTest _ u => unitNumberOk u
  | .temperTestDone _ _ => true
  | .temperOverdue _ u => unitNumberOk u
  | .temperAbandon _ u => unitNumberOk u
  | .tmRunNow _ => true
  | .tmSel _ _ => true
  | .coldPowerOn factory test pwrEn _ r clocks =>
    factory.all (fun x => fuseOk x.1 && x.2.1.all slotOk && x.2.2.all slotOk) && bringUpOk r && (clocks.isEmpty || (test && pwrEn))
  | .warmRestart r => bringUpOk r
  | .modRstN _ => true
  | .pwrEnFall => true
  | .pwrEnRise r => bringUpOk r
  | .heldReevaluate => true
  | .configImageWrite sec _ _ => imageOk sec
  | .tileFence _ _ => true
  | .baseFence _ lost => lost.all fun x => leafOk x.2.1
  | .spSeqSel _ => true
  | .fsHrecSel _ => true
  | .fsRingTail _ => true
  | .fsRingCfgWrite _ _ => true
  | .toPortSel _ => true
  | .toRtSel _ => true
  | .tcStrikeSel _ _ => true
  | .counterClear _ => true
  | .guardedWrite _ off _ => off.toNat % 4 = 0
  | .registerWrite _ off _ => off.toNat % 4 = 0
  | .chainPlugRemoved _ => true
  | .chainPlugInserted _ => true
  | .perstNRelease => true
  | .modRstNRelease r => bringUpOk r
  | .pwrEnLowHoldoffEnd r => bringUpOk r
  | .ucieAdapterRetry _ _ => true
  | .sidebandMessage _ => true
  | .pldmSensorUpdate => true
  | .inputWarningClear _ => true
  | .lpIdlePowerDown _ _ => true

end Sys2Proof
end

