-- ==== Sys2Proof/Safety.lean ====
section
/-!
DEFINITION. What a claim says of a run: a command completes with an effect, and what it leaves unchanged.
-/

namespace Sys2Proof.Machine

open Sys2Proof

/-- The command completes: it answers a next state, of which P holds. -/
def answers (i : Instr) (s : State) (P : State → Prop) : Prop := ∃ u, exec i s = .next u ∧ P u

/-- The command completes and leaves the whole state as it was: an event whose condition does not hold (log 4). -/
def idles (i : Instr) (s : State) : Prop := exec i s = .next s

/-- A run is safe while no step of it faults or is refused. -/
def safeStep (s : State) : Prop := ∃ u, step s = .next u

/-- Every byte of memory outside [lo, hi) reads as before. -/
def memSameOutside (s u : State) (lo hi : Nat) : Prop :=
  ∀ a, (a < lo ∨ hi ≤ a) → u.mem.readByte a = s.mem.readByte a

/-- Every byte of memory reads as before. -/
def memSame (s u : State) : Prop := ∀ a, u.mem.readByte a = s.mem.readByte a

/-- Of the registers and counters of the register space, at most the counter of instructions of one participant
changed. -/
def onlyInstrCount (s u : State) (t p : Nat) : Prop :=
  u.regs = { s.regs with counters := u.regs.counters } ∧
  ∀ off, off ≠ regOff (ptPage t p) 0x800 → kget 0#64 u.regs.counters off = kget 0#64 s.regs.counters off

/-- What an instruction of participant p of tile t leaves unchanged that has issued, has ended, and writes at most its PC and
scalar register d: every other register, core, TCC, register-space value and field. No operation is in progress after it
(R134), and none is held (R94). -/
def onlyReg (s u : State) (t p d : Nat) : Prop :=
  u = { s with cores := u.cores, tccs := u.tccs, regs := u.regs } ∧
  onlyInstrCount s u t p ∧
  (∀ j, j ≠ d → getG u t p j = getG s t p j) ∧
  (∀ c, c ≠ coreId t p → coreOf u c = coreOf s c) ∧
  (let k := coreOf u (coreId t p)
   k = { coreOf s (coreId t p) with pc := k.pc, g := k.g, opcode := 0, opmod := 0, held := none }) ∧
  ∀ t', tccOf u t' = { tccOf s t' with bank2 := (tccOf u t').bank2 }

/-- The PC of a participant. -/
def pcOf (s : State) (t p : Nat) : Nat := (coreOf s (coreId t p)).pc

/-- An instruction that writes one value to GD and goes on (R91, R97): G0 discards the value. -/
def wroteReg (s u : State) (t p d : Nat) (v : Word64) : Prop :=
  onlyReg s u t p d ∧ getG u t p d = (if d = 0 then 0#64 else v) ∧ pcOf u t p = (pcOf s t p + 8) % 2 ^ 64

/-- An instruction that writes no register and goes to a PC (R97). -/
def wentTo (s u : State) (t p pc : Nat) : Prop := onlyReg s u t p 0 ∧ pcOf u t p = pc

/-- A participant can go on with instruction i, which may have been held: it is ready, and no other instruction is held
before it (R94). -/
def canGo (i : Instr) (s : State) (t p : Nat) : Prop :=
  ready s t p = true ∧ ((coreOf s (coreId t p)).held = none ∨ (coreOf s (coreId t p)).held = some i)

/-- An instruction that cannot issue yet is held, with every one behind it, and nothing else changes (R94). -/
def heldBack (i : Instr) (s : State) (t p : Nat) : Prop :=
  answers i s fun u => u = setCore s (coreId t p) { coreOf s (coreId t p) with held := some i }

/-- No outstanding transfer of the tile writes a participant's store (R98, R100). -/
def storeQuiet (s : State) (t p : Nat) : Prop := tlaWriters s t (storeTla p) (storeSize p) = []

/-- Every request and every response of an agent arrives good: no bridge is down, and no flit was delivered poisoned
(R310, R322). -/
def pathsGood (s : State) : Prop :=
  s.store.badFlits = [] ∧ ∀ (a : Nat) (ew : Bool), a < 4 → bitOf (pget s (bridgePage a ew) 0x080) 4 = false

/-- The module is awake: an access or an event finds it running (R389). -/
def awake (s : State) : Prop := pState s = 0 ∧ s.power.entering = none

/-- A requester that exists reaches what it addresses: the module is awake, and its flits arrive good. -/
def reaches (s : State) (who : Leaf) : Prop := awake s ∧ leafOk who = true ∧ pathsGood s

/-- A tile serves and the half of one of its slices is neither gated nor held by Quench (R317, R318, R420). -/
def sliceServes (s : State) (t n : Nat) : Prop :=
  tileUp s t = true ∧ halfGated s t (sliceHalf n) = false ∧ s.quench.holding = false

/-- A step tag of a first run: its REPLAY bit is 0 (R174). -/
def firstRun (tag : Nat) : Prop := bitOf tag 7 = false

/-- No MXA still reads the line of a participant's store that holds an offset (R67). -/
def lineFree (s : State) (t p off : Nat) : Prop := p < 32 → (mcOf s t p).reads (off / 128) = false

/-- What a vector instruction leaves unchanged that writes at most the vector registers `ds`, with its PC moved past it: every
other vector register, every scalar register, memory, and all else but counters. -/
def wroteVecs (s u : State) (t p : Nat) (ds : List Nat) : Prop :=
  u = { s with cores := u.cores, regs := u.regs } ∧
  u.regs = { s.regs with counters := u.regs.counters } ∧
  (∀ r, r ∉ ds → getY u t p r = getY s t p r) ∧
  (∀ j, getG u t p j = getG s t p j) ∧
  (∀ c, c ≠ coreId t p → coreOf u c = coreOf s c) ∧
  coreOf u (coreId t p) = { coreOf s (coreId t p) with
    y := (coreOf u (coreId t p)).y, pc := (pcOf s t p + 8) % 2 ^ 64, opcode := 0, opmod := 0, held := none }

/-- An illegal instruction of a participant (R95): PROG_ERR is set, the PC moves past it, and no byte of memory, no register
and no flag or barrier changes. -/
def wasIllegal (s u : State) (t p : Nat) : Prop :=
  sticky u (ptPage t p) (progErrSource p) = true ∧ pcOf u t p = (pcOf s t p + 8) % 2 ^ 64 ∧ u.mem = s.mem ∧
  u.sync = s.sync ∧ (∀ j, getG u t p j = getG s t p j) ∧ ∀ r, getY u t p r = getY s t p r

/-- A write to a block-specific register of a page is applied: the page is not in block reset and its unit serves it
(R489, R492). -/
def served (s : State) (page : Nat) : Bool := !inReset s page && pageServes s page

/-- A write to a register of a page by a command: a sleeping module wakes first (R486, R389), and a write that is not
applied is discarded. `P` says what an applied write does to the state that woke. -/
def writesReg (i : Instr) (s : State) (page : Nat) (P : State → State → Prop) : Prop :=
  let w := wakeFor s 1
  (served w page = true → answers i s (P w)) ∧ (served w page = false → exec i s = .next w)

/-- Nothing that an access to a page needs is asleep: neither the module nor the half of the page (R486, R489). -/
def upFor (s : State) (page : Nat) : Prop :=
  pState s = 0 ∧ s.power.entering = none ∧
  ∀ t i h, pagePlace page = .tile t i → pageHalf i = some h → halfState s t h = 0 ∨ halfGated s t h = true

/-- A tile is served and neither of its halves is gated: a request to its stores and slices is answered (R317, R318). -/
def tileOpen (s : State) (t : Nat) : Prop := tileUp s t = true ∧ halfGated s t 0 = false ∧ halfGated s t 1 = false

/-- Every register but those of a list keeps its value, and nothing but stored registers changed. -/
def onlyRegsAt (w u : State) (offs : List Nat) : Prop :=
  u = { w with regs := { w.regs with vals := u.regs.vals } } ∧ ∀ o, o ∉ offs → regGet u o = regGet w o

/-- Beside registers, nothing but the time since which a half is idle changed: what an access over the fabric may leave behind
(R316, R324). -/
def overFabric (s u : State) : Prop :=
  u = { s with regs := u.regs, store := { s.store with idleSince := u.store.idleSince } }

/-- The same for a register access: besides, every register but those of a list keeps its value, and no guarded pair and no latch
changed. -/
def carriedRegsAt (s u : State) (offs : List Nat) : Prop :=
  overFabric s u ∧ u.regs = { s.regs with vals := u.regs.vals, counters := u.regs.counters } ∧
  ∀ o, o ∉ offs → regGet u o = regGet s o

/-- The half of a page, if it has one, is gated (R318). -/
def pageGated (s : State) (page : Nat) : Prop :=
  ∃ t i h, pagePlace page = .tile t i ∧ pageHalf i = some h ∧ halfGated s t h = true

/-- What the submission entry of a command spells (R337): its pair, CID and OPC, its operands by offset, size and value, and its class
in the table of R458. -/
structure HostRow where
  pair : Fin 64
  cid : BitVec 16
  opc : Nat
  fields : List (Nat × Nat × Nat)
  cls : CmdClass
  deriving DecidableEq, Repr

/-- The entry of a MAINT command (R474). -/
def maintRow (q : Fin 64) (c : BitVec 16) (oper : Nat) (fs : List (Nat × Nat × Nat)) : HostRow :=
  ⟨q, c, 0x30, (0x08, 1, oper) :: fs, .held⟩

/-- The entry of a command fetched from a submission queue (R337, R474). An operation code that R337 names, and an OPER that R474
names, is no invalid one. -/
def hostRow : Instr → Option HostRow
  | .loadPlan q c da size slot pin =>
    some ⟨q, c, 0x01, [(0x08, 8, da.toNat), (0x10, 8, size.toNat), (0x18, 1, slot.toNat), (0x19, 1, pin.toNat)], .load⟩
  | .unloadPlan q c slot => some ⟨q, c, 0x02, [(0x08, 1, slot.toNat)], .other⟩
  | .planCtl q c slot pin => some ⟨q, c, 0x03, [(0x08, 1, slot.toNat), (0x09, 1, pin.toNat)], .other⟩
  | .planSignal q c slot arg => some ⟨q, c, 0x04, [(0x08, 1, slot.toNat), (0x0C, 4, arg.toNat)], .other⟩
  | .seqOpen q c o => some ⟨q, c, 0x10, openFields o, .other⟩
  | .seqSuspend q c x => some ⟨q, c, 0x11, [(0x08, 2, x.toNat)], .other⟩
  | .seqResume q c x => some ⟨q, c, 0x12, [(0x08, 2, x.toNat)], .other⟩
  | .seqEnd q c x => some ⟨q, c, 0x13, [(0x08, 2, x.toNat)], .other⟩
  | .seqRelease q c x => some ⟨q, c, 0x14, [(0x08, 2, x.toNat)], .other⟩
  | .dma q c dir host da len =>
    some ⟨q, c, 0x20, [(0x08, 1, dir.toNat), (0x10, 8, host.toNat), (0x18, 8, da.toNat), (0x20, 8, len.toNat)], .held⟩
  | .chMapout q c pkg ch => some (maintRow q c 0x01 [(0x09, 1, pkg.toNat), (0x0A, 1, ch.toNat)])
  | .tileCycle q c tile flags => some (maintRow q c 0x02 [(0x0B, 1, tile.toNat), (0x0C, 1, flags.toNat)])
  | .tileRejoin q c tile flags => some (maintRow q c 0x03 [(0x0B, 1, tile.toNat), (0x0C, 1, flags.toNat)])
  | .repairPass q c flags => some (maintRow q c 0x04 [(0x0C, 1, flags.toNat)])
  | .saveTraining q c => some (maintRow q c 0x05 [])
  | .restart q c flags => some (maintRow q c 0x06 [(0x0C, 1, flags.toNat)])
  | .cfgWrite q c type src len =>
    some (maintRow q c 0x07 [(0x0B, 1, type.toNat), (0x10, 8, src.toNat), (0x18, 8, len.toNat)])
  | .acceptTopology q c => some (maintRow q c 0x08 [])
  | .nopCommand q c => some ⟨q, c, 0x3F, [], .nop⟩
  | .invalidOpcode q c opc oper =>
    if opc = 0x30#8 && (oper = 0#8 || 8#8 < oper) then some (maintRow q c oper.toNat [])
    else if opcKnown opc.toNat then none
    else some ⟨q, c, opc.toNat, [], .nop⟩
  | _ => none

/-- The oldest fetched entry of a pair, which is enabled and not stopped, spells a command (R335 to R337). -/
def hasCommand (s : State) (r : HostRow) : Prop :=
  (pairOf s r.pair).en = true ∧ (pairOf s r.pair).stopped = false ∧
  ∃ e l, (pairOf s r.pair).fetched = e :: l ∧ spells e r.opc r.cid r.fields = true

/-- A completion queue takes an entry at once: it is enabled, has room and holds nothing back. -/
def takesEntry (s : State) (q : Nat) : Prop :=
  (pairOf s q).en = true ∧ (pairOf s q).held = [] ∧ cqFull s q = false

/-- Loads and unloads of plans that are to complete on a pair. -/
def ticketsOf (s : State) (q : Nat) : Nat :=
  let mine (k : Option Ticket) : Nat := if k.any fun k => k.pair = q ∧ k.gone = false then 1 else 0
  (s.plans.map fun p => mine p.2.load + mine p.2.unload).sum

/-- A command that a submission queue brings can start in the service state, no earlier command of its pair is open, and its
completion finds room (R336, R458). -/
def canRun (i : Instr) (s : State) : Prop :=
  ∃ r, hostRow i = some r ∧ hasCommand s r ∧ takesEntry s r.pair ∧ (pairOf s r.pair).opens = [] ∧
    cmdServed (svcState s) r.cls = true

/-- The schedule with a sequence command accepted: it waits for the next admission cutoff whose instant has not come (R172, R400). -/
def acceptedFor (s : State) (i : Nat) (k : SeqCmdKind) : Sched :=
  if cutoffPassed s then { s.sched with later := s.sched.later ++ [(i, k)] } else { s.sched with cmds := s.sched.cmds ++ [(i, k)] }

/-- The state with the oldest fetched command of a pair taken. -/
def taken (s : State) (q : Nat) : State :=
  setPair' s q { pairOf s q with fetched := (pairOf s q).fetched.drop 1 }

/-- A completion posted in state w (R341): at the tail of its queue stands an entry with the status, the CID, the pair, the
phase, the timebase and the words D0 to D2; the tail moves by one; beside the pair, at most messages to the host change. -/
def posted (w u : State) (q cid status : Nat) (d : List Nat) : Prop :=
  let x := pairOf w q
  let y := pairOf u q
  u = { w with host := u.host } ∧
  (∃ p a n, u.host = { w.host with pairs := p, msixPend := a, msixSent := n }) ∧
  (∀ q', q' ≠ q → pairOf u q' = pairOf w q') ∧
  y = { x with posted := y.posted, cqTail := y.cqTail, phase := y.phase, oldest := y.oldest, unsig := y.unsig } ∧
  y.cqTail = (if x.cqTail + 1 = cqSize w q then 0 else x.cqTail + 1) ∧
  ∃ e : List Byte, kfind y.posted x.cqTail = some e ∧ e.length = 64 ∧
    field e 1 1 = status % 2 ^ 8 ∧ field e 2 2 = cid % 2 ^ 16 ∧ field e 4 1 = q % 2 ^ 8 ∧
    field e 7 1 = (if x.phase then 1 else 0) ∧ field e 8 8 = w.clock.now % 2 ^ 64 ∧
    field e 0x10 4 = d.getD 0 0 % 2 ^ 32 ∧ field e 0x14 4 = d.getD 1 0 % 2 ^ 32 ∧ field e 0x18 4 = d.getD 2 0 % 2 ^ 32

/-- A command of a pair is refused (R337): it is taken and completes with a status, and nothing else changes. -/
def completesWith (i : Instr) (s : State) (q : Nat) (cid : BitVec 16) (status : Nat) (d : List Nat) : Prop :=
  answers i s fun u => posted (taken s q) u q cid.toNat status d

/-- A command of a pair has an effect and completes: `P` says what state it makes of the one in which it was taken. -/
def runsWith (i : Instr) (s : State) (q : Nat) (cid : BitVec 16) (status : Nat) (d : List Nat)
    (P : State → State → Prop) : Prop :=
  answers i s fun u => ∃ w, P (taken s q) w ∧ posted w u q cid.toNat status d

/-- A port can send a frame of one virtual channel with a payload of n bytes now: the replay buffer has room and the channel a credit
(R354, R358). -/
def hasRoom (s : State) (c : Nat) (vc : Bool) (n : Nat) : Prop :=
  ∀ f : Frame, onControl f = vc → f.payload.length = n → canSend s c f = true

/-- What the frames that waited at an UP port make of it (R354, R358): of each virtual channel the first ones follow the frames that were
sent, control frames first, and the others wait; all go out where the replay buffer and the credits take them. -/
def sentOn (u : State) (c : Nat) (tx held : List TxFrame) : Prop :=
  let ctl := held.filter fun x => onControl x.frame
  let data := held.filter fun x => !onControl x.frame
  (∃ i j, (portOf u c).tx.map (·.frame.payload) = (tx ++ ctl.take i ++ data.take j).map (·.frame.payload) ∧
    (portOf u c).held.map (·.frame) = (ctl.drop i ++ data.drop j).map (·.frame)) ∧
  (((tx ++ held).map fun x => frameSize x.frame).sum ≤ 2 ^ 20 →
    (∀ vc, ((tx ++ held).filter fun x => onControl x.frame == vc).length ≤ Config.vcCredits vc + 1) → (portOf u c).held = [])

/-- A command that handles the oldest frame of a type in the inbox of a port (R354, R360): with none there it does nothing;
else `P` says what it makes of the state without the frame. -/
def handlesFrame (i : Instr) (s : State) (c type : Nat) (P : Frame → State → State → Prop) : Prop :=
  let p := portOf s c
  ((∀ f ∈ p.inbox, f.type.toNat ≠ type) → idles i s) ∧
  ∀ f, p.inbox.find? (fun f => f.type.toNat = type) = some f →
    answers i s (P f (setPort s c { p with inbox := p.inbox.erase f }))

/-- The same for a frame whose payload lands: while a half that it goes to is held, the frame stays where it is (R317). -/
def handlesLanding (i : Instr) (s : State) (c type : Nat) (P : Frame → State → State → Prop) : Prop :=
  let p := portOf s c
  ((∀ f ∈ p.inbox, f.type.toNat ≠ type) → idles i s) ∧
  ∀ f, p.inbox.find? (fun f => f.type.toNat = type) = some f →
    ((frameHalves f).any (halfHeld s) = true → answers i s fun u => u.mem = s.mem ∧ portOf u c = p) ∧
    ((frameHalves f).any (halfHeld s) = false → answers i s (P f (setPort s c { p with inbox := p.inbox.erase f })))

/-- Where a payload cannot land: an end of it is a register, unmapped, or above the bytes of its LPDDR5X region (R27, R361). -/
def cannotLand (s : State) (f : Frame) : Prop :=
  ∃ a ∈ [f.addr.toNat, f.addr.toNat + f.payload.length - 1],
    (∃ r, daKind a = .register r) ∨ daKind a = .unmapped ∨ ∃ b o, daKind a = .lpddr b o ∧ regionTop s b ≤ o

/-- A payload of a first run lands (R361): in one line of a shared buffer it writes its bytes and no other; where it cannot land it is
discarded with CP_FRAME_BAD. -/
def lands (c : Nat) (f : Frame) (w u : State) : Prop :=
  let a := f.addr.toNat
  let n := f.payload.length
  (cannotLand w f → u.mem = w.mem ∧ u.chain.landings = w.chain.landings ∧ sticky u (cpPage c) 7 = true) ∧
  (∀ b o, daKind a = .shared b o → baseUp w b = true → w.store.held = [] → pathsGood w → firstRun f.tag.toNat → 0 < n →
    a % 128 + n ≤ 128 → u.mem.readBytes a n = f.payload ∧ memSameOutside w u a (a + n))

/-- The same for a frame of a chain plan: one that names no plan here does nothing more (R360). -/
def handlesPlanFrame (i : Instr) (s : State) (c type : Nat) (P : Frame → Nat → State → State → Prop) : Prop :=
  handlesFrame i s c type fun f w u =>
    (slotOfUid w f.addr.toNat = none → u = w) ∧ ∀ slot, slotOfUid w f.addr.toNat = some slot → P f slot w u

/-- What raising fault sources may change (R426 to R433): registers, marks and stamps, messages of the host port, a TCC's
pending causes and halt, and a core's request to stop. Everything else stays. -/
def onlyFaults (s u : State) : Prop :=
  u = { s with regs := u.regs, flt := u.flt, host := u.host, cores := u.cores, tccs := u.tccs } ∧
  (∃ p n, u.host = { s.host with msixPend := p, msixSent := n }) ∧
  (∀ c, coreOf u c = { coreOf s c with stopReq := (coreOf u c).stopReq }) ∧
  (∀ t, ∃ a b c d, tccOf u t = { tccOf s t with pend := a, halted := b, locked := c, nested := d }) ∧
  ∀ page src, src < 32 → sticky s page src = true → sticky u page src = true

/-- The main converters are off (R515, R397, R414): plans, sequences and the contents of every die but Hearth are gone; the timebase
and the count of periods go on, and the strikes stay. -/
def mainsAreOff (s u : State) : Prop :=
  u.power.mainOn = false ∧ u.clock = s.clock ∧ u.sched.num = s.sched.num ∧ u.units = s.units ∧ u.seqs = [] ∧ u.plans = [] ∧ u.cores = [] ∧ u.tccs = [] ∧ u.eng = .reset ∧
  u.mem.cells = [] ∧ u.svc.fuse = s.svc.fuse ∧ u.svc.flashA = s.svc.flashA ∧ u.svc.flashB = s.svc.flashB ∧
  ∀ page src, hearthPage page = true → sticky s page src = true → sticky u page src = true

/-- Bring-up has ended: the module is READY, or HELD with TOPO_HOLD set (R458, R468). -/
def broughtUp (u : State) : Prop := svcState u = 2 ∨ svcState u = 1

end Sys2Proof.Machine
end

