-- ==== Sys2Proof/Certificates/Slice0/Obligations.lean ====
section
/-!
DEFINITION. The statements for the provers. Each says in its docstring which rules of spec/ it rests on. `answers i s P` says
that command i completes in state s with a next state of which P holds.
-/

open Sys2Proof Sys2Proof.Machine

/-- A step takes the command at the front of the queue and runs it with the rest of the queue; an empty queue idles, which
is the model's choice (log 3). -/
def Obligations.Step_runs_front : Prop :=
  (∀ (c : Instr) (rest : List Instr) (s : State), s.pending = c :: rest → step s = exec c (s.setPending rest)) ∧
  ∀ s : State, s.pending = [] → step s = .next s

/-- R97, R91: the instructions that write one value to GD. Operand A is G[GA], operand B is G[GB] + sext(IMM32), shifts take
B[5:0]; TIME gives the timebase, LDI the sign-extended immediate, LDIH the immediate above the low half of GD. G0 discards
the value, and nothing else changes but the PC and the counter of instructions. An instruction commanded while it cannot
issue changes nothing (log 4). Each completes with its own effect under its clause's conditions on state and operands alone:
time, ldi, ldih, add, sub, and, or, xor, shl, shr, sar, mul, slt, sltu. -/
def Obligations.Scalar_results : Prop :=
  ∀ (t : Fin 12) (p : Fin 41) (f : SFields) (s : State),
    let a := getG s t p f.ga.toNat
    let b := getG s t p f.gb.toNat + f.imm.signExtend 64
    let old := getG s t p f.gd.toNat
    let gives (i : Instr) (v : Word64) : Prop :=
      (canIssue s t p = true → answers i s fun u => wroteReg s u t p f.gd.toNat v) ∧ (canIssue s t p = false → idles i s)
    gives (.add t p f) (a + b) ∧ gives (.sub t p f) (a - b) ∧
    gives (.and t p f) (a &&& b) ∧ gives (.or t p f) (a ||| b) ∧ gives (.xor t p f) (a ^^^ b) ∧
    gives (.shl t p f) (a <<< (b.toNat % 64)) ∧ gives (.shr t p f) (a >>> (b.toNat % 64)) ∧
    gives (.sar t p f) (a.sshiftRight (b.toNat % 64)) ∧ gives (.mul t p f) (a * b) ∧
    gives (.slt t p f) (if a.toInt < b.toInt then 1 else 0) ∧
    gives (.sltu t p f) (if a.toNat < b.toNat then 1 else 0) ∧
    gives (.time t p f) (BitVec.ofNat 64 s.clock.now) ∧
    gives (.ldi t p f) (f.imm.signExtend 64) ∧
    gives (.ldih t p f) (f.imm ++ old.setWidth 32)

/-- R97, R96, R99, R100, R67: loads and stores of the own store. The address is G[GA] + sext(IMM32) aligned down; an access
that does not lie in the store raises PROG_ERR and changes no register and no byte. A load while no transfer writes the
store gives the bytes there; under one transfer that writes its word, the word as before it or as after it. A store to a
line that an MXA still reads is held by the store; a load that meets a store held so waits for it (log 13). Each completes
with its own effect under its clause's conditions on state and operands alone: ld, st, ldw, stw. -/
def Obligations.Own_store_access : Prop :=
  ∀ (t : Fin 12) (p : Fin 41) (f : SFields) (s : State), canIssue s t p = true →
    let at' (n : Nat) : Nat := (getG s t p f.ga.toNat + f.imm.signExtend 64).toNat / n * n
    let key (n : Nat) : Nat := tlaKey t (storeTla p + at' n)
    let value (n : Nat) : Nat := leNat (s.mem.readBytes (key n) n)
    let next := (pcOf s t p + 8) % 2 ^ 64
    let data (n : Nat) : List Byte := leBytes n (getG s t p f.gb.toNat).toNat
    let outside (i : Instr) (n : Nat) : Prop :=
      storeSize p < at' n + n →
        answers i s fun u =>
          sticky u (ptPage t p) (progErrSource p) = true ∧ pcOf u t p = next ∧ u.mem = s.mem ∧
          ∀ j, getG u t p j = getG s t p j
    let loads (i : Instr) (n : Nat) : Prop :=
      (loadHeld s t p (at' n) n = true → heldBack i s t p) ∧
      (loadHeld s t p (at' n) n = false → outside i n ∧
        (at' n + n ≤ storeSize p → storeQuiet s t p →
          answers i s fun u => wroteReg s u t p f.gd.toNat (BitVec.ofNat 64 (value n))))
    let stores (i : Instr) (n : Nat) : Prop :=
      outside i n ∧
      (at' n + n ≤ storeSize p → lineFree s t p (at' n) →
        answers i s fun u => wentTo s (u.setMem s.mem) t p next ∧
          u.mem.readBytes (key n) n = data n ∧ memSameOutside s u (key n) (key n + n)) ∧
      (at' n + n ≤ storeSize p → ¬ lineFree s t p (at' n) →
        answers i s fun u => wentTo s (u.setMcs s.mcs) t p next ∧
          mcOf u t p = { mcOf s t p with heldW := (mcOf s t p).heldW ++ [⟨at' n, data n, true⟩] } ∧
          ∀ t' n', n' < 32 → t' ≠ t.val ∨ n' ≠ p.val → mcOf u t' n' = mcOf s t' n')
    loads (.ld t p f) 8 ∧ loads (.ldw t p f) 4 ∧ stores (.st t p f) 8 ∧ stores (.stw t p f) 4 ∧
    ∀ y, tlaWriters (noteIssue s t p 0x18 0) t (storeTla p + at' 8) 8 = [y] → loadHeld s t p (at' 8) 8 = false →
      at' 8 + 8 ≤ storeSize p →
      answers (.ld t p f) s fun u => ∃ v : Nat,
        (v = value 8 ∨ v = leNat (xferValue s t y.1 y.2.1 (storeTla p + at' 8 - y.2.2) 8)) ∧
        wroteReg (s.setFree (s.free + 1)) u t p f.gd.toNat (BitVec.ofNat 64 v)

/-- R97, R92: branches. BR is always taken, the conditional ones compare G[GA] and G[GB]; the target is PC + 8 ×
sext(IMM32), else the PC moves past the instruction. LOOP decrements GD first and CALL saves PC + 8; JR takes the low three
bits of its target as 0; NOP only goes on. Model choices in it: log 9. Each completes with its own effect under its clause's
conditions on state and operands alone: nop, br, beq, bne, blt, bge, loop, call, jr. -/
def Obligations.Branches : Prop :=
  ∀ (t : Fin 12) (p : Fin 41) (f : SFields) (s : State), canIssue s t p = true →
    let a := getG s t p f.ga.toNat
    let b := getG s t p f.gb.toNat
    let next := (pcOf s t p + 8) % 2 ^ 64
    let target := (BitVec.ofNat 64 (pcOf s t p) + 8 * f.imm.signExtend 64).toNat
    let goes (i : Instr) (pc : Nat) : Prop := answers i s fun u => wentTo s u t p pc
    let writes (i : Instr) (v : Word64) (pc : Nat) : Prop :=
      answers i s fun u => onlyReg s u t p f.gd.toNat ∧
        getG u t p f.gd.toNat = (if f.gd.toNat = 0 then 0 else v) ∧ pcOf u t p = pc
    let d := getG s t p f.gd.toNat - 1
    goes (.nop t p f) next ∧ goes (.br t p f) target ∧
    goes (.beq t p f) (if a = b then target else next) ∧
    goes (.bne t p f) (if a = b then next else target) ∧
    goes (.blt t p f) (if a.toInt < b.toInt then target else next) ∧
    goes (.bge t p f) (if a.toInt < b.toInt then next else target) ∧
    goes (.jr t p f) (a.toNat / 8 * 8) ∧
    writes (.call t p f) (BitVec.ofNat 64 (pcOf s t p + 8)) target ∧
    (f.gd ≠ 0 → writes (.loop t p f) d (if d = 0 then next else target)) ∧
    (f.gd = 0 → goes (.loop t p f) next)

/-- R97, R95, R96, R117, R125, R127, R128, R131: the ways a program ends or stops. END makes a core IDLE, not aborted, where
no piece is to run again, and halts the TCC; TRAP stops a core in TRAPPED and leaves its software cause pending at the TCC,
one for each participant, and in a trap it is a nested one; FENCE goes on once every load, store and transfer is complete
and is held until then; a word that the core does not execute raises PROG_ERR and goes on; a PC outside the store raises
PROG_ERR and ends the program as aborted, or halts the TCC. Each completes with its own effect under its clause's conditions
on state and operands alone: endProgram, trap, fence, illegalInstruction, pcOutOfStore. -/
def Obligations.Program_ends : Prop :=
  ∀ (t : Fin 12) (p : Fin 41) (f : SFields) (s : State),
    let c := coreId t p
    let k := coreOf s c
    let next := (k.pc + 8) % 2 ^ 64
    let code := f.imm.toNat % 2 ^ 16
    let halts (u : State) : Prop :=
      (tccOf u t).halted = true ∧ bitOf (pget u (tccPage t) 0x098) 0 = true ∧ (coreOf u c).run = .idle
    let pending (u : State) : Prop :=
      (∃ n, TrapCause.software p n ∈ (tccOf u t).pend) ∧
      ((∀ n, TrapCause.software p n ∉ (tccOf s t).pend) → TrapCause.software p code ∈ (tccOf u t).pend)
    (canIssue s t p = true →
      (p.val ≠ 40 → (∀ g ∈ s.sched.groups, g.replays = []) → s.chain.peers = [] →
        answers (.endProgram t p f) s fun u => u.mem = s.mem ∧ u.tccs = s.tccs ∧
        coreOf u c = { k with pc := next, run := .idle, aborted := false, opcode := 0, opmod := 0 }) ∧
      (p.val = 40 → answers (.endProgram t p f) s fun u => u.mem = s.mem ∧ halts u ∧ pcOf u t p = next) ∧
      (p.val ≠ 40 → answers (.trap t p f) s fun u => u.mem = s.mem ∧ pending u ∧
        coreOf u c = { k with pc := next, run := .trapped, opcode := 0, opmod := 0 }) ∧
      (p.val = 40 → (tccOf s t).inTrap = false → answers (.trap t p f) s fun u => u.mem = s.mem ∧ pending u ∧
        pcOf u t p = next) ∧
      (p.val = 40 → (tccOf s t).inTrap = true → answers (.trap t p f) s fun u => u.mem = s.mem ∧ halts u ∧
        (tccOf u t).nested = true ∧ sticky u (tccPage t) 3 = true) ∧
      (settled s t p = true → answers (.fence t p f) s fun u => wentTo s u t p next) ∧
      ∀ w : BitVec 64, decodeCoreWord t p w = none → answers (.illegalInstruction t p w) s fun u =>
        sticky u (ptPage t p) (progErrSource p) = true ∧ pcOf u t p = next ∧ u.mem = s.mem ∧
        ∀ j, getG u t p j = getG s t p j) ∧
    (canGo (.fence t p f) s t p → settled s t p = false → heldBack (.fence t p f) s t p) ∧
    (k.run = .running → storeSize p ≤ k.pc →
      (p.val ≠ 40 → answers (.pcOutOfStore t p) s fun u =>
        sticky u (ptPage t p) (progErrSource p) = true ∧ (coreOf u c).run = .idle ∧ (coreOf u c).aborted = true ∧
        (p.val < 32 → (mcOf u t p).waiting = none ∧ (mcOf u t p).ring = [] ∧ (mcOf u t p).descs = [])) ∧
      (p.val = 40 → (tccOf s t).halted = false → answers (.pcOutOfStore t p) s fun u =>
        sticky u (ptPage t p) (progErrSource p) = true ∧ halts u))

/-- R98, R94, R125, R314: block transfers. XFER with fewer than four outstanding adds a transfer with its ranges aligned
down to 128 bytes, its direction, whether the remote side is tile-local, and the flag of its FS; with four outstanding it is
held, and the instructions behind it; a local range outside the store is illegal. A transfer completes and leaves the list,
and one with a flag sets it, only as the oldest and after every store of the core; one that writes a line that an MXA still
reads, or that Quench holds, waits. The copy of a line to or from the TCC's store and to a shared buffer. Model choices in
it: log 13, 88. Each completes with its own effect under its clause's conditions on state and operands alone: xfer,
xferComplete. -/
def Obligations.Transfers : Prop :=
  ∀ (t : Fin 12) (p : Fin 41) (f : SFields) (s : State),
    let c := coreId t p
    let k := coreOf s c
    let down (i : Nat) : Nat := (getG s t p i).toNat / 128 * 128
    (canIssue s t p = true → k.xfers.length < 4 →
      (down f.gd.toNat + down f.gb.toNat ≤ storeSize p → answers (.xfer t p f) s fun u =>
        u.mem = s.mem ∧ u.sync = s.sync ∧ (∀ c', c' ≠ c → coreOf u c' = coreOf s c') ∧ (∀ j, getG u t p j = getG s t p j) ∧
        coreOf u c = { k with opcode := 0, opmod := 0, pc := (k.pc + 8) % 2 ^ 64
                              xfers := k.xfers ++ [⟨f.flags.getLsbD 0, f.flags.getLsbD 2, down f.ga.toNat, down f.gd.toNat,
                                down f.gb.toNat, if f.flags.getLsbD 1 then some (f.imm.toNat % 256) else none, false⟩] }) ∧
      (storeSize p < down f.gd.toNat + down f.gb.toNat → answers (.xfer t p f) s fun u =>
        sticky u (ptPage t p) (progErrSource p) = true ∧ pcOf u t p = (k.pc + 8) % 2 ^ 64 ∧ u.mem = s.mem)) ∧
    (canGo (.xfer t p f) s t p → 4 ≤ k.xfers.length → heldBack (.xfer t p f) s t p) ∧
    ∀ (i : Fin 4) (x : Xfer), k.xfers[i.val]? = some x →
      let done := Instr.xferComplete t p i
      let behind := x.flag.isSome = true ∧ (i.val ≠ 0 ∨ storeHeld s t p = true)
      let own := tlaKey t (storeTla p + x.loc)
      let line := i.val = 0 ∧ x.landed = false ∧ x.flag = none ∧ x.len = 128 ∧ x.remote % 128 = 0 ∧ x.loc % 128 = 0 ∧
        pathsGood s ∧ firstRun (partReq s t p).tag ∧ s.quench.holding = false ∧ tileUp s t = true
      let tcc := x.tla = true ∧ tlaStore x.remote = some 40 ∧ x.remote + 128 ≤ 0x5880000
      (behind ∨ xferStuck s t p x = true → idles done s) ∧
      (¬ behind → xferStuck s t p x = false → answers done s fun u =>
        (coreOf u c).xfers.length + 1 = k.xfers.length ∧ (i.val = 0 → (coreOf u c).xfers = k.xfers.drop 1) ∧
        ∀ n, x.flag = some n → flagVal u false t n = true) ∧
      (line → tcc → x.toRemote = true → answers done s fun u =>
        u.mem.readBytes (tlaKey t x.remote) 128 = s.mem.readBytes own 128 ∧
        memSameOutside s u (tlaKey t x.remote) (tlaKey t x.remote + 128)) ∧
      (line → tcc → x.toRemote = false → 32 ≤ p.val → x.loc + 128 ≤ storeSize p → answers done s fun u =>
        u.mem.readBytes own 128 = s.mem.readBytes (tlaKey t x.remote) 128 ∧ memSameOutside s u own (own + 128)) ∧
      ∀ a o, line → x.tla = false → x.toRemote = true → daKind x.remote = .shared a o → baseUp s a = true →
        s.store.held = [] → answers done s fun u =>
          u.mem.readBytes x.remote 128 = s.mem.readBytes own 128 ∧ memSameOutside s u x.remote (x.remote + 128)

/-- R94, R120, R125, R132, R133, R121, R122: flags. FSET and FCLR are held until every load, store and transfer is complete,
then write one flag and grant every wait for its new value; FWAIT waits, granted at once where the flag holds the value, and
goes on once it is granted; FTST reads; the four registers write a flag while their page takes writes. A module flag above
63 is illegal. Arriving at a barrier and waiting for it. An arrival of a member counts for the current generation, or is
held where the member has arrived in it; BARW returns the status of a generation that has ended meanwhile, else waits for
the current one, or for the next where the arrival is held; a participant outside the mask raises PROG_ERR, and its BARW
returns 2; BAR does both halves. Each completes with its own effect under its clause's conditions on state and operands
alone: fset, fclr, fwait, fwaitRelease, ftst, bara, barw, bar, tfSet, tfClr, mfSet, mfClr. -/
def Obligations.Flags_and_barrier_instructions : Prop :=
  (
    ∀ (t : Fin 12) (p : Fin 41) (f : SFields) (s : State),
      let c := coreId t p
      let k := coreOf s c
      let md := f.flags.getLsbD 0
      let n := f.imm.toNat % 256
      let next := (k.pc + 8) % 2 ^ 64
      let legal := md = true → n < 64
      let puts (w u : State) (md : Bool) (n : Nat) (v : Bool) : Prop :=
        flagVal u md t n = v ∧ (∀ md' n', n' < 256 → (md' ≠ md ∨ n' ≠ n) → flagVal u md' t n' = flagVal w md' t n') ∧
        ∀ x ∈ w.sync.waiters, x.awaits md t n v = true →
          ∃ y ∈ u.sync.waiters, y.core = x.core ∧ y.num = x.num ∧ y.ready = some 0
      let sets (i : Instr) (v : Bool) : Prop :=
        (canIssue s t p = true → settled s t p = true →
          (legal → answers i s fun u => wentTo s (u.setSync s.sync) t p next ∧ puts s u md n v) ∧
          (¬ legal → answers i s fun u => wasIllegal s u t p)) ∧
        (canGo i s t p → settled s t p = false → heldBack i s t p)
      sets (.fset t p f) true ∧ sets (.fclr t p f) false ∧
      (canIssue s t p = true →
        (legal → answers (.ftst t p f) s fun u => wroteReg s u t p f.gd.toNat (if flagVal s md t n then 1 else 0)) ∧
        (legal → answers (.fwait t p f) s fun u =>
          coreOf u c = { k with run := .waiting, wait := some (.flag md n (f.flags.getLsbD 1)), opcode := 0x32, opmod := 0 } ∧
          waiterOf u c = some ⟨c, md, false, n, f.flags.getLsbD 1,
            if flagVal s md t n = f.flags.getLsbD 1 then some 0 else none, false⟩) ∧
        (¬ legal → (answers (.ftst t p f) s fun u => wasIllegal s u t p) ∧
          answers (.fwait t p f) s fun u => wasIllegal s u t p)) ∧
      (∀ md n v x, k.run = .waiting → k.wait = some (.flag md n v) → waiterOf s c = some x →
        (x.ready ≠ none → answers (.fwaitRelease t p) s fun u =>
          coreOf u c = { k with run := .running, wait := none, pc := next, opcode := 0, opmod := 0 } ∧ waiterOf u c = none) ∧
        (x.ready = none → idles (.fwaitRelease t p) s)) ∧
      (∀ n : BitVec 8,
        writesReg (.tfSet t n) s (tilePage t 0) (fun w u => u = w.setSync u.sync ∧ puts w u false n.toNat true) ∧
        writesReg (.tfClr t n) s (tilePage t 0) (fun w u => u = w.setSync u.sync ∧ puts w u false n.toNat false)) ∧
      ∀ n : BitVec 6,
        writesReg (.mfSet n) s (basePage 0 0) (fun w u => u = w.setSync u.sync ∧ puts w u true n.toNat true) ∧
        writesReg (.mfClr n) s (basePage 0 0) (fun w u => u = w.setSync u.sync ∧ puts w u true n.toNat false)) ∧
  (
    ∀ (t : Fin 12) (p : Fin 41) (f : SFields) (s : State),
      let c := coreId t p
      let k := coreOf s c
      let md := f.flags.getLsbD 0
      let g := f.imm.toNat % 16
      let b := barOf s md t g
      let next := (k.pc + 8) % 2 ^ 64
      let arrived (b : BarGroup) (m : Nat) : BarGroup :=
        if bitOf b.arrived m then { b with owed := kerase b.owed m, held := setBitN b.held m true }
        else { b with owed := kerase b.owed m, arrived := setBitN b.arrived m true }
      let waits (u : State) (op : Nat) (later : Bool) : Prop :=
        coreOf u c = { k with run := .waiting, wait := some (.barrier md g f.gd.toNat), opcode := op, opmod := 0 } ∧
        waiterOf u c = some ⟨c, md, true, g, later, none, false⟩
      let releases (i : Instr) (P : State → Prop) : Prop :=
        (canIssue s t p = true → settled s t p = true → answers i s P) ∧
        (canGo i s t p → settled s t p = false → heldBack i s t p)
      (∀ m, barTarget s t p f = some (g, some m) →
        (releases (.bara t p f) fun u => wentTo s (u.setSync s.sync) t p next ∧ barOf u md t g = arrived b m) ∧
        (releases (.bar t p f) fun u => waits u 0x36 (bitOf (arrived b m).held m) ∧ barOf u md t g = arrived b m) ∧
        (canIssue s t p = true →
          (∀ st, kfind b.owed m = some st → answers (.barw t p f) s fun u =>
            wroteReg s (u.setSync s.sync) t p f.gd.toNat (BitVec.ofNat 64 st) ∧
            barOf u md t g = { b with owed := kerase b.owed m }) ∧
          (kfind b.owed m = none → answers (.barw t p f) s fun u => waits u 0x35 (bitOf b.held m) ∧ barOf u md t g = b))) ∧
      (barTarget s t p f = some (g, none) →
        (releases (.bara t p f) fun u => wasIllegal s u t p) ∧ (releases (.bar t p f) fun u => wasIllegal s u t p) ∧
        (canIssue s t p = true → answers (.barw t p f) s fun u =>
          sticky u (ptPage t p) (progErrSource p) = true ∧ u.sync = s.sync ∧ pcOf u t p = next ∧
          getG u t p f.gd.toNat = if f.gd.toNat = 0 then 0 else 2)) ∧
      (barTarget s t p f = none →
        (releases (.bara t p f) fun u => wasIllegal s u t p) ∧ (releases (.bar t p f) fun u => wasIllegal s u t p) ∧
        (canIssue s t p = true → answers (.barw t p f) s fun u => wasIllegal s u t p)))

/-- R121, R123, R124, R132, R133: how a barrier generation ends, and its mask. When every member has arrived the generation
count advances, held arrivals of members count for the next one, a held mask and a held configuration of the chain barrier
apply (R365), and every member that waits for it runs on; an abort does the same; a mask written while arrivals are counted
is held. Each completes with its own effect under its clause's conditions on state and operands alone: barrierComplete,
tbMembersWrite, mbMembersWrite, tbAbort, mbAbort. -/
def Obligations.Barrier_generations : Prop :=
  ∀ (md : Bool) (t : Fin 12) (g : Fin 16) (s : State), (md = true → g.val < 8 ∧ boundTo s g = none) →
    let ended (w u : State) : Prop :=
      let b := barOf w md t g
      let members := b.pend.getD b.members
      (let b' := barOf u md t g
       b'.gen = (b.gen + 1) % 2 ^ 16 ∧ b'.members = members ∧ b'.arrived = b.held &&& members ∧ b'.held = 0 ∧
       b'.pend = none) ∧
      u.mem = w.mem ∧
      (∀ v, md = true → 4 ≤ g.val → (cbOf w (g.val - 4)).pend = some v →
        pget u (basePage 0 0) (0x460 + 4 * (g.val - 4)) = v % 2 ^ 32 ∧ (cbOf u (g.val - 4)).pend = none) ∧
      (md = false ∨ g.val < 4 ∨ (cbOf w (g.val - 4)).pend = none → u.regs = w.regs) ∧
      ∀ x ∈ w.sync.waiters, x.waitsFor md t g false = true → x.saved = false → (coreOf w x.core).run = .waiting →
        (∃ w' , (coreOf w x.core).wait = some w') → (coreOf u x.core).run = .running
    (allArrived (barOf s md t g) = true → answers (.barrierComplete md t g) s fun u => ended s u) ∧
    (allArrived (barOf s md t g) = false → idles (.barrierComplete md t g) s) ∧
    (md = false → writesReg (.tbAbort t g) s (tilePage t 0) fun w u => ended w u) ∧
    (∀ h : g.val < 8, md = true → boundTo (wakeFor s 1) g = none →
      writesReg (.mbAbort ⟨g.val, h⟩) s (basePage 0 0) fun w u => ended w u) ∧
    (∀ (high : Bool) (v : BitVec 32), md = false →
      writesReg (.tbMembersWrite t g high v) s (tilePage t 0) fun w u =>
        let b := barOf w false t g
        let old := b.pend.getD b.members
        let new := if high then old % 2 ^ 32 + v.toNat % 2 ^ 9 * 2 ^ 32 else old / 2 ^ 32 * 2 ^ 32 + v.toNat
        u = w.setSync u.sync ∧
        barOf u false t g = if b.arrived = 0 then { b with members := new } else { b with pend := some new }) ∧
    ∀ (h : g.val < 8) (v : BitVec 12), md = true →
      writesReg (.mbMembersWrite ⟨g.val, h⟩ v) s (basePage 0 0) fun w u =>
        let b := barOf w true 0 g
        u = w.setSync u.sync ∧
        barOf u true 0 g = if b.arrived = 0 then { b with members := v.toNat } else { b with pend := some v.toNat }

/-- R58, R64, R65, R67, R94, R101, R102: MXA. With no earlier MXA in the array or waiting, and no transfer that writes the
store, a legal MXA takes its operands as they stand in the store and enters the array; one from an empty ring waits; a
waiting one starts with the head tile, which must have the size of its format, else PROG_ERR is set and the tile is
released, and none starts in a half that is not AWAKE; an illegal one raises PROG_ERR and goes on. While an earlier one is
there, an MXA is held, with the instructions behind it. Model choices in it: log 13. Each completes with its own effect
under its clause's conditions on state and operands alone: mxa, mxaStart. -/
def Obligations.Matrix_issue : Prop :=
  ∀ (t : Fin 12) (n : Fin 32) (f : MxaFields) (s : State),
    let c := coreId t n
    let k := coreOf s c
    let m := mcOf s t n
    let w := f.wfmt.toNat
    let a := f.afmt.toNat
    let aa := opAddr s t n f.areg.toNat f.aaddr.toNat
    let wa := opAddr s t n f.wreg.toNat f.waddr.toNat
    let al := actBytes a (mxaK w f.sparse)
    let wl := (tileShape w f.sparse).total
    let legal := (fmtGroup w).isSome = true ∧ fmtGroup w = fmtGroup a ∧ mxaFeatures s t n f = true ∧
      aa + al ≤ storeSize n ∧ (f.ring = false → wa + wl ≤ storeSize n) ∧ (f.ring = true → ringBytes s t n ≠ 0)
    let op (wgt : List Byte) : MxaOp :=
      ⟨f.bank, f.opening, w, a, f.sparse, f.ring, f.hold, false, false, aa, wa,
        s.mem.readBytes (tlaKey t (storeTla n + aa)) al, wgt, k.tag⟩
    let goes (u : State) : Prop :=
      u.mem = s.mem ∧ coreOf u c = { k with opcode := 0, opmod := 0, pc := (k.pc + 8) % 2 ^ 64 }
    let busy := m.cur.isSome = true ∨ m.waiting.isSome = true
    (busy → canGo (.mxa t n f) s t n → heldBack (.mxa t n f) s t n) ∧
    (¬ busy → canIssue s t n = true → storeQuiet s t n →
      (legal → f.ring = false → answers (.mxa t n f) s fun u =>
        goes u ∧ mcOf u t n = { m with cur := some (op (s.mem.readBytes (tlaKey t (storeTla n + wa)) wl)) }) ∧
      (legal → f.ring = true → m.ring = [] → answers (.mxa t n f) s fun u =>
        goes u ∧ mcOf u t n = { m with waiting := some (op []) }) ∧
      (¬ legal → answers (.mxa t n f) s fun u =>
        sticky u (mcPage t n) 3 = true ∧ u.mem = s.mem ∧ pcOf u t n = (k.pc + 8) % 2 ^ 64 ∧
        (mcOf u t n).bankA = m.bankA ∧ (mcOf u t n).bankB = m.bankB)) ∧
    ∀ o h rest, m.waiting = some o → m.ring = h :: rest →
      (ptAwake s t n = false → idles (.mxaStart t n) s) ∧
      (ptAwake s t n = true → h.units * 128 = (tileShape o.wfmt o.sparse).total → answers (.mxaStart t n) s fun u =>
        u = s.setMcs u.mcs ∧
        mcOf u t n = { m with cur := some { o with wgt := h.data, poisoned := h.poisoned }, waiting := none }) ∧
      (ptAwake s t n = true → h.units * 128 ≠ (tileShape o.wfmt o.sparse).total → answers (.mxaStart t n) s fun u =>
        sticky u (mcPage t n) 3 = true ∧
        mcOf u t n = { m with cur := some { o with illegal := true }, waiting := none, ring := rest })

/-- R66, R67, R68 to R70, R103: the end of an MXA and the readout. An MXA that ends puts its sums into its bank and leaves
the other bank, and one that read the ring without HOLD releases the head tile; an illegal one changes no bank; a write that
the store held for it lands. An MXR writes the converted bank to the store and empties it unless it keeps it; a poisoned
bank raises its source, and an emptied one stays poisoned; an MXR of the bank of an unfinished MXA waits for it. Each
completes with its own effect under its clause's conditions on state and operands alone: mxaEnd, mxr. -/
def Obligations.Matrix_results : Prop :=
  ∀ (t : Fin 12) (n : Fin 32) (f : MxrFields) (s : State),
    let m := mcOf s t n
    (∀ up, ptAwake s t n = false → idles (.mxaEnd t n up) s) ∧
    (∀ o, ptAwake s t n = true → m.cur = some o → m.mxrs = [] → (o.ring = true → o.hold = false) →
      let lands (u : State) : Prop := (m.heldW = [] → u.mem = s.mem) ∧
        ∀ w, m.heldW = [w] → u.mem = s.mem.writeBytes (tlaKey t (storeTla n + w.off)) w.data
      (o.illegal = false → answers (.mxaEnd t n none) s fun u =>
        lands u ∧ mcOf u t n = { (m.setBank o.bank (bankAfter (m.bankOf o.bank) o)) with
          cur := none, ring := (if o.ring then m.ring.drop 1 else m.ring), heldW := [] }) ∧
      (o.illegal = true → answers (.mxaEnd t n none) s fun u =>
        lands u ∧ mcOf u t n = { m with cur := none, heldW := [] })) ∧
    (∀ up, m.cur = none → idles (.mxaEnd t n up) s) ∧
    (canIssue s t n = true →
      let oa := opAddr s t n f.oreg.toNat f.oaddr.toNat
      let next := (pcOf s t n + 8) % 2 ^ 64
      (m.cur = none → m.waiting = none → m.mxrs = [] →
        let b := m.bankOf f.bank
        let out := mxrOut b (mxrCode b f.ofmt.toNat)
        let key := tlaKey t (storeTla n + oa)
        (oa + mxrBytes (mxrCode b f.ofmt.toNat) ≤ storeSize n → answers (.mxr t n f) s fun u =>
          u.mem.readBytes key out.length = out ∧ memSameOutside s u key (key + out.length) ∧
          mcOf u t n = (if f.keep then m else m.setBank f.bank { Bank.empty with poison := b.poison }) ∧
          (b.poison = true → sticky u (mcPage t n) 4 = true) ∧ pcOf u t n = next) ∧
        (storeSize n < oa + mxrBytes (mxrCode b f.ofmt.toNat) → answers (.mxr t n f) s fun u =>
          sticky u (mcPage t n) 3 = true ∧ u.mem = s.mem ∧ mcOf u t n = m ∧ pcOf u t n = next)) ∧
      ∀ o, m.cur = some o → o.bank = f.bank → m.mxrs = [] → oa + 16384 ≤ storeSize n →
        answers (.mxr t n f) s fun u => u.mem = s.mem ∧ pcOf u t n = next ∧
          ∃ r : MxrOp, r.bank = f.bank ∧ r.keep = f.keep ∧ r.oaddr = oa ∧ mcOf u t n = { m with mxrs := [r] })

/-- R65, R86, R94, R104, R105, R117: the weight ring. WSTRM queues a descriptor of COUNT + 1 tiles while fewer than eight
wait, and is held else; a tile enters the ring while the ring has room for it; WFLUSH discards tiles and descriptors, and is
held while an MXA reads the ring; the ring's base and size are taken only while the ring is empty and idle, else PROG_ERR is
set. Model choices in it: log 122. Each completes with its own effect under its clause's conditions on state and operands
alone: wstrm, ringTileEligible, wflush, mcWringWrite. -/
def Obligations.Weight_ring : Prop :=
  ∀ (t : Fin 12) (n : Fin 32) (f : WstrmFields) (s : State),
    let k := coreOf s (coreId t n)
    let m := mcOf s t n
    let first := (getG s t n f.sreg.toNat).toNat / 128 + f.soff.toNat
    let fits := f.tsize.toNat ≠ 0 ∧ first + (f.count.toNat + 1) * f.tsize.toNat ≤ sliceBytes / 128
    let reads := ∃ o, m.cur = some o ∧ o.ring = true ∧ o.illegal = false
    (8 ≤ m.descs.length → canGo (.wstrm t n f) s t n → heldBack (.wstrm t n f) s t n) ∧
    (canIssue s t n = true → m.descs.length < 8 →
      (fits → answers (.wstrm t n f) s fun u =>
        u.mem = s.mem ∧ pcOf u t n = (k.pc + 8) % 2 ^ 64 ∧
        mcOf u t n = { m with descs := m.descs ++ [⟨first, f.tsize.toNat, f.count.toNat + 1, 0, k.tag⟩] }) ∧
      (¬ fits → answers (.wstrm t n f) s fun u => sticky u (mcPage t n) 3 = true ∧ mcOf u t n = m)) ∧
    (∀ d rest, m.descs = d :: rest →
      let used := (m.ring.map RingTile.units).foldl (· + ·) 0
      (used + d.tsize ≤ ringBytes s t n / 128 → s.quench.holding = false → answers (.ringTileEligible t n) s fun u =>
        ∃ x : RingTile, x.units = d.tsize ∧ x.uses = 0 ∧ mcOf u t n = { m with
          ring := m.ring ++ [x]
          descs := if d.served + 1 = d.count then rest else { d with served := d.served + 1 } :: rest }) ∧
      (ringBytes s t n / 128 < used + d.tsize → idles (.ringTileEligible t n) s)) ∧
    (reads → canGo (.wflush t n) s t n → heldBack (.wflush t n) s t n) ∧
    (canIssue s t n = true → ¬ reads → answers (.wflush t n) s fun u =>
      mcOf u t n = { m with ring := [], descs := [] } ∧ u.mem = s.mem) ∧
    ∀ (size : Bool) (v : BitVec 32),
      let w := reach s (mcPage t n)
      let mw := mcOf w t n
      let base := pget w (mcPage t n) 0x08C
      let idle := mw.ring = [] ∧ mw.waiting = none ∧ ¬ ∃ o, mw.cur = some o ∧ o.ring = true ∧ o.illegal = false
      served w (mcPage t n) = true →
        (idle → answers (.mcWringWrite t n size v) s fun u =>
          (size = false → pget u (mcPage t n) 0x08C = fld v.toNat 20 7 * 128) ∧
          (size = true → pget u (mcPage t n) 0x08C = base ∧ pget u (mcPage t n) 0x090 =
            if fld v.toNat 20 7 = 0 then 0 else min (clampN 0x14000 0x100000 (fld v.toNat 20 7 * 128)) (0x200000 - base)) ∧
          u.mem = w.mem ∧ u.mcs = w.mcs) ∧
        (¬ idle → answers (.mcWringWrite t n size v) s fun u =>
          sticky u (mcPage t n) 3 = true ∧ u.mem = w.mem ∧ u.mcs = w.mcs ∧ pget u (mcPage t n) 0x08C = base ∧
          pget u (mcPage t n) 0x090 = pget w (mcPage t n) 0x090)

/-- R46, R107, R108, R111, R47, R111 to R113: the instructions that compute lane by lane, with MOD 0. Lane i of YD takes the
operation on lanes i of YA, YB and YC; VSEL tests YC for all-zero bits, VMAX and VMIN take YA's value where both rank equal.
Any other MOD is illegal. The instructions that compute across lanes or from scalars. VCMP takes MOD 0 to 3; VROPE MOD 0 and
1; pairs must be even; VROPE, VSORT and VTKM need their bit of BLK_CAP. The order of candidates is total: a sort of them
does not depend on the order that they come in. Model choices in it: log 7, 8, 16. Each completes with its own effect under
its clause's conditions on state and operands alone: vadd, vsub, vmul, vfma, vmax, vmin, vbc, vabs, vneg, vexp2, vrcp, vrsq,
vsel, vcmp, viadd, viota, vf2i, vi2f, vrsum, vrmax, vperm, vrope, vsort, vtkm. -/
def Obligations.Lane_operations : Prop :=
  (
    ∀ (t : Fin 12) (v : Fin 8) (f : VFields) (s : State), canIssue s t (32 + v.val) = true →
      let p := 32 + v.val
      let lane (r : BitVec 5) (i : Nat) : Word32 := (getY s t p r.toNat).getD i 0
      let gives (i : Instr) (g : Word32 → Word32 → Word32 → Word32) : Prop :=
        (f.md = 0 → answers i s fun u => wroteVecs s u t p [f.yd.toNat] ∧
          getY u t p f.yd.toNat = (List.range 64).map fun i => g (lane f.ya i) (lane f.yb i) (lane f.yc i)) ∧
        (f.md ≠ 0 → answers i s fun u => wasIllegal s u t p)
      gives (.vadd t v f) (fun a b _ => f32Add a b) ∧ gives (.vsub t v f) (fun a b _ => f32Sub a b) ∧
      gives (.vmul t v f) (fun a b _ => f32Mul a b) ∧ gives (.vfma t v f) (fun a b c => f32Fma a b c) ∧
      gives (.vmax t v f) (fun a b _ => selected (if f32Rank a < f32Rank b then b else a)) ∧
      gives (.vmin t v f) (fun a b _ => selected (if f32Rank b < f32Rank a then b else a)) ∧
      gives (.vabs t v f) (fun a _ _ => a &&& 0x7FFFFFFF) ∧
      gives (.vneg t v f) (fun a _ _ => a ^^^ 0x80000000) ∧
      gives (.vexp2 t v f) (fun a _ _ => f32Exp2 a) ∧ gives (.vrcp t v f) (fun a _ _ => f32Rcp a) ∧
      gives (.vrsq t v f) (fun a _ _ => f32Rsqrt a) ∧
      gives (.vsel t v f) (fun a b c => if c = 0 then b else a) ∧
      gives (.viadd t v f) (fun a b _ => a + b) ∧
      gives (.vf2i t v f) (fun a _ _ => BitVec.ofInt 32 (f32ToInt 32 a)) ∧
      gives (.vi2f t v f) (fun a _ _ => intToF32 a.toInt)) ∧
  (
    ∀ (t : Fin 12) (v : Fin 8) (f : VFields) (s : State), canIssue s t (32 + v.val) = true →
      let p := 32 + v.val
      let y (r : BitVec 5) : List Word32 := getY s t p r.toNat
      let at' (r : BitVec 5) (i : Nat) : Word32 := (y r).getD i 0
      let g := getG s t p f.ga.toNat
      let d := f.yd.toNat
      let gives (i : Instr) (ok : Prop) (l : List Word32) : Prop :=
        (ok → answers i s fun u => wroteVecs s u t p [d] ∧ getY u t p d = l) ∧
        (¬ ok → answers i s fun u => wasIllegal s u t p)
      let even (r : BitVec 5) : Prop := r.toNat % 2 = 0
      let cap (i : Nat) : Prop := blkCap s (ptPage t p) i = true
      let pairs (u : State) (l : List (Word32 × Nat)) : Prop :=
        getY u t p d = l.map Prod.fst ∧ getY u t p (d + 1) = l.map fun x => BitVec.ofNat 32 x.2
      gives (.vbc t v f) (f.md = 0) (List.replicate 64 (g.setWidth 32)) ∧
      gives (.viota t v f) (f.md = 0) ((List.range 64).map fun i => g.setWidth 32 + BitVec.ofNat 32 i) ∧
      gives (.vcmp t v f) (f.md.toNat ≤ 3) ((List.range 64).map fun i =>
        if vcmpHolds f.md.toNat (at' f.ya i) (at' f.yb i) then 0xFFFFFFFF else 0) ∧
      gives (.vrsum t v f) (f.md = 0) (List.replicate 64 (treeSum f32Add 6 (y f.ya))) ∧
      gives (.vrmax t v f) (f.md = 0) (List.replicate 64 (selected (firstRanked (y f.ya)))) ∧
      gives (.vperm t v f) (f.md = 0) ((List.range 64).map fun i => at' f.ya ((at' f.yb i).toNat % 64)) ∧
      (f.md = 0 → cap 0 → answers (.vrope t v f) s fun u => wroteVecs s u t p [d] ∧
        getY u t p d = (List.range 64).map fun i =>
          let j := i / 2 * 2
          let r := ropePair (at' f.ya j) (at' f.ya (j + 1)) (at' f.yb j) (at' f.yc j)
          if i % 2 = 0 then r.1 else r.2) ∧
      (f.md = 1 → cap 0 → even f.ya → even f.yd → answers (.vrope t v f) s fun u => wroteVecs s u t p [d, d + 1] ∧
        let r (i : Nat) := ropePair (at' f.ya i) ((getY s t p (f.ya.toNat + 1)).getD i 0) (at' f.yb i) (at' f.yc i)
        getY u t p d = ((List.range 64).map fun i => (r i).1) ∧ getY u t p (d + 1) = (List.range 64).map fun i => (r i).2) ∧
      (2 ≤ f.md.toNat ∨ ¬ cap 0 ∨ (f.md = 1 ∧ (¬ even f.ya ∨ ¬ even f.yd)) →
        answers (.vrope t v f) s fun u => wasIllegal s u t p) ∧
      (f.md = 0 → cap 1 → even f.ya → even f.yd → answers (.vsort t v f) s fun u =>
        wroteVecs s u t p [d, d + 1] ∧ pairs u (candSort (pairCands s t p f.ya.toNat))) ∧
      (f.md = 0 → cap 1 → even f.ya → even f.yb → even f.yd → answers (.vtkm t v f) s fun u =>
        wroteVecs s u t p [d, d + 1] ∧
        pairs u ((candSort (pairCands s t p f.ya.toNat ++ pairCands s t p f.yb.toNat)).take 64)) ∧
      (f.md ≠ 0 ∨ ¬ cap 1 ∨ ¬ even f.ya ∨ ¬ even f.yd →
        (answers (.vsort t v f) s fun u => wasIllegal s u t p) ∧ answers (.vtkm t v f) s fun u => wasIllegal s u t p) ∧
      (¬ even f.yb → answers (.vtkm t v f) s fun u => wasIllegal s u t p)) ∧
  ∀ l l' : List (Word32 × Nat), l.Perm l' → candSort l = candSort l'

/-- R109, R110, R96: vector loads and stores of the own store, loads while no transfer writes it. A contiguous access takes
64 packed elements, a strided one element i at a + i × G[GB] modulo 2^64; VMXQ stores 64 quantised elements at its address
and two scale bytes at G[GB]; an access that is not allowed is illegal and stores nothing. Each completes with its own
effect under its clause's conditions on state and operands alone: vld, vst, vmxq. -/
def Obligations.Vector_memory : Prop :=
  ∀ (t : Fin 12) (v : Fin 8) (f : VFields) (s : State), canIssue s t (32 + v.val) = true →
    let p := 32 + v.val
    let c := f.md.toNat
    let w := fmtWidth c
    let a := (getG s t p f.ga.toNat + f.imm.signExtend 64).toNat
    let gb := (getG s t p f.gb.toNat).toNat
    let key := tlaKey t (storeTla p + a)
    let sk := tlaKey t (storeTla p + gb)
    let bits := leNat (s.mem.readBytes key (8 * w))
    let scale (i : Nat) : Nat := if fmtMx c then (s.mem.readByte (sk + i / 32)).toNat else 127
    let y := getY s t p f.ya.toNat
    let bad := c = 15 ∨
      (fmtMx c = true ∧ (blkCap s (ptPage t p) 2 = false ∨ storeSize p < a + 8 * w ∨ storeSize p < gb + 2)) ∨
      (fmtMx c = false ∧ gb = 0 ∧ storeSize p < a + 8 * w) ∨
      (fmtMx c = false ∧ gb ≠ 0 ∧ (w = 4 ∨ ∃ i < 64, storeSize p < (a + i * gb) % 2 ^ 64 + w / 8))
    (storeQuiet s t p →
      ((fmtMx c = true ∧ blkCap s (ptPage t p) 2 = true ∧ a + 8 * w ≤ storeSize p ∧ gb + 2 ≤ storeSize p) ∨
        (fmtMx c = false ∧ c ≠ 15 ∧ gb = 0 ∧ a + 8 * w ≤ storeSize p)) →
      answers (.vld t v f) s fun u => wroteVecs s u t p [f.yd.toNat] ∧
        getY u t p f.yd.toNat = (List.range 64).map fun i => elemToF32 c (bits / 2 ^ (w * i) % 2 ^ w) (scale i)) ∧
    (fmtMx c = false → c ≠ 15 → gb = 0 → a + 8 * w ≤ storeSize p → answers (.vst t v f) s fun u =>
      wroteVecs s (u.setMem s.mem) t p [] ∧
      u.mem.readBytes key (8 * w) = leBytes (8 * w) (packElems w (y.map (f32ToOut c))) ∧
      memSameOutside s u key (key + 8 * w)) ∧
    (fmtMx c = false → c ≠ 15 → gb ≠ 0 → w ≠ 4 → (∀ i < 64, (a + i * gb) % 2 ^ 64 + w / 8 ≤ storeSize p) →
      let ek (i : Nat) : Nat := tlaKey t (storeTla p + (a + i * gb) % 2 ^ 64)
      (storeQuiet s t p → answers (.vld t v f) s fun u => wroteVecs s u t p [f.yd.toNat] ∧
        getY u t p f.yd.toNat = (List.range 64).map fun i => elemToF32 c (leNat (s.mem.readBytes (ek i) (w / 8))) 127) ∧
      answers (.vst t v f) s fun u => wroteVecs s (u.setMem s.mem) t p [] ∧
        (∀ i < 64, (∀ j < 64, i < j → ek j + w / 8 ≤ ek i ∨ ek i + w / 8 ≤ ek j) →
          u.mem.readBytes (ek i) (w / 8) = leBytes (w / 8) ((y.map (f32ToOut c)).getD i 0)) ∧
        ∀ b, (∀ i < 64, b < ek i ∨ ek i + w / 8 ≤ b) → u.mem.readByte b = s.mem.readByte b) ∧
    (bad → answers (.vld t v f) s fun u => wasIllegal s u t p) ∧
    (fmtMx c = true ∨ bad → answers (.vst t v f) s fun u => wasIllegal s u t p) ∧
    (fmtMx c = true → blkCap s (ptPage t p) 2 = true → a + 8 * w ≤ storeSize p → gb + 2 ≤ storeSize p →
      (gb + 2 ≤ a ∨ a + 8 * w ≤ gb) → answers (.vmxq t v f) s fun u =>
        let q0 := mxQuantise c (y.take 32)
        let q1 := mxQuantise c (y.drop 32)
        wroteVecs s (u.setMem s.mem) t p [] ∧
        u.mem.readBytes key (8 * w) = leBytes (8 * w) (packElems w (q0.2 ++ q1.2)) ∧
        u.mem.readBytes sk 2 = [BitVec.ofNat 8 q0.1, BitVec.ofNat 8 q1.1] ∧
        ∀ b, (b < key ∨ key + 8 * w ≤ b) → (b < sk ∨ sk + 2 ≤ b) → u.mem.readByte b = s.mem.readByte b) ∧
    (fmtMx c = false ∨ blkCap s (ptPage t p) 2 = false ∨ storeSize p < a + 8 * w ∨ storeSize p < gb + 2 →
      answers (.vmxq t v f) s fun u => wasIllegal s u t p)

/-- R336, R458, R337, R339, R464, R467, R468, R471, R472: when a fetched command starts. While its pair is disabled or
stopped, or has fetched nothing, nothing happens; in a service state that does not serve its class it is taken and completes
with status 0x41; a LOAD_PLAN so refused completes with 0x01 and its slot where the module loads or unloads or the slot is
not EMPTY, else with 0x02. A ninth DMA waits in its queue. Host commands that complete at once, with what each leaves for
later, and the operands that each refuses by the byte offset of the first illegal one. Model choices in it: log 22, 113.
Each completes with its own effect under its clause's conditions on state and operands alone: planCtl, planSignal,
repairPass, saveTraining, restart, cfgWrite, acceptTopology, nopCommand, invalidOpcode. -/
def Obligations.Host_commands : Prop :=
  (
    ∀ (i : Instr) (r : HostRow) (s : State), hostRow i = some r →
      let q := r.pair
      let unserved := hasCommand s r ∧ takesEntry s q ∧ (pairOf s q).opens = [] ∧ cmdServed (svcState s) r.cls = false
      (¬ hasCommand s r → idles i s) ∧
      (unserved → r.cls ≠ .load → (s.host.dmas.length < 8 ∨ ∀ d h a l, i ≠ .dma q r.cid d h a l) →
        completesWith i s q r.cid 0x41 []) ∧
      (∀ a n slot pin, i = .loadPlan q r.cid a n slot pin → unserved →
        let taken := loadBusy s = true ∨ (slot.toNat < 4 ∧ (planOf s slot.toNat).state ≠ .empty)
        (taken → completesWith i s q r.cid 0x01 [slot.toNat]) ∧ (¬ taken → completesWith i s q r.cid 0x02 [])) ∧
      ∀ d h a l, i = .dma q r.cid d h a l → 8 ≤ s.host.dmas.length → idles i s) ∧
  (
    ∀ (q : Fin 64) (cid : BitVec 16) (slot pin flags opc oper : BitVec 8) (s : State),
      let unnamed := opc = 0x30#8 ∧ (oper = 0#8 ∨ 8#8 < oper)
      let runs (c : Instr) (P : Prop) : Prop := canRun c s → P
      let i := slot.toNat
      let k := nextCutoff s
      let p := planOf s i
      let asks (t w : State) (n : Nat × Option (List Byte)) : Prop :=
        w = t.setSvc { t.svc with writes := t.svc.writes ++ [n] }
      runs (.nopCommand q cid) (completesWith (.nopCommand q cid) s q cid 0 []) ∧
      runs (.invalidOpcode q cid opc oper)
        (completesWith (.invalidOpcode q cid opc oper) s q cid (if unnamed then 0x41 else 0x40) (if unnamed then [8] else [])) ∧
      (opcKnown opc.toNat = true → ¬ unnamed → idles (.invalidOpcode q cid opc oper) s) ∧
      runs (.planCtl q cid slot pin)
        (((4 ≤ i ∨ p.state = .empty) → completesWith (.planCtl q cid slot pin) s q cid 0x41 [8]) ∧
        (i < 4 → p.state ≠ .empty → 3 < pin.toNat → completesWith (.planCtl q cid slot pin) s q cid 0x41 [9]) ∧
        (i < 4 → p.state ≠ .empty → pin.toNat ≤ 3 → runsWith (.planCtl q cid slot pin) s q cid 0 [] fun t w =>
          w = { t with plans := w.plans } ∧ (∀ j, j ≠ i → planOf w j = planOf s j) ∧
          planOf w i = { p with pin := pin.toNat, pinOld := pinFor p (k - 1), pinFrom := k })) ∧
      (∀ arg : BitVec 32, runs (.planSignal q cid slot arg) (
        (¬ (i < 4 ∧ slotRuns s i = true) → completesWith (.planSignal q cid slot arg) s q cid 0x41 [8]) ∧
        (i < 4 → slotRuns s i = true → runsWith (.planSignal q cid slot arg) s q cid 0 [] fun t w =>
          w = { t with regs := w.regs, tccs := w.tccs } ∧
          (∀ tl ∈ planTiles p, pget w (tilePage tl 0) 0x720 = arg.toNat ∧ bitOf (tccOf w tl).events 1 = true) ∧
          ∀ tl, tl ∉ planTiles p → tccOf w tl = tccOf s tl))) ∧
      runs (.saveTraining q cid) (runsWith (.saveTraining q cid) s q cid 0 [] fun t w => asks t w (5, none)) ∧
      runs (.acceptTopology q cid) (
        (svcState s = 1 → 4 ≤ fld (pget s (modPage 5) 0x080) 15 8 → fld (pget s (modPage 5) 0x080) 15 8 ≤ 6 →
          runsWith (.acceptTopology q cid) s q cid 0 [] fun t w => asks t w (2, none)) ∧
        (svcState s ≠ 1 ∨ fld (pget s (modPage 5) 0x080) 15 8 < 4 ∨ 6 < fld (pget s (modPage 5) 0x080) 15 8 →
          completesWith (.acceptTopology q cid) s q cid 0x41 [8])) ∧
      runs (.repairPass q cid flags) (
        (residentSlots s ≠ [] → completesWith (.repairPass q cid flags) s q cid 0x44 []) ∧
        (residentSlots s = [] → runsWith (.repairPass q cid flags) s q cid 0 [] fun t w =>
          svcState w = 3 ∧ w.svc = { t.svc with repairs := [flags.toNat % 4], writes := t.svc.writes ++ [(3, none)] } ∧
          w = { t with regs := w.regs, svc := w.svc })) ∧
      runs (.restart q cid flags)
        (answers (.restart q cid flags) s fun u =>
          u.svc = { s.svc with restart := some (flags.toNat % 4) } ∧
          posted (taken s q) (u.setSvc s.svc) q cid.toNat 0 []) ∧
      ∀ (type : BitVec 8) (src len : BitVec 64), runs (.cfgWrite q cid type src len) (
          ((type.toNat < 2 ∨ 6 < type.toNat) → completesWith (.cfgWrite q cid type src len) s q cid 0x41 [0x0B]) ∧
          (2 ≤ type.toNat → type.toNat ≤ 6 → 0x1800000 < len.toNat →
            completesWith (.cfgWrite q cid type src len) s q cid 0x41 [0x18]) ∧
          (2 ≤ type.toNat → type.toNat ≤ 6 → len.toNat ≤ 0x1800000 → inLpddr s src.toNat len.toNat = false →
            completesWith (.cfgWrite q cid type src len) s q cid 0x41 [0x10]) ∧
          (2 ≤ type.toNat → type.toNat ≤ 6 → len.toNat ≤ 0x1800000 → inLpddr s src.toNat len.toNat = true →
            answers (.cfgWrite q cid type src len) s fun u =>
              ∃ b, u.svc.writes = s.svc.writes ++ [(type.toNat, some b)])))

/-- R168, R337, R340, R169, R195: the sequence commands. The table of R168 is read with the state that the entry will have
once the commands accepted so far have taken effect; a command that it names is accepted and waits for the next cutoff whose
instant has not come, any other completes with 0x42 and the present STATE; an index above 4095, and an entry of a chain plan
of which this module is not the head, are refused. SEQ_OPEN on a plan of one module whose plan keeps no KV pages. It is
refused by its operands, then with reason 1 where the slot runs no plan, 2 where its sequences are all in use, 3 where no
entry is FREE; else the lowest FREE entry is assigned, completes with its index, and opens at the next cutoff. Model choices
in it: log 68, 113. Each completes with its own effect under its clause's conditions on state and operands alone: seqOpen,
seqSuspend, seqResume, seqEnd, seqRelease. -/
def Obligations.Sequence_commands : Prop :=
  (
    ∀ (q : Fin 64) (cid seq : BitVec 16) (s : State),
      let n := seq.toNat
      let r := seqOf s n
      let refused (i : Instr) (k : SeqCmdKind) : Prop := canRun i s →
        (4096 ≤ n → completesWith i s q cid 0x41 [8]) ∧
        (n < 4096 → r.state ≠ .free → r.orphan = false → notHead s r.slot = true → completesWith i s q cid 0x41 [8]) ∧
        (n < 4096 → (r.state = .free ∨ r.orphan = true ∨ notHead s r.slot = false) → seqMove (projected s n) k = none →
          completesWith i s q cid 0x42 [r.state.code])
      let accepted (i : Instr) (k : SeqCmdKind) : Prop := canRun i s →
        n < 4096 → (r.state = .free ∨ r.orphan = true ∨ notHead s r.slot = false) → segNodes s r.slot = [] →
          seqMove (projected s n) k ≠ none → runsWith i s q cid 0 [] fun t w =>
            w = { t with sched := w.sched, seqs := w.seqs } ∧ w.sched = acceptedFor s n k ∧
            (∀ j, j ≠ n → seqOf w j = seqOf s j) ∧
            seqOf w n = if k = .finish then { r with ending := true } else r
      refused (.seqSuspend q cid seq) .suspend ∧ accepted (.seqSuspend q cid seq) .suspend ∧
      refused (.seqResume q cid seq) .resume ∧ accepted (.seqResume q cid seq) .resume ∧
      refused (.seqEnd q cid seq) .finish ∧ accepted (.seqEnd q cid seq) .finish ∧
      refused (.seqRelease q cid seq) .release ∧ accepted (.seqRelease q cid seq) .release) ∧
  (
    ∀ (q : Fin 64) (cid : BitVec 16) (o : SeqOpenArgs) (s : State), canRun (.seqOpen q cid o) s →
      let slot := o.mode.toNat % 4
      let p := planOf s slot
      (∀ off, openOperand o = some off → completesWith (.seqOpen q cid o) s q cid 0x41 [off]) ∧
      (openOperand o = none → p.chain = none → p.man.kvPage = 0 →
        (slotRuns s slot = false → completesWith (.seqOpen q cid o) s q cid 0x43 [1]) ∧
        (slotRuns s slot = true → p.man.seqMax ≤ seqCount s slot → completesWith (.seqOpen q cid o) s q cid 0x43 [2]) ∧
        (slotRuns s slot = true → seqCount s slot < p.man.seqMax → lowestFree s 0 = none →
          completesWith (.seqOpen q cid o) s q cid 0x43 [3]) ∧
        ∀ i, slotRuns s slot = true → seqCount s slot < p.man.seqMax → lowestFree s 0 = some i →
          runsWith (.seqOpen q cid o) s q cid 0 [i] fun _ w =>
            seqOf w i = openedEntry s o ∧ (∀ j, j ≠ i → seqOf w j = seqOf s j) ∧
            w.sched = acceptedFor s i .opened ∧ w.mem = s.mem))

/-- R474, R476, R478, R479: the commands of live service of one tile. They name a tile below 12 whose TCC is not
quarantined; TILE_CYCLE takes one IN_SERVICE or FENCED, TILE_REJOIN one PARKED or FENCED, any other completes with 0x42 and
its state. TILE_CYCLE leaves an IN_SERVICE tile so until the next period start and puts a FENCED one into RESETTING, as
TILE_REJOIN does. A DRAINING tile that has stopped is PARKED, its memory in self-refresh, or OUT with a quarantined TCC;
nothing else is. Fences. A tile that is not fenced or out already becomes FENCED, and its source on its base die's control
page is set; the loss of a base die fences it and its tiles, puts its chain ports DOWN and raises sources 4, and 5 of A0, on
the configuration page. Model choices in it: log 71. Each completes with its own effect under its clause's conditions on
state and operands alone: tileCycle, tileRejoin, tileParked, tileReloadDone, tileFence, baseFence. -/
def Obligations.Tile_commands_and_fences : Prop :=
  (
    ∀ (q : Fin 64) (cid : BitVec 16) (tile flags : BitVec 8) (s : State),
      let t := tile.toNat
      let st := tileSvc s t
      let f := flags.toNat
      let refused (i : Instr) (named : Nat) : Prop :=
        (12 ≤ t → completesWith i s q cid 0x41 [0x0B]) ∧
        (t < 12 → quarantined s t 40 = true → completesWith i s q cid 0x48 []) ∧
        (t < 12 → quarantined s t 40 = false → st ≠ named → st ≠ 6 → completesWith i s q cid 0x42 [st])
      let starts (i : Instr) (state flags : Nat) : Prop :=
        runsWith i s q cid 0 [] fun a w =>
          w = { a with regs := w.regs, svc := { a.svc with cycles := w.svc.cycles } } ∧
          kfind w.svc.cycles t = some (decide (st = 6), flags) ∧ tileSvc w t = state
      (canRun (.tileCycle q cid tile flags) s → refused (.tileCycle q cid tile flags) 0 ∧
        (t < 12 → quarantined s t 40 = false → (st = 0 ∨ st = 6) →
          starts (.tileCycle q cid tile flags) (if st = 6 then 3 else 0) (f % 4))) ∧
      (canRun (.tileRejoin q cid tile flags) s → refused (.tileRejoin q cid tile flags) 2 ∧
        (t < 12 → quarantined s t 40 = false → (st = 2 ∨ st = 6) → starts (.tileRejoin q cid tile flags) 3 (f % 2))) ∧
      ∀ t : Fin 12,
        (tileSvc s t ≠ 1 → idles (.tileParked t) s) ∧
        (tileSvc s t = 1 → answers (.tileParked t) s fun u =>
          tileSvc u t = (if quarantined s t 40 then 7 else 2) ∧ (tccOf u t).halted = true ∧
          ∀ n < 32, bitOf (pget u (scPage t n) 0x08C) 1 = true ∧ (sliceOf u t n).owed = []) ∧
        (∀ bad, kfind s.svc.cycles t = none ∨ s.quench.holding = true → idles (.tileReloadDone t bad) s) ∧
        (∀ fenced flags, kfind s.svc.cycles t = some (fenced, flags) → quarantined s t 40 = false → s.quench.holding = false →
          (tileSvc s t = 3 ∨ tileSvc s t = 6 ∨ (tileSvc s t = 2 ∧ bitOf flags 1 = false)) →
          answers (.tileReloadDone t []) s fun u => kfind u.svc.cycles t = some (fenced, flags % 4 + 2 ^ 8))) ∧
  (
    (∀ (t : Fin 12) (clock : Bool) (s : State),
      ((tileSvc s t = 6 ∨ tileSvc s t = 7) → idles (.tileFence t clock) s) ∧
      (tileSvc s t ≠ 6 → tileSvc s t ≠ 7 → answers (.tileFence t clock) s fun u =>
        tileSvc u t = 6 ∧ sticky u (basePage (tileDie t) 0) (t.val % 3) = true)) ∧
    ∀ (a : Fin 4) (lost : List (Fin 4 × Leaf × BitVec 32)) (s : State),
      (baseUp s a = false → idles (.baseFence a lost) s) ∧
      (baseUp s a = true → answers (.baseFence a lost) s fun u =>
        baseUp u a = false ∧ portState u (2 * a.val) = 0 ∧ portState u (2 * a.val + 1) = 0 ∧
        sticky u (modPage 5) 4 = true ∧ (a.val = 0 → sticky u (modPage 5) 5 = true ∧ u.flt.restartReq = true)))

/-- R295, R337, R338: map-out of an LPDDR5X channel and DMA. CH_MAPOUT refuses a package or channel that does not exist,
waits for no other map-out, and starts one that puts the channel into REMAPPING; at its end the channel is MAPPED_OUT and a
REPAIR_MAP entry is due. DMA is checked whole; a command that passes runs, and its completion is posted when its bytes have
moved. Model choices in it: log 113. Each completes with its own effect under its clause's conditions on state and operands
alone: dma, dmaDone, chMapout, mapoutRemapDone. -/
def Obligations.Map_out_and_dma : Prop :=
  (∀ (q : Fin 64) (cid : BitVec 16) (pkg ch dir : BitVec 8) (host da len : BitVec 64) (s : State),
    let p := pkg.toNat
    let c := ch.toNat
    let map := Instr.chMapout q cid pkg ch
    let dma := Instr.dma q cid dir host da len
    (canRun map s →
      (16 ≤ p → completesWith map s q cid 0x41 [9]) ∧ (p < 16 → 4 ≤ c → completesWith map s q cid 0x41 [0x0A]) ∧
      (p < 16 → c < 4 → s.svc.mapouts ≠ [] → completesWith map s q cid 0x44 []) ∧
      (p < 16 → c < 4 → s.svc.mapouts = [] → chOut s p c = true → completesWith map s q cid 0 []) ∧
      (p < 16 → c < 4 → s.svc.mapouts = [] → chOut s p c = false → runsWith map s q cid 0 [] fun _ w =>
        chState w p c = 3 ∧ w.svc.mapouts = [(p, c)] ∧ w.mem = s.mem)) ∧
    (canRun dma s → s.host.dmas.length < 8 →
      (1 < dir.toNat → completesWith dma s q cid 0x41 [8]) ∧
      (dir.toNat ≤ 1 → (len = 0 ∨ 2 ^ 32 < len.toNat) → completesWith dma s q cid 0x41 [0x20]) ∧
      (dir.toNat ≤ 1 → len ≠ 0 → len.toNat ≤ 2 ^ 32 → rangeOpen s da.toNat len.toNat = false →
        completesWith dma s q cid 0x47 []) ∧
      (dir.toNat ≤ 1 → len ≠ 0 → len.toNat ≤ 2 ^ 32 → rangeOpen s da.toNat len.toNat = true →
        (dir = 0 → meetsHeld s da.toNat len.toNat = true → completesWith dma s q cid 0x45 []) ∧
        ((dir = 0 → meetsHeld s da.toNat len.toNat = false) → answers dma s fun u =>
          u = { s with host := u.host } ∧
          u.host.dmas = s.host.dmas ++ [⟨q, cid.toNat, decide (dir = 1), host.toNat, da.toNat, len.toNat⟩])))) ∧
  (∀ (p c : Nat) (s : State), p < 16 → c < 4 → s.svc.mapouts = [(p, c)] → answers .mapoutRemapDone s fun u =>
    u.svc.mapouts = [] ∧ chState u p c = 2 ∧ (∃ e ∈ u.svc.newRep, e.kind = 5 ∧ e.pos = [p, c]) ∧
    sticky u (lpPage p) 6 = true) ∧
  ∀ (i : Fin 8) (data : List Byte) (s : State),
    (s.host.dmas[i.val]? = none → idles (.dmaDone i data) s) ∧
    ∀ c a o, s.host.dmas[i.val]? = some c → daKind c.da = .shared a o → baseUp s a = true → pathsGood s →
      0 < c.len → c.da % 128 + c.len ≤ 128 → takesEntry s c.pair → c.pair < 64 → s.mem.badPar = [] → s.store.held = [] →
      (c.toHost = false → data.length = c.len → answers (.dmaDone i data) s fun u =>
        u.host.dmas = s.host.dmas.eraseIdx i ∧ u.mem.readBytes c.da c.len = data ∧
        memSameOutside s u c.da (c.da + c.len) ∧ (pairOf u c.pair).cqTail ≠ (pairOf s c.pair).cqTail) ∧
      (c.toHost = true → answers (.dmaDone i data) s fun u =>
        u.host.dmas = s.host.dmas.eraseIdx i ∧ u.mem = s.mem ∧
        (∀ k < c.len, kfind u.host.hostMem (c.hostAddr + k) = some (s.mem.readByte (c.da + k))) ∧
        (pairOf u c.pair).cqTail ≠ (pairOf s c.pair).cqTail)

/-- R260, R262, R265 to R268, R282, R318, R420: writes of bonded memory whose tile serves and whose half is neither gated
nor held, in no held range. A whole write puts the line and a right check word and discards what was gathered for it; a
narrow write that does not complete its line only gathers; an entry idle for MB_TIMEOUT leaves, and its read-modify-write
puts its bytes over the line, with a right check word where the line was right, and with a poison one after a parity error
of the entry. A request to a half that cannot be reached writes nothing; one to a half that Quench holds waits. Reads of a
bonded line that nothing is gathered for. A line that matches its check word as it arrives is delivered; else it waits for
its re-read, which delivers a line that matches, hands a golden-backed one to its golden copy, and gives up any other as
poisoned zeros. A half that cannot be reached delivers poisoned zeros. Model choices in it: log 73. Each completes with its
own effect under its clause's conditions on state and operands alone: bondedWholeWrite, bondedNarrowWrite, mbTimeout,
rmwDone, bondedLineRead, crcRereadReturn, goldenFetchDone. -/
def Obligations.Bonded_lines : Prop :=
  (
    ∀ (t : Fin 12) (n : Fin 32) (line : BitVec 24) (data : List Byte) (who : Leaf) (tag : BitVec 32) (s : State),
      let da := sliceBase t n + 128 * line.toNat
      let x := sliceOf s t n
      let up := reaches s who ∧ sliceServes s t n ∧ firstRun tag.toNat
      let off' := awake s ∧ (tileUp s t = false ∨ halfGated s t (sliceHalf n) = true)
      let waits (i : Instr) (a : HeldAccess) : Prop := awake s → halfHeld s (t, sliceHalf n) = true → answers i s fun u =>
        u.mem = s.mem ∧ u.store.waits = s.store.waits ++ [a]
      let whole := Instr.bondedWholeWrite t n line data who tag
      (sliceLines ≤ line.toNat → idles whole s) ∧
      (line.toNat < sliceLines → waits whole (.wholeWrite t n line data who tag)) ∧
      (line.toNat < sliceLines → data.length = 128 → s.store.held = [] →
        (up → answers whole s fun u =>
          u.mem.readBytes da 128 = data ∧ u.mem.lineGood da = true ∧ memSameOutside s u da (da + 128) ∧
          ∀ e ∈ (sliceOf u t n).mb, e.line ≠ da / 128) ∧
        (off' → answers whole s fun u => u.mem = s.mem)) ∧
      (∀ off : Fin 128, line.toNat < sliceLines → data ≠ [] → off.val + data.length ≤ 128 → data.length < 128 →
        s.store.held = [] → (∀ e ∈ x.mb, e.line ≠ da / 128) → x.mb.length < 32 →
        (up → answers (.bondedNarrowWrite t n line off data who tag) s fun u =>
          u.mem = s.mem ∧ ∃ e, (sliceOf u t n).mb = x.mb ++ [e] ∧ e.line = da / 128 ∧ e.tag = tag.toNat ∧
            e.time = s.clock.now ∧ e.rmw = false ∧ ∀ k < data.length, kfind e.bytes (off.val + k) = data[k]?) ∧
        (off' → answers (.bondedNarrowWrite t n line off data who tag) s fun u =>
          u.mem = s.mem ∧ (sliceOf u t n).mb = x.mb)) ∧
      ∀ (i : Fin 32) (e : GEntry), x.mb[i.val]? = some e →
        let wait := 1000 * max 1 (fld (pget s (scPage t n) 0x080) 15 8)
        let a := e.line * 128
        let merged := mergeBytes (s.mem.readBytes a 128) e.bytes
        let gone (u : State) : Prop := ∀ y ∈ (sliceOf u t n).mb, y.line ≠ e.line
        (s.clock.now < e.time + wait → idles (.mbTimeout t n i) s) ∧
        (e.time + wait ≤ s.clock.now → answers (.mbTimeout t n i) s fun u =>
          u.mem = s.mem ∧ sliceOf u t n = { x with mb := x.mb.set i { e with rmw := true } }) ∧
        (e.rmw = false → ∀ par, idles (.rmwDone t n i par) s) ∧
        (e.rmw = true →
          (s.mem.lineGood a = true → answers (.rmwDone t n i false) s fun u =>
            u.mem.readBytes a 128 = merged ∧ u.mem.lineGood a = true ∧ memSameOutside s u a (a + 128) ∧ gone u) ∧
          (s.mem.lineGood a = false → goldenOf s a = none → answers (.rmwDone t n i false) s fun u =>
            u.mem.readBytes a 128 = merged ∧ u.mem.lineGood a = false ∧ sticky u (scPage t n) 4 = true ∧ gone u) ∧
          answers (.rmwDone t n i true) s fun u => u.mem.readBytes a 128 = merged ∧ u.mem.lineGood a = false ∧
            sticky u (scPage t n) 5 = true ∧ memSameOutside s u a (a + 128) ∧ gone u)) ∧
  (
    ∀ (t : Fin 12) (n : Fin 32) (line : BitVec 24) (who : Leaf) (tag : BitVec 32) (flips : List (Fin 1056)) (s : State),
      let da := sliceBase t n + 128 * line.toNat
      let x := sliceOf s t n
      let rd := Instr.bondedLineRead t n line who tag flips
      let first := s.mem.readLine da (flips.map Fin.val)
      (line.toNat < sliceLines → (∀ e ∈ x.mb, e.line ≠ da / 128) →
        (reaches s who → sliceServes s t n →
          (first.2 = true → answers rd s fun u =>
            u.mem = s.mem ∧ (sliceOf u t n).delivered = some ⟨line.toNat, first.1, .ok⟩) ∧
          (first.2 = false → answers rd s fun u => u.mem = s.mem ∧
            (sliceOf u t n).reads = x.reads ++ [⟨line.toNat, overBonds who t n, tag.toNat, flips.map Fin.val, false⟩])) ∧
        (awake s → tileUp s t = false ∨ halfGated s t (sliceHalf n) = true → answers rd s fun u =>
          u.mem = s.mem ∧ (sliceOf u t n).delivered = some ⟨line.toNat, zeroLine, .poison⟩)) ∧
      ∀ (i : Nat) (r : ReadWait), x.reads[i]? = some r →
        let a := sliceBase t n + 128 * r.line
        let again := s.mem.readLine a (flips.map Fin.val)
        let back := Instr.crcRereadReturn t n i flips
        (r.golden = false → again.2 = true → answers back s fun u =>
          u.mem = s.mem ∧ (sliceOf u t n).reads = x.reads.eraseIdx i ∧
          (sliceOf u t n).delivered = some ⟨r.line, again.1, .ok⟩ ∧ sticky u (scPage t n) 0 = true) ∧
        (r.golden = false → again.2 = false →
          ((goldenOf s a).isSome = true → answers back s fun u =>
            u.mem = s.mem ∧ (sliceOf u t n).reads = x.reads.set i { r with golden := true }) ∧
          (goldenOf s a = none → answers back s fun u =>
            u.mem = s.mem ∧ (sliceOf u t n).reads = x.reads.eraseIdx i ∧
            (sliceOf u t n).delivered = some ⟨r.line, zeroLine, .poison⟩ ∧ sticky u (scPage t n) 2 = true)) ∧
        (r.golden = true → idles back s) ∧
        (r.golden = false → idles (.goldenFetchDone t n i) s) ∧
        ∀ g p q, r.golden = true → pathsGood s → goldenOf s a = some g → daKind g = .lpddr p q → g % 128 = 0 →
          regionFenced s p = false → q < regionTop s p → (∀ e ∈ (lpOf s ((regionChan s p q).1 / 4)).gb, e.line ≠ g / 128) →
          s.mem.lineGood g = true →
          answers (.goldenFetchDone t n i) s fun u =>
            u.mem = s.mem ∧ (sliceOf u t n).reads = x.reads.eraseIdx i ∧
            (sliceOf u t n).delivered = some ⟨r.line, s.mem.readBytes g 128, .ok⟩ ∧ sticky u (scPage t n) 1 = true)

/-- R274 to R276, R288, R291, R292, R295, R296, R305: refresh of a bank outside self-refresh. A refresh that falls due is
postponed while fewer than four are owed, else taken with every one owed; a fifth raises the source of a bank that owes too
many; a bank more than five tREFI without a refresh sets the FATAL source. In self-refresh nothing falls due. Housekeeping
of an LPDDR5X controller. A gathered entry idle for GB_TIMEOUT leaves by read-modify-write, with a poison check word after a
parity error of the entry; a REFpb rotates through the banks, and one that was missed sets its source; MR4 gives the
multiplier; the window of R296 restarts its terms; a channel without a request for 1 µs powers down; 0xFF clears a count; a
channel that is out or not operating does none of the first three; a guarded map-out puts the named channels into REMAPPING.
Model choices in it: log 62, 109. Each completes with its own effect under its clause's conditions on state and operands
alone: refreshDue, refreshMiss, gbTimeout, lpRefresh, mr4Read, lpEffWindow, lpMapout, lpUncClear, lpIdlePowerDown. -/
def Obligations.Refresh_and_lpddr_housekeeping : Prop :=
  (
    ∀ (t : Fin 12) (n : Fin 32) (l : Fin 8) (b : Fin 16) (postpone : Bool) (s : State),
      let x := sliceOf s t n
      let key := refKey l b
      let owed := kget 0 x.owed key
      let due := Instr.refreshDue t n l b postpone
      let self := bitOf (pget s (scPage t n) 0x08C) 1
      (self = true → idles due s ∧ idles (.refreshMiss t n l b) s) ∧
      (self = false →
        (postpone = true → owed < 4 → answers due s fun u =>
          u.mem = s.mem ∧ kget 0 (sliceOf u t n).owed key = owed + 1 ∧ (sliceOf u t n).lastRef = x.lastRef) ∧
        (postpone = false ∨ 4 ≤ owed → answers due s fun u =>
          u.mem = s.mem ∧ kget 0 (sliceOf u t n).owed key = 0 ∧ kfind (sliceOf u t n).lastRef key = some s.clock.now ∧
          (4 ≤ owed → sticky u (scPage t n) 10 = true)) ∧
        (let last := kget x.epoch x.lastRef key
         (last + 5 * tRefi s t n < s.clock.now → answers (.refreshMiss t n l b) s fun u => sticky u (scPage t n) 11 = true) ∧
         (s.clock.now ≤ last + 5 * tRefi s t n → idles (.refreshMiss t n l b) s)))) ∧
  (
    ∀ (p : Fin 16) (c : Fin 4) (s : State),
      let l := lpOf s p
      let k := kget LpChan.reset l.chans c
      let runs := chState s p c = 0 ∧ lpOperating s = true
      let chan (u : State) : LpChan := kget LpChan.reset (lpOf u p).chans c
      (runs → (answers (.lpRefresh p c) s fun u =>
          u.mem = s.mem ∧ chan u = { k with refBank := (k.refBank + 1) % 16, lastRef := some s.clock.now } ∧
          (lpMissed s p c = true → sticky u (lpPage p) 8 = true)) ∧
        (let quiet := max l.epoch k.lastReq + 1000
         (quiet ≤ s.clock.now → answers (.lpIdlePowerDown p c) s fun u => u.mem = s.mem ∧ chan u = { k with down := true }) ∧
         (s.clock.now < quiet → idles (.lpIdlePowerDown p c) s)) ∧
        ∀ (mult : Fin 3) (hot : Bool), answers (.mr4Read p c mult hot) s fun u =>
          u.mem = s.mem ∧ fld (pget u (lpPage p) 0x080) (8 * c + 5) (8 * c + 4) = mult.val ∧
          (hot = true → sticky u (lpPage p) 7 = true)) ∧
      (¬ runs → idles (.lpRefresh p c) s ∧ idles (.lpIdlePowerDown p c) s ∧ ∀ m h, idles (.mr4Read p c m h) s) ∧
      (answers (.lpEffWindow p c) s fun u =>
        u.mem = s.mem ∧ (chan u).window = [1, 2, 3, 4].map fun j => cntGet s (lpPage p) (lpCnt c j)) ∧
      (writesReg (.lpUncClear p c) s (lpPage p) fun w u =>
        u.mem = w.mem ∧ u.store = w.store ∧ fld (pget u (lpPage p) 0x090) (8 * c + 7) (8 * c) = 0) ∧
      (writesReg (.lpMapout p (BitVec.ofNat 4 (2 ^ c.val))) s (lpPage p) fun w u =>
        (w.svc.mapouts ≠ [] → u = w) ∧
        (w.svc.mapouts = [] → chOut w p c = true → u = w) ∧
        (w.svc.mapouts = [] → chOut w p c = false → chState u p c = 3 ∧ u.svc.mapouts = [(p.val, c.val)] ∧ u.mem = w.mem)) ∧
      ∀ (i : Fin 64) (e : GEntry), l.gb[i.val]? = some e →
        let wait := 1000 * max 1 (fld (pget s (lpPage p) 0x08C) 7 0)
        let a := e.line * 128
        (s.clock.now < e.time + wait → ∀ par, idles (.gbTimeout p i par) s) ∧
        (e.time + wait ≤ s.clock.now → ∀ par, answers (.gbTimeout p i par) s fun u =>
          u.mem.readBytes a 128 = mergeBytes (s.mem.readBytes a 128) e.bytes ∧ memSameOutside s u a (a + 128) ∧
          u.mem.lineGood a = (!par && s.mem.lineGood a) ∧
          (par = true → sticky u (lpPage p) 3 = true) ∧ (par = false → s.mem.lineGood a = false → sticky u (lpPage p) 2 = true)))

/-- R27, R32, R286, R288, R289, R292, R330, R297, R298: lines of LPDDR5X in a region that is not fenced, with nothing
gathered for the line and no copy of the host to call back. A whole write puts the line with a right check word; a narrow
one only gathers; a line that matches its check word is delivered, else it is read once more, and where it fails again it
reads as poisoned zeros, with the source of each; a parity error of its check word in the cache gives it a poison one;
beyond the addressable part a read gives zeros with error status and sets source 9. Words of a shared buffer of a base die
that serves, outside held ranges. A read delivers the word, or zeros with poison and SB_PAR_UNC where its parity is bad, or
is found bad twice, from which on it is bad; a good write stores its bytes and nothing else, and is written also when its
first arrival was bad; after a second bad arrival nothing is written. Model choices in it: log 14, 78. Each completes with
its own effect under its clause's conditions on state and operands alone: lpLineRead, lpWholeWrite, lpNarrowWrite, sbRead,
sbWrite. -/
def Obligations.Lpddr_lines_and_shared_buffer : Prop :=
  (
    ∀ (a : Fin 4) (line : BitVec 31) (data : List Byte) (who : Leaf) (tag : BitVec 32) (r : LpRead) (s : State),
      let q := 128 * line.toNat
      let da := regionBase a + q
      let p := (regionChan s a q).1 / 4
      let plain := reaches s who ∧ firstRun tag.toNat ∧ q < 0x4000000000 ∧ regionFenced s a = false ∧ q < regionTop s a ∧
        (∀ e ∈ (lpOf s p).gb, e.line ≠ da / 128) ∧
        s.store.held = [] ∧ da / 128 ∉ s.host.snoop ∧ (∀ w ∈ s.host.bisnps, w.line ≠ da / 128)
      let rd := Instr.lpLineRead a line who tag r
      let first := s.mem.readLine da (r.flips.map Fin.val)
      let second := s.mem.readLine da (r.again.map Fin.val)
      let delivers (u : State) (p : Nat) (d : List Byte) (st : ASt) : Prop :=
        u.mem = s.mem ∧ (lpOf u p).delivered = some ⟨line.toNat, d, st⟩
      (plain →
        (data.length = 128 → answers (.lpWholeWrite a line data who tag) s fun u =>
          u.mem.readBytes da 128 = data ∧ u.mem.lineGood da = true ∧ memSameOutside s u da (da + 128)) ∧
        (∀ off : Fin 128, data ≠ [] → off.val + data.length ≤ 128 → data.length < 128 → (lpOf s p).gb.length < 64 →
          answers (.lpNarrowWrite a line off data who tag) s fun u =>
            u.mem = s.mem ∧ ∃ e, (lpOf u p).gb = (lpOf s p).gb ++ [e] ∧ e.line = da / 128 ∧ e.tag = tag.toNat ∧
              ∀ k < data.length, kfind e.bytes (off.val + k) = data[k]?) ∧
        (r.par = true → answers rd s fun u => u.mem = s.mem.markPoison da 128 ∧ sticky u (lpPage p) 3 = true) ∧
        (r.par = false → first.2 = true → answers rd s fun u => delivers u p first.1 .ok) ∧
        (r.par = false → first.2 = false → second.2 = true → answers rd s fun u =>
          delivers u p second.1 .ok ∧ sticky u (lpPage p) 0 = true) ∧
        (r.par = false → first.2 = false → second.2 = false → answers rd s fun u =>
          delivers u p zeroLine .poison ∧ sticky u (lpPage p) 1 = true)) ∧
      (awake s → regionFenced s a = true → answers rd s fun u => delivers u (4 * a) zeroLine .poison) ∧
      (awake s → regionFenced s a = false → regionTop s a ≤ q → answers rd s fun u =>
        delivers u (4 * a) zeroLine .error ∧ sticky u (lpPage (4 * a)) 9 = true)) ∧
  (
    ∀ (a : Fin 4) (off : BitVec 26) (data : List Byte) (who : Leaf) (tag : BitVec 32) (bad : Fin 3) (s : State),
      let o := off.toNat / 4 * 4
      let da := sbBase a + o
      let wa := sbBase a + off.toNat
      let out (u : State) : Option Delivery := kfind u.store.sbOut a.val
      (reaches s who → baseUp s a = true →
        (s.mem.parityBad da 4 = false → bad.val < 2 → answers (.sbRead a off who tag bad) s fun u =>
          u.mem = s.mem ∧ out u = some ⟨o, s.mem.readBytes da 4, .ok⟩ ∧ (bad.val = 1 → sticky u (sbPage a) 0 = true)) ∧
        (s.mem.parityBad da 4 = true ∨ bad.val = 2 → answers (.sbRead a off who tag bad) s fun u =>
          u.mem = (if bad.val = 2 then s.mem.setParity da 4 true else s.mem) ∧ sticky u (sbPage a) 1 = true ∧ out u = some ⟨o, List.replicate 4 0, .poison⟩) ∧
        (firstRun tag.toNat → data ≠ [] → off.toNat % 128 + data.length ≤ 128 → bad.val < 2 → s.store.held = [] →
          answers (.sbWrite a off data who tag bad) s fun u =>
            u.mem.readBytes wa data.length = data ∧ memSameOutside s u wa (wa + data.length))) ∧
      (awake s → baseUp s a = false → answers (.sbRead a off who tag bad) s fun u =>
        u.mem = s.mem ∧ out u = some ⟨o, List.replicate 4 0, .poison⟩) ∧
      (awake s → data ≠ [] → answers (.sbWrite a off data who tag 2) s fun u =>
        u.mem = s.mem ∧ sticky u (sbPage a) 2 = true))

/-- R115, R116, R117, R128, R317, R138, R449, R523: the control instructions of the TCC over other participants. CSTART
gives an IDLE participant below 40 in a half that is not GATED its PC, its G1 and its step tag and lets it run; CRESUME lets
a TRAPPED one go on, or back into the wait it was stopped in; any other named participant is illegal. CABORT ends every
named program as aborted, and marks an IDLE participant so. CWAIT answers with the aborted ones of the named participants
once all are IDLE, and waits until then. TCC_CTL. HALT 1 halts the TCC; HALT 0 lets it run, at TCC_BOOT after a reset,
unless a fault holds it until RESTART; RESTART clears the trap, every pending cause and the events and takes the PC of
TCC_BOOT. Model choices in it: log 17. Each completes with its own effect under its clause's conditions on state and
operands alone: cstart, cwait, cwaitRelease, cabort, cresume, tccHaltWrite, tccRestart. -/
def Obligations.Participant_control : Prop :=
  (
    ∀ (t : Fin 12) (f : SFields) (s : State),
      let a := getG s t 40 f.ga.toNat
      let p := a.toNat % 64
      let k := coreOf s (coreId t p)
      let named := setBits a.toNat 40
      let gated := ∃ h, ptHalf p = some h ∧ halfGated s t h = true
      let next := (pcOf s t 40 + 8) % 2 ^ 64
      let idle (ps : List Nat) : Prop := ∀ q ∈ ps, (coreOf s (coreId t q)).run = .idle
      (canIssue s t 40 = true →
        (p < 40 → k.run = .idle → ¬ gated → answers (.cstart t f) s fun u =>
          coreOf u (coreId t p) = { k with
            pc := (getG s t 40 f.gb.toNat).toNat / 8 * 8, g := (coreOf u (coreId t p)).g, run := .running, aborted := false
            tag := f.imm, wait := none, stopReq := false, opcode := 0, opmod := 0, held := none } ∧
          getG u t p 1 = getG s t 40 f.gd.toNat ∧ (∀ j, j ≠ 1 → getG u t p j = getG s t p j) ∧
          (∀ c, c ≠ coreId t p → c ≠ coreId t 40 → coreOf u c = coreOf s c) ∧ pcOf u t 40 = next ∧ u.mem = s.mem) ∧
        ((40 ≤ p ∨ k.run ≠ .idle ∨ gated) → answers (.cstart t f) s fun u => wasIllegal s u t 40) ∧
        (p < 40 → k.run = .trapped → answers (.cresume t f) s fun u => u.mem = s.mem ∧ pcOf u t 40 = next ∧
          (k.wait = none → coreOf u (coreId t p) = { k with run := .running }) ∧
          ∀ w, k.wait = some w → ((waiterOf s (coreId t p)).bind (·.ready)) = none →
            coreOf u (coreId t p) = { k with run := .waiting }) ∧
        ((40 ≤ p ∨ k.run ≠ .trapped) → answers (.cresume t f) s fun u => wasIllegal s u t 40) ∧
        (answers (.cabort t f) s fun u => pcOf u t 40 = next ∧
          ((∀ q ∈ named, q < 32 → (mcOf s t q).cur = none ∧ (mcOf s t q).waiting = none) → u.mem = s.mem) ∧
          ∀ q < 40, (q ∈ named →
            (coreOf u (coreId t q)).run = .idle ∧ (coreOf u (coreId t q)).aborted = true) ∧
          (q ∉ named → coreOf u (coreId t q) = coreOf s (coreId t q))) ∧
        (idle named → answers (.cwait t f) s fun u => wroteReg s u t 40 f.gd.toNat
          (BitVec.ofNat 64 (maskOf (named.filter fun q => (coreOf s (coreId t q)).aborted)))) ∧
        (¬ idle named → answers (.cwait t f) s fun u => u = { s with cores := u.cores, regs := u.regs } ∧
          coreOf u (coreId t 40) = { coreOf s (coreId t 40) with
            run := .waiting, wait := some (.cwait (maskOf named) f.gd.toNat), opcode := 0xC1, opmod := 0 })) ∧
      ∀ m rd, (coreOf s (coreId t 40)).run = .waiting → (coreOf s (coreId t 40)).wait = some (.cwait m rd) →
        (idle (setBits m 40) → answers (.cwaitRelease t) s fun u => u.mem = s.mem ∧
          getG u t 40 rd = (if rd = 0 then 0 else
            BitVec.ofNat 64 (maskOf ((setBits m 40).filter fun q => (coreOf s (coreId t q)).aborted))) ∧
          (coreOf u (coreId t 40)).run = .running ∧ (coreOf u (coreId t 40)).wait = none ∧ pcOf u t 40 = next) ∧
        (¬ idle (setBits m 40) → idles (.cwaitRelease t) s)) ∧
  (
    ∀ (t : Fin 12) (s : State),
      (writesReg (.tccHaltWrite t true) s (tccPage t) fun w u => u.mem = w.mem ∧ u.cores = w.cores ∧
        tccOf u t = { tccOf w t with halted := true } ∧ bitOf (pget u (tccPage t) 0x098) 0 = true) ∧
      (writesReg (.tccHaltWrite t false) s (tccPage t) fun w u => u.mem = w.mem ∧
        ((tccOf w t).locked = true → u = w) ∧
        ((tccOf w t).locked = false → tccOf u t = { tccOf w t with halted := false, fresh := false } ∧
          bitOf (pget u (tccPage t) 0x098) 0 = false ∧
          ((tccOf w t).fresh = true → pcOf u t 40 = fld (pget w (tccPage t) 0x09C) 18 3 * 8) ∧
          ((coreOf w (coreId t 40)).run = .idle → (coreOf u (coreId t 40)).run = .running))) ∧
      writesReg (.tccRestart t) s (tccPage t) fun w u => u.mem = w.mem ∧ u.regs = w.regs ∧
        tccOf u t = { tccOf w t with
          inTrap := false, pend := [], events := 0, locked := false, nested := false, savedWait := none, fresh := false } ∧
        pcOf u t 40 = fld (pget w (tccPage t) 0x09C) 18 3 * 8 ∧ (coreOf u (coreId t 40)).wait = none)

/-- R127, R129, R130, R131, R523: traps and events of the TCC. At an instruction boundary it enters the trap of the pending
cause with the lowest page and source, software causes after them by participant: the PC is saved and TCC_TVEC taken,
IN_TRAP is 1. TRET takes the next pending cause, or restores the PC; outside a trap it is illegal. A nested trap has every
program ended and the TCC restarted. WAITEV answers with the named events that are pending and clears them, waits for one,
and is illegal where it names none. Model choices in it: log 12. Each completes with its own effect under its clause's
conditions on state and operands alone: tret, waitev, waitevRelease, tccTrapEntry, coreSourceTrap. -/
def Obligations.Traps_and_events : Prop :=
  ∀ (t : Fin 12) (f : SFields) (s : State),
    let k := tccOf s t
    let x := coreOf s (coreId t 40)
    let first (c : TrapCause) : Prop := c ∈ k.pend ∧ ∀ d ∈ k.pend, d ≠ c → TrapCause.before c d = true
    let tvec := fld (pget s (tccPage t) 0x080) 18 3 * 8
    let set := f.imm.toNat % 8
    let enters (u : State) (c : TrapCause) (epc : Nat) : Prop :=
      tccOf u t = { k with inTrap := true, epc := epc, cause := TrapCause.word c, pend := k.pend.filter (· != c)
                           savedWait := (tccOf u t).savedWait } ∧
      pcOf u t 40 = tvec ∧ (coreOf u (coreId t 40)).run = .running ∧ u.mem = s.mem ∧
      u.sync = { s.sync with waiters := u.sync.waiters }
    (k.nested = false → k.halted = false → k.inTrap = false → ∀ c, first c →
      answers (.tccTrapEntry t) s fun u => enters u c x.pc ∧ (tccOf u t).savedWait = x.wait) ∧
    (k.nested = false → (k.halted = true ∨ k.inTrap = true ∨ k.pend = []) → idles (.tccTrapEntry t) s) ∧
    (k.nested = true → answers (.tccTrapEntry t) s fun u =>
      (∀ q < 40, (coreOf u (coreId t q)).run = .idle) ∧ (tccOf u t).inTrap = false ∧ (tccOf u t).events = 0 ∧
      pcOf u t 40 = fld (pget s (tccPage t) 0x09C) 18 3 * 8 ∧
      (unitOf u t 40).strikes = min 15 ((unitOf s t 40).strikes + 1)) ∧
    (canIssue s t 40 = true →
      (k.inTrap = false → answers (.tret t f) s fun u => wasIllegal s u t 40) ∧
      (k.inTrap = true → k.pend = [] → k.savedWait = none → answers (.tret t f) s fun u => u.mem = s.mem ∧
        tccOf u t = { k with inTrap := false } ∧ pcOf u t 40 = k.epc % 2 ^ 64 ∧
        (coreOf u (coreId t 40)).run = .running) ∧
      (k.inTrap = true → ∀ c, first c → answers (.tret t f) s fun u =>
        enters u c k.epc ∧ (tccOf u t).savedWait = k.savedWait) ∧
      (set = 0 → answers (.waitev t f) s fun u => wasIllegal s u t 40) ∧
      (k.events &&& set ≠ 0 → answers (.waitev t f) s fun u =>
        wroteReg (setTcc s t { k with events := k.events - (k.events &&& set) }) u t 40 f.gd.toNat
          (BitVec.ofNat 64 (k.events &&& set))) ∧
      (set ≠ 0 → k.events &&& set = 0 → answers (.waitev t f) s fun u =>
        u = { s with cores := u.cores, regs := u.regs } ∧
        coreOf u (coreId t 40) = { x with run := .waiting, wait := some (.event set f.gd.toNat), opcode := 0xC7, opmod := 0 })) ∧
    (∀ set rd, x.run = .waiting → x.wait = some (.event set rd) →
      (k.events &&& set = 0 → idles (.waitevRelease t) s) ∧
      (k.events &&& set ≠ 0 → answers (.waitevRelease t) s fun u => u.mem = s.mem ∧
        (tccOf u t).events = k.events - (k.events &&& set) ∧
        getG u t 40 rd = (if rd = 0 then 0 else BitVec.ofNat 64 (k.events &&& set)) ∧
        (coreOf u (coreId t 40)).run = .running ∧ pcOf u t 40 = (x.pc + 8) % 2 ^ 64)) ∧
    ∀ p : Fin 40,
      let y := coreOf s (coreId t p)
      (y.stopReq = true → (y.run = .running ∨ y.run = .waiting) → answers (.coreSourceTrap t p) s fun u =>
        u = { s with cores := u.cores } ∧ (∀ c, c ≠ coreId t p → coreOf u c = coreOf s c) ∧
        coreOf u (coreId t p) = { y with run := .trapped, stopReq := false, held := none }) ∧
      ((y.stopReq = false ∨ y.run = .idle ∨ y.run = .trapped) → idles (.coreSourceTrap t p) s)

/-- R486 to R489, R496, R494, R495, R428, R432, R317, R318: a register write by an agent, where nothing that the page needs
is asleep and flits arrive good. An unassigned page and one that does not serve discard it, and an unmapped one with the
source of the host or of the TCC; a gated half raises GATED_ACCESS besides, and for a half held by Quench the write waits,
with its wake latched. A register without an effect of its own takes the value bit by bit by the access codes of its fields,
clamped to its legal range, and nothing else changes but counters of the path. A write of FLT_CLASS leaves a set source the
class of its setting. Every write answers. A guarded write. The value word is pending and changes no register; the right
complement applies the clamped value and ends the pending; a wrong one, one with nothing pending, or one for another
register sets GUARD (source 31) and leaves the register. A word that is no complement completes nothing. Each completes with
its own effect under its clause's conditions on state and operands alone: guardedWrite, registerWrite. -/
def Obligations.Register_writes : Prop :=
  (
    ∀ (ag : Agent) (off : BitVec 26) (v : BitVec 32) (s : State),
      let page := off.toNat / 0x1000
      let o := off.toNat % 0x1000 / 4 * 4
      let i := Instr.registerWrite ag off v
      (answers i s fun _ => True) ∧
      (∀ t k h, pagePlace page = .tile t k → pageHalf k = some h → halfHeld s (t, h) = true → answers i s fun u =>
        u = { s with regs := { s.regs with vals := u.regs.vals }
                     store := { s.store with wakeSince := u.store.wakeSince, seam := u.store.seam
                                             waits := s.store.waits ++ [.register ag off v] } } ∧
        (kfind u.store.wakeSince (t * 2 + h)).isSome = true ∧
        ∀ r, r ≠ regOff (tilePage t 84) 0x084 → regGet u r = regGet s r) ∧
      (upFor s page → ¬ (page = 3 ∧ o = 0x088) →
        (pageBlock page = none → pagePlace page ≠ .unmapped → idles i s) ∧
        (pagePlace page = .unmapped →
          (ag = .host → answers i s fun u => sticky u (modPage 1) 0 = true ∧ u.mem = s.mem) ∧
          (∀ t, ag = .tcc t → answers i s fun u => sticky u (tccPage t) 4 = true ∧ u.mem = s.mem) ∧
          (ag ≠ .host → (∀ t, ag ≠ .tcc t) → idles i s)) ∧
        (pagePlace page ≠ .unmapped → pageServes s page = false → ¬ pageGated s page → answers i s fun u => overFabric s u ∧ u.regs = s.regs) ∧
        (∀ t k, pagePlace page = .tile t k → pageGated s page → tileAway s t = false → t / 3 ∉ s.store.baseFenced →
          answers i s fun u => onlyFaults s u ∧ sticky u (tilePage t 84) 3 = true) ∧
        ∀ b, pathsGood s → pageBlock page = some b → b ≠ .msix → pageServes s page = true → loPair b (o - 4) = none →
          (o = 0x028 ∨ o = 0x02C → answers i s fun u =>
            carriedRegsAt (s.setFlt { s.flt with classes := u.flt.classes }) u [regOff page o] ∧
            pget u page o = clampClass b (if o = 0x028 then 0 else 1) v.toNat ∧
            ∀ p' x, x < 32 → sticky s p' x = true → settingClass u p' x = settingClass s p' x) ∧
          ∀ d, 0x080 ≤ o → o < 0x800 → inReset s page = false → regDesc b o = some d → d.rwg = 0 →
            isGuarded b o = false → guardOf b o = none → ownWrite s b page o v.toNat = none → cntCtl b ≠ some o →
            answers i s fun u => carriedRegsAt s u [regOff page o] ∧
              pget u page o = clampWord b o (maskedWord d (pget s page o) v.toNat) % 2 ^ 32)) ∧
  (
    ∀ (ag : Agent) (off : BitVec 26) (v : BitVec 32) (s : State) (b : Block),
      let page := off.toNat / 0x1000
      let o := off.toNat % 0x1000 / 4 * 4
      let i := Instr.guardedWrite ag off v
      pageBlock page = some b →
      (guardOf b o = none → idles i s) ∧
      (upFor s page → pathsGood s → pageServes s page = true → inReset s page = false → b ≠ .msix →
        (isGuarded b o = true → loPair b (o - 4) = none →
          (kfind s.regs.guards page = none ∨ ∃ w, kfind s.regs.guards page = some (o, w)) →
          answers (.registerWrite ag off v) s fun u =>
            overFabric s u ∧ u.regs = { s.regs with guards := u.regs.guards, counters := u.regs.counters } ∧
            kfind u.regs.guards page = some (o, v) ∧
            ∀ q, q ≠ page → kfind u.regs.guards q = kfind s.regs.guards q) ∧
        ∀ g, guardOf b o = some g → ¬ (page = 3 ∧ o = 0x088) → loPair b (o - 4) = none →
          (∀ w : BitVec 32, kfind s.regs.guards page = some (g, w) → w.toNat + v.toNat = 0xFFFFFFFF →
            (g < 0x080 → answers i s fun u => kfind u.regs.guards page = none ∧ u.mem = s.mem ∧
              pget u page g = clampReact b page ((g - 0x030) / 8) w.toNat) ∧
            (0x080 ≤ g → b ≠ .lpddr → b ≠ .chainPort → ∀ d, regDesc b g = some d → answers i s fun u =>
              kfind u.regs.guards page = none ∧ u.mem = s.mem ∧
              pget u page g = clampWord b g (maskedWord d (pget s page g) w.toNat) % 2 ^ 32)) ∧
          ((∀ w : BitVec 32, kfind s.regs.guards page = some (g, w) → w.toNat + v.toNat ≠ 0xFFFFFFFF) →
            answers i s fun u => kfind u.regs.guards page = none ∧ sticky u page 31 = true ∧ u.mem = s.mem ∧
              (g < 0x080 → pget u page g = pget s page g))))

/-- R115, R32, R331, R333, R488: accesses that read or write a register or a word. LDG zero-extends the 32-bit word at G[GA]
+ sext(IMM32), an unmapped address gives ADDR_ERR and zero; STG writes the low word of G[GB] (both with no transfer of the
TCC under way, which would land before on its line); either is held while Quench holds a half that it needs; the host writes
4 or 8 aligned bytes as register words and any other width is discarded with a source; a host read delivers the addressed
bytes. Model choices in it: log 34, log 42. Each completes with its own effect under its clause's conditions on state and
operands alone: ldg, stg, bar0Access. -/
def Obligations.Word_accesses : Prop :=
  ∀ (t : Fin 12) (f : SFields) (off : BitVec 26) (n : Fin 9) (d : List Byte) (s : State),
    let da := (getG s t 40 f.ga.toNat + f.imm.signExtend 64).toNat / 4 * 4
    let w := (getG s t 40 f.gb.toNat).toNat % 2 ^ 32
    let next := (pcOf s t 40 + 8) % 2 ^ 64
    let plain (page o : Nat) : Prop :=
      ∃ b, pageBlock page = some b ∧ b ≠ .msix ∧ isLo b o = none ∧ (4 ≤ o → isLo b (o - 4) = none) ∧ o < 0x800 ∧
        pageStatus s page = .ok
    let k := coreOf s (coreId t 40)
    (∀ i, i = Instr.ldg t f ∨ i = Instr.stg t f → canGo i s t 40 → (globalHalves da).any (halfHeld s) = true →
      answers i s fun u => u.mem = s.mem ∧ coreOf u (coreId t 40) = { k with held := some i }) ∧
    (canIssue s t 40 = true → k.xfers = [] →
      (∀ r, daKind da = .register r → upFor s (r / 0x1000) → pathsGood s → plain (r / 0x1000) (r % 0x1000) →
        answers (.ldg t f) s fun u => u.mem = s.mem ∧ pcOf u t 40 = next ∧
          (r / 0x1000 ≠ tccPage t → getG u t 40 f.gd.toNat = if f.gd = 0 then 0 else
            BitVec.ofNat 64 (regWord s (r / 0x1000) (r % 0x1000)))) ∧
      (daKind da = .unmapped →
        (answers (.ldg t f) s fun u => u.mem = s.mem ∧ pcOf u t 40 = next ∧ getG u t 40 f.gd.toNat = 0 ∧
          sticky u (tccPage t) 4 = true) ∧
        answers (.stg t f) s fun u => u.mem = s.mem ∧ pcOf u t 40 = next ∧ sticky u (tccPage t) 4 = true) ∧
      (∀ a o, daKind da = .shared a o → baseUp s a = true → s.mem.parityBad da 4 = false → s.store.held = [] →
        pathsGood s → firstRun k.tag.toNat →
        (answers (.ldg t f) s fun u => u.mem = s.mem ∧ pcOf u t 40 = next ∧
          getG u t 40 f.gd.toNat = if f.gd = 0 then 0 else BitVec.ofNat 64 (leNat (s.mem.readBytes da 4))) ∧
        answers (.stg t f) s fun u => pcOf u t 40 = next ∧ u.mem.readBytes da 4 = leBytes 4 w ∧
          memSameOutside s u da (da + 4))) ∧
    ((pageHalves (off.toNat / 0x1000)).any (halfHeld s) = false →
      (d.length = 4 → off.toNat % 4 = 0 → answers (.bar0Access off n (some d)) s fun u =>
        exec (.registerWrite .host off (BitVec.ofNat 32 (leNat d))) s = .next u) ∧
      (d.length = 8 → off.toNat % 8 = 0 → answers (.bar0Access off n (some d)) s fun u =>
        ∃ x, exec (.registerWrite .host off (BitVec.ofNat 32 (leNat (d.take 4)))) s = .next x ∧
          ((pageHalves (off.toNat / 0x1000)).any (halfHeld x) = false → exec (.registerWrite .host (off + 4) (BitVec.ofNat 32 (leNat (d.drop 4)))) x = .next u))) ∧
    (¬ ((d.length = 4 ∨ d.length = 8) ∧ off.toNat % d.length = 0) → upFor s (off.toNat / 0x1000) →
      answers (.bar0Access off n (some d)) s fun u => sticky u hiPage 3 = true ∧ u.mem = s.mem ∧
        ∀ o, o % 0x1000 ≠ 0x020 → pageBlock (o / 0x1000) ≠ some .aggregator → regGet u o = regGet s o) ∧
    let o := off.toNat % 0x1000
    (upFor s (off.toNat / 0x1000) → pathsGood s → 0 < n.val → o % 4 + n.val ≤ 4 → plain (off.toNat / 0x1000) (o / 4 * 4) →
      answers (.bar0Access off n none) s fun u => u.mem = s.mem ∧ u.host.rstat = .success ∧
        u.host.rdata = ((leBytes 4 (regWord s (off.toNat / 0x1000) (o / 4 * 4))).drop (o % 4)).take n.val)

/-- R88, R167, R455, R501, R503: register writes with an effect of their own. CNTCTL.CLEAR makes every counter of its page
0, a page without it takes nothing; a selection takes a snapshot into the registers that show it, a strike selection that
names no unit counts as 0; FS_RING_TAIL takes its value unless that is ahead of HEAD; the ring's address is kept while the
ring is on, and its number of slots too, and turning the ring on sets HEAD and TAIL to 0. Model choices in it: log 44. Each
completes with its own effect under its clause's conditions on state and operands alone: spSeqSel, fsHrecSel, fsRingTail,
fsRingCfgWrite, toPortSel, toRtSel, tcStrikeSel, counterClear. -/
def Obligations.Selections_and_ring : Prop :=
  ∀ (v : BitVec 32) (page : BitVec 11) (t : Fin 12) (s : State),
    let w := wakeFor s 1
    let pg := page.toNat
    let ring (o : Nat) (x : State) : Nat := pget x (modPage 6) o
    let ringOffs := [0x090, 0x094, 0x098, 0x09C].map (regOff (modPage 6))
    let ahead := ¬ (ring 0x098 w + 2 ^ 32 - v.toNat) % 2 ^ 32 < 2 ^ 31
    (upFor s pg →
      ((pageBlock pg).bind cntCtl = none → idles (.counterClear page) s) ∧
      ((pageBlock pg).bind cntCtl ≠ none → served s pg = true → answers (.counterClear page) s fun u =>
        u = { s with regs := { s.regs with counters := u.regs.counters }
                     store := { s.store with idleSince := u.store.idleSince, lps := u.store.lps } } ∧
        ∀ k, (k / 0x1000 = pg → kget 0#64 u.regs.counters k = 0) ∧
          (k / 0x1000 ≠ pg → kget 0#64 u.regs.counters k = kget 0#64 s.regs.counters k))) ∧
    (answers (.spSeqSel v) s fun u => u = { w with regs := u.regs } ∧ ring 0x094 u = ring 0x094 w ∧
      pget u (modPage 11) 0x0C4 = v.toNat % 4096 ∧
      ∀ k < 16, pget u (modPage 11) (0x100 + 4 * k) = field (seqBytes (seqOf w (v.toNat % 4096))) (4 * k) 4) ∧
    (answers (.fsHrecSel v) s fun u => u = { w with regs := u.regs } ∧ ring 0x0A0 u = v.toNat % 256 ∧
      ∀ k < 82, ring (0x200 + 4 * k) u = field ((w.flt.records[v.toNat % 256]?).getD []) (4 * k) 4) ∧
    (answers (.toPortSel v) s fun u => u = { w with regs := u.regs } ∧ pget u (modPage 8) 0x088 = v.toNat % 8 ∧
      (kfind w.chain.expect (v.toNat % 8) = none → pget u (modPage 8) 0x08C = 0xFFFF)) ∧
    (answers (.toRtSel v) s fun u => u = { w with regs := u.regs } ∧ pget u (modPage 8) 0x090 = v.toNat % 64 ∧
      (w.chain.routes.length ≤ v.toNat % 64 → pget u (modPage 8) 0x094 = 0xFFFF ∧ pget u (modPage 8) 0x098 % 2 ^ 8 = 0)) ∧
    (writesReg (.tcStrikeSel t v) s (tilePage t 0) fun w u =>
      let k := if unitOk (v.toNat % 512) then v.toNat % 512 else 0
      onlyRegsAt w u [regOff (tilePage t 0) 0x758, regOff (tilePage t 0) 0x75C] ∧ pget u (tilePage t 0) 0x758 = k ∧
      pget u (tilePage t 0) 0x75C = min 15 (unitOf w t k).strikes + 16 * b2n (unitOf w t k).quarantined) ∧
    (answers (.fsRingTail v) s fun u => onlyRegsAt w u [regOff (modPage 6) 0x09C] ∧
      (¬ ahead → ring 0x09C u = v.toNat) ∧ (ahead → ring 0x09C u = ring 0x098 w)) ∧
    (answers (.fsRingCfgWrite true v) s fun u => onlyRegsAt w u ringOffs ∧
      (bitOf (ring 0x094 w) 16 = true → u = w) ∧
      (bitOf (ring 0x094 w) 16 = false →
        ring 0x090 u = min (fld v.toNat 27 7 * 128) ((0x4000000 - 768) / 128 * 128))) ∧
    answers (.fsRingCfgWrite false v) s fun u => onlyRegsAt w u ringOffs ∧ bitOf (ring 0x094 u) 16 = v.getLsbD 16 ∧
      (bitOf (ring 0x094 w) 16 = true → fld (ring 0x094 u) 11 0 = fld (ring 0x094 w) 11 0) ∧
      (bitOf (ring 0x094 w) 16 = false → fld (ring 0x094 u) 11 0 ≥ 1) ∧
      (bitOf (ring 0x094 w) 16 = false → v.getLsbD 16 = true → ring 0x098 u = 0 ∧ ring 0x09C u = 0)

/-- R151, R155, R156, R337: loading and unloading a plan. LOAD_PLAN checks its operands, that no load or unload runs and its
slot is EMPTY, then the image; a refusal completes and leaves every slot; a load that passes takes the slot as LOADING with
the plan of the image, completes later, and leaves the other slots. UNLOAD_PLAN of a running plan inside a period waits for
the period's end; else the slot is EMPTY, its sequences fail and the command completes. Model choices in it: log 79, 115,
118, 119. Each completes with its own effect under its clause's conditions on state and operands alone: loadPlan,
unloadPlan. -/
def Obligations.Load_and_unload : Prop :=
  ∀ (q : Fin 64) (cid : BitVec 16) (da size : BitVec 64) (slot pin : BitVec 8) (s : State),
    let load := Instr.loadPlan q cid da size slot pin
    let unload := Instr.unloadPlan q cid slot
    let i := slot.toNat
    let opOk := da.toNat % 4096 = 0 ∧ (i < 4 ∨ i = 15) ∧ pin.toNat ≤ 3
    let ready := loadBusy s = false ∧ (i < 4 → (planOf s i).state = .empty)
    let r := readImage (taken s q) da.toNat size.toNat
    let dest := if i < 4 then i else ((List.range 4).find? fun i => (planOf r.2 i).state = .empty).getD 4
    let bad := firstFail [checkHeader r.1 size.toNat, checkFit r.2 r.1 da.toNat size.toNat dest, checkChain r.2 r.1.chainRec]
    let var := usableFrom r.2 (r.1.reqRecs.map fun x => x.2.2) 0
    (canRun load s → pState s = 0 → s.power.entering = none →
      (da.toNat % 4096 ≠ 0 → completesWith load s q cid 0x41 [8]) ∧
      (da.toNat % 4096 = 0 → ¬ (i < 4 ∨ i = 15) → completesWith load s q cid 0x41 [0x18]) ∧
      (da.toNat % 4096 = 0 → (i < 4 ∨ i = 15) → 3 < pin.toNat → completesWith load s q cid 0x41 [0x19]) ∧
      (opOk → ¬ ready → completesWith load s q cid 1 [i]) ∧
      (opOk → ready →
        (∀ e, checkRange s da.toNat size.toNat = some e → completesWith load s q cid e.code e.d) ∧
        (checkRange s da.toNat size.toNat = none →
          (∀ e, bad = some e → takesEntry r.2 q → runsWith load s q cid e.code e.d fun t w => w.plans = t.plans) ∧
          ∀ v, bad = none → var = some v → answers load s fun u =>
            planOf u dest = loadedSlot r.1 v q cid.toNat da.toNat size.toNat pin.toNat ∧ (planOf u dest).state = .loading ∧
            (∀ j, j ≠ dest → planOf u j = planOf s j) ∧
            (dest < 4 → fld (pget u (modPage 11) 0x0C0) (4 * dest + 3) (4 * dest) = 1)))) ∧
    (canRun unload s →
      (4 ≤ i → completesWith unload s q cid 0x41 [8]) ∧
      (i < 4 → loadBusy s = true → completesWith unload s q cid 1 [i]) ∧
      (i < 4 → loadBusy s = false → (planOf s i).state = .empty → completesWith unload s q cid 0 []) ∧
      (i < 4 → loadBusy s = false → (planOf s i).state ≠ .empty →
        (slotRuns s i = true → s.sched.inPeriod = true → answers unload s fun u =>
          u = setPlan (taken s q) i { planOf s i with unload := some ⟨q, cid.toNat, false⟩ }) ∧
        ((slotRuns s i = false ∨ s.sched.inPeriod = false) → runsWith unload s q cid 0 [] fun t w =>
          w.mem = t.mem ∧ planOf w i = .reset ∧ (∀ h ∈ w.store.held, h.slot ≠ i) ∧
          ∀ j, (seqOf s j).slot = i → (seqOf s j).state ≠ .free → (seqOf s j).opening = false →
            (seqOf w j).orphan = true ∧ ((seqOf w j).state = .failed ∨ (seqOf w j).state = .ended))))

/-- R151, R154, R155, R162, R165, R372: the later instants of a plan. A load that ends without failure leaves its slot
ACTIVE, or LOADED for a chain plan, and completes with slot and variant; a unit that left service ends it with 0x16, a
placement that fails with its code, and an EMPTY slot. A chain plan becomes ACTIVE one millisecond after its segments agree
and the period covers the chain's latency; else its slot stays LOADED with the code. A RELOAD whose records are placed ends
DEGRADED with its golden ranges first, one that fails dooms the slot. Model choices in it: log 69, log 95. Each completes
with its own effect under its clause's conditions on state and operands alone: loadPlanDone, chainActivation,
reloadPlacementDone. -/
def Obligations.Plan_events : Prop :=
  ∀ (slot : Fin 4) (segs : List ChainSeg) (s : State),
    let p := planOf s slot
    let done := Instr.loadPlanDone slot
    let act := Instr.chainActivation slot segs
    let rel := Instr.reloadPlacementDone slot
    let r := placePlan s slot
    let y := bindChain s p segs
    let a := placeAll (fun s w => placeWeight s p.imageDa w) (p.weights.filter fun w => bitOf w.vmask p.variant) 0 s
    let b := placeAll (fun s c => placeCode s p.imageDa c) (p.code.filter fun c => bitOf c.vmask p.variant) 0 a.2
    ((p.state ≠ .loading ∨ p.load = none) → idles done s) ∧
    (∀ k, p.state = .loading → p.load = some k → takesEntry s k.pair →
      (∀ n, loadAborted s p = some n → k.gone = false → answers done s fun u =>
        ∃ w, posted w u k.pair k.cid 0x16 [n] ∧ planOf w slot = .reset ∧
          (∀ h, h ∈ w.store.held ∨ h ∈ w.store.owned → h.slot ≠ slot) ∧ (∀ g ∈ w.store.golden, g.slot ≠ slot) ∧
          ∀ a : Nat, rmem s.mem.undef a = false → (∀ g ∈ p.man.regions,
            let lo := if g.kind = 4 then tlaKey g.tile g.addr else g.addr
            a < lo ∨ lo + g.len ≤ a) → w.mem.readByte a = s.mem.readByte a) ∧
      (∀ x, r.1 = some x → takesEntry r.2 k.pair → k.gone = false → answers done s fun u =>
        ∃ w, posted w u k.pair k.cid x.1 x.2 ∧ planOf w slot = .reset) ∧
      (r.1 = none → takesEntry r.2 k.pair → k.gone = false → answers done s fun u =>
        ∃ w, posted w u k.pair k.cid 0 [slot, (planOf r.2 slot).variant] ∧
        w.mem = r.2.mem ∧ (planOf w slot).load = none ∧
        (planOf w slot).state = if (planOf r.2 slot).chain.isSome then .loaded else .active)) ∧
    ((p.state ≠ .loaded ∨ p.chain = none) → idles act s) ∧
    (∀ c, p.state = .loaded → p.chain = some c →
      (chainMismatch c p.uid y.segs ≠ none → answers act s fun u =>
        (planOf u slot).state = .loaded ∧ (planOf u slot).chainCode = 0x14 ∧ (planOf u slot).activeFrom = p.activeFrom) ∧
      (chainMismatch c p.uid y.segs = none → periodLen s < y.bound → answers act s fun u =>
        (planOf u slot).state = .loaded ∧ (planOf u slot).chainCode = 0x15 ∧ (planOf u slot).activeFrom = p.activeFrom) ∧
      (chainMismatch c p.uid y.segs = none → y.bound ≤ periodLen s → answers act s fun u =>
        u = { s with plans := u.plans } ∧ (∀ j, j ≠ slot.val → planOf u j = planOf s j) ∧
        y = { p with segs := segs.map (ownSeg s c), bound := chainBound y.segs, hmax := chainHmax y.segs } ∧
        planOf u slot = { y with chainCode := 0, activeFrom := some (s.clock.now + 1000000) })) ∧
    (p.state ≠ .reloading → idles rel s) ∧
    (p.state = .reloading →
      (a.1 = none → b.1 = none → answers rel s fun u => (planOf u slot).state = .degraded ∧ u.mem = b.2.mem ∧
        (∃ rest, u.store.golden = goldenRanges slot p.imageDa (p.weights.filter fun w => bitOf w.vmask p.variant) ++ rest) ∧
        fld (pget u (modPage 11) 0x0C0) (4 * slot.val + 3) (4 * slot.val) = SlotState.degraded.code) ∧
      ((a.1 ≠ none ∨ (a.1 = none ∧ b.1 ≠ none)) → answers rel s fun u =>
        (planOf u slot).doomed = true ∧ (planOf u slot).state = .reloading))

/-- R334, R335, R341, R342, R350, R389, R344: queue pairs. A tail write has the new entries fetched one at a time, here with
no other entry waiting; one that fails stops the pair with SQ_ERR behind those before it, and so does a tail outside the
queue; a pair that is off or stopped takes none; a head write inside the queue frees its entries; enabling starts the pair
afresh, disabling drops what it had, its DMA commands and its pending completions, and counts them. Both doorbells wake the
module. Completion queues and interrupts. A queue with room takes its held entries in order as far as they fit, and then one
event with the number lost; a coalescing time that has passed sends the message of an enabled vector and begins a new count;
masking a vector or the function holds its messages, unmasking a vector sends its pending one, and none is sent while the
function is masked. Model choices in it: log 18, 19, 101, 103. Each completes with its own effect under its clause's
conditions on state and operands alone: sqTail, cqHead, cqRoomPost, queuePairEnable, irqCoalesceTimeout, msixUnmask. -/
def Obligations.Queue_pairs_and_completions : Prop :=
  (
    ∀ (q : Fin 64) (tail : BitVec 12) (l : List (List Byte)) (bad : Option (BitVec 12)) (on : Bool) (s : State),
      let w := wakeFor s 2
      let v := wakeFor s 1
      let x := pairOf w q
      let n := sqSize w q
      let others (u : State) : Prop := ∀ p, p ≠ q.val → pairOf u p = pairOf w p
      let sqErr (u : State) : Prop := bitOf (pget u (modPage 10) (0x080 + 0x10 * q.val + 8)) 25 = true
      let d := newEntries n x.sqTail tail.toNat
      let es := (List.range d).map fun i => l.getD i (List.replicate 64 0)
      let alone := ∀ p < 64, (pairOf w p).waiting = []
      let tails := Instr.sqTail q tail l bad
      ((x.en = false ∨ x.stopped = true) → exec tails s = .next w) ∧
      (x.en = true → x.stopped = false →
        (n ≤ tail.toNat → answers tails s fun u => pairOf u q = { x with stopped := true } ∧ sqErr u ∧ others u) ∧
        (∀ e : BitVec 12, tail.toNat < n → alone → bad = some e → e.toNat < d → answers tails s fun u =>
          pairOf u q = { x with stopped := true, sqTail := tail.toNat, fetched := x.fetched ++ es.take e.toNat
                                waiting := es.drop e.toNat, fail := some 0,
                                sqHead := if e.toNat = 0 then x.sqHead else (x.sqHead + e.toNat) % n } ∧
          sqErr u ∧ sticky u (modPage 1) 5 = true ∧ others u ∧ u.mem = w.mem) ∧
        (tail.toNat < n → alone → (∀ e : BitVec 12, bad = some e → d ≤ e.toNat) → answers tails s fun u =>
          u = { w with host := u.host } ∧ others u ∧
          pairOf u q = { x with fetched := x.fetched ++ es, waiting := [], fail := bad.map (fun e => e.toNat - d)
                                sqHead := if d = 0 then x.sqHead else (x.sqHead + d) % n, sqTail := tail.toNat })) ∧
      (answers (.cqHead q tail) s fun u => u = { w with host := u.host } ∧ others u ∧
        pairOf u q = if x.en ∧ tail.toNat < cqSize w q then { x with cqHead := tail.toNat } else x) ∧
      ((pairOf v q).en = on → exec (.queuePairEnable q on) s = .next v) ∧
      ((pairOf v q).en = false → on = true → answers (.queuePairEnable q on) s fun u => u.mem = v.mem ∧
        (∀ p, p ≠ q.val → pairOf u p = pairOf v p) ∧ bitOf (regGet u (qReg q 0x10)) 24 = true ∧
        pairOf u q = { QPair.reset with en := true }) ∧
      ((pairOf v q).en = true → on = false → (∀ o ∈ v.chain.opens, o.pair ≠ q.val) → answers (.queuePairEnable q on) s fun u =>
        u.mem = v.mem ∧ (∀ p, p ≠ q.val → pairOf u p = pairOf v p) ∧ bitOf (regGet u (qReg q 0x10)) 24 = false ∧
        pairOf u q = { pairOf v q with
          en := false, stopped := false, waiting := [], fail := none, fetched := [], opens := [], held := [] } ∧
        u.host.dmas = v.host.dmas.filter (fun d => d.pair ≠ q.val) ∧ ticketsOf u q = 0 ∧
        cntGet u (modPage 1) 0x800 = (cntGet v (modPage 1) 0x800 + ((pairOf v q).fetched.length +
          ((pairOf v q).opens.filter fun o => o.2.isSome).length + (pairOf v q).held.length +
          (v.host.dmas.filter fun d => d.pair = q.val).length + ticketsOf v q)) % 2 ^ 64)) ∧
  (
    ∀ (q : Fin 64) (s : State),
      let x := pairOf s q
      let irq := regGet s (qReg q 0x14)
      let v := wakeFor s 1
      (∀ (status cid : Nat) (d : List Nat), takesEntry s q → posted s (completeNow s q cid status d) q cid status d) ∧
      ((x.en = false ∨ cqFull s q = true) → idles (.cqRoomPost q) s) ∧
      (x.en = true → cqFull s q = false → x.held = [] → x.lost = 0 → idles (.cqRoomPost q) s) ∧
      (x.en = true → cqFull s q = false → x.held ≠ [] → x.held.length ≤ 64 → x.lost = 0 →
        answers (.cqRoomPost q) s fun u => u = { s with host := u.host } ∧ ∃ k, 0 < k ∧ (pairOf u q).held = x.held.drop k ∧
          ((pairOf u q).held = [] ∨ cqFull u q = true)) ∧
      (x.en = true → cqFull s q = false → x.held = [] → 0 < x.lost → answers (.cqRoomPost q) s fun u =>
        (pairOf u q).lost = 0 ∧ ∀ p ∈ evtPairs s, takesEntry s p →
          ∃ e : List Byte, kfind (pairOf u p).posted (pairOf s p).cqTail = some e ∧
            field e 0 1 = 3 ∧ field e 1 1 = 4 ∧ field e 0x14 4 = x.lost % 2 ^ 32) ∧
      (bitOf irq 24 = true → x.unsig ≠ 0 → x.oldest + fld irq 23 16 * 1000 ≤ s.clock.now →
        answers (.irqCoalesceTimeout q) s fun u => u = { s with host := u.host } ∧ pairOf u q = { x with unsig := 0 } ∧
          (vecMasked s (min 191 (fld irq 7 0)) = false →
            kget 0 u.host.msixSent (min 191 (fld irq 7 0)) = kget 0 s.host.msixSent (min 191 (fld irq 7 0)) + 1) ∧
          (vecMasked s (min 191 (fld irq 7 0)) = true → min 191 (fld irq 7 0) ∈ u.host.msixPend)) ∧
      (¬ (bitOf irq 24 = true ∧ x.unsig ≠ 0 ∧ x.oldest + fld irq 23 16 * 1000 ≤ s.clock.now) →
        idles (.irqCoalesceTimeout q) s) ∧
      (∀ n : Fin 256, answers (.msixUnmask (some n) true) s fun u => u.host = v.host ∧ vecMasked u n = true) ∧
      (answers (.msixUnmask none true) s fun u => u = { v with host := { v.host with fnMask := true } }) ∧
      (∀ n : Fin 256, answers (.msixUnmask (some n) false) s fun u => u.mem = v.mem ∧
        bitOf (regGet u (0x10000 + 16 * n.val + 12)) 0 = false ∧
        (v.host.fnMask = true → u.host = v.host) ∧
        (v.host.fnMask = false → n.val ∈ v.host.msixPend → n.val ∉ u.host.msixPend ∧
          kget 0 v.host.msixSent n.val ≤ kget 0 u.host.msixSent n.val)) ∧
      answers (.msixUnmask none false) s fun u => u = { v with host := u.host } ∧ u.host.fnMask = false ∧
        ∀ n ∈ v.host.msixPend, vecMasked u n = false → n ∉ u.host.msixPend)

/-- R171, R172, R173, R179, R523: the run of periods. SP_CTRL.RUN places the next start at the first point of the grid at
least 100 µs ahead, or takes it away; the cutoff, 20 µs before a start, applies the commands accepted for it, holds the
limits and writes the admission record; a start takes the next number and its instant, and the admitted groups run: their
sequences become ACTIVE and their tiles take PERIOD_START; an end drops what has not committed, ends every program of the
period and closes it. Each comes only when it is due. Model choices in it: log 24, log 97, 117. Each completes with its own
effect under its clause's conditions on state and operands alone: spRunWrite, admissionCutoff, periodStart, periodEnd. -/
def Obligations.Periods : Prop :=
  ∀ (run : Bool) (away : List (Fin 4)) (routes : List (Fin 4 × List ChainSeg))
      (parts : List (BitVec 7 × List (Fin 12 × BitVec 32))) (s : State),
    let w := wakeFor s 1
    let base : Nat := pget w (modPage 11) 0x088 + pget w (modPage 11) 0x08C * 2 ^ 32
    let soon := w.clock.now + 100000
    let from' := if w.sched.inPeriod then max soon (w.sched.start + w.sched.len) else soon
    let k := (s.sched.num + 1) % 2 ^ 64
    (answers (.spRunWrite run) s fun u => running u = run ∧ u.seqs = w.seqs ∧
      (w.sched.early = [] → u.mem = w.mem ∧ u.plans = w.plans) ∧
      (run = true → running w = true → u.sched = w.sched) ∧
      (run = false → u.sched = { w.sched with next := none, early := [], admitted := false }) ∧
      (run = true → running w = false → ∃ x, u.sched = { w.sched with next := some x, early := [], admitted := false } ∧
        from' ≤ x ∧ x < from' + periodLen w ∧ ((x : Int) - base) % periodLen w = 0)) ∧
    ((nextStart s = none ∨ s.sched.admitted = true) → idles (.admissionCutoff away) s) ∧
    (∀ t, nextStart s = some t → s.sched.admitted = false → answers (.admissionCutoff away) s fun u =>
      u.sched.admitted = true ∧ u.sched.cmds = s.sched.later ∧ u.sched.later = [] ∧ u.clock.now = max s.clock.now (t - 20000) ∧
      u.sched.inPeriod = s.sched.inPeriod ∧ u.sched.groups = s.sched.groups ∧
      u.sched.records.getLast? = some (k,
        (u.sched.early.filter fun g => g.tag / 2 ^ 16 = k % 2 ^ 16).map fun g => (g.tag, g.members)) ∧
      (s.sched.cmds = [] → s.chain.waits = [] → u.seqs = s.seqs) ∧
      ∀ i c, s.sched.cmds = [(i, c)] → s.chain.waits = [] →
        (∀ st, seqMove (seqOf s i).state c = some st → (seqOf u i).state = st) ∧
        (seqMove (seqOf s i).state c = none → seqOf u i = seqOf s i)) ∧
    ((s.sched.inPeriod = true ∨ nextStart s = none) → idles (.periodStart routes) s) ∧
    (∀ t, s.sched.inPeriod = false → nextStart s = some t → answers (.periodStart routes) s fun u =>
      u.sched.inPeriod = true ∧ u.sched.num = k ∧ u.sched.start = t ∧
      u.sched.len = periodLen s ∧ u.sched.next = none ∧ u.sched.admitted = false ∧ u.clock.now = max s.clock.now t ∧
      pget u (modPage 11) 0x090 = k % 2 ^ 32 ∧
      ∀ g ∈ u.sched.groups, g.members ≠ [] ∧
        (s.sched.admitted = true → ∃ e ∈ s.sched.early, g = { e with members := g.members, columns := g.columns, tokens := g.tokens } ∧
          ∀ i ∈ g.members, i ∈ e.members) ∧
        (∀ i ∈ g.members, (seqOf u i).state = .active ∧ (seqOf u i).placed = true) ∧
        ∀ t' ∈ planTiles (planOf u g.slot), bitOf (tccOf u t').events 0 = true) ∧
    (s.sched.inPeriod = false → idles (.periodEnd parts) s) ∧
    (s.sched.inPeriod = true → answers (.periodEnd parts) s fun u =>
      u.sched.inPeriod = false ∧ u.clock.now = max s.clock.now (s.sched.start + s.sched.len) ∧
      ((∀ i, (planOf s i).chain = none) → (∀ g ∈ u.sched.groups, g.fate ≠ .running) ∧
        ∀ g ∈ s.sched.groups, g.fate = .running → ∀ i ∈ g.members, (seqOf u i).state ≠ .active) ∧
      ∀ c, c % 41 ≠ 40 → tagOf s s.sched.num (coreOf s c).tag.toNat = true → (coreOf u c).run = .idle)

/-- R174, R175, R177, R179, R425, R440, R441, R443, R444: the commit of a step group whose parts have ended. A group that no
tag names or that has been settled, or an end that is not before the period's end, changes nothing; one that has passed
already commits once nothing keeps it any more. Marks, a FATAL source or a plan control block that disagrees with its
complement keep the group from committing; else it commits, and each decode step counts, adds the tokens that it was
admitted with to the length and keeps the token. Replays of suspect work. A suspect piece that has not been replayed starts
on its hardware, or leaves its group without a commit point where there is none, or no code to copy; a group re-run starts
where one is due, once; a resolution settles the marks that the piece had at its start and those of its replay, counts a
strike on the unit, and leaves no commit point where the repeat failed. A replay is identical only where every line matched
and there are as many, and none that raised a cause of its own. Model choices in it: log 69, log 98. Each completes with its
own effect under its clause's conditions on state and operands alone: stepGroupCommit, pieceReplay, groupRerun,
replayResolve. -/
def Obligations.Commits_and_replays : Prop :=
  (
    ∀ (g : BitVec 7) (tc : BitVec 64) (ends : List (Fin 12 × BitVec 32)) (outs : List (BitVec 32 × List Byte)) (s : State),
      let i := Instr.stepGroupCommit g tc ends outs
      let t := max s.clock.now tc.toNat
      (groupOf s g.toNat = none → idles i s) ∧
      ∀ x, groupOf s g.toNat = some x →
        let due := s.sched.inPeriod = true ∧ x.fate = .running ∧ t < s.sched.start + s.sched.len
        let open' := due ∧ x.passed = false
        let clear := fatalHold s = false ∧ x.noCommit = false ∧ x.fenced = false ∧ x.unserved = false ∧
          marksClear s x = true ∧ pcbGood s x.slot = true ∧ slotRuns s x.slot = true
        (¬ due → idles i s) ∧
        (due → x.passed = true → clear → (planOf s x.slot).chain = none → answers i s fun u =>
          u.clock.now = t ∧ ∀ y ∈ u.sched.groups, y.tag = x.tag → y.fate = .committed) ∧
        (open' → ¬ clear → answers i s fun u => u.mem = s.mem ∧ u.seqs = s.seqs ∧ u.clock.now = t ∧
          ∀ y ∈ u.sched.groups, y.tag = x.tag → y.fate = .running) ∧
        (open' → clear → (planOf s x.slot).chain = none → answers i s fun u =>
          u.clock.now = t ∧ (∀ y ∈ u.sched.groups, y.tag = x.tag → y.fate = .committed) ∧
          (∀ m ∈ u.flt.marks, tagBase m.tag ≠ x.tag) ∧
          ∀ n token bytes, x.members = [n] → x.columns = [0] → outs.head? = some (token, bytes) → (seqOf s n).kind = 0 →
            (seqOf s n).slot = x.slot →
            (seqOf u n).committed = ((seqOf s n).committed + 1) % 2 ^ 32 ∧
            (seqOf u n).kvLen = ((seqOf s n).kvLen + x.tokens.getD 0 0) % 2 ^ 64 ∧ (seqOf u n).lastToken = token.toNat ∧
            (seqOf u n).dropRun = 0)) ∧
  (
    ∀ (g : BitVec 7) (page : BitVec 11) (n : Fin 32) (da : BitVec 64) (inputs : List Byte) (res : ReplayResult) (s : State),
      let pg := page.toNat
      let key := pieceKey pg n
      let piece := Instr.pieceReplay g page n da inputs
      let rerun := Instr.groupRerun g
      let resolve (p : Option (BitVec 11 × Fin 32)) := Instr.replayResolve g p res
      let becomes (u : State) (x y : StepGroup) : Prop :=
        u.sched.groups = s.sched.groups.map fun z => if z.tag = x.tag then y else z
      (groupOf s g.toNat = none → idles piece s ∧ idles rerun s ∧ ∀ p, idles (resolve p) s) ∧
      ∀ x, groupOf s g.toNat = some x →
        let due := x.fate = .running ∧ x.noCommit = false ∧ programMarked s x = false ∧ suspectPiece s x pg = true ∧
          key ∉ x.replayed
        let started (hw : Nat) (same : Bool) (seen : List Mark) : StepGroup :=
          { x with replays := x.replays ++ [⟨some key, hw, same, s.clock.now, false, 0, seen, []⟩]
                   replayed := x.replayed ++ [key], hwUnit := hw }
        (¬ due → idles piece s) ∧
        (due →
          (∀ pos t k, replayHw s pg n = .core pos → pageUnit pg n = some (t, k) →
            ((copyCode s x.slot t k pos).1 = true → answers piece s fun u => ∃ m, becomes u x (started (unitPhy t pos) false m)) ∧
            ((copyCode s x.slot t k pos).1 = false → answers piece s fun u => becomes u x { x with noCommit := true })) ∧
          (∀ phy, replayHw s pg n = .own phy → answers piece s fun u =>
            u.mem = s.mem ∧ becomes u x (started phy true (groupMarks s x.tag))) ∧
          (∀ node t k, replayHw s pg n = .peer node → pageUnit pg n = some (t, k) → answers piece s fun u =>
            u.mem = s.mem ∧ ∃ m, becomes u x (started (unitPhy 0x80 0xFF) false m)) ∧
          (replayHw s pg n = .none →
            answers piece s fun u => u.mem = s.mem ∧ becomes u x { x with noCommit := true })) ∧
        (rerunDue s x = false → idles rerun s) ∧
        (rerunDue s x = true → answers rerun s fun u => u.mem = s.mem ∧
          ∀ y ∈ u.sched.groups, y.tag = x.tag → y.rerun = true ∧
            ∃ r ∈ y.replays, r.unit = none ∧ r.hw = x.hwUnit ∧ r.sameHw = !x.needRerun ∧ r.since = s.clock.now) ∧
        (∀ p : Option (BitVec 11 × Fin 32), (∀ y ∈ x.replays, y.unit ≠ p.map fun q => pieceKey q.1.toNat q.2) →
          idles (resolve p) s) ∧
        (∀ r, x.replays.find? (fun y => y.unit = none) = some r → (s.sched.inPeriod = false ∨ x.passed = false) →
          answers (resolve none) s fun u => u.mem = s.mem ∧
          let res := replayResult s x r none res
          becomes u x (if res = .identical ∨ res = .differs then
              { x with replays := x.replays.filter (· != r), resolved := x.resolved ++ groupMarks s x.tag, outcome := 4 }
            else { x with replays := x.replays.filter (· != r), noCommit := true })) ∧
        ∀ r, x.replays.find? (fun y => y.unit = some key) = some r → (s.sched.inPeriod = false ∨ x.passed = false) →
          answers (resolve (some (page, n))) s fun u =>
          let res := replayResult s x r (some (pg, n.val)) res
          let settled (m : Mark) : Bool := (m.page = pg && r.seen.contains m) || (raisedBy s x r).contains m
          let rest := { x with replays := x.replays.filter (· != r) }
          let fixed (o : Nat) : StepGroup :=
            { rest with resolved := x.resolved ++ (groupMarks s x.tag).filter settled, outcome := o, hwUnit := r.hw }
          u.mem = s.mem ∧
          (res = .identical → becomes u x (fixed 3) ∧
            ∀ t k, pageUnit pg n = some (t, k) → (unitOf u t k).strikes = min 15 ((unitOf s t k).strikes + 1)) ∧
          (res = .differs → r.sameHw = false → ∃ l, becomes u x { fixed 4 with needRerun := true, subst := l } ∧
            ∀ t k, pageUnit pg n = some (t, k) → k < 40 → kfind l (coreId t k) = some r.hw) ∧
          (res = .differs → r.sameHw = true → becomes u x { rest with noCommit := true }) ∧
          (res = .sameFailure → mismatchOnly s x pg = true → becomes u x (fixed 2)) ∧
          (res = .sameFailure → mismatchOnly s x pg = false → becomes u x { rest with noCommit := true }) ∧
          (res = .failed → becomes u x { rest with noCommit := true }))

/-- R201, R230, R247, R300: posts of commands. A post that fits appends its lines, read at the post from the shared buffer
of the base die or from tile SRAM, to the queue of its engine; one that does not fit is discarded whole with an overflow
source. No byte of memory and no other engine changes. Model choices in it: log 26. Each completes with its own effect under
its clause's conditions on state and operands alone: tgWpost, nlPost, tcSpost, tgMpost. -/
def Obligations.Engine_posts : Prop :=
  ∀ (t : Fin 12) (l : Fin 8) (v : BitVec 32) (s : State),
    let n := fld v.toNat 31 28 + 1
    let n8 := fld v.toNat 26 24 + 1
    let n16 := fld v.toNat 27 24 + 1
    let off := fld v.toNat 27 7 * 128
    let sOff := fld v.toNat 23 7 * 128
    let fromSb (w : State) : List (List Byte) := (List.range n).map fun i =>
      if off + 128 * i + 128 ≤ 0x4000000 then w.mem.readBytes (sbBase (t.val / 3) + (off + 128 * i)) 128 else zeroLine
    let fromSram (w : State) (n : Nat) : List (List Byte) := (List.range n).map fun i =>
      if sOff + 128 * i + 128 ≤ 0x1000000 then w.mem.readBytes (tlaKey t (sOff + 128 * i)) 128 else zeroLine
    let pg := tgPage (t.val / 3)
    (writesReg (.tgWpost t v) s pg fun w u => u.mem = w.mem ∧
      (64 < (tongsOf w t).walkQ.length + n → sticky u pg 17 = true ∧ u.eng = w.eng) ∧
      ((tongsOf w t).walkQ.length + n ≤ 64 → w.mem.badPar = [] →
        u.eng = { w.eng with tongs := u.eng.tongs } ∧ (∀ t', t' ≠ t.val → tongsOf u t' = tongsOf w t') ∧
        tongsOf u t = { tongsOf w t with walkQ := (tongsOf w t).walkQ ++ fromSb w })) ∧
    (writesReg (.tgMpost t v) s pg fun w u => u.mem = w.mem ∧
      (32 < (tongsOf w t).memQ.length + n → sticky u pg 24 = true ∧ u.eng = w.eng) ∧
      ((tongsOf w t).memQ.length + n ≤ 32 → w.mem.badPar = [] →
        u.eng = { w.eng with tongs := u.eng.tongs } ∧ (∀ t', t' ≠ t.val → tongsOf u t' = tongsOf w t') ∧
        tongsOf u t = { tongsOf w t with memQ := (tongsOf w t).memQ ++ fromSb w })) ∧
    (writesReg (.nlPost t l v) s (nlPage t l) fun w u => u.mem = w.mem ∧
      let x := layerOf w t l
      let held := (x.queue.filter fun i => !i.scan).length
      (32 < held + n16 → sticky u (nlPage t l) 6 = true ∧ u.eng = w.eng) ∧
      (held + n16 ≤ 32 → u.eng = { w.eng with layers := u.eng.layers } ∧
        layerOf u t l = { x with queue := x.queue ++ (fromSram w n16).map fun c => NbItem.mk false c 0 [] [] false })) ∧
    writesReg (.tcSpost t v) s (tilePage t 0) fun w u => u.mem = w.mem ∧
      let x := scanOf w t
      (8 < x.queue.length + n8 → sticky u (tilePage t 0) 17 = true ∧ u.eng = w.eng) ∧
      (x.queue.length + n8 ≤ 8 → u.eng = { w.eng with scans := u.eng.scans } ∧
        scanOf u t = { x with queue := x.queue ++ fromSram w n8 })

/-- R197 to R201, R420: walks. The front command starts while fewer than four walks run: an illegal one is discarded with a
source, a legal one runs from its first page with nothing delivered and DELIVERED at 0. A delivery waits for room in the
ring with what it has read of its page, moves past its page and advances DELIVERED by one; a walk with no page left ends,
counts and sets its flag. A walk whose half Quench holds waits. Model choices in it: log 26, log 34. Each completes with its
own effect under its clause's conditions on state and operands alone: walk, walkDelivery, walkComplete. -/
def Obligations.Walks : Prop :=
  ∀ (t : Fin 12) (i : Fin 4) (s : State),
    let x := tongsOf s t
    let delivered (u : State) (cmd : List Byte) : Nat := u.mem.readNat (tlaKey t (ringTla cmd 0)) 8
    let lands (cmd : List Byte) : Prop := tileOpen s t ∧ pathsGood s ∧ lineFree s t (field cmd 1 1) (field cmd 0x28 4)
    let waits (hs : List (Nat × Nat)) : Prop := hs.any (halfHeld s) = true
    (x.walkQ = [] → idles (.walk t) s) ∧
    (∀ cmd rest, x.walkQ = cmd :: rest →
      let hs := tlaHalves t (ringTla cmd 0) 8
      (waits hs → answers (.walk t) s fun u => u.mem = s.mem ∧ u.eng = s.eng) ∧
      (¬ waits hs → 4 ≤ x.walks.length → idles (.walk t) s) ∧
      (¬ waits hs → x.walks.length < 4 → walkOk s cmd = false → answers (.walk t) s fun u =>
        u.mem = s.mem ∧ tongsOf u t = { x with walkQ := rest } ∧ sticky u (tgPage (t.val / 3)) 16 = true) ∧
      (¬ waits hs → x.walks.length < 4 → walkOk s cmd = true → answers (.walk t) s fun u =>
        (∃ desc bad, tongsOf u t = { x with walkQ := rest, walks := x.walks ++ [⟨cmd, desc, bad, walkFirst cmd, 0, none⟩] }) ∧
        (lands cmd → delivered u cmd = 0))) ∧
    (x.walks[i.val]? = none → idles (.walkDelivery t i) s ∧ idles (.walkComplete t i) s) ∧
    ∀ w, x.walks[i.val]? = some w →
      let r := match w.found with
        | some da => (some (w.page, da), s)
        | none => walkNext s t w (walkLeft w) w.page
      (r.1 = none → idles (.walkDelivery t i) s ∧ answers (.walkComplete t i) s fun u =>
        tongsOf u t = { x with walks := x.walks.eraseIdx i, walkDone := (x.walkDone + 1) % 2 ^ 16 } ∧
        (bitOf (field w.cmd 3 1) 0 = true → flagVal u false t (field w.cmd 2 1) = true)) ∧
      ∀ p da, r.1 = some (p, da) → idles (.walkComplete t i) s ∧
        (waits (walkHalves t w da) → answers (.walkDelivery t i) s fun u => u.mem = s.mem ∧ u.eng = s.eng) ∧
        (¬ waits (walkHalves t w da) → ringRoom r.2 t w = false → answers (.walkDelivery t i) s fun u => u.mem = r.2.mem ∧
          tongsOf u t = { x with walks := x.walks.set i { w with page := p, found := some da } }) ∧
        (¬ waits (walkHalves t w da) → ringRoom r.2 t w = true → answers (.walkDelivery t i) s fun u =>
          tongsOf u t = { x with walks := x.walks.set i { w with page := p + 1, n := w.n + 1, found := none } } ∧
          (lands w.cmd → walkOk s w.cmd = true → delivered u w.cmd = (w.n + 1) % 2 ^ 64))

/-- R218, R219, R221, R223, R229, R230, R231, R241, R242, R245, R247, R248: near-bank work of a layer. The first queued item
whose banks are free starts while fewer than eight run; an illegal descriptor is discarded with its source. A row grant
streams the rest of a row of the bank that is due, its halves AWAKE, and passes the turn on; the final comparison marks the
oldest descriptor that has streamed and leaves the lines that it has to write back; a descriptor that is through ends,
counts and sets its flag; a refresh of a streaming bank takes what its slices owe and holds the sets. Scans of a tile. The
front command starts while none runs: an illegal one is discarded with its source, a legal one is presented to every layer
it names. A slice that has filtered all its blocks writes its list once; when every named slice has, the scan ends, counts
and sets its flag. What Quench holds waits. Model choices in it: log 26, 28, 34. Each completes with its own effect under
its clause's conditions on state and operands alone: scan, stream, rowGrant, nbuFinal, nbuDescComplete, nbuRefreshPreempt,
sliceListWrite, scanComplete. -/
def Obligations.Near_bank_and_scans : Prop :=
  (
    ∀ (t : Fin 12) (l : Fin 8) (b : Fin 16) (ups : List NbUpset) (par dueNow : Bool) (s : State),
      let x := layerOf s t l
      let next := nextItem (x.run.flatMap fun i => cmdBanks i.cmd) [] x.queue
      let fin := x.run.find? fun i => !i.scan && !i.final && nbFinalBit i.cmd && i.streamed
      let done := x.run.find? fun i => !i.scan && i.streamed && i.wb.isEmpty && (i.final || !nbFinalBit i.cmd)
      let busy := x.run.find? fun i => i.left b
      let waits (c : List Byte) : Prop := ∃ n ∈ cmdSlices c, halfHeld s (t, sliceHalf n) = true
      ((8 ≤ x.run.length ∨ next = none) → idles (.stream t l) s) ∧
      (∀ i rest, x.run.length < 8 → next = some (i, rest) →
        (i.scan = false → descOk s t l i = false → answers (.stream t l) s fun u =>
          u.mem = s.mem ∧ layerOf u t l = { x with queue := rest } ∧ sticky u (nlPage t l) 5 = true) ∧
        ((i.scan = true ∨ descOk s t l i = true) → answers (.stream t l) s fun u => u.mem = s.mem ∧
          layerOf u t l = { x with queue := rest, run := x.run ++ [{ i with ck := pget s (nlPage t l) 0x090 }] })) ∧
      (waitingBanks s t l = [] → answers (.rowGrant t l ups) s fun u => u.mem = s.mem ∧ u.eng = s.eng) ∧
      (∀ i, x.run = [i] → i.scan = false → i.wb = [] → cmdBanks i.cmd = [b.val] → cmdSlices i.cmd ≠ [] → i.left b = true →
        (∀ n ∈ cmdSlices i.cmd, halfState s t (sliceHalf n) = 0) → 1 ≤ limOf s t l → answers (.rowGrant t l ups) s fun u =>
          let p := kget 0 i.prog b
          layerOf u t l = { x with
            run := [{ i with prog := kinsert i.prog b (p + min (i.total - p) (8 - (nbLine0 i.cmd + p) % 8)) }]
            turn := (b.val + 1) % 16, stopped := (layerOf u t l).stopped }) ∧
      (fin = none → idles (.nbuFinal t l par) s) ∧
      (∀ i, fin = some i →
        (waits i.cmd → answers (.nbuFinal t l par) s fun u => u.mem = s.mem ∧ u.eng = s.eng) ∧
        (¬ waits i.cmd → answers (.nbuFinal t l par) s fun u => ∃ ws : List NbWrite, (nbDest i.cmd ≠ 1 → ws = []) ∧
          layerOf u t l = { x with run := x.run.map fun y => if y = i then { y with wb := ws, final := true } else y })) ∧
      (done = none → idles (.nbuDescComplete t l) s) ∧
      (∀ i, done = some i → answers (.nbuDescComplete t l) s fun u => u.mem = s.mem ∧
        layerOf u t l = { x with run := x.run.erase i, done := (x.done + 1) % 2 ^ 12 } ∧
        (bitOf (nbCtl i.cmd) 3 = true → flagVal u false t (field i.cmd 4 1) = true)) ∧
      (busy = none → idles (.nbuRefreshPreempt t l b dueNow) s) ∧
      ∀ i, busy = some i → answers (.nbuRefreshPreempt t l b dueNow) s fun u => u.mem = s.mem ∧
        u.eng = { s.eng with layers := u.eng.layers } ∧ layerOf u t l = { x with stopped := (layerOf u t l).stopped } ∧
        ∀ n ∈ cmdSlices i.cmd, kget 0 (sliceOf u t n).owed (refKey l b) = 0 ∧
          ((dueNow = true ∨ 0 < kget 0 (sliceOf s t n).owed (refKey l b)) →
            kfind (sliceOf u t n).lastRef (refKey l b) = some s.clock.now)) ∧
  (
    ∀ (t : Fin 12) (n : Fin 32) (par : Bool) (s : State),
      let x := scanOf s t
      ((x.run ≠ none ∨ x.queue = []) → idles (.scan t) s) ∧
      (∀ c rest, x.run = none → x.queue = c :: rest →
        (scanOk s t c = false → answers (.scan t) s fun u =>
          u.mem = s.mem ∧ scanOf u t = { x with queue := rest } ∧ sticky u (tilePage t 0) 16 = true) ∧
        (scanOk s t c = true → answers (.scan t) s fun u =>
          u.mem = s.mem ∧ scanOf u t = { x with queue := rest, run := some ⟨c, [], [], [], []⟩ } ∧
          ∀ l ∈ scLayers c, layerOf u t l =
            { layerOf s t l with queue := (layerOf s t l).queue ++ [⟨true, c, 0, [], [], false⟩] })) ∧
      (x.run = none → idles (.sliceListWrite t n par) s ∧ idles (.scanComplete t) s) ∧
      ∀ r, x.run = some r →
        let due := n.val ∈ cmdSlices r.cmd ∧ n.val ∉ r.written ∧
          kget 0 r.blocks n = (scLayers r.cmd).length * (cmdBanks r.cmd).length * scBpb r.cmd
        let a := field r.cmd 0x1C 4 + (cmdSlices r.cmd).idxOf n.val * field r.cmd 0x20 4
        let waits := ((t.val, sliceHalf n) :: tlaHalves t a (listSize r.cmd)).any (halfHeld s) = true
        let r' := if par ∧ n.val ∉ r.poison then { r with poison := r.poison ++ [n.val] } else r
        let len := (listBytes r' n).length
        let all := ∀ m ∈ cmdSlices r.cmd, m ∈ r.written
        (¬ due → idles (.sliceListWrite t n par) s) ∧
        (due → waits → answers (.sliceListWrite t n par) s fun u => u.mem = s.mem ∧ u.eng = s.eng) ∧
        (due → ¬ waits → answers (.sliceListWrite t n par) s fun u =>
          scanOf u t = { x with run := some { r' with written := r.written ++ [n.val] } } ∧
          (tileOpen s t → pathsGood s → a + len ≤ 0x1000000 → u.mem.readBytes (tlaKey t a) len = listBytes r' n ∧
            memSameOutside s u (tlaKey t a) (tlaKey t a + len))) ∧
        (¬ all → idles (.scanComplete t) s) ∧
        (all → answers (.scanComplete t) s fun u =>
          u.mem = s.mem ∧ scanOf u t = { x with run := none, done := (x.done + 1) % 2 ^ 16 } ∧
          (∀ l ∈ scLayers r.cmd, ∀ i ∈ (layerOf u t l).run, ¬ (i.scan = true ∧ i.cmd = r.cmd)) ∧
          (bitOf (nbCtl r.cmd) 1 = true → flagVal u false t (field r.cmd 4 1) = true)))

/-- R299 to R304, R362, R363, R420: memory commands of a tile's Tongs. The front command is taken while fewer than four run;
an illegal one is discarded with its source; a command of another operation stays, and one that needs a half that Quench
holds waits. A contribution that its adders take is applied and completes, one refused waits with its data, one in conflict
is discarded; a wait ends by a retry or after its time. An atomic writes the new value and returns the old one; a send
without a route is discarded with its source, else, with a path to its port, its frames go and it runs. Model choices in it:
log 26, 29, 34. Each completes with its own effect under its clause's conditions on state and operands alone: reduce,
atomic, send, sendCombine, rflag. -/
def Obligations.Memory_commands : Prop :=
  ∀ (t : Fin 12) (s : State),
    let x := tongsOf s t
    let pg := tgPage (t.val / 3)
    let rows : List (Nat × Instr) :=
      [(2, .reduce t), (3, .atomic t), (4, .send t), (5, .sendCombine t), (6, .rflag t)]
    ((x.memQ = [] ∨ 4 ≤ x.reds.length + x.sends) → ∀ r ∈ rows, idles r.2 s) ∧
    ∀ c rest, x.memQ = c :: rest → x.reds.length + x.sends < 4 →
      let took := setTongs s t { x with memQ := rest }
      let waits := (mcmdHalves t c).any (halfHeld s) = true
      let counted (u : State) : Prop :=
        tongsOf u t = { x with memQ := rest, memDone := (x.memDone + 1) % 2 ^ 16 } ∧
        ∀ f, mcFlag c = some f → flagVal u false t f = true
      (mcmdOk c = false → ∀ r ∈ rows, answers r.2 s fun u =>
        u.mem = s.mem ∧ tongsOf u t = { x with memQ := rest } ∧ sticky u pg 23 = true) ∧
      (mcmdOk c = true → ∀ r ∈ rows, (mcOp c ≠ r.1 → idles r.2 s) ∧
        (mcOp c = r.1 → waits → answers r.2 s fun u => u.mem = s.mem ∧ u.eng = s.eng)) ∧
      (mcmdOk c = true → ¬ waits →
        (mcOp c = 2 →
          let d := tlaRead took (tongsReq t (cmdTag c)) t (mcSrc c) (mcLen c)
          let k : Contribution :=
            ⟨t, mcFlag c, d.1.1, mcDst c, mcLen c, mcCidx c, mcCcount c, mcFmt c, cmdTag c, s.clock.now, none⟩
          (answerOf d.2 k = .refuse → answers (.reduce t) s fun u =>
            u.mem = s.mem ∧ tongsOf u t = { x with memQ := rest, reds := x.reds ++ [k] }) ∧
          (answerOf d.2 k = .conflict → answers (.reduce t) s fun u =>
            u.mem = s.mem ∧ tongsOf u t = { x with memQ := rest } ∧ sticky u pg 26 = true) ∧
          (answerOf d.2 k = .take → answers (.reduce t) s fun u => counted u ∧
            (∀ a o, daKind (mcDst c) = .shared a o → baseUp s a = true → s.store.held = [] → tileOpen s t → pathsGood s →
              mcCidx c = 0 → mcLen c = 128 →
              u.mem.readBytes (mcDst c) 128 = s.mem.readBytes (tlaKey t (mcSrc c)) 128))) ∧
        (mcOp c = 3 → ∀ a o, daKind (mcDst c) = .shared a o → answers (.atomic t) s fun u => counted u ∧
          let n := if mcFmt c = 0 then 4 else 8
          let old := s.mem.readNat (mcDst c) n
          (baseUp s a = true → s.mem.parityBad (mcDst c) n = false → tileOpen s t → pathsGood s →
            (∀ p, tlaStore (mcSrc c) = some p → lineFree s t p (mcSrc c - storeTla p)) →
            u.mem.readNat (mcDst c) n = atomicVal (mcCidx c) (8 * n) old (mcArg0 c) (mcArg1 c) % 2 ^ (8 * n) ∧
            u.mem.readNat (tlaKey t (mcSrc c)) 8 = old)) ∧
        ((mcOp c = 4 ∨ mcOp c = 5) →
          let i := if mcOp c = 4 then Instr.send t else .sendCombine t
          (bundleOf s (fld (mcArg0 c) 15 0) = [] → answers i s fun u =>
            u.mem = s.mem ∧ tongsOf u t = { x with memQ := rest } ∧ sticky u pg 27 = true) ∧
          (bundleOf s (fld (mcArg0 c) 15 0) ≠ [] → pathsGood s → answers i s fun u =>
            u.mem = s.mem ∧ tongsOf u t = { x with memQ := rest, sends := x.sends + 1 } ∧
            u.chain.cmdId = (s.chain.cmdId + 1) % 2 ^ 16)) ∧
        (mcOp c = 6 →
          (bundleOf s (fld (mcArg0 c) 15 0) = [] → answers (.rflag t) s fun u =>
            u.mem = s.mem ∧ tongsOf u t = { x with memQ := rest } ∧ sticky u pg 27 = true) ∧
          (bundleOf s (fld (mcArg0 c) 15 0) ≠ [] → answers (.rflag t) s fun u => u.mem = s.mem ∧
            tongsOf u t = { x with memQ := rest, memDone := (x.memDone + 1) % 2 ^ 16 })))

/-- R263, R264, R302, R401, R420: waiting contributions and FILL. A retry that is still refused leaves the contribution
waiting, any other answer removes it; one refused for the programmed time is discarded with its source, by a retry too. GO
starts a legal FILL, is refused while one runs, and is marked bad where the range is not legal; a FILL that ends has zeroed
the part of its range that can be reached and nothing else, and shows DONE where it has reached all. What needs a half that
Quench holds waits. Model choices in it: log 34, log 99. Each completes with its own effect under its clause's conditions on
state and operands alone: reduceRetry, redTimeout, fill, fillDone. -/
def Obligations.Waiting_reductions_and_fill : Prop :=
  ∀ (a : Fin 4) (t : Option (Fin 3)) (i : Nat) (s : State),
    let l := redsOf s a t
    let pg := tgPage a
    let waits (da n : Nat) : Prop := (daHalves da n).any (halfHeld s) = true
    (l[i]? = none → idles (.reduceRetry a t i) s ∧ idles (.redTimeout a t i) s) ∧
    (∀ c, l[i]? = some c →
      let limit := c.since + 1000 * max 1 (fld (pget s pg 0x340) 15 0)
      (s.clock.now < limit → idles (.redTimeout a t i) s ∧
        (waits c.dst c.len → answers (.reduceRetry a t i) s fun u => u.mem = s.mem ∧ u.eng = s.eng) ∧
        (¬ waits c.dst c.len →
          (answerOf s c = .refuse → answers (.reduceRetry a t i) s fun u => u.mem = s.mem ∧ u.eng = s.eng) ∧
          (answerOf s c = .conflict → answers (.reduceRetry a t i) s fun u => u.mem = s.mem ∧ sticky u pg 26 = true ∧
            redsOf u a t = l.eraseIdx i) ∧
          (answerOf s c = .take → answers (.reduceRetry a t i) s fun u => redsOf u a t = l.eraseIdx i))) ∧
      (limit ≤ s.clock.now → ∀ x ∈ [Instr.reduceRetry a t i, .redTimeout a t i], answers x s fun u =>
        u.mem = s.mem ∧ sticky u pg 25 = true ∧ redsOf u a t = l.eraseIdx i)) ∧
    (writesReg (.fill a) s pg fun w u =>
      let r := fillRange w a
      u.mem = w.mem ∧
      (bitOf (pget w pg 0x294) 0 = true → u.eng = w.eng ∧ sticky u pg 22 = true) ∧
      (bitOf (pget w pg 0x294) 0 = false → fillOk w a r.1 r.2 = false →
        u.eng = w.eng ∧ sticky u pg 21 = true ∧ bitOf (pget u pg 0x294) 2 = true) ∧
      (bitOf (pget w pg 0x294) 0 = false → fillOk w a r.1 r.2 = true →
        u.eng = { w.eng with fills := kinsert w.eng.fills a r } ∧ bitOf (pget u pg 0x294) 0 = true)) ∧
    (kfind s.eng.fills a.val = none → idles (.fillDone a) s) ∧
    ∀ da n, kfind s.eng.fills a.val = some (da, n) →
      (waits da n → answers (.fillDone a) s fun u => u.mem = s.mem ∧ u.eng = s.eng) ∧
      (¬ waits da n → answers (.fillDone a) s fun u =>
        u.eng = { s.eng with fills := kerase s.eng.fills a } ∧
        bitOf (pget u pg 0x294) 0 = false ∧ memSameOutside s u da (da + n) ∧
        (3 * a.val * tileBytes ≤ da → da + n ≤ (3 * a.val + 3) * tileBytes → pathsGood s →
          (∀ k < 3, tileOpen s (3 * a.val + k)) → bitOf (pget u pg 0x294) 1 = true ∧
            ∀ b, da ≤ b → b < da + n → u.mem.readByte b = 0))

/-- R310, R319, R320, R322, R325: flits. A flit replayed once for its parity raises its source, the second failure the next
one and leaves the requester's next flit to arrive poisoned, and the operation registers show the segment, the requester and
the tag. An arbiter output, fed as its level is, grants a waiting input of the greatest credit, the lowest of equals, where
a waiting input has gained its census, 1 for a leaf and else what the arbiter before it stamped, and takes the total from
its credit; with none waiting it grants none anew. Bridges. A module that fails leaves the set that both ends show, with the
source of a degraded bridge; with its last module the bridge is DOWN, both ends say so, and what was in flight arrives
poisoned; a module that has failed already changes nothing. A retry of the adapter raises its source at its end. Model
choices in it: log 83, 100. Each completes with its own effect under its clause's conditions on state and operands alone:
flitParityReplay, arbiterGrant, bridgeModuleFail, ucieAdapterRetry. -/
def Obligations.Flits_and_bridges : Prop :=
  (
    (∀ (t : Fin 12) (seg : Fin 4) (src : BitVec 8) (tag : BitVec 32) (again : Bool) (s : State),
      answers (.flitParityReplay t seg src tag again) s fun u =>
        u.mem = s.mem ∧ u.eng = s.eng ∧ sticky u (fbPage t) (if again then 1 else 0) = true ∧
        pget u (fbPage t) 0x090 = seg.val + 1 + src.toNat * 2 ^ 8 ∧ pget u (fbPage t) 0x094 = tag.toNat ∧
        u.store.badFlits = s.store.badFlits ++
          if again then [⟨if src.toNat < 41 then some (.part t src.toNat) else none, .seg t seg⟩] else []) ∧
    ∀ (arb : ArbOut) (inputs : List ArbInput) (s : State),
      let a := kget Arbiter.reset s.store.arbs arb.key
      let fed := ∀ x ∈ inputs, arbFeeds arb x.src = true
      let waits (i : Nat) : Prop := ∃ x, inputs[i]? = some x ∧ x.waiting = true
      let n (i : Nat) : Int := ((inputs[i]?.map fun x => if x.waiting then flitCensus s x.src else 0).getD 0 : Nat)
      let credit (i : Nat) : Int := a.credit.getD i 0 + n i
      (¬ fed → idles (.arbiterGrant arb inputs) s) ∧
      (fed → answers (.arbiterGrant arb inputs) s fun u =>
        let b := kget Arbiter.reset u.store.arbs arb.key
        u = { s with store := u.store } ∧ u.store = { s.store with arbs := u.store.arbs } ∧
        (∀ k, k ≠ arb.key → kget Arbiter.reset u.store.arbs k = kget .reset s.store.arbs k) ∧
        ((∀ i, ¬ waits i) → b.granted = a.granted ∧ b.stamp = a.stamp ∧ ∀ i < inputs.length, b.credit.getD i 0 = 0) ∧
        ((∃ i, waits i) → ∃ g, b.granted = some g ∧ waits g ∧
          (∀ i, waits i → credit i ≤ credit g ∧ (credit i = credit g → g ≤ i)) ∧
          b.credit.getD g 0 = credit g - ((List.range inputs.length).map n).sum ∧
          (∀ i, i ≠ g → waits i → b.credit.getD i 0 = credit i) ∧
          b.stamp = ((List.range inputs.length).map fun i =>
            if (b.seen.getD i none).any (fun t => s.clock.now < t + arbWindow) then b.census.getD i 0 else 0).sum))) ∧
  (
    ∀ (x m : Fin 4) (far : Bool) (lost : List (Leaf × BitVec 32)) (s : State),
      let e := bridgeEnds x
      let up := fld (pget s e.1 0x080) 3 0
      let left := setBitN up m false
      (bitOf up m = false → idles (.bridgeModuleFail x m lost) s) ∧
      (bitOf up m = true → answers (.bridgeModuleFail x m lost) s fun u => u.mem = s.mem ∧
        u.store.badFlits = s.store.badFlits ++ (if left = 0 then lost.map fun y => ⟨some y.1, .bridge x⟩ else []) ∧
        ∀ pg, pg = e.1 ∨ pg = e.2 → fld (pget u pg 0x080) 3 0 = left ∧
          (left ≠ 0 → sticky u pg 1 = true) ∧
          (left = 0 → sticky u pg 2 = true ∧ fld (pget u pg 0x080) 5 4 = 3)) ∧
      answers (.ucieAdapterRetry x far) s fun u =>
        u.mem = s.mem ∧ sticky u (if far then e.2 else e.1) 0 = true ∧ ∀ t k, halfState u t k = halfState s t k)

/-- R315 to R318, R323, R420: the halves of a tile. An AWAKE half that has been idle for the programmed time begins to go
down; a half that goes down is DOWN at its end; a request wakes it by way of its FIFO and is poisoned where the half is
GATED; a half with a latched wake reaches AWAKE, its FIFO empty, and a request or a wake that waited for more than 8 µs sets
its source; the WAKE bits of the control register wake a half that is neither AWAKE nor GATED, and latch the wake while
Quench holds it. Nothing of this changes memory. Model choices in it: log 34. Each completes with its own effect under its
clause's conditions on state and operands alone: halfIdleTimeout, halfDown, halfWakeRequest, halfAwake, gatedAccess,
fbHalfCtlWrite. -/
def Obligations.Tile_halves : Prop :=
  ∀ (t : Fin 12) (h : Fin 2) (who : Leaf) (tag v : BitVec 32) (s : State),
    let c := halfState s t h
    let gated := halfGated s t h = true
    let fifo (x : State) : Nat := (kget [] x.store.seam (t * 2 + h)).length
    let idle := 1000 * max 1 (fld (pget s (fbPage t) 0x088) 15 0)
    let due := tileUp s t = true ∧ c = 0 ∧ bitOf (pget s (fbPage t) 0x080) h = true ∧ halfIdle s t h = true ∧
      kget 0 s.store.idleSince (t * 2 + h) + idle ≤ s.clock.now
    let since := kfind s.store.wakeSince (t * 2 + h)
    let onlyHalf (u : State) (code : Nat) : Prop := onlyRegsAt s u [regOff (fbPage t) 0x084] ∧ halfState u t h = code
    let wakes := Instr.halfWakeRequest t h who tag
    (due → answers (.halfIdleTimeout t h) s fun u => onlyHalf u 1) ∧ (¬ due → idles (.halfIdleTimeout t h) s) ∧
    ((c = 1 ∨ c = 3) → answers (.halfDown t h) s fun u => onlyHalf u 2) ∧
    (c ≠ 1 → c ≠ 3 → idles (.halfDown t h) s) ∧
    ((tileUp s t = false ∨ c = 0 ∨ (¬ gated ∧ 64 ≤ fifo s)) → idles wakes s) ∧
    (tileUp s t = true → c ≠ 0 → gated → answers wakes s fun u => u.mem = s.mem ∧ sticky u (fbPage t) 3 = true ∧ halfState u t h = c) ∧
    (tileUp s t = true → c ≠ 0 → ¬ gated → fifo s < 64 → answers wakes s fun u => u.mem = s.mem ∧
      halfState u t h = (if c = 1 then 3 else c) ∧ (kfind u.store.wakeSince (t * 2 + h)).isSome = true ∧
      kget [] u.store.seam (t * 2 + h) = kget [] s.store.seam (t * 2 + h) ++ [⟨who, tag.toNat, s.clock.now, false⟩]) ∧
    ((since = none ∨ c ≠ 2) → idles (.halfAwake t h) s) ∧
    (∀ t0, since = some t0 → c = 2 → answers (.halfAwake t h) s fun u => u.mem = s.mem ∧
      (s.quench.holding = false → halfState u t h = 0 ∧ kfind u.store.wakeSince (t * 2 + h) = none ∧ fifo u = 0) ∧
      (s.quench.holding = true → halfState u t h = 2 ∧ kfind u.store.wakeSince (t * 2 + h) = some t0) ∧
      (fifo s = 0 → t0 + 8000 < s.clock.now → sticky u (fbPage t) 2 = true) ∧
      ∀ r ∈ kget [] s.store.seam (t * 2 + h), r.slow = false → r.since + 8000 < s.clock.now → sticky u (fbPage t) 2 = true) ∧
    (tileUp s t = true → gated → answers (.gatedAccess t h tag) s fun u => u.mem = s.mem ∧ sticky u (fbPage t) 3 = true) ∧
    ((tileUp s t = false ∨ ¬ gated) → idles (.gatedAccess t h tag) s) ∧
    writesReg (.fbHalfCtlWrite t v) s (fbPage t) fun w u => u.mem = w.mem ∧ pget u (fbPage t) 0x080 = v.toNat % 4 ∧
      ∀ k < 2, let b := halfState w t k
        ((b = 0 ∨ halfGated w t k = true ∨ bitOf v.toNat (2 + k) = false) → halfState u t k = b) ∧
        (halfGated w t k = false → bitOf v.toNat (2 + k) = true → w.quench.holding = false → halfState u t k = 0) ∧
        (b ≠ 0 → halfGated w t k = false → bitOf v.toNat (2 + k) = true → w.quench.holding = true →
          halfState u t k = (if b = 1 then 3 else b) ∧ (kfind u.store.wakeSince (t * 2 + k)).isSome = true)

/-- R313, R326, R328, R332, R333: host accesses through the windows. A read of the shared buffer through BAR2 delivers its
bytes, a write puts them and nothing else, an access outside its window does not reach the module; the flits of an access
cross the bridges east-west first, and a base die between counts them as transit; a resize of BAR4 leaves its base a
multiple of the size; an AtomicOp of 4 or 8 aligned bytes on BAR2 returns the old value and writes the new one, and a word
of bad parity answers poisoned; any other AtomicOp is an unsupported request. Model choices in it: log 83, 102. Each
completes with its own effect under its clause's conditions on state and operands alone: bar2Atomicop, bar4Access. -/
def Obligations.Host_windows : Prop :=
  ∀ (off : BitVec 48) (o : BitVec 28) (len : Nat) (d : List Byte) (size : Fin 3) (bar : HostBar) (k : Fin 12)
    (op : HostAtomic) (a b : BitVec 64) (s : State),
    let da := sbBase 0 + off.toNat
    let bytes := 4 * 2 ^ size.val
    let x := sbBase (o.toNat / 0x4000000) + o.toNat % 0x4000000
    let old := s.mem.readNat x bytes
    let atomic := Instr.bar2Atomicop bar o size op a b
    let more (u : State) (pg r : Nat) : Prop := cntFrozen s pg = false → cntGet u pg r = (cntGet s pg r + 1) % 2 ^ 64
    (0x10000000 < off.toNat + len → idles (.bar4Access true none off len none) s) ∧
    (0x10000000 < off.toNat + d.length → idles (.bar4Access true none off len (some d)) s) ∧
    (2 ^ s.host.bar4Log < off.toNat + len → idles (.bar4Access false none off len none) s) ∧
    (∀ bar2 r, answers (.bar4Access bar2 r off len none) s fun _ => True) ∧
    (awake s → ∀ bar2, answers (.bar4Access bar2 (some k) off len none) s fun u => u.host.bar4Log = 30 + k.val ∧
      bar4Base u % 2 ^ (30 + k.val) = 0 ∧ bar4Base u + 2 ^ (30 + k.val) ≤ 2 ^ 41) ∧
    (awake s → pathsGood s →
      (baseUp s (off.toNat / 0x4000000) = true → off.toNat + len ≤ 0x10000000 → off.toNat % 128 + len ≤ 128 → 0 < len →
        s.mem.parityBad da len = false → answers (.bar4Access true none off len none) s fun u =>
          u.mem = s.mem ∧ u.host.rstat = .success ∧ u.host.rdata = s.mem.readBytes da len ∧
          (off.toNat / 0x4000000 = 3 →
            more u (bridgePage 0 true) 0x800 ∧ more u (bridgePage 1 true) 0x808 ∧ more u (bridgePage 1 true) 0x810 ∧
            more u (bridgePage 1 false) 0x800 ∧ more u (bridgePage 3 false) 0x808)) ∧
      (baseUp s (off.toNat / 0x4000000) = true → off.toNat + d.length ≤ 0x10000000 → d ≠ [] →
        off.toNat % 128 + d.length ≤ 128 → s.store.held = [] → answers (.bar4Access true none off len (some d)) s fun u =>
          u.mem.readBytes da d.length = d ∧ memSameOutside s u da (da + d.length)) ∧
      (bar = .bar2 → bytes ≤ 8 → o.toNat % bytes = 0 → baseUp s (o.toNat / 0x4000000) = true →
        (s.mem.parityBad x bytes = false → answers atomic s fun u =>
          u.host.rstat = .success ∧ u.host.rdata = leBytes bytes old ∧ memSameOutside s u x (x + bytes) ∧
          u.mem.readNat x bytes = (match op with
            | .fetchAdd => (old + a.toNat) % 2 ^ (8 * bytes)
            | .swap => a.toNat % 2 ^ (8 * bytes)
            | .cas => if old = a.toNat % 2 ^ (8 * bytes) then b.toNat % 2 ^ (8 * bytes) else old)) ∧
        (s.mem.parityBad x bytes = true → answers atomic s fun u =>
          u.host.rstat = .poisoned ∧ u.host.rdata = List.replicate bytes 0 ∧ u.mem = s.mem))) ∧
    ((bar ≠ .bar2 ∨ 8 < bytes ∨ o.toNat % bytes ≠ 0) → answers atomic s fun u => u = { s with host := u.host } ∧
      u.host.rstat = .unsupported ∧ u.host.rdata = [])

/-- R2, R327, R329, R330: CXL.mem and back-invalidation. Without a committed decoder, or on a module that is fused as
another part, nothing reaches the module; a read of a right line delivers its 64 bytes and the line is in the snoop filter;
a write gathers its bytes; a device write to a line that the host may hold waits for its answer, any other lands; a wait of
10 ms raises its source and goes on. Model choices in it: log 63, 74. Each completes with its own effect under its clause's
conditions on state and operands alone: cxlMemRead, cxlMemWrite, backInvalidate, bisnpTimeout. -/
def Obligations.Cxl_memory : Prop :=
  ∀ (y : BitVec 40) (data : List Byte) (da : BitVec 48) (tag : BitVec 32) (i : Nat) (s : State),
    let x := regionBase 0 + y.toNat / 64 * 64
    let q := y.toNat / 64 * 64
    let p := (regionChan s 0 q).1 / 4
    let free := regionFenced s 0 = false ∧ q < 0x4000000000 ∧ q < regionTop s 0 ∧ (∀ e ∈ (lpOf s p).gb, e.line ≠ x / 128)
    let line := da.toNat / 128
    let waits := ∃ w ∈ s.host.bisnps, w.line = line
    let back (ok : Bool) := Instr.backInvalidate da data tag ok
    ((s.host.hdm = false ∨ s.svc.fuse.code ≠ 1#8) → idles (.cxlMemRead y) s ∧ idles (.cxlMemWrite y data) s) ∧
    (cxlServes s = true → awake s → pathsGood s → free →
      (s.mem.lineGood x = true → s.host.snoop.length < 131072 → answers (.cxlMemRead y) s fun u => u.mem = s.mem ∧
        u.host.rstat = .success ∧ u.host.rdata = s.mem.readBytes x 64 ∧ x / 128 ∈ u.host.snoop) ∧
      (s.store.held = [] → (lpOf s p).gb.length < 64 → data.length = 64 → answers (.cxlMemWrite y data) s fun u =>
        u.mem = s.mem ∧ ∃ e, (lpOf u p).gb = (lpOf s p).gb ++ [e] ∧ e.line = x / 128 ∧
          ∀ k < 64, kfind e.bytes (x % 128 + k) = data[k]?)) ∧
    ((∀ a r, daKind da.toNat ≠ .lpddr a r) → ∀ ok, idles (back ok) s) ∧
    (∀ a r, daKind da.toNat = .lpddr a r →
      ((line ∈ s.host.snoop ∨ waits) → answers (back false) s fun u =>
        u.mem = s.mem ∧ u.store = s.store ∧ u.host.snoop = s.host.snoop ∧
        ∃ d, u.host.bisnps = s.host.bisnps ++ [⟨line, s.clock.now, da.toNat, d, tag.toNat⟩]) ∧
      (data = [] → ¬ waits → answers (back true) s fun u => u.mem = s.mem ∧ line ∉ u.host.snoop) ∧
      (line ∉ s.host.snoop → ¬ waits → data = [] → idles (back false) s) ∧
      (∀ ok, line ∉ s.host.snoop → ¬ waits → data.length = 128 → da.toNat % 128 = 0 → regionFenced s a = false →
        r < regionTop s a → s.store.held = [] → pathsGood s → answers (back ok) s fun u =>
          u.mem.readBytes da.toNat 128 = data ∧ memSameOutside s u da.toNat (da.toNat + 128))) ∧
    (∀ w, s.host.bisnps[i]? = some w → w.since + 10000000 ≤ s.clock.now → answers (.bisnpTimeout i) s fun u =>
      u.mem = s.mem ∧ u.host.bisnps = s.host.bisnps ∧ sticky u hiPage 8 = true) ∧
    ((∀ w, s.host.bisnps[i]? = some w → s.clock.now < w.since + 10000000) → idles (.bisnpTimeout i) s)

/-- R326, R327, R346, R349, R514: resets of the host interface and its link. PERST_N and a link loss take the link down;
these and a function-level reset end every DMA, disable every pair and forget pending messages of the function mask; a CXL
reset empties snoop filter and cache and uncommits the decoder. No byte of memory changes but for writes that a CXL reset
lets land and those of openings that are cancelled. A link trains while PERST_N is high, shows its rate, its width and
whether it is CXL, which only a module fused for it offers, and raises its source below the full ones. Model choices in it:
log 30. Each completes with its own effect under its clause's conditions on state and operands alone: perstN,
functionLevelReset, cxlReset, linkTrained, perstNRelease. -/
def Obligations.Host_resets : Prop :=
  ∀ (cause : LinkLoss) (rate : LinkRate) (width : LinkWidth) (flit cxl : Bool) (s : State),
    let ended (u : State) : Prop :=
      (s.chain.opens = [] → u.mem = s.mem) ∧ u.host.pairs = [] ∧ u.host.dmas = [] ∧ u.host.fnMask = false
    (answers (.perstN cause) s fun u => ended u ∧ u.host.linkUp = false ∧
      u.host.perst = (s.host.perst || decide (cause = .perst)) ∧ (cause = .perst → u.svc.perstPin = true) ∧
      (cause = .linkDown → sticky u hiPage 6 = true)) ∧
    (answers .functionLevelReset s fun u => ended u ∧ u.host.linkUp = s.host.linkUp ∧ u.host.msixPend = [] ∧
      pget u hiPage 0x080 = pget s hiPage 0x080) ∧
    (answers .cxlReset s fun u => u.host.snoop = [] ∧ u.host.cache = [] ∧ u.host.hdm = false ∧
      (s.host.bisnps = [] → u = { s with host := u.host })) ∧
    (s.host.perst = true → idles (.linkTrained rate width flit cxl) s) ∧
    (s.host.perst = false → answers (.linkTrained rate width flit cxl) s fun u => u.mem = s.mem ∧ u.host.linkUp = true ∧
      fld (pget u hiPage 0x080) 2 0 = rateCode rate ∧ fld (pget u hiPage 0x080) 7 3 = widthCode width ∧
      (rate = .g64 → bitOf (pget u hiPage 0x080) 8 = true) ∧ bitOf (pget u hiPage 0x080) 9 = (cxl && offersCxl s) ∧
      ((rate ≠ .g64 ∨ width ≠ .x16) → sticky u hiPage 7 = true)) ∧
    answers .perstNRelease s fun u => u = { s with host := u.host, svc := u.svc } ∧ u.host = { s.host with perst := false } ∧
      u.svc = { s.svc with perstPin := false }

/-- R352, R511, R355, R370, R371: chain ports. A training that finds enough lanes brings its port UP on them, numbering from
0 where it came from DOWN and sending what waited, control frames first, and one that does not puts the port DOWN with its
source; a retrain request on an UP port retrains it; a plug removed puts a port in use DOWN, one inserted starts the
training of an enabled port. Nothing of this changes memory. A neighbour and its time. IDENT shows the neighbour, and brings
a port that agrees with the descriptor out of MISMATCH or puts one that does not into it with its source. An UP port asks
with its first stamp, a request is answered with the two stamps of this module, and an answer to a question shows the delay;
the offset from a parent slews the timebase, another port's does not, and one above 1 µs ends a lock with its source. Model
choices in it: log 31, 33, 116. Each completes with its own effect under its clause's conditions on state and operands
alone: portTrainingDone, cpRetrain, ident, syncExchange, syncReq, syncRsp, chainPlugRemoved, chainPlugInserted. -/
def Obligations.Chain_ports_and_neighbours : Prop :=
  (
    ∀ (c : Fin 8) (good : BitVec 8) (s : State),
      let st := portState s c
      let lanes := lanesUsed s c good.toNat
      let done := Instr.portTrainingDone c good
      (st ≠ 1 → st ≠ 4 → idles done s) ∧
      ((st = 1 ∨ st = 4) → lanes = 0 → answers done s fun u =>
        u.mem = s.mem ∧ portState u c = 0 ∧ sticky u (cpPage c) 3 = true) ∧
      ((st = 1 ∨ st = 4) → lanes ≠ 0 → answers done s fun u => u.mem = s.mem ∧ portState u c = 2 ∧
        fld (pget u (cpPage c) 0x08C) 15 8 = lanes ∧ (lanes ≠ 0xFF → sticky u (cpPage c) 2 = true) ∧
        (st = 1 → (portOf u c).tx = [] ∧ (portOf u c).held = [] ∧ (portOf u c).txSeq = 0 ∧ (portOf u c).rxSeq = 0) ∧
        (st = 4 → (portOf u c).rxSeq = (portOf s c).rxSeq ∧ sentOn u c (portOf s c).tx (portOf s c).held)) ∧
      (writesReg (.cpRetrain c) s (cpPage c) fun w u => u.mem = w.mem ∧
        (portState w c = 2 → portState u c = 4 ∧ (portOf u c).sync1 = none ∧ sticky u (cpPage c) 1 = true) ∧
        (portState w c ≠ 2 → u = w)) ∧
      ((st = 0 ∨ st = 5) → idles (.chainPlugRemoved c) s) ∧
      (st ≠ 0 → st ≠ 5 → answers (.chainPlugRemoved c) s fun u =>
        u.mem = s.mem ∧ portState u c = 0 ∧ sticky u (cpPage c) 3 = true ∧ (portOf u c).held = []) ∧
      (st = 0 → bitOf (pget s (cpPage c) 0x080) 0 = true → answers (.chainPlugInserted c) s fun u =>
        onlyRegsAt s u [regOff (cpPage c) 0x08C] ∧ portState u c = 1) ∧
      (¬ (st = 0 ∧ bitOf (pget s (cpPage c) 0x080) 0 = true) → idles (.chainPlugInserted c) s)) ∧
  (
    ∀ (c : Fin 8) (ns ns2 : Fin 40) (s : State),
      (handlesFrame (.ident c) s c 1 fun f w u =>
        let node := f.src.toNat
        let port := fld f.arg.toNat 2 0
        u.mem = w.mem ∧ fld (pget u (cpPage c) 0x08C) 31 16 = node ∧ pget u (cpPage c) 0x090 = port ∧
        (kfind s.chain.expect c.val = some (node, port) → portState u c = if portState s c = 3 then 2 else portState s c) ∧
        (kfind s.chain.expect c.val ≠ some (node, port) → portState u c = 3 ∧ sticky u (cpPage c) 4 = true)) ∧
      (portState s c ≠ 2 → idles (.syncExchange c ns) s) ∧
      (portState s c = 2 → answers (.syncExchange c ns) s fun u => u.mem = s.mem ∧
        (portOf u c).sync1 = some (s.clock.now + ns) ∧ (¬ hasRoom s c true 9 → (portOf u c).tx = (portOf s c).tx) ∧
        (hasRoom s c true 9 → ∃ x, (portOf u c).tx = (portOf s c).tx ++ [x] ∧
          x.frame.type = 4 ∧ field x.frame.payload 0 8 = (s.clock.now + ns) % 2 ^ 64)) ∧
      (handlesFrame (.syncReq c ns ns2) s c 4 fun f w u => u.mem = w.mem ∧
        (portOf u c).child = decide (field f.payload 8 1 = 1) ∧
        (portState s c = 2 → hasRoom s c true 17 → ∃ x, (portOf u c).tx = (portOf s c).tx ++ [x] ∧ x.frame.type = 5 ∧ x.frame.dst = f.src ∧
          field x.frame.payload 0 8 = (s.clock.now + ns) % 2 ^ 64 ∧
          field x.frame.payload 8 8 = (s.clock.now + ns2) % 2 ^ 64)) ∧
      handlesFrame (.syncRsp c ns) s c 5 fun f w u => u.mem = w.mem ∧
        ((portOf s c).sync1 = none → u = w) ∧
        ∀ t1, (portOf s c).sync1 = some t1 →
          let t4 := s.clock.now + ns.val
          let t2 := field f.payload 0 8
          let t3 := field f.payload 8 8
          let d := (timeDiff t4 t1 - timeDiff t3 t2) / 2
          let th := (timeDiff t2 t1 - timeDiff t4 t3) / 2
          (portOf u c).sync1 = none ∧ pget u (cpPage c) 0x094 = (clampI 0 0xFFFF d).toNat ∧
          (parentPort s ≠ some c.val → u.clock = s.clock) ∧
          (parentPort s = some c.val →
            (running s = true ∨ (-10000 ≤ th ∧ th ≤ 10000) → u.clock = { s.clock with slew := th, hold := 0 }) ∧
            (running s = false → 10000 < th → u.clock.now = (s.clock.now + th.toNat) % 2 ^ 64) ∧
            ((portOf s c).locked = true → 1000 < th.natAbs →
              sticky u (cpPage c) 5 = true ∧ (portOf u c).locked = false) ∧
            (running s = false → th < -10000 → u.clock.now = s.clock.now ∧ u.clock.hold = (-th - 10000).toNat)))

/-- R354, R357, R358, R360: the frames of a link. A port that does not serve takes none; a frame with a bad CRC, or ahead of
the order, is answered with NAK and the number expected, and changes nothing else but counters; one that came before is
acknowledged again; one in order is acknowledged and kept, for this module or to pass on, and a bad one for this module
raises its source. A frame that passes on, the oldest control frame before any data frame, leaves by its bundle's port under
the next number, or is discarded with a source; an ACK clears the replay buffer up to its number; a NAK marks the frames to
resend, and retrains the port at the eighth time. Model choices in it: log 31, 32, 116. Each completes with its own effect
under its clause's conditions on state and operands alone: frameReceive, framePassThrough, ack, nak. -/
def Obligations.Link_frames : Prop :=
  ∀ (c : Fin 8) (f : Frame) (crc : Option (BitVec 32)) (s : State),
    let p := portOf s c
    let rcv := Instr.frameReceive c f crc
    let good := crc = some (frameCrc f)
    let serves := portState s c = 2 ∨ (portState s c = 3 ∧ f.type = 1)
    let link := 1 ≤ f.type.toNat ∧ f.type.toNat ≤ 3
    let inOrder := f.lseq.toNat = p.rxSeq % 2 ^ 32
    let ahead := (f.lseq.toNat + 2 ^ 32 - p.rxSeq) % 2 ^ 32
    let mine := f.dst.toNat = ownNode s ∨ bitOf f.fl.toNat 0 = true
    let speaks (u : State) (ty arg : Nat) (p : Port) : Prop := ∃ a, a.frame.type = BitVec.ofNat 8 ty ∧
      a.frame.arg = BitVec.ofNat 64 arg ∧ a.crc = frameCrc a.frame ∧ portOf u c = { p with link := some a }
    let quiet (u : State) (ty arg : Nat) : Prop := u = { setPort s c (portOf u c) with regs := u.regs } ∧
      u.regs = { s.regs with counters := u.regs.counters } ∧ speaks u ty arg p
    (¬ serves → idles rcv s) ∧
    (serves →
      (¬ good → answers rcv s fun u => quiet u 3 p.rxSeq) ∧
      (good → link → answers rcv s fun u => u.mem = s.mem ∧
        (Machine.frameOk f = true → portOf u c = { p with inbox := p.inbox ++ [f] }) ∧
        (Machine.frameOk f = false → portOf u c = p ∧ sticky u (cpPage c) 7 = true)) ∧
      (good → ¬ link → p.rxSeq < 2 ^ 32 →
        (¬ inOrder → ahead < 2 ^ 31 → answers rcv s fun u => quiet u 3 p.rxSeq) ∧
        (¬ inOrder → 2 ^ 31 ≤ ahead → answers rcv s fun u => quiet u 2 ((p.rxSeq + 2 ^ 32 - 1) % 2 ^ 32)) ∧
        (inOrder → ¬ mine → answers rcv s fun u => u.mem = s.mem ∧
          speaks u 2 p.rxSeq { p with rxSeq := (p.rxSeq + 1) % 2 ^ 32, transit := p.transit ++ [f] }) ∧
        (inOrder → mine → awake s → pathsGood s →
          (Machine.frameOk f = true → answers rcv s fun u => u.mem = s.mem ∧
            speaks u 2 p.rxSeq { p with rxSeq := (p.rxSeq + 1) % 2 ^ 32, inbox := p.inbox ++ [f] }) ∧
          (Machine.frameOk f = false → answers rcv s fun u => u.mem = s.mem ∧ sticky u (cpPage c) 7 = true ∧
            speaks u 2 p.rxSeq { p with rxSeq := (p.rxSeq + 1) % 2 ^ 32 })))) ∧
    (p.transit = [] → idles (.framePassThrough c) s) ∧
    (∀ g, (p.transit.find? onControl <|> p.transit.head?) = some g →
      let rest := p.transit.erase g
      ((passPort s g).1 = none → answers (.framePassThrough c) s fun u => u.mem = s.mem ∧ sticky u (cpPage c) 6 = true ∧
        portOf u c = { p with transit := rest }) ∧
      ∀ d, (passPort s g).1 = some d → pathsGood s → answers (.framePassThrough c) s fun u =>
        u.mem = s.mem ∧ (portOf u c).transit = rest ∧
        (canSend s d g = true → (portOf u d).txSeq = ((portOf s d).txSeq + 1) % 2 ^ 32 ∧
          let x : Frame := { g with lseq := BitVec.ofNat 32 (portOf s d).txSeq }
          (portOf u d).tx = (portOf s d).tx ++ [⟨x, 0, none, frameCrc x⟩]) ∧
        (canSend s d g = false → (portOf u d).tx = (portOf s d).tx ∧
          (portOf u d).held.map (·.frame) = (portOf s d).held.map (·.frame) ++ [g])) ∧
    (handlesFrame (.ack c) s c 2 fun a w u =>
      let left := p.tx.filter fun x => !seqLe x.frame.lseq.toNat (fld a.arg.toNat 31 0)
      u.mem = w.mem ∧ (portState s c = 2 → sentOn u c left p.held) ∧
      (portState s c ≠ 2 ∨ p.held = [] → portOf u c = { portOf w c with tx := left })) ∧
    handlesFrame (.nak c) s c 3 fun a w u =>
      let again (x : TxFrame) : Bool := seqLe (fld a.arg.toNat 31 0) x.frame.lseq.toNat
      u.mem = w.mem ∧ ((∀ x ∈ p.tx, again x = false) → u = w) ∧
      ((∃ x ∈ p.tx, again x = true) → sticky u (cpPage c) 0 = true ∧
        portOf u c = { portOf w c with
          tx := p.tx.map fun x => if again x then { x with resent := x.resent + 1 } else x
          sync1 := if portState s c = 2 ∧ ∃ x ∈ (portOf u c).tx, 8 ≤ x.resent then none else p.sync1 } ∧
        (portState s c = 2 → portState u c = if ∃ x ∈ (portOf u c).tx, 8 ≤ x.resent then 4 else 2))

/-- R317, R361, R363, R364, R365, R378: frames that deliver. An ACT, and a CMB that does not combine, put their bytes at
their address; one aimed at register space or at an unmapped address is discarded with its source; one for a half that
Quench holds waits; a combining CMB is taken, waits, or is discarded in conflict, as its adders answer; a FLAG writes its
module flag and nothing else. Chain barriers. The root counts an arrival for the generation in progress, and ends it,
telling every link, at the member count; a release ends it as completed, an abort as aborted, and the root turns an abort
request into one; a frame for another generation, or for a group that is not bound, changes nothing here. A configuration
write waits while arrivals are counted. Each completes with its own effect under its clause's conditions on state and
operands alone: act, cmb, flagFrame, barArr, barRel, barAbt, cbCfgWrite. -/
def Obligations.Delivery_and_chain_barriers : Prop :=
  (
    ∀ (c : Fin 8) (s : State),
      let combines (f : Frame) : Bool := bitOf f.ext.toNat 36
      handlesLanding (.act c) s c 0x10 (lands c) ∧
      (handlesLanding (.cmb c) s c 0x11 fun f w u =>
        let e := f.ext.toNat
        let t := tongsOfDa f.addr.toNat
        let k : Contribution := ⟨0, none, f.payload, f.addr.toNat, f.payload.length, fld e 15 0, fld e 31 16, fld e 35 32,
          f.tag.toNat, s.clock.now, some (f.src.toNat, frameId f)⟩
        (combines f = false → lands c f w u) ∧
        (combines f = true → redRangeOk f.addr.toNat f.payload.length = false →
          u.mem = w.mem ∧ u.chain.landings = w.chain.landings ∧ sticky u (cpPage c) 7 = true) ∧
        (combines f = true → redRangeOk f.addr.toNat f.payload.length = true →
          (answerOf w k = .refuse → u.mem = w.mem ∧ kget [] u.eng.remote t = kget [] w.eng.remote t ++ [k]) ∧
          (answerOf w k = .conflict → u.mem = w.mem ∧ u.eng = w.eng ∧ sticky u (tgPage t) 26 = true) ∧
          (answerOf w k = .take → u.eng = w.eng ∧
            ∀ b o, daKind f.addr.toNat = .shared b o → baseUp w b = true → w.store.held = [] → pathsGood w →
              fld e 15 0 = 0 → f.payload.length = 128 → u.mem.readBytes f.addr.toNat 128 = f.payload))) ∧
      handlesFrame (.flagFrame c) s c 0x12 fun f w u =>
        u = w.setSync u.sync ∧ flagVal u true 0 (fld f.arg.toNat 5 0) = !bitOf f.arg.toNat 6 ∧
        (∀ n, n ≠ fld f.arg.toNat 5 0 → flagVal u true 0 n = flagVal w true 0 n) ∧
        ∀ x ∈ w.sync.waiters, x.awaits true 0 (fld f.arg.toNat 5 0) (!bitOf f.arg.toNat 6) = true →
          ∃ y ∈ u.sync.waiters, y.core = x.core ∧ y.num = x.num ∧ y.ready = some 0) ∧
  (
    ∀ (c : Fin 8) (g : Fin 4) (v : BitVec 32) (s : State),
      let ended (w u : State) (k : Nat) : Prop :=
        cbOf u k = ChainBar.reset ∧ (barOf u true 0 (4 + k)).gen = ((barOf w true 0 (4 + k)).gen + 1) % 2 ^ 16 ∧ u.mem = w.mem
      let still (w u : State) (k : Nat) : Prop := cbOf u k = cbOf w k ∧ barOf u true 0 (4 + k) = barOf w true 0 (4 + k)
      let root (w : State) (f : Frame) : Prop := barCurrent w f = true ∧ cbRoot w (barGroup f) = ownNode w
      (handlesFrame (.barArr c) s c 0x13 fun f w u =>
        let k := barGroup f
        (¬ root w f → u = w) ∧
        (root w f → (cbOf w k).arrived + 1 < cbMembers w k →
          u = w.setSync u.sync ∧ cbOf u k = { cbOf w k with arrived := (cbOf w k).arrived + 1 }) ∧
        (root w f → cbMembers w k ≤ (cbOf w k).arrived + 1 → ended w u k)) ∧
      (handlesFrame (.barRel c) s c 0x14 fun f w u =>
        (barCurrent w f = true → ended w u (barGroup f)) ∧ (barCurrent w f = false → still w u (barGroup f))) ∧
      (handlesFrame (.barAbt c) s c 0x15 fun f w u =>
        ((f.fl = 1 ∧ barCurrent w f = true) → ended w u (barGroup f)) ∧
        (f.fl ≠ 1 → root w f → ended w u (barGroup f)) ∧
        (barCurrent w f = false → still w u (barGroup f)) ∧ (f.fl ≠ 1 → ¬ root w f → u = w)) ∧
      writesReg (.cbCfgWrite g v) s (basePage 0 0) fun w u => u.mem = w.mem ∧
        ((barOf w true 0 (4 + g.val)).arrived ≠ 0 → u = w.setSync u.sync ∧ (cbOf u g).pend.isSome = true) ∧
        ((barOf w true 0 (4 + g.val)).arrived = 0 → u = { w with regs := u.regs } ∧
          pget u (basePage 0 0) (0x460 + 4 * g.val) =
            if fld v.toNat 27 16 = 0 then v.toNat % 2 ^ 29 + 2 ^ 16 else v.toNat % 2 ^ 29))

/-- R180, R366, R368, R374, R449: the groups of a chain plan. At a segment that is not the head, ADMIT for the period in
progress makes its sequence ACTIVE in the group that it names and shows in the admission record, for the next period it
enters the group and waits for the start, and for another it is discarded; a REPORT is noted, and the last one commits a
group that has passed and may commit; a COMMIT in time waits until its decision is whole, and while a FATAL source holds the
module, is a bad frame where its records do not name the steps of the group, and does not commit a group that was dropped,
which at the head is a chain split; a DROP drops the group, unless it has committed, which is a chain split; a group that
waits past its limit is dropped. Model choices in it: log 70. Each completes with its own effect under its clause's
conditions on state and operands alone: drop, admitFrame, report, commit, chainLateTimeout. -/
def Obligations.Chain_decisions : Prop :=
  ∀ (c : Fin 8) (i : Nat) (s : State),
    (handlesPlanFrame (.admitFrame c) s c 0x20 fun f slot w u =>
      let k := f.ext.toNat
      let es := (admitEntries f.payload).filter fun e => (seqOf w e.seq).slot = slot && (seqOf w e.seq).state != .free
      let takes := notHead w slot = true ∧ slotRuns w slot = true ∧ fatalHold w = false
      let inGroup (l : List StepGroup) (e : AdmitEntry) : Prop := ∃ g ∈ l,
        g.tag = groupTag e.group slot k (decide ((seqOf w e.seq).kind ≠ 0)) ∧ e.seq ∈ g.members ∧ e.column ∈ g.columns
      let now := k = s.sched.num ∧ s.sched.inPeriod = true
      let ahead := k = (s.sched.num + 1) % 2 ^ 64
      (¬ takes → u = w) ∧
      (takes → now → (∀ r ∈ u.sched.records, r.1 = k → r.2 = u.sched.groups.map fun g => (g.tag, g.members)) ∧
        ∀ e, es = [e] → inGroup u.sched.groups e ∧ seqOf u e.seq = { seqOf w e.seq with
          state := .active, placed := true, column := e.column, group := e.group, kvLen := e.kvLen }) ∧
      (takes → ¬ now → ahead → u.sched.groups = w.sched.groups ∧
        ∀ e, es = [e] → inGroup u.sched.early e ∧ seqOf u e.seq = { seqOf w e.seq with kvLen := e.kvLen }) ∧
      (takes → ¬ now → ¬ ahead → u = w)) ∧
    (handlesPlanFrame (.report c) s c 0x21 fun f slot w u =>
      let tag := frameTag f slot
      let x := s.sched.groups.find? fun g => g.tag = tag
      ((∀ y ∈ s.sched.groups, y.tag = tag → y.passed = false) → u.mem = w.mem ∧ u.seqs = w.seqs ∧
        (∀ y ∈ s.sched.groups, y.tag = tag → { y with chainReports := y.chainReports ++ [frameSeg f] } ∈ u.sched.groups) ∧
        ∀ y ∈ s.sched.early, y.tag = tag → { y with chainReports := y.chainReports ++ [frameSeg f] } ∈ u.sched.early) ∧
      (∀ y ch, x = some y → (planOf s slot).chain = some ch → y.slot = slot → y.passed = true → y.fate = .running →
        s.sched.inPeriod = true → s.clock.now < s.sched.start + s.sched.len → mayCommit s y = true → ch.index + 1 = ch.count →
        (∀ j < ch.count - 1, j ∈ y.chainReports ++ [frameSeg f]) →
        ∀ z ∈ u.sched.groups, z.tag = tag → z.fate = .committed)) ∧
    (handlesPlanFrame (.commit c) s c 0x22 fun f slot w u =>
      let tag := frameTag f slot
      let up := ((planOf s slot).chain.map ChainRec.upNode).getD 0xFFFF
      let v := if up = 0xFFFF then w else sendControl w c { f with dst := BitVec.ofNat 16 up }
      let d := addPart w tag (fld f.arg.toNat 31 16) f.payload
      let recs (l : List Byte) := decisionRecords (recordedMembers w tag).length (l.drop 16)
      let inTime := ∀ x ∈ s.sched.awaiting, x.2.2.tag = tag →
        s.clock.now < x.2.1 + decisionTravel (planOf s x.2.2.slot).segs d.parts.length
      inTime →
        ((decisionWhole d).bind recs = none → u.seqs = w.seqs ∧ d ∈ u.chain.decisions) ∧
        ∀ l rs, decisionWhole d = some l → recs l = some rs →
          let names := ∀ j ∈ recordedMembers w tag, ∃ r ∈ rs, r.seq = j
          (¬ names → u.seqs = w.seqs ∧ sticky u (cpPage c) 7 = true) ∧
          (names → tag ∈ s.chain.drops → tag ∈ u.chain.commits ∧
            (notHead s slot = true → u.seqs = w.seqs ∧ u.sched = w.sched) ∧
            (notHead s slot = false →
              ∀ j ∈ recordedMembers w tag, (seqOf w j).state ≠ .free → (seqOf u j).state = .failed)) ∧
          (names → tag ∉ s.chain.drops → fatalHold v = true → u.seqs = w.seqs ∧ d ∈ u.chain.decisions) ∧
          (names → tag ∉ s.chain.drops → fatalHold v = false → tag ∈ u.chain.commits ∧
            ∀ k e x, openGroup w tag = some (k, e, x) → field l 0 8 < e →
              (∀ z ∈ u.sched.groups, z.tag = tag → z.fate = .committed) ∧ ∀ y ∈ u.sched.awaiting, y.2.2.tag ≠ tag)) ∧
    (handlesPlanFrame (.drop c) s c 0x23 fun f slot w u =>
      let tag := frameTag f slot
      tag ∈ u.chain.drops ∧
      (tag ∉ s.chain.commits → tag ∉ s.chain.drops → ∀ x, openGroup w tag = some x →
        (∀ z ∈ u.sched.groups, z.tag = tag → z.fate ≠ .running) ∧ ∀ y ∈ u.sched.awaiting, y.2.2.tag ≠ tag) ∧
      (tag ∈ s.chain.commits → (planOf s slot).chain.any (fun x => x.index + 1 = x.count) = true →
        sticky u (modPage 6) 0 = true ∧ u.sched.groups = w.sched.groups)) ∧
    (s.sched.awaiting[i]? = none → idles (.chainLateTimeout i) s) ∧
    ∀ k e g, s.sched.awaiting[i]? = some (k, e, g) → answers (.chainLateTimeout i) s fun u =>
      u.clock.now = max s.clock.now (decisionDue s g e) ∧ ∀ y ∈ u.sched.awaiting, y.2.2.tag ≠ g.tag

/-- R340, R367, R369: the sequence table and the replays of a chain. A segment answers an OPEN at a free index by writing
its entry, and one at a used index by refusing; a CANCEL frees the entry; a transition waits for the cutoff that its frame
names, or applies at once with a source where that has passed. The head notes each answer and opens the sequence once all
accept; without an answer in 1 ms it refuses. Replay inputs are counted until whole and then raise their event and wait for
the piece; results are compared with what is in place and not written while the replay runs; frames for a half that is held
wait; an answer without hardware ends the group's replays there and keeps the group from committing. Model choices in it:
log 41, 70, 98. Each completes with its own effect under its clause's conditions on state and operands alone: seqSync,
seqAck, seqSyncTimeout, rplReq, rplRes. -/
def Obligations.Chain_sequences : Prop :=
  ∀ (c : Fin 8) (i : Nat) (s : State),
    (handlesPlanFrame (.seqSync c) s c 0x24 fun f slot w u =>
      let n := fld f.arg.toNat 15 0
      let op := fld f.arg.toNat 19 16
      let r := openChecks w slot (field f.payload 0x2C 4) (field f.payload 8 8)
      (op = 1 → indexFree w n = false → u.seqs = w.seqs ∧ u.mem = w.mem) ∧
      (op = 1 → indexFree w n = true → r.1 = none → seqOf u n = segmentEntry slot s.sched.num f.payload) ∧
      (op = 1 → indexFree w n = true → r.1 ≠ none → u.seqs = w.seqs) ∧
      (op = 6 → (seqOf s n).slot = slot → (seqOf s n).state = .ready → seqOf u n = SeqRec.reset) ∧
      (op = 6 → ((seqOf s n).slot ≠ slot ∨ (seqOf s n).state ≠ .ready) → u = w) ∧
      (op ≠ 1 → op ≠ 6 → nextCutoff s ≤ f.ext.toNat → u = w.setChain u.chain ∧
        u.chain.waits = s.chain.waits ++ [(f.ext.toNat, n, syncOp op)]) ∧
      (op ≠ 1 → op ≠ 6 → f.ext.toNat < nextCutoff s → sticky u (cpPage c) 7 = true ∧
        ∀ st, seqMove (seqOf s n).state (syncOp op) = some st → (seqOf u n).state = st)) ∧
    (handlesPlanFrame (.seqAck c) s c 0x25 fun f slot w u =>
      let a := f.arg.toNat
      let mine (o : ChainOpen) : Bool := o.slot = slot && o.index = fld a 15 0 && o.round = fld a 23 20
      let ans : SegAnswer := ⟨f.src.toNat, some (bitOf a 16), fld a 31 24, fld f.ext.toNat 15 0⟩
      ((∀ o ∈ s.chain.opens, mine o = false) → u = w) ∧
      ∀ o, s.chain.opens.find? mine = some o →
        let all := (o.answers.filter fun x => x.node != ans.node) ++ if o.answers.any (·.node = ans.node) then [ans] else []
        let late := o.since + 1000000 ≤ s.clock.now
        (late → u.seqs = w.seqs ∧ ∀ x ∈ u.chain.opens, x.pair ≠ o.pair ∨ x.cid ≠ o.cid) ∧
        (¬ late → (∃ x ∈ all, x.accept = none) → u.seqs = w.seqs ∧ u.chain.opens =
          s.chain.opens.map fun x => if mine x then { o with answers := all } else x) ∧
        (¬ late → (∀ x ∈ all, x.accept = some true) → takesEntry w o.pair → (pairOf w o.pair).opens = [(o.cid, none)] →
          ∃ v, posted v u o.pair o.cid 0 [o.index] ∧ v.mem = w.mem ∧ seqOf v o.index = o.entry ∧
            ∀ x ∈ v.chain.opens, x.pair ≠ o.pair ∨ x.cid ≠ o.cid)) ∧
    ((∀ o, s.chain.opens[i]? = some o → ∀ x ∈ o.answers, x.accept ≠ none) → idles (.seqSyncTimeout i) s) ∧
    (∀ o, s.chain.opens[i]? = some o → (∃ x ∈ o.answers, x.accept = none) → answers (.seqSyncTimeout i) s fun u =>
      u.clock.now = max s.clock.now (o.since + 1000000) ∧ u.seqs = s.seqs ∧
      ∀ x ∈ u.chain.opens, x.pair ≠ o.pair ∨ x.cid ≠ o.cid) ∧
    (handlesLanding (.rplReq c) s c 0x30 fun f w u =>
      let slot := fld f.ext.toNat 15 0
      let tile := fld f.ext.toNat 31 24
      let total := fld f.arg.toNat 63 32
      let events (t : Nat) := (tccOf u t).events = (tccOf w t).events
      ((planOf s slot).state ≠ .empty → f.payload ≠ [] → lands c f w u) ∧
      (f.payload = [] ∨ (planOf s slot).state = .empty → u.mem = w.mem ∧
        (s.chain.landings = [] → f.payload.length < total → (∀ t, events t) ∧ u.chain.landings =
          [⟨f.src.toNat, 2 ^ 16 + fld f.arg.toNat 15 0, f.payload.length, total, none⟩]) ∧
        (total ≤ f.payload.length → (planOf s slot).state ≠ .empty → bitOf (tccOf u tile).events 2 = true ∧
          ∃ x, u.chain.peers = w.chain.peers ++ [x] ∧ x.src = f.src.toNat ∧ x.tag = f.tag.toNat ∧ x.lines = []) ∧
        (total ≤ f.payload.length → (planOf s slot).state = .empty → ∀ t, events t))) ∧
    handlesLanding (.rplRes c) s c 0x31 fun f w u =>
      (fld f.arg.toNat 63 32 = 0 → u.mem = w.mem ∧
        ∀ x, s.sched.groups.find? (fun x => x.tag = tagBase f.tag.toNat) = some x → ∀ y ∈ u.sched.groups, y.tag = x.tag →
          y.noCommit = true ∧ y.replays = x.replays.filter fun r => !decide (r.hw = unitPhy 0x80 0xFF)) ∧
      (fld f.arg.toNat 63 32 ≠ 0 →
        let a := f.addr.toNat
        let n := f.payload.length
        let q : Req := ⟨.port c, (f.tag ||| 0x80#32).toNat⟩
        (cannotLand w f → u.mem = w.mem ∧ sticky u (cpPage c) 7 = true) ∧
        ∀ b o, daKind a = .shared b o → baseUp w b = true → w.store.held = [] → pathsGood w → 0 < n → a % 128 + n ≤ 128 →
          (∀ g r, workGroup w q = some g → replayOf w g (.port c) = some r → r.unit.isSome = true → u.mem = w.mem) ∧
          (workGroup w q = none → u.mem.readBytes a n = f.payload ∧ memSameOutside w u a (a + n)))

/-- R382 to R389: power states. An evaluation reports the deepest permitted state and the first condition that limited it:
none while work is in progress, only to a deadline that the bounds fit while a sequence is ready, else after the dwell;
nothing deeper than DEEPEST, than DOZE with a port UP, than SLUMBER with plans and no save area. An entry that completes
shows its state and loses what it loses; a wake trigger starts a wake, or is latched during entry; a wake ends in ACTIVE,
late past its bound. Model choices in it: log 24, 35, 120. Each completes with its own effect under its clause's conditions
on state and operands alone: bellowsEvaluation, sleepEntryDone, timedWake, wake, wakeDone, pllLockTimeout, pwrCmdWake. -/
def Obligations.Power_states : Prop :=
  ∀ (cause : WakeCause) (s : State),
    let stat (u : State) (hi lo : Nat) := fld (pget u pwrPage 0x094) hi lo
    let x := s.power
    let p := permittedBase s
    let begins (u : State) (d : Nat) : Prop :=
      u.power.entering = if pState s < d ∧ x.waking = none ∧ x.entering = none then some d else x.entering
    p.1 ≤ min 4 (fld (pget s pwrPage 0x080) 2 0) ∧ ((∃ c < 8, portState s c = 2) → p.1 ≤ 2) ∧
    (saveArea s = none → residentSlots s ≠ [] → p.1 ≤ 3) ∧
    (workInProgress s = true → answers .bellowsEvaluation s fun u => u.mem = s.mem ∧ stat u 7 5 = 0 ∧ stat u 11 8 = 2 ∧
      u.power.armed = none ∧ u.power.entering = x.entering) ∧
    (workInProgress s = false → sequencesReady s = false → answers .bellowsEvaluation s fun u => u.mem = s.mem ∧
      stat u 7 5 = p.1 ∧ stat u 11 8 = p.2 ∧ u.power.armed = none ∧ begins u (dwelled u p.1) ∧
      ∀ k, 2 ≤ k → k ≤ 4 → kget 0 u.power.shallow k = if min p.1 (stat s 7 5) < k then s.clock.now else kget 0 x.shallow k) ∧
    (workInProgress s = false → sequencesReady s = true → running s = true → ∀ start, nextStart s = some start →
      let st := if bitOf (pget s pwrPage 0x080) 3 then deepestFit p.1 (start - 40000 - s.clock.now) else 0
      let deep := max st (max (pState s) (x.entering.getD 0))
      (st ≠ 0 → entryBound st + wakeBound st ≤ start - 40000 - s.clock.now) ∧
      answers .bellowsEvaluation s fun u => u.mem = s.mem ∧ stat u 7 5 = st ∧ begins u st ∧
        u.power.armed = if deep = 0 then none else some (start - 40000 - wakeBound deep)) ∧
    (x.entering = none → idles .sleepEntryDone s) ∧
    (∀ st, x.entering = some st → st ≤ 4 → answers .sleepEntryDone s fun u =>
      u.power.entering = none ∧ pState u = st ∧
      (stat s 4 4 = 1 → st ≠ 0 → x.waking = none → u.power.waking = some (s.clock.now, stat s 15 12)) ∧
      (stat s 4 4 = 0 → u.power.waking = x.waking) ∧
      (st ≤ 1 → u.mem = s.mem ∧ u.cores = s.cores ∧ u.mcs = s.mcs) ∧
      (2 ≤ st → ∀ t < 12, ∀ h < 2, tileUp s t = true → pget s (tilePage t 0) 0x01C = 0 →
        halfState u t h = if st = 2 then 2 else 4) ∧
      (3 ≤ st → u.mcs = [] ∧ (∀ t < 12, ∀ b < 0x1000000, u.mem.readByte (tlaKey t b) = 0#8) ∧
        ∀ c < 492, (coreOf u c).g = [] ∧ (coreOf u c).y = [])) ∧
    ((x.entering ≠ none → stat s 4 4 = 1 → idles (.wake cause) s) ∧
      (x.entering ≠ none → stat s 4 4 = 0 → answers (.wake cause) s fun u => u = { s with regs := u.regs } ∧
        stat u 4 4 = 1 ∧ stat u 15 12 = cause.code) ∧
      (x.entering = none → x.waking ≠ none ∨ pState s = 0 → idles (.wake cause) s) ∧
      (x.entering = none → x.waking = none → pState s ≠ 0 → answers (.wake cause) s fun u =>
        u = { s with regs := u.regs, power := { x with waking := some (s.clock.now, cause.code), armed := none } } ∧
        stat u 15 12 = cause.code)) ∧
    (x.armed = none → idles .timedWake s) ∧
    (∀ t, x.armed = some t → answers .timedWake s fun u => u.mem = s.mem ∧ u.power.armed = none ∧
      u.clock.now = max s.clock.now t ∧ (x.entering = none → x.waking = none → pState s ≠ 0 →
        u.power.waking = some (max s.clock.now t, 3))) ∧
    (x.waking = none → idles .wakeDone s ∧ idles .pllLockTimeout s) ∧
    (∀ t c, x.waking = some (t, c) →
      (answers .pllLockTimeout s fun u => u.mem = s.mem ∧ sticky u pwrPage 1 = true) ∧
      answers .wakeDone s fun u => pState u = 0 ∧ u.power.waking = none ∧ u.power.entering = x.entering ∧
        (pState s ≤ 2 → u.mem = s.mem) ∧
        (2 ≤ pState s → ∀ t < 12, ∀ h < 2, tileUp s t = true → pget s (tilePage t 0) 0x01C = 0 →
          halfState u t h = if s.quench.holding then 2 else 0) ∧
        (t + wakeBound (pState s) < s.clock.now → sticky u pwrPage 0 = true)) ∧
    (pState s = 0 → x.entering = none → idles .pwrCmdWake s) ∧
    answers .pwrCmdWake s fun u => pState u = 0 ∧ u.power.entering = none

/-- R88, R382, R391 to R394, R402, R404, R407: power budgets. An epoch starts on its multiple of 1 ms: the grant divided in
the last one, the request and the measured power show, 5 % over the grant raises its source, and a tile chooses a step at
most 8 above the one it has; the powers of the nodes sum to what was measured of the domains, those of a DRAM stack's nodes
to what was measured of it, and a count of cycles reaches its counter; a step change that was begun has ended, and the tile
runs at the lower step until the next one ends. A message that agrees with its complement reaches the granting die, one that
does not, as after one flipped bit, raises its source; a grant takes effect at the next epoch; after three epochs without
one the floor applies. A step change shows and changes no memory. Model choices in it: log 23, 24, 104, 105. Each completes
with its own effect under its clause's conditions on state and operands alone: budgetEpoch, budgetReport, budgetRequest,
grant, grantLapse, arrStepChange. -/
def Obligations.Power_budgets : Prop :=
  ∀ (d : Fin 16) (t : Fin 12) (x : EpochReading) (fl : List (Fin 256)) (s : State),
    let k := budgetKey d
    let g := granter d
    let pg := powerPage d
    let b := budgetOf s k
    let bad (u : State) : Prop := u.mem = s.mem ∧ u.power = s.power ∧ (g < 4 → sticky u (powerPage g) 0 = true)
    let good (m : List Byte) : Bool := messageGood (arrives m fl)
    let watts (i : Nat) : Nat := (x.domains.getD i 0#16).toNat
    (answers (.budgetEpoch x) s fun u => u.mem = s.mem ∧
      1000000 * u.power.epoch ≤ u.clock.now ∧ s.power.epoch < u.power.epoch ∧
      pget u hhPage 0x080 = x.vin.toNat ∧ pget u hhPage 0x084 = x.iin.toNat ∧ pget u hhPage 0x088 = x.pin.toNat ∧
      (u.quench.powers.map Prod.snd).sum = (((List.range 52).filter (domainUp s)).map fun i => 1024 * watts i).sum ∧
      (tileUp s t = true → (((List.range 16).flatMap fun i => (List.range 8).map fun l =>
        kget 0 u.quench.powers (layerNode t i l)).sum = 1024 * watts (4 * t.val + 7))) ∧
      (∀ c, x.cycles = [c] → measuredCounter c.page.toNat c.off.toNat = true → pageServes s c.page.toNat = true →
        cntFrozen s c.page.toNat = false →
        cntGet u c.page.toNat c.off.toNat = (cntGet s c.page.toNat c.off.toNat + c.n.toNat) % 2 ^ 64) ∧
      (dieUp s d = true →
        let m := diePower x.domains d
        let grant := b.next.getD (pget s pg 0x080)
        let cur := match b.target with
          | some st => st % 64
          | none => fld (pget s (tilePage t 83) 0x08C) 5 0
        pget u pg 0x080 = grant % 2 ^ 32 ∧ pget u pg 0x084 = (x.req.getD d 0#16).toNat ∧ pget u pg 0x088 = m ∧
        (budgetOf u k).next = none ∧ (budgetOf u k).missed = (if b.next.isSome then 0 else b.missed + 1) ∧
        (pget s pg 0x080 * 105 < m * 100 → sticky u pg 2 = true) ∧
        (d.val = 4 + t.val → ∃ st, st ≤ min 48 (cur + 8) ∧ (st = 0 ∨ stepFits m cur grant st = true) ∧
          (budgetOf u k).target = (if st = cur then none else some st) ∧ fld (pget u pg 0x08C) 5 0 = min cur st))) ∧
    (dieUp s d = false → idles (.budgetReport d fl) s ∧ idles (.budgetRequest d fl) s) ∧
    (dieUp s d = true →
      (good (reportMessage s d) = false → answers (.budgetReport d fl) s bad) ∧
      (good (requestMessage s d) = false → answers (.budgetRequest d fl) s bad) ∧
      (good (reportMessage s d) = true → answers (.budgetReport d fl) s fun u => u = { s with power := u.power } ∧
        ∃ v f, (budgetOf u g).reports = kinsert (budgetOf s g).reports k (v, f) ∧
          (4 ≤ d.val → fl = [] → v = min 0xFFFF (pget s pg 0x088) ∧ bitOf f 0 = s.power.lagging.contains (d - 4))) ∧
      (good (requestMessage s d) = true → answers (.budgetRequest d fl) s fun u => u = { s with power := u.power } ∧
        ∃ v f, (budgetOf u g).requests = kinsert (budgetOf s g).requests k (v, f) ∧
          (4 ≤ d.val → fl = [] → v = min 0xFFFF (pget s pg 0x084) ∧ f = floorOf s d))) ∧
    (∀ i, fl = [i] → good (reportMessage s d) = false ∧ good (requestMessage s d) = false) ∧
    (fl = [] → good (reportMessage s d) = true ∧ good (requestMessage s d) = true) ∧
    (kfind (budgetOf s g).shares k = none → idles (.grant d fl) s) ∧
    (∀ v, kfind (budgetOf s g).shares k = some v →
      let m := budgetMessage s 3 d 0 0 v (floorOf s (if d.val < 4 then d.val else tileDie (d.val - 4))) 0
      (good m = false → answers (.grant d fl) s fun u =>
        u.mem = s.mem ∧ (budgetOf u k).next = b.next ∧ sticky u pg 0 = true) ∧
      (good m = true → answers (.grant d fl) s fun u => u = { s with power := u.power } ∧ (budgetOf u k).next ≠ none ∧
        (4 ≤ d.val → fl = [] → (budgetOf u k).next = some (v % 2 ^ 16)))) ∧
    (b.missed < 3 → idles (.grantLapse d) s) ∧
    (3 ≤ b.missed → answers (.grantLapse d) s fun u => u.mem = s.mem ∧ pget u pg 0x080 = floorOf s d ∧
      sticky u pg 1 = true) ∧
    ((budgetOf s (0x10 + t)).target = none → idles (.arrStepChange t) s) ∧
    ∀ st, (budgetOf s (0x10 + t)).target = some st → answers (.arrStepChange t) s fun u =>
      u = { s with regs := u.regs, power := u.power } ∧ (budgetOf u (0x10 + t)).target = none ∧
      fld (pget u (tilePage t 83) 0x08C) 5 0 = st % 64

/-- R262, R395, R396: block power states. A request is clamped to the nearest shallower state the block honours (a tile in
use and every other block ON); going down or up shows in BLK_PACT; a request for ON while the block goes down shows
PENDING_ON, one while it goes up waits; the last request decides. A block that parks shows its state, and a tile that parks
in RETAIN or OFF is gated, in OFF with no good line left in its bonded DRAM. Model choices in it: log 10. Each completes
with its own effect under its clause's conditions on state and operands alone: blockPowerRequest, blockParked. -/
def Obligations.Block_power : Prop :=
  ∀ (page : BitVec 11) (req : BitVec 2) (s : State),
    let p := page.toNat
    let i := Instr.blockPowerRequest page req
    let w := reach s p
    let r := appliedPreq w p req.toNat
    let act := pget w p 0x01C
    let goes (x : Option (Nat × Option Nat)) (shows : Nat) : Prop := answers i s fun u => u.mem = w.mem ∧
      pget u p 0x018 = r ∧ pget u p 0x01C = shows ∧ kfind u.power.blocks p = x
    (pageBlock p = none ∨ pageBlock p = some .msix ∨ pageServes w p = false → exec i s = .next w) ∧
    (∀ b, pageBlock p = some b → b ≠ .msix → pageServes w p = true →
      r ≤ req.toNat ∧
      (b = .layerCtl → r = min req.toNat 1) ∧ (b = .chainPort → r = if req.toNat = 3 then 3 else 0) ∧
      (b ≠ .tileControl → b ≠ .layerCtl → b ≠ .chainPort → r = 0) ∧
      (∀ t j, b = .tileControl → pagePlace p = .tile t j → tileInUse w t = true → r = 0) ∧
      (kfind w.power.blocks p = none →
        (r = act → goes none act) ∧ (act < r → goes (some (r, none)) 4) ∧ (r < act → goes (some (r, none)) 5)) ∧
      ∀ dest l, kfind w.power.blocks p = some (dest, l) →
        (act = 5 → goes (some (dest, if r = dest then none else some r)) 5) ∧
        (act ≠ 5 → r = dest → goes (some (dest, none)) 4) ∧
        (act ≠ 5 → r ≠ dest → goes (some (dest, some r)) (if r = 0 then 6 else 4))) ∧
    (kfind s.power.blocks p = none → idles (.blockParked page) s) ∧
    ∀ dest l, kfind s.power.blocks p = some (dest, l) → dest ≤ 3 → answers (.blockParked page) s fun u =>
      (l = none → pget u p 0x01C = dest ∧ kfind u.power.blocks p = none) ∧
      (∀ x, l = some x → x ≤ 3 → x ≠ dest → kfind u.power.blocks p = some (x, none) ∧
        pget u p 0x01C = if dest < x then 4 else 5) ∧
      ∀ t j, pagePlace p = .tile t j → pageBlock p = some .tileControl →
        (∀ h < 2, halfState u t h = if dest ≠ 0 then 4 else if s.quench.holding then 2 else 0) ∧
        (dest = 3 → ∀ k < tileBytes, u.mem.lineGood (t * tileBytes + k) = false)

/-- R380, R398, R399, R402, R502: references and the timebase. A lost reference shows, with its source, until it is good
again. A tick adds 40 ns, less or more by one for the trim and by one for the slew, nothing while the timebase holds; a load
takes effect at a tick only while periods do not run, without a parent port, and never moves the timebase back; one that is
discarded leaves the tick as it is. Each completes with its own effect under its clause's conditions on state and operands
alone: refclkLoss, refclkRestore, refclkTick, trimMeasure, timeLoad. -/
def Obligations.References_and_timebase : Prop :=
  ∀ (err : BitVec 16) (s : State),
    let time := modPage 7
    let v := pget s time 0x088 + pget s time 0x08C * 2 ^ 32
    let c := s.clock
    let trim := -(err.toInt * 100)
    let refInt (u : State) : Prop := bitOf (pget u hhPage 0x08C) 16 = true ∧ bitOf (pget u time 0x094) 5 = true
    (answers .refclkLoss s fun u => u.mem = s.mem ∧ u.clock = c ∧ refInt u ∧ liveBit u hhPage 4 = true ∧
      sticky u hhPage 4 = true) ∧
    (answers .refclkRestore s fun u => u = { s with regs := u.regs } ∧ bitOf (pget u hhPage 0x08C) 16 = false ∧
      liveBit u hhPage 4 = false ∧ ∀ page src, sticky u page src = sticky s page src) ∧
    let ticks (u : State) : Prop := (0 < c.hold → u.clock.now = c.now ∧ u.clock.hold = c.hold - 40) ∧
      (c.hold = 0 → c.now + 38 ≤ u.clock.now ∧ u.clock.now ≤ c.now + 42) ∧
      (c.hold = 0 → c.trimAcc = 0 → pget s hhPage 0x090 = 0 → c.slew = 0 → u.clock.now = c.now + 40)
    (c.loadReq = false → c.now + 42 < 2 ^ 64 → answers .refclkTick s fun u =>
      u = { s with clock := u.clock, regs := u.regs } ∧ ticks u) ∧
    (c.loadReq = true → answers .refclkTick s fun u => u = { s with clock := u.clock, regs := u.regs } ∧
      u.clock.loadReq = false ∧
      (running s = true ∨ (parentPort s).isSome = true ∨ v < c.now → (c.now + 42 < 2 ^ 64 → ticks u) ∧ bitOf (pget u time 0x094) 1 = true) ∧
      (running s = false → parentPort s = none → c.now ≤ v → u.clock.now = v ∧ bitOf (pget u time 0x094) 0 = true)) ∧
    (bitOf (pget s hhPage 0x08C) 16 = true → idles (.trimMeasure err) s) ∧
    (bitOf (pget s hhPage 0x08C) 16 = false → answers (.trimMeasure err) s fun u => u.mem = s.mem ∧ u.clock = c ∧
      fld (pget u hhPage 0x08C) 15 0 = err.toNat ∧
      sext 32 (pget u hhPage 0x090) = (if trim < -150000 then -150000 else if 150000 < trim then 150000 else trim) ∧
      (150000 < trim.natAbs → sticky u hhPage 5 = true)) ∧
    answers .timeLoad s fun u => u = (wakeFor s 1).setClock { (wakeFor s 1).clock with loadReq := true }

/-- R397, R402, R414, R515, R516, R518: the input and the hardware trip. A warning shows as live and sticky until it clears;
a shutdown and a trip set their source and turn the main converters off; Hearth keeps its state and the flash stays. A trip
takes both comparators of a hot spot of a die or of the air, or one whose other sensor has FAILED; it is released after 10 s
of low PWR_EN below 100 °C. Below 30 V all but flash and fuses are lost. Model choices in it: log 56, 57. Each completes
with its own effect under its clause's conditions on state and operands alone: inputUvWarn, inputUv, inputOvWarn, inputOv,
hearthPowerLoss, hwTrip, thermTripRelease, inputWarningClear. -/
def Obligations.Input_and_trip : Prop :=
  ∀ (d : Fin 17) (i : Fin 34) (c0 c1 : Bool) (s : State),
    let air := if i.val = 0 then s.quench.inlet else s.quench.outlet
    let out0 := if d.val < 16 then (spotOf s d i).st0 = 2 else bitOf air.bad 0 = true
    let out1 := if d.val < 16 then (spotOf s d i).st1 = 2 else bitOf air.bad 1 = true
    let trips := (c0 = true ∧ c1 = true ∧ ¬ out0 ∧ ¬ out1) ∨ (c0 = true ∧ ¬ out0 ∧ out1) ∨ (c1 = true ∧ ¬ out1 ∧ out0)
    let spots := if d.val < 16 then spotCount d else 2
    let warns (x : Instr) (src : Nat) : Prop := answers x s fun u => u.mem = s.mem ∧ u.power = s.power ∧
      liveBit u hhPage src = true ∧ sticky u hhPage src = true
    let off (u : State) : Prop := (s.power.mainOn = true → mainsAreOff s u) ∧ (s.power.mainOn = false → u.mem = s.mem)
    warns .inputUvWarn 0 ∧ warns .inputOvWarn 2 ∧
    (answers .inputUv s fun u => off u ∧ sticky u hhPage 1 = true) ∧
    (answers .inputOv s fun u => off u ∧ sticky u hhPage 3 = true) ∧
    (∀ high, answers (.inputWarningClear high) s fun u => u = { s with regs := u.regs } ∧
      liveBit u hhPage (if high then 2 else 0) = false ∧ liveBit u hhPage (if high then 3 else 1) = false ∧
      ∀ page src, sticky u page src = sticky s page src) ∧
    (i.val < spots → trips → answers (.hwTrip d i c0 c1) s fun u => off u ∧ u.quench.tripped = true ∧
      sticky u qnPage 5 = true) ∧
    (spots ≤ i.val ∨ ¬ trips → idles (.hwTrip d i c0 c1) s) ∧
    (s.quench.tripped = false ∨ s.svc.pwrEn = true ∨ s.quench.below = none → idles .thermTripRelease s) ∧
    (∀ t, s.quench.tripped = true → s.svc.pwrEn = false → s.quench.below = some t → answers .thermTripRelease s fun u =>
      u = { s with clock := u.clock, quench := { s.quench with tripped := false } } ∧
      u.clock.now = max s.clock.now (max t s.svc.fell + 10000000000)) ∧
    answers .hearthPowerLoss s fun u => u.mem.cells = [] ∧ u.clock = State.reset.clock ∧ u.plans = [] ∧ u.seqs = [] ∧
      u.regs = { Regs.reset with vals := u.regs.vals } ∧ (∀ o, o / 0x1000 ≠ modPage 0 → regGet u o = regGet State.reset o) ∧
      fld (pget u (modPage 0) 0x080) 7 0 = s.svc.fuse.code.toNat ∧ u.power = .reset ∧ u.svc.fuse = s.svc.fuse ∧
      u.svc.flashA = s.svc.flashA ∧ u.svc.flashB = s.svc.flashB

/-- R393: the division of a budget. No die gets less than its floor, but a laggard that asks for less gets no less than it asks
for, and none gets more than the greater of its floor and its request; where the floors fit, no more than the budget is granted,
and it is granted in full unless every request is met; where they do not, each die gets its floor. -/
def Obligations.Budget_division : Prop :=
  ∀ (p : Nat) (reqs : List (Nat × Nat)) (lag : List Bool),
    let g := divideBudget p reqs lag
    let floors := reqs.map Prod.snd
    g.length = reqs.length ∧
    (∀ k x, reqs[k]? = some x →
      (if lag.getD k false then min x.1 x.2 else x.2) ≤ g.getD k 0 ∧ g.getD k 0 ≤ max x.1 x.2) ∧
    (floors.sum ≤ p → g.sum ≤ p ∧ (g.sum = p ∨ ∀ k x, reqs[k]? = some x → x.1 ≤ g.getD k 0)) ∧
    (p < floors.sum → g = floors)

/-- R408 to R411, R413 to R423: an evaluation of Quench. It keeps for every hot spot the greater of its good sensors, the
other one of a sensor that departed from model and neighbours by more than 6 K, the greater of model and neighbours plus 3 K
where both did; a hot spot or node at its limit brings an emergency grant to its tiles, 5 K above it STOP; a rise of the
action rate leaves NORMAL, in the air too; the model advances by one step, and no forecast is below its node's value; out of
NORMAL the cap is 250 W, in it the lesser of the programmed and the thermal one. FLOOR and STOP end as they are to, and the
accesses that STOP held go on. The snapshot of a hot spot shows what Quench keeps, and a clear makes FAILED sensors GOOD.
Model choices in it: log 36, 37. Each completes with its own effect under its clause's conditions on state and operands
alone: quenchEvaluation, floorExit, thermalStopExit, ttHsSel, ttSensClr. -/
def Obligations.Thermal_control : Prop :=
  ∀ (l : List DiodeReading) (inlet outlet : BitVec 16 × BitVec 16) (busy : BitVec 12) (d : Fin 16) (hs : BitVec 6) (s : State),
    let s1 := readAir (readDiodes (s.setQuench { s.quench with evals := s.quench.evals + 1 }) l) inlet outlet
    let eval := Instr.quenchEvaluation l inlet outlet busy
    let q := s.quench
    let granted (u : State) (e : Nat) : Prop := ∀ t ∈ emergencyTiles e, tileUp s t = true →
      (budgetOf u (0x10 + t)).emergency = true ∧ fld (pget u (tilePage t 83) 0x08C) 5 0 = 0 ∧
      ∀ k < 8, fld (pget u (nlPage t k) 0x0B0) 3 0 = 1
    (answers eval s fun u => u.mem = s.mem ∧ u.clock = s.clock ∧ u.quench.evals = q.evals + 1 ∧
      u.quench.temps = modelStep s1 s1.quench.powers s1.quench.temps ∧
      (∀ n ≤ sinkNode, nodeValue u n ≤ nodeForecast u n) ∧
      (∀ e < 16, ∀ x ∈ limitedNodes e, (∀ i < spotCount e, spotNode e i ≠ x.1) →
        (x.2 ≤ nodeValue s1 x.1 → granted u e) ∧ (x.2 + 320 ≤ nodeValue s1 x.1 → qnMode u = 2)) ∧
      (riseAct s ≤ u.quench.inlet.rate ∨ riseAct s ≤ u.quench.outlet.rate → qnMode u ≠ 0) ∧
      (∀ e i, (e, i) ∈ allSpots →
        let h := spotOf s1 e i
        let m := spotModel s1 e i
        let v := (spotOf u e i).value
        let n := consensus s1 e i
        let far (r : Int) := 384 < (r - m).natAbs ∧ 384 < (r - n).natAbs
        let out0 := far h.r0 ∨ h.st0 = 2
        let out1 := far h.r1 ∨ h.st1 = 2
        (out0 → out1 → v = max m n + 192 ∧ (spotOf u e i).guard = true) ∧ (out0 → ¬ out1 → v = h.r1) ∧
        (¬ out0 → out1 → v = h.r0) ∧
        (¬ out0 → ¬ out1 → (h.r0 - h.r1).natAbs ≤ 192 → v = max h.r0 h.r1) ∧
        (spotLimit e i ≤ v → granted u e) ∧
        (spotLimit e i + 320 ≤ v → qnMode u = 2) ∧
        (riseAct s ≤ (spotOf u e i).rate → qnMode u ≠ 0) ∧
        (riseWarn s ≤ (spotOf u e i).rate → sticky u qnPage 0 = true)) ∧
      (qnMode u ≠ 0 → capNow u = 250) ∧
      (qnMode u = 0 → capNow u = max 250 (min (clampN 400 1100 (fld (pget s qnPage 0x080) 10 0)) (pget u qnPage 0x094))) ∧
      (qnMode s = 2 → qnMode u = 2) ∧ (qnMode s = 1 → qnMode u ≠ 0)) ∧
    (qnMode s ≠ 1 ∨ q.raw < 400 → idles .floorExit s) ∧
    (qnMode s = 1 → 400 ≤ q.raw → answers .floorExit s fun u => u = { s with clock := u.clock, regs := u.regs } ∧
      qnMode u = 0 ∧ u.clock.now = max s.clock.now (q.lastWarn + 1000000000)) ∧
    (qnMode s ≠ 2 ∨ q.raw < 400 ∨ q.cool = none → idles .thermalStopExit s) ∧
    (∀ t, qnMode s = 2 → 400 ≤ q.raw → q.cool = some t → ∃ u, u.mem = s.mem ∧ qnMode u = 1 ∧
      u.quench = { q with holding := false } ∧ u.clock.now = max s.clock.now (t + 100000000) ∧ u.store.waits = [] ∧
      exec .thermalStopExit s = resumeAccesses u s.store.waits ∧
      (s.store.waits = [] → exec .thermalStopExit s = .next u)) ∧
    (writesReg (.ttHsSel d hs) s (thermalPage d) fun w u =>
      let i := min (spotCount d - 1) hs.toNat
      let h := spotOf w d i
      let pg := thermalPage d
      onlyRegsAt w u [regOff pg 0x080, regOff pg 0x084, regOff pg 0x088, regOff pg 0x08C, regOff pg 0x090] ∧
      pget u pg 0x080 = i ∧ pget u pg 0x084 = toPat 16 h.value + toPat 16 (spotModel w d i) * 2 ^ 16 ∧
      pget u pg 0x088 = toPat 16 (nodeForecast w (spotNode d i)) + toPat 16 (h.rate / 4) * 2 ^ 16 ∧
      pget u pg 0x08C = toPat 16 h.r0 + toPat 16 h.r1 * 2 ^ 16) ∧
    writesReg (.ttSensClr d) s (thermalPage d) fun w u =>
      u = { w with quench := u.quench, regs := u.regs } ∧ liveBit u (thermalPage d) 2 = false ∧
      ∀ i < spotCount d, (spotOf u d i).st0 ≠ 2 ∧ (spotOf u d i).st1 ≠ 2 ∧ (spotOf u d i).value = (spotOf w d i).value ∧
        ((spotOf w d i).st0 = 2 ∨ (spotOf w d i).st1 = 2 → (spotOf u d i).guard = false)

/-- R427, R430, R431, R429, R434 to R438, R492: fault registers. A write of FLT_FORCE sets the named sources of a page that
serves; one of FLT_STICKY clears those named whose cause is gone and no others, and what a FATAL hold kept back goes on once
it ends; Vexondane clears a bit only once its setting is reported, no mark is left and its cause is gone, and the sixteenth
clear within a second puts it in storm. No byte of memory changes. Reports and block resets. The setting to report next
leaves the queue; unless a thousand were written within a second, its record of 328 bytes is kept by Hearth with the
severity, source and page, and a PLDM event is pending; otherwise it is counted. A block reset returns the block's registers
and counters, keeps its fault registers, and marks every live group with a part on it, never on a module page nor twice.
Model choices in it: log 40, 121. Each completes with its own effect under its clause's conditions on state and operands
alone: fltForce, fltStickyClear, faultReport, vexondaneClear, blockReset, blockResetDone. -/
def Obligations.Faults_and_block_resets : Prop :=
  (
    ∀ (page : BitVec 11) (bits : BitVec 32) (src : Fin 32) (s : State),
      let p := page.toNat
      let w := reach s p
      (pageServes w p = false → exec (.fltForce page bits) s = .next w ∧ exec (.fltStickyClear page bits) s = .next w) ∧
      (∀ b, pageBlock p = some b → pageServes w p = true →
        (answers (.fltForce page bits) s fun u => onlyFaults w u ∧
          (bitOf bits.toNat src = true → sourceDefined b src = true → sticky u p src = true)) ∧
        ∃ v, v = { w with regs := v.regs, flt := v.flt } ∧
          (∀ page' x, page' ≠ p → sticky v page' x = sticky w page' x) ∧
          (p ≠ modPage 6 → sticky v p src =
            (sticky w p src && !(bitOf bits.toNat src && sourceDefined b src && !liveBit w p src))) ∧
          exec (.fltStickyClear page bits) s = .next (if fatalHold w && !fatalHold v then endHold v else v)) ∧
      (mayClear s p src = false → idles (.vexondaneClear page src) s) ∧
      (sticky s p src = false ∨ liveBit s p src = true ∨ settingClass s p src = 2 → idles (.vexondaneClear page src) s) ∧
      (mayClear s p src = true → answers (.vexondaneClear page src) s fun u => u.mem = s.mem ∧
        ((clearsNow s p src).length < 16 → sticky u p src = false) ∧
        (16 ≤ (clearsNow s p src).length → inStorm u p src = true ∧ sticky u (modPage 6) 2 = true))) ∧
  (
    ∀ (temp volt : BitVec 16) (time : BitVec 64) (page : BitVec 11) (s : State),
      let rep := Instr.faultReport temp volt time
      let recent := s.flt.times.filter fun t => s.clock.now < t + 1000000000
      let p := page.toNat
      let w := if s.regs.resetReq.contains p then s else reach s p
      let isModule := ∃ i, pagePlace p = .module i
      (nextStamp s = none → idles rep s) ∧
      (∀ x, nextStamp s = some x →
        (answers rep s fun u => ∃ l, u.flt.stamps = s.flt.stamps.erase x ++ l) ∧
        (x.urgent = true ∨ recent.length < 1000 → answers rep s fun u =>
          (bitOf (pget s (modPage 6) 0x094) 16 = false → u.mem = s.mem) ∧ u.svc.events = s.svc.events + 1 ∧
          srcKey x.page x.source ∈ u.flt.reported ∧ u.flt.reports = s.flt.reports + 1 ∧
          ∃ r, u.flt.records = (r :: s.flt.records).take 256 ∧ r.length = 328 ∧ field r 0 4 = 0x52455043 ∧
            field r 12 4 = severity x.cls ∧ field r 96 8 = (s.flt.reports + 1) % 2 ^ 64 ∧
            field r 203 1 = x.source % 2 ^ 8 ∧ field r 204 4 = x.page % 2 ^ 32 ∧ field r 232 2 = temp.toNat ∧
            bitOf (field r 236 2) 3 = !ownSpot x.page) ∧
        (x.urgent = false → 1000 ≤ recent.length → answers rep s fun u => u = { s with flt := u.flt } ∧
          u.flt.records = s.flt.records ∧ kget 0 u.flt.lost x.page = kget 0 s.flt.lost x.page + 1)) ∧
      (s.regs.resetReq.contains p = false → pageServes w p = false → exec (.blockReset page) s = .next w) ∧
      (s.regs.resetReq.contains p = true ∨ pageServes w p = true →
        (pageBlock p = none ∨ isModule ∨ inReset w p = true → answers (.blockReset page) s fun u =>
          u = w.setRegs { w.regs with resetReq := w.regs.resetReq.filter (· != p) }) ∧
        (∀ b, pageBlock p = some b → ¬ isModule → inReset w p = false → answers (.blockReset page) s fun u =>
          inReset u p = true ∧ (∀ x < 32, sticky w p x = true → sticky u p x = true) ∧
          (∀ g ∈ w.sched.groups, planOnBlock w g.slot p = true → tagLive w g.tag = true →
            ⟨g.tag, .path, p, 32⟩ ∈ u.flt.marks))) ∧
      answers (.blockResetDone page) s fun u => u = { s with regs := u.regs } ∧ inReset u p = false ∧
        ∀ o, regGet u o = regGet s o)

/-- R450 to R452, R457: Temper. A test starts only on a unit in service, idle and due, with Temper enabled, the module
ACTIVE and room before the next cutoff. A pass is recorded; a first failure runs again; a pass of the second run counts a
strike; a second failure condemns the unit. A core keeps G0 and G1, and no memory changes. A command that names the unit
under test abandons it; a unit untested for twice the interval raises its source; RUN_NOW makes every unit due, and the
selected unit's record shows. Model choices in it: log 60. Each completes with its own effect under its clause's conditions
on state and operands alone: temperTest, temperTestDone, temperOverdue, temperAbandon, tmRunNow, tmSel. -/
def Obligations.Temper_tests : Prop :=
  ∀ (t : Fin 12) (n : BitVec 9) (v : BitVec 32) (pass : Bool) (s : State),
    let u' := n.toNat
    let pg := tmPage t
    let start := Instr.temperTest t n
    let done := Instr.temperTestDone t pass
    let runs := kfind s.tests t
    let due := (unitOf s t u').runNow || decide ((unitOf s t u').tested + tmInterval s t ≤ activeTime s)
    let room := match nextStart s with
      | some x => s.clock.now + slotNeed s t u' + 20000 ≤ x
      | none => True
    (bitOf (pget s pg 0x080) 0 = false ∨ pState s ≠ 0 ∨ quarantined s t u' = true ∨ unitIdle s t u' = false ∨ runs ≠ none ∨
      due = false ∨ ¬ room → idles start s) ∧
    (bitOf (pget s pg 0x080) 0 = true → pState s = 0 → tileUp s t = true → tested s t u' = true → unitIdle s t u' = true →
      runs = none → due = true → room → inReset s pg = false → answers start s fun u =>
        u = { s with tests := u.tests } ∧ kfind u.tests t = some ⟨u', s.clock.now, false⟩) ∧
    (runs = none → idles done s ∧ idles (.temperAbandon t n) s) ∧
    (∀ x, runs = some x →
      (answers done s fun u => u.mem = s.mem ∧ u.clock = s.clock ∧
        (x.unit < 40 → getG u t x.unit 0 = getG s t x.unit 0 ∧ getG u t x.unit 1 = getG s t x.unit 1) ∧
        (pass = true → x.second = false → kfind u.tests t = none ∧ (unitOf u t x.unit).result = 1 ∧
          (unitOf u t x.unit).lastPass = s.clock.now) ∧
        (pass = true → x.second = true → kfind u.tests t = none ∧ (unitOf u t x.unit).result = 2 ∧
          (unitOf u t x.unit).strikes = min 15 ((unitOf s t x.unit).strikes + 1) ∧ sticky u pg 1 = true) ∧
        (pass = false → x.second = false → kfind u.tests t = some { x with start := s.clock.now, second := true }) ∧
        (pass = false → x.second = true → kfind u.tests t = none ∧ (unitOf u t x.unit).result = 3 ∧
          (unitOf u t x.unit).condemned = true ∧ sticky u pg 0 = true)) ∧
      (x.unit ≠ u' → idles (.temperAbandon t n) s) ∧
      (x.unit = u' → answers (.temperAbandon t n) s fun u => u = { s with tests := u.tests } ∧ kfind u.tests t = none)) ∧
    (overdue s t u' = false → idles (.temperOverdue t n) s) ∧
    (overdue s t u' = true → answers (.temperOverdue t n) s fun u => u.mem = s.mem ∧ sticky u pg 2 = true) ∧
    (writesReg (.tmRunNow t) s pg fun w u => u = { w with units := u.units } ∧
      ∀ k, unitOk k = true → tested w t k = true → (unitOf u t k).runNow = true) ∧
    writesReg (.tmSel t v) s pg fun w u =>
      let k := if unitOk (v.toNat % 512) then v.toNat % 512 else 0
      onlyRegsAt w u [regOff pg 0x08C, regOff pg 0x090, regOff pg 0x094] ∧ pget u pg 0x08C = k ∧
      pget u pg 0x090 = (unitOf w t k).lastPass / 2 ^ 20 % 2 ^ 32

/-- R2, R3, R458, R462, R465, R468, R472, R473, R515, R517, R521, R522: bring-up. A cold power-on without a valid slot ends
in NO_CONFIG, with the identity that is fused; with PWR_EN low it stops after step 2, in test after step 4, where a shift of
the data registers from TAP reset reads the IDCODE of A2, A3, A1 and A0, else READY or HELD with initialised memory, no plan
and no sequence. A fall of PWR_EN loses all but Hearth; a rise is acted on after 100 ms of low, never while a trip stands. A
warm restart runs when one is due, keeps the timebase going, and waits for MOD_RST_N. Model choices in it: log 55, 56, 57,
61, 106. Each completes with its own effect under its clause's conditions on state and operands alone: coldPowerOn,
warmRestart, modRstN, pwrEnFall, pwrEnRise, modRstNRelease, pwrEnLowHoldoffEnd. -/
def Obligations.Bring_up : Prop :=
  ∀ (factory : Option (Fuse × Option FlashSlot × Option FlashSlot)) (test pwrEn : Bool) (strap : BitVec 4) (r : BringUp)
    (ns : BitVec 16) (clocks : List (Bool × Bool)) (s : State),
    let cold := Instr.coldPowerOn factory test pwrEn strap r clocks
    let f := factoryState (unpowered s) factory
    let cf (u : State) := pget u cfPage 0x080
    let v := s.svc
    let late := s.clock.now < v.fell + 100000000
    let can := s.power.mainOn = false ∧ inputGood s = true ∧ v.test = false ∧ (currentImage s).isSome = true
    let starts (u : State) : Prop := broughtUp u ∧ u.power.mainOn = true ∧ u.seqs = s.seqs ∧ s.clock.now ≤ u.clock.now
    (flashValid f false = false → flashValid f true = false → answers cold s fun u =>
      svcState u = 4 ∧ u.power.mainOn = false ∧ sticky u cfPage 2 = true ∧
      fld (pget u (modPage 0) 0x080) 7 0 = f.svc.fuse.code.toNat ∧ bitOf (pget u (modPage 0) 0x0A0) 10 = offersCxl f) ∧
    (flashValid f false = true ∨ flashValid f true = true →
      (pwrEn = false → answers cold s fun u => cf u = 2 * 2 ^ 16 ∧ u.power.mainOn = false) ∧
      (pwrEn = true → test = true → answers cold s fun u => cf u = 4 * 2 ^ 16 ∧ u.power.mainOn = true ∧
        ∀ bits : List Bool, bits.length = 128 → clocks =
          [(false, false), (true, false), (false, false), (false, false)] ++ bits.map (fun b => (false, b)) →
          u.svc.port.tdo = [2, 3, 1, 0].flatMap fun a => lowBits 32 (idcode u (.base a)).toNat) ∧
      (pwrEn = true → test = false → answers cold s fun u => broughtUp u ∧ u.power.mainOn = true ∧ u.plans = [] ∧ u.seqs = [] ∧
        r.time.toNat ≤ u.clock.now ∧ ∀ a < 2 ^ 48, u.mem.readByte a = 0#8)) ∧
    (v.pwrEn = false → idles .pwrEnFall s) ∧
    (v.pwrEn = true → answers .pwrEnFall s fun u => u.svc.pwrEn = false ∧ u.svc.fell = s.clock.now ∧
      u.svc.riseWaits = false ∧ (s.power.mainOn = true → mainsAreOff s u) ∧ (s.power.mainOn = false → u.mem = s.mem)) ∧
    (v.pwrEn = true → idles (.pwrEnRise r) s) ∧
    (v.pwrEn = false →
      (s.quench.tripped = true → answers (.pwrEnRise r) s fun u => u = s.setSvc { v with pwrEn := true }) ∧
      (s.quench.tripped = false → late → answers (.pwrEnRise r) s fun u =>
        u = s.setSvc { v with pwrEn := true, riseWaits := true }) ∧
      (s.quench.tripped = false → ¬ late → can → answers (.pwrEnRise r) s fun u => starts u ∧ u.svc.pwrEn = true)) ∧
    (v.riseWaits = false ∨ s.quench.tripped = true → idles (.pwrEnLowHoldoffEnd r) s) ∧
    (v.riseWaits = true → s.quench.tripped = false → can → answers (.pwrEnLowHoldoffEnd r) s fun u => starts u ∧
      u.svc.riseWaits = false ∧ v.fell + 100000000 ≤ u.clock.now) ∧
    (restartDue s = false → idles (.warmRestart r) s) ∧
    (restartDue s = true → v.modRst = true → answers (.warmRestart r) s fun u => u.svc.heldReset = true ∧ cf u = 2 * 2 ^ 16 ∧
      u.clock = s.clock ∧ u.host.linkUp = false ∧ u.host.pairs = []) ∧
    (restartDue s = true → v.modRst = false → bitOf (v.restart.getD 0) 1 = false → (currentImage s).isSome = true →
      answers (.warmRestart r) s fun u => broughtUp u ∧ u.svc.restart = none ∧ s.clock.now ≤ u.clock.now ∧
        u.host.linkUp = false ∧ u.sync = .reset) ∧
    (v.pwrEn = false ∨ v.upOnce = false ∨ ns.toNat < 100 → idles (.modRstN ns) s) ∧
    (v.pwrEn = true → v.upOnce = true → 1000 ≤ ns.toNat → answers (.modRstN ns) s fun u =>
      (s.chain.opens = [] → u.mem = s.mem) ∧
      u.svc = { v with restart := some 0, modRst := true } ∧ u.host.linkUp = false ∧ u.host.pairs = []) ∧
    (v.pwrEn = true → v.upOnce = true → 100 ≤ ns.toNat → ns.toNat < 1000 → answers (.modRstN ns) s fun u =>
      u = { s with free := u.free } ∨ ((s.chain.opens = [] → u.mem = s.mem) ∧
        u.svc = { v with restart := some 0, modRst := false } ∧
        u.host.linkUp = false)) ∧
    (v.heldReset = false → answers (.modRstNRelease r) s fun u => u = s.setSvc { v with modRst := false }) ∧
    (v.heldReset = true → answers (.modRstNRelease r) s fun u => u.svc.modRst = false ∧ u.svc.heldReset = false)

/-- R348, R459, R461, R463, R517: configuration writes, HELD and the sideband. A write goes to the slot that is not current
with the next SEQ, and a success makes it current, a failure raises its source. HELD is checked again against the
descriptor. A sideband message has its own effect and answers what it is to; the one row whose effect the spec does not give
is refused by name. Model choices in it: log 52, 81. Each completes with its own effect under its clause's conditions on
state and operands alone: heldReevaluate, configImageWrite, sidebandMessage, pldmSensorUpdate. -/
def Obligations.Images_and_sideband : Prop :=
  ∀ (sec : ConfigImage) (ok1 ok2 : Bool) (n : Fin 31) (addr : BitVec 7) (eid : BitVec 8) (fw : BitVec 32) (s : State),
    let w := Instr.configImageWrite sec ok1 ok2
    let v := s.svc
    (v.writes = [] → idles w s) ∧
    (∀ x rest b, v.writes = x :: rest → v.current = some b → answers w s fun u => u.svc.writes = rest ∧ u.mem = s.mem ∧
      flashOf u b = flashOf s b ∧ u.svc.current = some (if ok1 || ok2 then !b else b) ∧
      ((ok1 || ok2) = false → sticky u cfPage 6 = true) ∧
      ∃ y, flashOf u (!b) = some y ∧ y.crcOk = (ok1 || ok2) ∧ y.header.length = 128 ∧ field y.header 8 4 = nextSeq s ∧
        field y.header 0x18 16 = v.fuse.guid.toNat ∧ guarded y.header 64 = true) ∧
    (v.current = none ∨ svcState s ≠ 1 → idles .heldReevaluate s) ∧
    (∀ i, currentImage s = some i → svcState s = 1 → answers .heldReevaluate s fun u => broughtUp u) ∧
    (answers (.sidebandMessage (.assign addr)) s fun u => u = s.setSvc { v with i3c := addr.toNat, reply := [] }) ∧
    (answers (.sidebandMessage (.setEid eid)) s fun u => u = s.setSvc { v with eid := eid.toNat, reply := [] }) ∧
    (answers (.sidebandMessage (.readSensor n)) s fun u =>
      u = s.setSvc { v with reply := leBytes 4 (v.sensors.getD n 0) }) ∧
    (answers (.sidebandMessage .pollEvent) s fun u => u = { s with svc := u.svc } ∧ u.svc.events = v.events - 1 ∧
      (v.events = 0 → u.svc.reply = [])) ∧
    (answers (.sidebandMessage (.firmware fw)) s fun u => u = { s with svc := u.svc } ∧
      u.svc.staged = some fw.toNat ∧ u.svc.writes = v.writes ++ [(1, none)]) ∧
    exec (.sidebandMessage .other) s = .refused .unknownMessage ∧
    answers .pldmSensorUpdate s fun u => u = { s with svc := u.svc } ∧ u.svc.sensors.length = 31 ∧
      u.svc.sensors[0]? = some (pget s hhPage 0x080) ∧ u.svc.sensors[1]? = some (pget s hhPage 0x084) ∧
      u.svc.sensors[2]? = some (pget s hhPage 0x088) ∧ u.svc.sensors[3]? = some (capNow s) ∧
      u.svc.sensors[4]? = some (pState s)

/-- R335, R348: every command has an effect: in every state it completes with a next state, the one sideband row apart whose
effect the spec does not give; so a step of the block is safe wherever that row is not in front. Model choices in it: log 4,
81. -/
def Obligations.Every_command_completes : Prop :=
  (∀ (i : Instr) (s : State), i ≠ .sidebandMessage .other → ∃ u, exec i s = .next u) ∧
  ∀ s : State, (∀ c rest, s.pending = c :: rest → c ≠ .sidebandMessage .other) → safeStep s

/-- R92, R93, R95, R101 to R105, R108, R115: the instruction words of the cores. Every instruction of every core has a word,
and the core's decoder reads it back with every operand at every value; what a decoder gives is an instruction of that core,
with the opcode of the word. Model choices in it: log 11. -/
def Obligations.Core_words_round_trip : Prop :=
  (∀ (i : Instr) (t : Fin 12) (p : Fin 41), coreOfInstr i = some (t, p) →
    ∃ w, encodeCoreWord i = some w ∧ decodeCoreWord t p w = some i) ∧
  (∀ (t : Fin 12) (p : Fin 41) (w : BitVec 64) (i : Instr), decodeCoreWord t p w = some i →
    coreOfInstr i = some (t, p) ∧ ∃ w', encodeCoreWord i = some w' ∧ w'.extractLsb' 0 8 = w.extractLsb' 0 8) ∧
  ∀ i, coreOfInstr i = none → encodeCoreWord i = none

/-- R24, R26 to R29: memory keeps its canonical form under every step: addresses rise and no listed byte is what an unlisted
address reads as. Model choices in it: log 1. -/
def Obligations.Memory_form_kept : Prop :=
  ∀ s u : State, s.mem.wf → step s = .next u → u.mem.wf

/-- R88, R403, R404, R487: the state after reset, before power: nothing waits, memory lists nothing in its canonical form,
every counter is 0, no source is set, and the registers of every page read the reset values of their tables, of which these
are some. Model choices in it: log 2, 6. -/
def Obligations.Reset_state : Prop :=
  let r := State.reset
  r.pending = [] ∧ r.mem.cells = [] ∧ r.mem.wf ∧ r.clock.now = 0 ∧ r.power.mainOn = false ∧ r.seqs = [] ∧ r.plans = [] ∧
  (∀ off, kget 0#64 r.regs.counters off = 0#64) ∧ (∀ page < 2048, ∀ src < 32, sticky r page src = false) ∧
  pState r = 0 ∧ pget r pwrPage 0x080 = 0x0000000A ∧ pget r pwrPage 0x08C = 0x006403E8 ∧
  pget r pwrPage 0x090 = 0x0000000A ∧
  (∀ t < 12, pget r (tilePage t 83) 0x08C = 0x30 ∧ pget r (tilePage t 83) 0x090 = 0x78) ∧
  ∀ a < 4, pget r (basePage a 10) 0x090 = 0xA0
end

