-- ==== Sys2Proof/Laws/Data.lean ====
section
/-!
SUPPORT. What the sparse maps and sets answer: a read after each update, the canonical form kept by each update.
-/

namespace Sys2Proof.Machine

variable {α : Type}

theorem kfind_kinsert (m : KMap α) (k j : Nat) (v : α) :
    kfind (kinsert m k v) j = if j = k then some v else kfind m j := by
  induction m with
  | nil => simp [kinsert, kfind]
  | cons p m ih =>
    obtain ⟨k', v'⟩ := p
    unfold kinsert
    split
    · simp [kfind]
    · split
      · subst_vars; by_cases h : j = k' <;> simp [kfind, h]
      · by_cases h : j = k'
        · subst h; simp [kfind]; rintro rfl; contradiction
        · simp [kfind, h, ih]

theorem kfind_kerase (m : KMap α) (k j : Nat) : kfind (kerase m k) j = if j = k then none else kfind m j := by
  induction m with
  | nil => simp [kerase, kfind]
  | cons p m ih =>
    obtain ⟨k', v'⟩ := p
    unfold kerase at ih ⊢
    by_cases h : k' = k
    · subst h; simp only [List.filter, bne_self_eq_false]; rw [ih]; by_cases h : j = k' <;> simp [kfind, h]
    · simp only [List.filter, kfind]
      have : (k' != k) = true := by simp [h]
      simp only [this, kfind]
      by_cases h' : j = k' <;> simp [h', h, ih]

@[simp] theorem kget_kinsert (d : α) (m : KMap α) (k j : Nat) (v : α) :
    kget d (kinsert m k v) j = if j = k then v else kget d m j := by
  unfold kget; rw [kfind_kinsert]; split <;> rfl

@[simp] theorem kget_kerase (d : α) (m : KMap α) (k j : Nat) :
    kget d (kerase m k) j = if j = k then d else kget d m j := by
  unfold kget; rw [kfind_kerase]; split <;> rfl

@[simp] theorem kget_kput [DecidableEq α] (d : α) (m : KMap α) (k j : Nat) (v : α) :
    kget d (kput d m k v) j = if j = k then v else kget d m j := by
  unfold kput; split <;> simp_all

@[simp] theorem kget_nil (d : α) (j : Nat) : kget d [] j = d := rfl

theorem kSortedFrom_mono {m : KMap α} {b c : Nat} (h : kSortedFrom c m = true) (hb : b ≤ c) :
    kSortedFrom b m = true := by
  cases m with
  | nil => rfl
  | cons p m =>
    simp only [kSortedFrom, Bool.and_eq_true, decide_eq_true_eq] at h ⊢
    exact ⟨hb.trans h.1, h.2⟩

theorem kSortedFrom_filter {m : KMap α} {b : Nat} (q : Nat × α → Bool) (h : kSortedFrom b m = true) :
    kSortedFrom b (m.filter q) = true := by
  induction m generalizing b with
  | nil => rfl
  | cons p m ih =>
    simp only [kSortedFrom, Bool.and_eq_true, decide_eq_true_eq] at h
    rw [List.filter_cons]
    split
    · simp only [kSortedFrom, Bool.and_eq_true, decide_eq_true_eq]
      exact ⟨h.1, ih h.2⟩
    · exact kSortedFrom_mono (ih h.2) (by omega)

theorem kSortedFrom_kinsert {m : KMap α} {b k : Nat} (v : α) (h : kSortedFrom b m = true) (hb : b ≤ k) :
    kSortedFrom b (kinsert m k v) = true := by
  induction m generalizing b with
  | nil => simp [kinsert, kSortedFrom, hb]
  | cons p m ih =>
    simp only [kSortedFrom, Bool.and_eq_true, decide_eq_true_eq] at h
    unfold kinsert
    split
    · simp only [kSortedFrom, Bool.and_eq_true, decide_eq_true_eq]
      exact ⟨hb, by omega, h.2⟩
    · split
      · subst_vars; simp only [kSortedFrom, Bool.and_eq_true, decide_eq_true_eq]; exact ⟨hb, h.2⟩
      · simp only [kSortedFrom, Bool.and_eq_true, decide_eq_true_eq]
        exact ⟨h.1, ih h.2 (by omega)⟩

theorem kSortedFrom_kerase {m : KMap α} {b : Nat} (k : Nat) (h : kSortedFrom b m = true) :
    kSortedFrom b (kerase m k) = true := kSortedFrom_filter _ h

theorem kSortedFrom_kput [DecidableEq α] {m : KMap α} {k : Nat} (d v : α) (h : kSortedFrom 0 m = true) :
    kSortedFrom 0 (kput d m k v) = true := by
  unfold kput; split
  · exact kSortedFrom_kerase _ h
  · exact kSortedFrom_kinsert _ h (Nat.zero_le _)

theorem mem_kinsert {m : KMap α} {k : Nat} {v : α} {c : Nat × α} (h : c ∈ kinsert m k v) : c = (k, v) ∨ c ∈ m := by
  induction m with
  | nil => simpa [kinsert] using h
  | cons p m ih =>
    unfold kinsert at h
    split at h
    · simpa using h
    · split at h
      · rcases List.mem_cons.1 h with h | h <;> simp [h]
      · rcases List.mem_cons.1 h with h | h
        · simp [h]
        · rcases ih h with h | h <;> simp [h]

theorem kfind_filter (m : KMap α) (q : Nat → Bool) (j : Nat) :
    kfind (m.filter fun p => q p.1) j = if q j then kfind m j else none := by
  induction m with
  | nil => simp [kfind]
  | cons p m ih =>
    obtain ⟨k', v'⟩ := p
    rw [List.filter_cons]
    by_cases hj : j = k'
    · subst hj
      by_cases hq : q j <;> simp [kfind, hq, ih]
    · by_cases hq : q k' <;> simp [kfind, hj, hq, ih]

theorem rmem_raddAux (r : RangeSet) (lo hi a : Nat) (h : lo < hi) :
    rmem (raddAux r lo hi) a = (rmem r a || (lo ≤ a && a < hi)) := by
  induction r generalizing lo hi with
  | nil => simp [raddAux, rmem]
  | cons p r ih =>
    obtain ⟨x, y⟩ := p
    unfold raddAux
    split
    · simp only [rmem, List.any_cons]; rw [Bool.or_comm]
    · split
      · simp only [rmem, List.any_cons] at ih ⊢; rw [ih _ _ h, Bool.or_assoc]
      · rw [ih _ _ (by omega)]
        simp only [rmem, List.any_cons]
        rw [Bool.eq_iff_iff]
        simp only [Bool.or_eq_true, Bool.and_eq_true, decide_eq_true_eq]
        constructor
        · rintro (h | h)
          · exact .inl (.inr h)
          · by_cases h1 : x ≤ a ∧ a < y
            · exact .inl (.inl h1)
            · right; omega
        · rintro ((h | h) | h)
          · right; omega
          · exact .inl h
          · right; omega

@[simp] theorem rmem_radd (r : RangeSet) (lo hi a : Nat) : rmem (radd r lo hi) a = (rmem r a || (lo ≤ a && a < hi)) := by
  unfold radd; split
  · rename_i h; exact rmem_raddAux r lo hi a h
  · rename_i h
    have : (decide (lo ≤ a) && decide (a < hi)) = false := by
      simp only [Bool.and_eq_false_iff, decide_eq_false_iff_not]; omega
    rw [this, Bool.or_false]

theorem rmem_rdelAux (r : RangeSet) (lo hi a : Nat) :
    rmem (rdelAux r lo hi) a = (rmem r a && !(lo ≤ a && a < hi)) := by
  induction r with
  | nil => simp [rdelAux, rmem]
  | cons p r ih =>
    obtain ⟨x, y⟩ := p
    have e : ∀ u v : RangeSet, rmem (u ++ v) a = (rmem u a || rmem v a) := fun u v => by simp [rmem]
    rw [rdelAux, e, e, ih]
    have h1 : rmem (if x < min y lo then [(x, min y lo)] else []) a = (x ≤ a && a < y && a < lo : Bool) := by
      split <;> simp only [rmem, List.any_cons, List.any_nil, Bool.or_false] <;> rw [Bool.eq_iff_iff] <;>
        simp only [Bool.and_eq_true, decide_eq_true_eq, Bool.false_eq_true, false_iff] <;> omega
    have h2 : rmem (if max x hi < y then [(max x hi, y)] else []) a = (x ≤ a && a < y && hi ≤ a : Bool) := by
      split <;> simp only [rmem, List.any_cons, List.any_nil, Bool.or_false] <;> rw [Bool.eq_iff_iff] <;>
        simp only [Bool.and_eq_true, decide_eq_true_eq, Bool.false_eq_true, false_iff] <;> omega
    rw [h1, h2]
    have h3 : rmem ((x, y) :: r) a = ((x ≤ a && a < y : Bool) || rmem r a) := rfl
    rw [h3, Bool.eq_iff_iff]
    simp only [Bool.or_eq_true, Bool.and_eq_true, decide_eq_true_eq, Bool.not_eq_true', Bool.and_eq_false_iff,
      decide_eq_false_iff_not]
    constructor
    · rintro ((h | h) | h)
      · exact ⟨.inl h.1, by omega⟩
      · exact ⟨.inl h.1, by omega⟩
      · exact ⟨.inr h.1, h.2⟩
    · rintro ⟨h | h, h'⟩
      · rcases h' with h' | h'
        · exact .inl (.inl ⟨h, by omega⟩)
        · exact .inl (.inr ⟨h, by omega⟩)
      · exact .inr ⟨h, h'⟩

@[simp] theorem rmem_rdel (r : RangeSet) (lo hi a : Nat) :
    rmem (rdel r lo hi) a = (rmem r a && !(lo ≤ a && a < hi)) := by
  unfold rdel; split
  · exact rmem_rdelAux r lo hi a
  · rename_i h
    have : (decide (lo ≤ a) && decide (a < hi)) = false := by
      simp only [Bool.and_eq_false_iff, decide_eq_false_iff_not]; omega
    rw [this]; simp

/-- What holds before a fold and is kept by each of its steps holds after it. -/
theorem foldList_inv {σ β : Type} (P : σ → Prop) (f : β → σ → σ) (l : List β) (s : σ) (h : P s)
    (hf : ∀ a ∈ l, ∀ s, P s → P (f a s)) : P (foldList f l s) := by
  induction l generalizing s with
  | nil => exact h
  | cons a l ih => exact ih _ (hf a (by simp) s h) fun b hb => hf b (by simp [hb])

theorem foldUp_inv {σ : Type} (P : σ → Prop) (f : Nat → σ → σ) (n : Nat) (s : σ) (h : P s)
    (hf : ∀ a < n, ∀ s, P s → P (f a s)) : P (foldUp f n s) := by
  induction n with
  | zero => exact h
  | succ n ih => exact hf n (by omega) _ (ih fun a ha => hf a (by omega))

end Sys2Proof.Machine
end

