-- ==== Sys2Proof/Laws/State.lean ====
section
/-!
SUPPORT. One lemma for each field and each update of the state, so that no later proof unfolds a record update.
-/

namespace Sys2Proof.Machine

@[simp] theorem setPending_pending (s : State) (x : List Instr) : (s.setPending x).pending = x := rfl
@[simp] theorem setPending_mem (s : State) (x : List Instr) : (s.setPending x).mem = s.mem := rfl
@[simp] theorem setPending_regs (s : State) (x : List Instr) : (s.setPending x).regs = s.regs := rfl
@[simp] theorem setPending_flt (s : State) (x : List Instr) : (s.setPending x).flt = s.flt := rfl
@[simp] theorem setPending_cores (s : State) (x : List Instr) : (s.setPending x).cores = s.cores := rfl
@[simp] theorem setPending_tccs (s : State) (x : List Instr) : (s.setPending x).tccs = s.tccs := rfl
@[simp] theorem setPending_mcs (s : State) (x : List Instr) : (s.setPending x).mcs = s.mcs := rfl
@[simp] theorem setPending_sync (s : State) (x : List Instr) : (s.setPending x).sync = s.sync := rfl
@[simp] theorem setPending_host (s : State) (x : List Instr) : (s.setPending x).host = s.host := rfl
@[simp] theorem setPending_clock (s : State) (x : List Instr) : (s.setPending x).clock = s.clock := rfl
@[simp] theorem setPending_sched (s : State) (x : List Instr) : (s.setPending x).sched = s.sched := rfl
@[simp] theorem setPending_store (s : State) (x : List Instr) : (s.setPending x).store = s.store := rfl
@[simp] theorem setPending_units (s : State) (x : List Instr) : (s.setPending x).units = s.units := rfl
@[simp] theorem setPending_tests (s : State) (x : List Instr) : (s.setPending x).tests = s.tests := rfl
@[simp] theorem setPending_plans (s : State) (x : List Instr) : (s.setPending x).plans = s.plans := rfl
@[simp] theorem setPending_seqs (s : State) (x : List Instr) : (s.setPending x).seqs = s.seqs := rfl
@[simp] theorem setPending_eng (s : State) (x : List Instr) : (s.setPending x).eng = s.eng := rfl
@[simp] theorem setPending_chain (s : State) (x : List Instr) : (s.setPending x).chain = s.chain := rfl
@[simp] theorem setPending_power (s : State) (x : List Instr) : (s.setPending x).power = s.power := rfl
@[simp] theorem setPending_quench (s : State) (x : List Instr) : (s.setPending x).quench = s.quench := rfl
@[simp] theorem setPending_svc (s : State) (x : List Instr) : (s.setPending x).svc = s.svc := rfl
@[simp] theorem setPending_free (s : State) (x : List Instr) : (s.setPending x).free = s.free := rfl
@[simp] theorem setPending_self (s : State) : s.setPending s.pending = s := rfl
@[simp] theorem setPending_twice (s : State) (x y : List Instr) : (s.setPending x).setPending y = s.setPending y := rfl
@[simp] theorem setMem_pending (s : State) (x : Memory) : (s.setMem x).pending = s.pending := rfl
@[simp] theorem setMem_mem (s : State) (x : Memory) : (s.setMem x).mem = x := rfl
@[simp] theorem setMem_regs (s : State) (x : Memory) : (s.setMem x).regs = s.regs := rfl
@[simp] theorem setMem_flt (s : State) (x : Memory) : (s.setMem x).flt = s.flt := rfl
@[simp] theorem setMem_cores (s : State) (x : Memory) : (s.setMem x).cores = s.cores := rfl
@[simp] theorem setMem_tccs (s : State) (x : Memory) : (s.setMem x).tccs = s.tccs := rfl
@[simp] theorem setMem_mcs (s : State) (x : Memory) : (s.setMem x).mcs = s.mcs := rfl
@[simp] theorem setMem_sync (s : State) (x : Memory) : (s.setMem x).sync = s.sync := rfl
@[simp] theorem setMem_host (s : State) (x : Memory) : (s.setMem x).host = s.host := rfl
@[simp] theorem setMem_clock (s : State) (x : Memory) : (s.setMem x).clock = s.clock := rfl
@[simp] theorem setMem_sched (s : State) (x : Memory) : (s.setMem x).sched = s.sched := rfl
@[simp] theorem setMem_store (s : State) (x : Memory) : (s.setMem x).store = s.store := rfl
@[simp] theorem setMem_units (s : State) (x : Memory) : (s.setMem x).units = s.units := rfl
@[simp] theorem setMem_tests (s : State) (x : Memory) : (s.setMem x).tests = s.tests := rfl
@[simp] theorem setMem_plans (s : State) (x : Memory) : (s.setMem x).plans = s.plans := rfl
@[simp] theorem setMem_seqs (s : State) (x : Memory) : (s.setMem x).seqs = s.seqs := rfl
@[simp] theorem setMem_eng (s : State) (x : Memory) : (s.setMem x).eng = s.eng := rfl
@[simp] theorem setMem_chain (s : State) (x : Memory) : (s.setMem x).chain = s.chain := rfl
@[simp] theorem setMem_power (s : State) (x : Memory) : (s.setMem x).power = s.power := rfl
@[simp] theorem setMem_quench (s : State) (x : Memory) : (s.setMem x).quench = s.quench := rfl
@[simp] theorem setMem_svc (s : State) (x : Memory) : (s.setMem x).svc = s.svc := rfl
@[simp] theorem setMem_free (s : State) (x : Memory) : (s.setMem x).free = s.free := rfl
@[simp] theorem setMem_self (s : State) : s.setMem s.mem = s := rfl
@[simp] theorem setMem_twice (s : State) (x y : Memory) : (s.setMem x).setMem y = s.setMem y := rfl
@[simp] theorem setRegs_pending (s : State) (x : Regs) : (s.setRegs x).pending = s.pending := rfl
@[simp] theorem setRegs_mem (s : State) (x : Regs) : (s.setRegs x).mem = s.mem := rfl
@[simp] theorem setRegs_regs (s : State) (x : Regs) : (s.setRegs x).regs = x := rfl
@[simp] theorem setRegs_flt (s : State) (x : Regs) : (s.setRegs x).flt = s.flt := rfl
@[simp] theorem setRegs_cores (s : State) (x : Regs) : (s.setRegs x).cores = s.cores := rfl
@[simp] theorem setRegs_tccs (s : State) (x : Regs) : (s.setRegs x).tccs = s.tccs := rfl
@[simp] theorem setRegs_mcs (s : State) (x : Regs) : (s.setRegs x).mcs = s.mcs := rfl
@[simp] theorem setRegs_sync (s : State) (x : Regs) : (s.setRegs x).sync = s.sync := rfl
@[simp] theorem setRegs_host (s : State) (x : Regs) : (s.setRegs x).host = s.host := rfl
@[simp] theorem setRegs_clock (s : State) (x : Regs) : (s.setRegs x).clock = s.clock := rfl
@[simp] theorem setRegs_sched (s : State) (x : Regs) : (s.setRegs x).sched = s.sched := rfl
@[simp] theorem setRegs_store (s : State) (x : Regs) : (s.setRegs x).store = s.store := rfl
@[simp] theorem setRegs_units (s : State) (x : Regs) : (s.setRegs x).units = s.units := rfl
@[simp] theorem setRegs_tests (s : State) (x : Regs) : (s.setRegs x).tests = s.tests := rfl
@[simp] theorem setRegs_plans (s : State) (x : Regs) : (s.setRegs x).plans = s.plans := rfl
@[simp] theorem setRegs_seqs (s : State) (x : Regs) : (s.setRegs x).seqs = s.seqs := rfl
@[simp] theorem setRegs_eng (s : State) (x : Regs) : (s.setRegs x).eng = s.eng := rfl
@[simp] theorem setRegs_chain (s : State) (x : Regs) : (s.setRegs x).chain = s.chain := rfl
@[simp] theorem setRegs_power (s : State) (x : Regs) : (s.setRegs x).power = s.power := rfl
@[simp] theorem setRegs_quench (s : State) (x : Regs) : (s.setRegs x).quench = s.quench := rfl
@[simp] theorem setRegs_svc (s : State) (x : Regs) : (s.setRegs x).svc = s.svc := rfl
@[simp] theorem setRegs_free (s : State) (x : Regs) : (s.setRegs x).free = s.free := rfl
@[simp] theorem setRegs_self (s : State) : s.setRegs s.regs = s := rfl
@[simp] theorem setRegs_twice (s : State) (x y : Regs) : (s.setRegs x).setRegs y = s.setRegs y := rfl
@[simp] theorem setFlt_pending (s : State) (x : Flt) : (s.setFlt x).pending = s.pending := rfl
@[simp] theorem setFlt_mem (s : State) (x : Flt) : (s.setFlt x).mem = s.mem := rfl
@[simp] theorem setFlt_regs (s : State) (x : Flt) : (s.setFlt x).regs = s.regs := rfl
@[simp] theorem setFlt_flt (s : State) (x : Flt) : (s.setFlt x).flt = x := rfl
@[simp] theorem setFlt_cores (s : State) (x : Flt) : (s.setFlt x).cores = s.cores := rfl
@[simp] theorem setFlt_tccs (s : State) (x : Flt) : (s.setFlt x).tccs = s.tccs := rfl
@[simp] theorem setFlt_mcs (s : State) (x : Flt) : (s.setFlt x).mcs = s.mcs := rfl
@[simp] theorem setFlt_sync (s : State) (x : Flt) : (s.setFlt x).sync = s.sync := rfl
@[simp] theorem setFlt_host (s : State) (x : Flt) : (s.setFlt x).host = s.host := rfl
@[simp] theorem setFlt_clock (s : State) (x : Flt) : (s.setFlt x).clock = s.clock := rfl
@[simp] theorem setFlt_sched (s : State) (x : Flt) : (s.setFlt x).sched = s.sched := rfl
@[simp] theorem setFlt_store (s : State) (x : Flt) : (s.setFlt x).store = s.store := rfl
@[simp] theorem setFlt_units (s : State) (x : Flt) : (s.setFlt x).units = s.units := rfl
@[simp] theorem setFlt_tests (s : State) (x : Flt) : (s.setFlt x).tests = s.tests := rfl
@[simp] theorem setFlt_plans (s : State) (x : Flt) : (s.setFlt x).plans = s.plans := rfl
@[simp] theorem setFlt_seqs (s : State) (x : Flt) : (s.setFlt x).seqs = s.seqs := rfl
@[simp] theorem setFlt_eng (s : State) (x : Flt) : (s.setFlt x).eng = s.eng := rfl
@[simp] theorem setFlt_chain (s : State) (x : Flt) : (s.setFlt x).chain = s.chain := rfl
@[simp] theorem setFlt_power (s : State) (x : Flt) : (s.setFlt x).power = s.power := rfl
@[simp] theorem setFlt_quench (s : State) (x : Flt) : (s.setFlt x).quench = s.quench := rfl
@[simp] theorem setFlt_svc (s : State) (x : Flt) : (s.setFlt x).svc = s.svc := rfl
@[simp] theorem setFlt_free (s : State) (x : Flt) : (s.setFlt x).free = s.free := rfl
@[simp] theorem setFlt_self (s : State) : s.setFlt s.flt = s := rfl
@[simp] theorem setFlt_twice (s : State) (x y : Flt) : (s.setFlt x).setFlt y = s.setFlt y := rfl
@[simp] theorem setCores_pending (s : State) (x : KMap Core) : (s.setCores x).pending = s.pending := rfl
@[simp] theorem setCores_mem (s : State) (x : KMap Core) : (s.setCores x).mem = s.mem := rfl
@[simp] theorem setCores_regs (s : State) (x : KMap Core) : (s.setCores x).regs = s.regs := rfl
@[simp] theorem setCores_flt (s : State) (x : KMap Core) : (s.setCores x).flt = s.flt := rfl
@[simp] theorem setCores_cores (s : State) (x : KMap Core) : (s.setCores x).cores = x := rfl
@[simp] theorem setCores_tccs (s : State) (x : KMap Core) : (s.setCores x).tccs = s.tccs := rfl
@[simp] theorem setCores_mcs (s : State) (x : KMap Core) : (s.setCores x).mcs = s.mcs := rfl
@[simp] theorem setCores_sync (s : State) (x : KMap Core) : (s.setCores x).sync = s.sync := rfl
@[simp] theorem setCores_host (s : State) (x : KMap Core) : (s.setCores x).host = s.host := rfl
@[simp] theorem setCores_clock (s : State) (x : KMap Core) : (s.setCores x).clock = s.clock := rfl
@[simp] theorem setCores_sched (s : State) (x : KMap Core) : (s.setCores x).sched = s.sched := rfl
@[simp] theorem setCores_store (s : State) (x : KMap Core) : (s.setCores x).store = s.store := rfl
@[simp] theorem setCores_units (s : State) (x : KMap Core) : (s.setCores x).units = s.units := rfl
@[simp] theorem setCores_tests (s : State) (x : KMap Core) : (s.setCores x).tests = s.tests := rfl
@[simp] theorem setCores_plans (s : State) (x : KMap Core) : (s.setCores x).plans = s.plans := rfl
@[simp] theorem setCores_seqs (s : State) (x : KMap Core) : (s.setCores x).seqs = s.seqs := rfl
@[simp] theorem setCores_eng (s : State) (x : KMap Core) : (s.setCores x).eng = s.eng := rfl
@[simp] theorem setCores_chain (s : State) (x : KMap Core) : (s.setCores x).chain = s.chain := rfl
@[simp] theorem setCores_power (s : State) (x : KMap Core) : (s.setCores x).power = s.power := rfl
@[simp] theorem setCores_quench (s : State) (x : KMap Core) : (s.setCores x).quench = s.quench := rfl
@[simp] theorem setCores_svc (s : State) (x : KMap Core) : (s.setCores x).svc = s.svc := rfl
@[simp] theorem setCores_free (s : State) (x : KMap Core) : (s.setCores x).free = s.free := rfl
@[simp] theorem setCores_self (s : State) : s.setCores s.cores = s := rfl
@[simp] theorem setCores_twice (s : State) (x y : KMap Core) : (s.setCores x).setCores y = s.setCores y := rfl
@[simp] theorem setTccs_pending (s : State) (x : KMap Tcc) : (s.setTccs x).pending = s.pending := rfl
@[simp] theorem setTccs_mem (s : State) (x : KMap Tcc) : (s.setTccs x).mem = s.mem := rfl
@[simp] theorem setTccs_regs (s : State) (x : KMap Tcc) : (s.setTccs x).regs = s.regs := rfl
@[simp] theorem setTccs_flt (s : State) (x : KMap Tcc) : (s.setTccs x).flt = s.flt := rfl
@[simp] theorem setTccs_cores (s : State) (x : KMap Tcc) : (s.setTccs x).cores = s.cores := rfl
@[simp] theorem setTccs_tccs (s : State) (x : KMap Tcc) : (s.setTccs x).tccs = x := rfl
@[simp] theorem setTccs_mcs (s : State) (x : KMap Tcc) : (s.setTccs x).mcs = s.mcs := rfl
@[simp] theorem setTccs_sync (s : State) (x : KMap Tcc) : (s.setTccs x).sync = s.sync := rfl
@[simp] theorem setTccs_host (s : State) (x : KMap Tcc) : (s.setTccs x).host = s.host := rfl
@[simp] theorem setTccs_clock (s : State) (x : KMap Tcc) : (s.setTccs x).clock = s.clock := rfl
@[simp] theorem setTccs_sched (s : State) (x : KMap Tcc) : (s.setTccs x).sched = s.sched := rfl
@[simp] theorem setTccs_store (s : State) (x : KMap Tcc) : (s.setTccs x).store = s.store := rfl
@[simp] theorem setTccs_units (s : State) (x : KMap Tcc) : (s.setTccs x).units = s.units := rfl
@[simp] theorem setTccs_tests (s : State) (x : KMap Tcc) : (s.setTccs x).tests = s.tests := rfl
@[simp] theorem setTccs_plans (s : State) (x : KMap Tcc) : (s.setTccs x).plans = s.plans := rfl
@[simp] theorem setTccs_seqs (s : State) (x : KMap Tcc) : (s.setTccs x).seqs = s.seqs := rfl
@[simp] theorem setTccs_eng (s : State) (x : KMap Tcc) : (s.setTccs x).eng = s.eng := rfl
@[simp] theorem setTccs_chain (s : State) (x : KMap Tcc) : (s.setTccs x).chain = s.chain := rfl
@[simp] theorem setTccs_power (s : State) (x : KMap Tcc) : (s.setTccs x).power = s.power := rfl
@[simp] theorem setTccs_quench (s : State) (x : KMap Tcc) : (s.setTccs x).quench = s.quench := rfl
@[simp] theorem setTccs_svc (s : State) (x : KMap Tcc) : (s.setTccs x).svc = s.svc := rfl
@[simp] theorem setTccs_free (s : State) (x : KMap Tcc) : (s.setTccs x).free = s.free := rfl
@[simp] theorem setTccs_self (s : State) : s.setTccs s.tccs = s := rfl
@[simp] theorem setTccs_twice (s : State) (x y : KMap Tcc) : (s.setTccs x).setTccs y = s.setTccs y := rfl
@[simp] theorem setMcs_pending (s : State) (x : KMap MatrixCore) : (s.setMcs x).pending = s.pending := rfl
@[simp] theorem setMcs_mem (s : State) (x : KMap MatrixCore) : (s.setMcs x).mem = s.mem := rfl
@[simp] theorem setMcs_regs (s : State) (x : KMap MatrixCore) : (s.setMcs x).regs = s.regs := rfl
@[simp] theorem setMcs_flt (s : State) (x : KMap MatrixCore) : (s.setMcs x).flt = s.flt := rfl
@[simp] theorem setMcs_cores (s : State) (x : KMap MatrixCore) : (s.setMcs x).cores = s.cores := rfl
@[simp] theorem setMcs_tccs (s : State) (x : KMap MatrixCore) : (s.setMcs x).tccs = s.tccs := rfl
@[simp] theorem setMcs_mcs (s : State) (x : KMap MatrixCore) : (s.setMcs x).mcs = x := rfl
@[simp] theorem setMcs_sync (s : State) (x : KMap MatrixCore) : (s.setMcs x).sync = s.sync := rfl
@[simp] theorem setMcs_host (s : State) (x : KMap MatrixCore) : (s.setMcs x).host = s.host := rfl
@[simp] theorem setMcs_clock (s : State) (x : KMap MatrixCore) : (s.setMcs x).clock = s.clock := rfl
@[simp] theorem setMcs_sched (s : State) (x : KMap MatrixCore) : (s.setMcs x).sched = s.sched := rfl
@[simp] theorem setMcs_store (s : State) (x : KMap MatrixCore) : (s.setMcs x).store = s.store := rfl
@[simp] theorem setMcs_units (s : State) (x : KMap MatrixCore) : (s.setMcs x).units = s.units := rfl
@[simp] theorem setMcs_tests (s : State) (x : KMap MatrixCore) : (s.setMcs x).tests = s.tests := rfl
@[simp] theorem setMcs_plans (s : State) (x : KMap MatrixCore) : (s.setMcs x).plans = s.plans := rfl
@[simp] theorem setMcs_seqs (s : State) (x : KMap MatrixCore) : (s.setMcs x).seqs = s.seqs := rfl
@[simp] theorem setMcs_eng (s : State) (x : KMap MatrixCore) : (s.setMcs x).eng = s.eng := rfl
@[simp] theorem setMcs_chain (s : State) (x : KMap MatrixCore) : (s.setMcs x).chain = s.chain := rfl
@[simp] theorem setMcs_power (s : State) (x : KMap MatrixCore) : (s.setMcs x).power = s.power := rfl
@[simp] theorem setMcs_quench (s : State) (x : KMap MatrixCore) : (s.setMcs x).quench = s.quench := rfl
@[simp] theorem setMcs_svc (s : State) (x : KMap MatrixCore) : (s.setMcs x).svc = s.svc := rfl
@[simp] theorem setMcs_free (s : State) (x : KMap MatrixCore) : (s.setMcs x).free = s.free := rfl
@[simp] theorem setMcs_self (s : State) : s.setMcs s.mcs = s := rfl
@[simp] theorem setMcs_twice (s : State) (x y : KMap MatrixCore) : (s.setMcs x).setMcs y = s.setMcs y := rfl
@[simp] theorem setSync_pending (s : State) (x : Sync) : (s.setSync x).pending = s.pending := rfl
@[simp] theorem setSync_mem (s : State) (x : Sync) : (s.setSync x).mem = s.mem := rfl
@[simp] theorem setSync_regs (s : State) (x : Sync) : (s.setSync x).regs = s.regs := rfl
@[simp] theorem setSync_flt (s : State) (x : Sync) : (s.setSync x).flt = s.flt := rfl
@[simp] theorem setSync_cores (s : State) (x : Sync) : (s.setSync x).cores = s.cores := rfl
@[simp] theorem setSync_tccs (s : State) (x : Sync) : (s.setSync x).tccs = s.tccs := rfl
@[simp] theorem setSync_mcs (s : State) (x : Sync) : (s.setSync x).mcs = s.mcs := rfl
@[simp] theorem setSync_sync (s : State) (x : Sync) : (s.setSync x).sync = x := rfl
@[simp] theorem setSync_host (s : State) (x : Sync) : (s.setSync x).host = s.host := rfl
@[simp] theorem setSync_clock (s : State) (x : Sync) : (s.setSync x).clock = s.clock := rfl
@[simp] theorem setSync_sched (s : State) (x : Sync) : (s.setSync x).sched = s.sched := rfl
@[simp] theorem setSync_store (s : State) (x : Sync) : (s.setSync x).store = s.store := rfl
@[simp] theorem setSync_units (s : State) (x : Sync) : (s.setSync x).units = s.units := rfl
@[simp] theorem setSync_tests (s : State) (x : Sync) : (s.setSync x).tests = s.tests := rfl
@[simp] theorem setSync_plans (s : State) (x : Sync) : (s.setSync x).plans = s.plans := rfl
@[simp] theorem setSync_seqs (s : State) (x : Sync) : (s.setSync x).seqs = s.seqs := rfl
@[simp] theorem setSync_eng (s : State) (x : Sync) : (s.setSync x).eng = s.eng := rfl
@[simp] theorem setSync_chain (s : State) (x : Sync) : (s.setSync x).chain = s.chain := rfl
@[simp] theorem setSync_power (s : State) (x : Sync) : (s.setSync x).power = s.power := rfl
@[simp] theorem setSync_quench (s : State) (x : Sync) : (s.setSync x).quench = s.quench := rfl
@[simp] theorem setSync_svc (s : State) (x : Sync) : (s.setSync x).svc = s.svc := rfl
@[simp] theorem setSync_free (s : State) (x : Sync) : (s.setSync x).free = s.free := rfl
@[simp] theorem setSync_self (s : State) : s.setSync s.sync = s := rfl
@[simp] theorem setSync_twice (s : State) (x y : Sync) : (s.setSync x).setSync y = s.setSync y := rfl
@[simp] theorem setHost_pending (s : State) (x : HostPort) : (s.setHost x).pending = s.pending := rfl
@[simp] theorem setHost_mem (s : State) (x : HostPort) : (s.setHost x).mem = s.mem := rfl
@[simp] theorem setHost_regs (s : State) (x : HostPort) : (s.setHost x).regs = s.regs := rfl
@[simp] theorem setHost_flt (s : State) (x : HostPort) : (s.setHost x).flt = s.flt := rfl
@[simp] theorem setHost_cores (s : State) (x : HostPort) : (s.setHost x).cores = s.cores := rfl
@[simp] theorem setHost_tccs (s : State) (x : HostPort) : (s.setHost x).tccs = s.tccs := rfl
@[simp] theorem setHost_mcs (s : State) (x : HostPort) : (s.setHost x).mcs = s.mcs := rfl
@[simp] theorem setHost_sync (s : State) (x : HostPort) : (s.setHost x).sync = s.sync := rfl
@[simp] theorem setHost_host (s : State) (x : HostPort) : (s.setHost x).host = x := rfl
@[simp] theorem setHost_clock (s : State) (x : HostPort) : (s.setHost x).clock = s.clock := rfl
@[simp] theorem setHost_sched (s : State) (x : HostPort) : (s.setHost x).sched = s.sched := rfl
@[simp] theorem setHost_store (s : State) (x : HostPort) : (s.setHost x).store = s.store := rfl
@[simp] theorem setHost_units (s : State) (x : HostPort) : (s.setHost x).units = s.units := rfl
@[simp] theorem setHost_tests (s : State) (x : HostPort) : (s.setHost x).tests = s.tests := rfl
@[simp] theorem setHost_plans (s : State) (x : HostPort) : (s.setHost x).plans = s.plans := rfl
@[simp] theorem setHost_seqs (s : State) (x : HostPort) : (s.setHost x).seqs = s.seqs := rfl
@[simp] theorem setHost_eng (s : State) (x : HostPort) : (s.setHost x).eng = s.eng := rfl
@[simp] theorem setHost_chain (s : State) (x : HostPort) : (s.setHost x).chain = s.chain := rfl
@[simp] theorem setHost_power (s : State) (x : HostPort) : (s.setHost x).power = s.power := rfl
@[simp] theorem setHost_quench (s : State) (x : HostPort) : (s.setHost x).quench = s.quench := rfl
@[simp] theorem setHost_svc (s : State) (x : HostPort) : (s.setHost x).svc = s.svc := rfl
@[simp] theorem setHost_free (s : State) (x : HostPort) : (s.setHost x).free = s.free := rfl
@[simp] theorem setHost_self (s : State) : s.setHost s.host = s := rfl
@[simp] theorem setHost_twice (s : State) (x y : HostPort) : (s.setHost x).setHost y = s.setHost y := rfl
@[simp] theorem setClock_pending (s : State) (x : Clock) : (s.setClock x).pending = s.pending := rfl
@[simp] theorem setClock_mem (s : State) (x : Clock) : (s.setClock x).mem = s.mem := rfl
@[simp] theorem setClock_regs (s : State) (x : Clock) : (s.setClock x).regs = s.regs := rfl
@[simp] theorem setClock_flt (s : State) (x : Clock) : (s.setClock x).flt = s.flt := rfl
@[simp] theorem setClock_cores (s : State) (x : Clock) : (s.setClock x).cores = s.cores := rfl
@[simp] theorem setClock_tccs (s : State) (x : Clock) : (s.setClock x).tccs = s.tccs := rfl
@[simp] theorem setClock_mcs (s : State) (x : Clock) : (s.setClock x).mcs = s.mcs := rfl
@[simp] theorem setClock_sync (s : State) (x : Clock) : (s.setClock x).sync = s.sync := rfl
@[simp] theorem setClock_host (s : State) (x : Clock) : (s.setClock x).host = s.host := rfl
@[simp] theorem setClock_clock (s : State) (x : Clock) : (s.setClock x).clock = x := rfl
@[simp] theorem setClock_sched (s : State) (x : Clock) : (s.setClock x).sched = s.sched := rfl
@[simp] theorem setClock_store (s : State) (x : Clock) : (s.setClock x).store = s.store := rfl
@[simp] theorem setClock_units (s : State) (x : Clock) : (s.setClock x).units = s.units := rfl
@[simp] theorem setClock_tests (s : State) (x : Clock) : (s.setClock x).tests = s.tests := rfl
@[simp] theorem setClock_plans (s : State) (x : Clock) : (s.setClock x).plans = s.plans := rfl
@[simp] theorem setClock_seqs (s : State) (x : Clock) : (s.setClock x).seqs = s.seqs := rfl
@[simp] theorem setClock_eng (s : State) (x : Clock) : (s.setClock x).eng = s.eng := rfl
@[simp] theorem setClock_chain (s : State) (x : Clock) : (s.setClock x).chain = s.chain := rfl
@[simp] theorem setClock_power (s : State) (x : Clock) : (s.setClock x).power = s.power := rfl
@[simp] theorem setClock_quench (s : State) (x : Clock) : (s.setClock x).quench = s.quench := rfl
@[simp] theorem setClock_svc (s : State) (x : Clock) : (s.setClock x).svc = s.svc := rfl
@[simp] theorem setClock_free (s : State) (x : Clock) : (s.setClock x).free = s.free := rfl
@[simp] theorem setClock_self (s : State) : s.setClock s.clock = s := rfl
@[simp] theorem setClock_twice (s : State) (x y : Clock) : (s.setClock x).setClock y = s.setClock y := rfl
@[simp] theorem setSched_pending (s : State) (x : Sched) : (s.setSched x).pending = s.pending := rfl
@[simp] theorem setSched_mem (s : State) (x : Sched) : (s.setSched x).mem = s.mem := rfl
@[simp] theorem setSched_regs (s : State) (x : Sched) : (s.setSched x).regs = s.regs := rfl
@[simp] theorem setSched_flt (s : State) (x : Sched) : (s.setSched x).flt = s.flt := rfl
@[simp] theorem setSched_cores (s : State) (x : Sched) : (s.setSched x).cores = s.cores := rfl
@[simp] theorem setSched_tccs (s : State) (x : Sched) : (s.setSched x).tccs = s.tccs := rfl
@[simp] theorem setSched_mcs (s : State) (x : Sched) : (s.setSched x).mcs = s.mcs := rfl
@[simp] theorem setSched_sync (s : State) (x : Sched) : (s.setSched x).sync = s.sync := rfl
@[simp] theorem setSched_host (s : State) (x : Sched) : (s.setSched x).host = s.host := rfl
@[simp] theorem setSched_clock (s : State) (x : Sched) : (s.setSched x).clock = s.clock := rfl
@[simp] theorem setSched_sched (s : State) (x : Sched) : (s.setSched x).sched = x := rfl
@[simp] theorem setSched_store (s : State) (x : Sched) : (s.setSched x).store = s.store := rfl
@[simp] theorem setSched_units (s : State) (x : Sched) : (s.setSched x).units = s.units := rfl
@[simp] theorem setSched_tests (s : State) (x : Sched) : (s.setSched x).tests = s.tests := rfl
@[simp] theorem setSched_plans (s : State) (x : Sched) : (s.setSched x).plans = s.plans := rfl
@[simp] theorem setSched_seqs (s : State) (x : Sched) : (s.setSched x).seqs = s.seqs := rfl
@[simp] theorem setSched_eng (s : State) (x : Sched) : (s.setSched x).eng = s.eng := rfl
@[simp] theorem setSched_chain (s : State) (x : Sched) : (s.setSched x).chain = s.chain := rfl
@[simp] theorem setSched_power (s : State) (x : Sched) : (s.setSched x).power = s.power := rfl
@[simp] theorem setSched_quench (s : State) (x : Sched) : (s.setSched x).quench = s.quench := rfl
@[simp] theorem setSched_svc (s : State) (x : Sched) : (s.setSched x).svc = s.svc := rfl
@[simp] theorem setSched_free (s : State) (x : Sched) : (s.setSched x).free = s.free := rfl
@[simp] theorem setSched_self (s : State) : s.setSched s.sched = s := rfl
@[simp] theorem setSched_twice (s : State) (x y : Sched) : (s.setSched x).setSched y = s.setSched y := rfl
@[simp] theorem setStore_pending (s : State) (x : Storage) : (s.setStore x).pending = s.pending := rfl
@[simp] theorem setStore_mem (s : State) (x : Storage) : (s.setStore x).mem = s.mem := rfl
@[simp] theorem setStore_regs (s : State) (x : Storage) : (s.setStore x).regs = s.regs := rfl
@[simp] theorem setStore_flt (s : State) (x : Storage) : (s.setStore x).flt = s.flt := rfl
@[simp] theorem setStore_cores (s : State) (x : Storage) : (s.setStore x).cores = s.cores := rfl
@[simp] theorem setStore_tccs (s : State) (x : Storage) : (s.setStore x).tccs = s.tccs := rfl
@[simp] theorem setStore_mcs (s : State) (x : Storage) : (s.setStore x).mcs = s.mcs := rfl
@[simp] theorem setStore_sync (s : State) (x : Storage) : (s.setStore x).sync = s.sync := rfl
@[simp] theorem setStore_host (s : State) (x : Storage) : (s.setStore x).host = s.host := rfl
@[simp] theorem setStore_clock (s : State) (x : Storage) : (s.setStore x).clock = s.clock := rfl
@[simp] theorem setStore_sched (s : State) (x : Storage) : (s.setStore x).sched = s.sched := rfl
@[simp] theorem setStore_store (s : State) (x : Storage) : (s.setStore x).store = x := rfl
@[simp] theorem setStore_units (s : State) (x : Storage) : (s.setStore x).units = s.units := rfl
@[simp] theorem setStore_tests (s : State) (x : Storage) : (s.setStore x).tests = s.tests := rfl
@[simp] theorem setStore_plans (s : State) (x : Storage) : (s.setStore x).plans = s.plans := rfl
@[simp] theorem setStore_seqs (s : State) (x : Storage) : (s.setStore x).seqs = s.seqs := rfl
@[simp] theorem setStore_eng (s : State) (x : Storage) : (s.setStore x).eng = s.eng := rfl
@[simp] theorem setStore_chain (s : State) (x : Storage) : (s.setStore x).chain = s.chain := rfl
@[simp] theorem setStore_power (s : State) (x : Storage) : (s.setStore x).power = s.power := rfl
@[simp] theorem setStore_quench (s : State) (x : Storage) : (s.setStore x).quench = s.quench := rfl
@[simp] theorem setStore_svc (s : State) (x : Storage) : (s.setStore x).svc = s.svc := rfl
@[simp] theorem setStore_free (s : State) (x : Storage) : (s.setStore x).free = s.free := rfl
@[simp] theorem setStore_self (s : State) : s.setStore s.store = s := rfl
@[simp] theorem setStore_twice (s : State) (x y : Storage) : (s.setStore x).setStore y = s.setStore y := rfl
@[simp] theorem setUnits_pending (s : State) (x : KMap UnitRec) : (s.setUnits x).pending = s.pending := rfl
@[simp] theorem setUnits_mem (s : State) (x : KMap UnitRec) : (s.setUnits x).mem = s.mem := rfl
@[simp] theorem setUnits_regs (s : State) (x : KMap UnitRec) : (s.setUnits x).regs = s.regs := rfl
@[simp] theorem setUnits_flt (s : State) (x : KMap UnitRec) : (s.setUnits x).flt = s.flt := rfl
@[simp] theorem setUnits_cores (s : State) (x : KMap UnitRec) : (s.setUnits x).cores = s.cores := rfl
@[simp] theorem setUnits_tccs (s : State) (x : KMap UnitRec) : (s.setUnits x).tccs = s.tccs := rfl
@[simp] theorem setUnits_mcs (s : State) (x : KMap UnitRec) : (s.setUnits x).mcs = s.mcs := rfl
@[simp] theorem setUnits_sync (s : State) (x : KMap UnitRec) : (s.setUnits x).sync = s.sync := rfl
@[simp] theorem setUnits_host (s : State) (x : KMap UnitRec) : (s.setUnits x).host = s.host := rfl
@[simp] theorem setUnits_clock (s : State) (x : KMap UnitRec) : (s.setUnits x).clock = s.clock := rfl
@[simp] theorem setUnits_sched (s : State) (x : KMap UnitRec) : (s.setUnits x).sched = s.sched := rfl
@[simp] theorem setUnits_store (s : State) (x : KMap UnitRec) : (s.setUnits x).store = s.store := rfl
@[simp] theorem setUnits_units (s : State) (x : KMap UnitRec) : (s.setUnits x).units = x := rfl
@[simp] theorem setUnits_tests (s : State) (x : KMap UnitRec) : (s.setUnits x).tests = s.tests := rfl
@[simp] theorem setUnits_plans (s : State) (x : KMap UnitRec) : (s.setUnits x).plans = s.plans := rfl
@[simp] theorem setUnits_seqs (s : State) (x : KMap UnitRec) : (s.setUnits x).seqs = s.seqs := rfl
@[simp] theorem setUnits_eng (s : State) (x : KMap UnitRec) : (s.setUnits x).eng = s.eng := rfl
@[simp] theorem setUnits_chain (s : State) (x : KMap UnitRec) : (s.setUnits x).chain = s.chain := rfl
@[simp] theorem setUnits_power (s : State) (x : KMap UnitRec) : (s.setUnits x).power = s.power := rfl
@[simp] theorem setUnits_quench (s : State) (x : KMap UnitRec) : (s.setUnits x).quench = s.quench := rfl
@[simp] theorem setUnits_svc (s : State) (x : KMap UnitRec) : (s.setUnits x).svc = s.svc := rfl
@[simp] theorem setUnits_free (s : State) (x : KMap UnitRec) : (s.setUnits x).free = s.free := rfl
@[simp] theorem setUnits_self (s : State) : s.setUnits s.units = s := rfl
@[simp] theorem setUnits_twice (s : State) (x y : KMap UnitRec) : (s.setUnits x).setUnits y = s.setUnits y := rfl
@[simp] theorem setTests_pending (s : State) (x : KMap TestRun) : (s.setTests x).pending = s.pending := rfl
@[simp] theorem setTests_mem (s : State) (x : KMap TestRun) : (s.setTests x).mem = s.mem := rfl
@[simp] theorem setTests_regs (s : State) (x : KMap TestRun) : (s.setTests x).regs = s.regs := rfl
@[simp] theorem setTests_flt (s : State) (x : KMap TestRun) : (s.setTests x).flt = s.flt := rfl
@[simp] theorem setTests_cores (s : State) (x : KMap TestRun) : (s.setTests x).cores = s.cores := rfl
@[simp] theorem setTests_tccs (s : State) (x : KMap TestRun) : (s.setTests x).tccs = s.tccs := rfl
@[simp] theorem setTests_mcs (s : State) (x : KMap TestRun) : (s.setTests x).mcs = s.mcs := rfl
@[simp] theorem setTests_sync (s : State) (x : KMap TestRun) : (s.setTests x).sync = s.sync := rfl
@[simp] theorem setTests_host (s : State) (x : KMap TestRun) : (s.setTests x).host = s.host := rfl
@[simp] theorem setTests_clock (s : State) (x : KMap TestRun) : (s.setTests x).clock = s.clock := rfl
@[simp] theorem setTests_sched (s : State) (x : KMap TestRun) : (s.setTests x).sched = s.sched := rfl
@[simp] theorem setTests_store (s : State) (x : KMap TestRun) : (s.setTests x).store = s.store := rfl
@[simp] theorem setTests_units (s : State) (x : KMap TestRun) : (s.setTests x).units = s.units := rfl
@[simp] theorem setTests_tests (s : State) (x : KMap TestRun) : (s.setTests x).tests = x := rfl
@[simp] theorem setTests_plans (s : State) (x : KMap TestRun) : (s.setTests x).plans = s.plans := rfl
@[simp] theorem setTests_seqs (s : State) (x : KMap TestRun) : (s.setTests x).seqs = s.seqs := rfl
@[simp] theorem setTests_eng (s : State) (x : KMap TestRun) : (s.setTests x).eng = s.eng := rfl
@[simp] theorem setTests_chain (s : State) (x : KMap TestRun) : (s.setTests x).chain = s.chain := rfl
@[simp] theorem setTests_power (s : State) (x : KMap TestRun) : (s.setTests x).power = s.power := rfl
@[simp] theorem setTests_quench (s : State) (x : KMap TestRun) : (s.setTests x).quench = s.quench := rfl
@[simp] theorem setTests_svc (s : State) (x : KMap TestRun) : (s.setTests x).svc = s.svc := rfl
@[simp] theorem setTests_free (s : State) (x : KMap TestRun) : (s.setTests x).free = s.free := rfl
@[simp] theorem setTests_self (s : State) : s.setTests s.tests = s := rfl
@[simp] theorem setTests_twice (s : State) (x y : KMap TestRun) : (s.setTests x).setTests y = s.setTests y := rfl
@[simp] theorem setPlans_pending (s : State) (x : KMap PlanSlot) : (s.setPlans x).pending = s.pending := rfl
@[simp] theorem setPlans_mem (s : State) (x : KMap PlanSlot) : (s.setPlans x).mem = s.mem := rfl
@[simp] theorem setPlans_regs (s : State) (x : KMap PlanSlot) : (s.setPlans x).regs = s.regs := rfl
@[simp] theorem setPlans_flt (s : State) (x : KMap PlanSlot) : (s.setPlans x).flt = s.flt := rfl
@[simp] theorem setPlans_cores (s : State) (x : KMap PlanSlot) : (s.setPlans x).cores = s.cores := rfl
@[simp] theorem setPlans_tccs (s : State) (x : KMap PlanSlot) : (s.setPlans x).tccs = s.tccs := rfl
@[simp] theorem setPlans_mcs (s : State) (x : KMap PlanSlot) : (s.setPlans x).mcs = s.mcs := rfl
@[simp] theorem setPlans_sync (s : State) (x : KMap PlanSlot) : (s.setPlans x).sync = s.sync := rfl
@[simp] theorem setPlans_host (s : State) (x : KMap PlanSlot) : (s.setPlans x).host = s.host := rfl
@[simp] theorem setPlans_clock (s : State) (x : KMap PlanSlot) : (s.setPlans x).clock = s.clock := rfl
@[simp] theorem setPlans_sched (s : State) (x : KMap PlanSlot) : (s.setPlans x).sched = s.sched := rfl
@[simp] theorem setPlans_store (s : State) (x : KMap PlanSlot) : (s.setPlans x).store = s.store := rfl
@[simp] theorem setPlans_units (s : State) (x : KMap PlanSlot) : (s.setPlans x).units = s.units := rfl
@[simp] theorem setPlans_tests (s : State) (x : KMap PlanSlot) : (s.setPlans x).tests = s.tests := rfl
@[simp] theorem setPlans_plans (s : State) (x : KMap PlanSlot) : (s.setPlans x).plans = x := rfl
@[simp] theorem setPlans_seqs (s : State) (x : KMap PlanSlot) : (s.setPlans x).seqs = s.seqs := rfl
@[simp] theorem setPlans_eng (s : State) (x : KMap PlanSlot) : (s.setPlans x).eng = s.eng := rfl
@[simp] theorem setPlans_chain (s : State) (x : KMap PlanSlot) : (s.setPlans x).chain = s.chain := rfl
@[simp] theorem setPlans_power (s : State) (x : KMap PlanSlot) : (s.setPlans x).power = s.power := rfl
@[simp] theorem setPlans_quench (s : State) (x : KMap PlanSlot) : (s.setPlans x).quench = s.quench := rfl
@[simp] theorem setPlans_svc (s : State) (x : KMap PlanSlot) : (s.setPlans x).svc = s.svc := rfl
@[simp] theorem setPlans_free (s : State) (x : KMap PlanSlot) : (s.setPlans x).free = s.free := rfl
@[simp] theorem setPlans_self (s : State) : s.setPlans s.plans = s := rfl
@[simp] theorem setPlans_twice (s : State) (x y : KMap PlanSlot) : (s.setPlans x).setPlans y = s.setPlans y := rfl
@[simp] theorem setSeqs_pending (s : State) (x : KMap SeqRec) : (s.setSeqs x).pending = s.pending := rfl
@[simp] theorem setSeqs_mem (s : State) (x : KMap SeqRec) : (s.setSeqs x).mem = s.mem := rfl
@[simp] theorem setSeqs_regs (s : State) (x : KMap SeqRec) : (s.setSeqs x).regs = s.regs := rfl
@[simp] theorem setSeqs_flt (s : State) (x : KMap SeqRec) : (s.setSeqs x).flt = s.flt := rfl
@[simp] theorem setSeqs_cores (s : State) (x : KMap SeqRec) : (s.setSeqs x).cores = s.cores := rfl
@[simp] theorem setSeqs_tccs (s : State) (x : KMap SeqRec) : (s.setSeqs x).tccs = s.tccs := rfl
@[simp] theorem setSeqs_mcs (s : State) (x : KMap SeqRec) : (s.setSeqs x).mcs = s.mcs := rfl
@[simp] theorem setSeqs_sync (s : State) (x : KMap SeqRec) : (s.setSeqs x).sync = s.sync := rfl
@[simp] theorem setSeqs_host (s : State) (x : KMap SeqRec) : (s.setSeqs x).host = s.host := rfl
@[simp] theorem setSeqs_clock (s : State) (x : KMap SeqRec) : (s.setSeqs x).clock = s.clock := rfl
@[simp] theorem setSeqs_sched (s : State) (x : KMap SeqRec) : (s.setSeqs x).sched = s.sched := rfl
@[simp] theorem setSeqs_store (s : State) (x : KMap SeqRec) : (s.setSeqs x).store = s.store := rfl
@[simp] theorem setSeqs_units (s : State) (x : KMap SeqRec) : (s.setSeqs x).units = s.units := rfl
@[simp] theorem setSeqs_tests (s : State) (x : KMap SeqRec) : (s.setSeqs x).tests = s.tests := rfl
@[simp] theorem setSeqs_plans (s : State) (x : KMap SeqRec) : (s.setSeqs x).plans = s.plans := rfl
@[simp] theorem setSeqs_seqs (s : State) (x : KMap SeqRec) : (s.setSeqs x).seqs = x := rfl
@[simp] theorem setSeqs_eng (s : State) (x : KMap SeqRec) : (s.setSeqs x).eng = s.eng := rfl
@[simp] theorem setSeqs_chain (s : State) (x : KMap SeqRec) : (s.setSeqs x).chain = s.chain := rfl
@[simp] theorem setSeqs_power (s : State) (x : KMap SeqRec) : (s.setSeqs x).power = s.power := rfl
@[simp] theorem setSeqs_quench (s : State) (x : KMap SeqRec) : (s.setSeqs x).quench = s.quench := rfl
@[simp] theorem setSeqs_svc (s : State) (x : KMap SeqRec) : (s.setSeqs x).svc = s.svc := rfl
@[simp] theorem setSeqs_free (s : State) (x : KMap SeqRec) : (s.setSeqs x).free = s.free := rfl
@[simp] theorem setSeqs_self (s : State) : s.setSeqs s.seqs = s := rfl
@[simp] theorem setSeqs_twice (s : State) (x y : KMap SeqRec) : (s.setSeqs x).setSeqs y = s.setSeqs y := rfl
@[simp] theorem setEng_pending (s : State) (x : Engines) : (s.setEng x).pending = s.pending := rfl
@[simp] theorem setEng_mem (s : State) (x : Engines) : (s.setEng x).mem = s.mem := rfl
@[simp] theorem setEng_regs (s : State) (x : Engines) : (s.setEng x).regs = s.regs := rfl
@[simp] theorem setEng_flt (s : State) (x : Engines) : (s.setEng x).flt = s.flt := rfl
@[simp] theorem setEng_cores (s : State) (x : Engines) : (s.setEng x).cores = s.cores := rfl
@[simp] theorem setEng_tccs (s : State) (x : Engines) : (s.setEng x).tccs = s.tccs := rfl
@[simp] theorem setEng_mcs (s : State) (x : Engines) : (s.setEng x).mcs = s.mcs := rfl
@[simp] theorem setEng_sync (s : State) (x : Engines) : (s.setEng x).sync = s.sync := rfl
@[simp] theorem setEng_host (s : State) (x : Engines) : (s.setEng x).host = s.host := rfl
@[simp] theorem setEng_clock (s : State) (x : Engines) : (s.setEng x).clock = s.clock := rfl
@[simp] theorem setEng_sched (s : State) (x : Engines) : (s.setEng x).sched = s.sched := rfl
@[simp] theorem setEng_store (s : State) (x : Engines) : (s.setEng x).store = s.store := rfl
@[simp] theorem setEng_units (s : State) (x : Engines) : (s.setEng x).units = s.units := rfl
@[simp] theorem setEng_tests (s : State) (x : Engines) : (s.setEng x).tests = s.tests := rfl
@[simp] theorem setEng_plans (s : State) (x : Engines) : (s.setEng x).plans = s.plans := rfl
@[simp] theorem setEng_seqs (s : State) (x : Engines) : (s.setEng x).seqs = s.seqs := rfl
@[simp] theorem setEng_eng (s : State) (x : Engines) : (s.setEng x).eng = x := rfl
@[simp] theorem setEng_chain (s : State) (x : Engines) : (s.setEng x).chain = s.chain := rfl
@[simp] theorem setEng_power (s : State) (x : Engines) : (s.setEng x).power = s.power := rfl
@[simp] theorem setEng_quench (s : State) (x : Engines) : (s.setEng x).quench = s.quench := rfl
@[simp] theorem setEng_svc (s : State) (x : Engines) : (s.setEng x).svc = s.svc := rfl
@[simp] theorem setEng_free (s : State) (x : Engines) : (s.setEng x).free = s.free := rfl
@[simp] theorem setEng_self (s : State) : s.setEng s.eng = s := rfl
@[simp] theorem setEng_twice (s : State) (x y : Engines) : (s.setEng x).setEng y = s.setEng y := rfl
@[simp] theorem setChain_pending (s : State) (x : Chain) : (s.setChain x).pending = s.pending := rfl
@[simp] theorem setChain_mem (s : State) (x : Chain) : (s.setChain x).mem = s.mem := rfl
@[simp] theorem setChain_regs (s : State) (x : Chain) : (s.setChain x).regs = s.regs := rfl
@[simp] theorem setChain_flt (s : State) (x : Chain) : (s.setChain x).flt = s.flt := rfl
@[simp] theorem setChain_cores (s : State) (x : Chain) : (s.setChain x).cores = s.cores := rfl
@[simp] theorem setChain_tccs (s : State) (x : Chain) : (s.setChain x).tccs = s.tccs := rfl
@[simp] theorem setChain_mcs (s : State) (x : Chain) : (s.setChain x).mcs = s.mcs := rfl
@[simp] theorem setChain_sync (s : State) (x : Chain) : (s.setChain x).sync = s.sync := rfl
@[simp] theorem setChain_host (s : State) (x : Chain) : (s.setChain x).host = s.host := rfl
@[simp] theorem setChain_clock (s : State) (x : Chain) : (s.setChain x).clock = s.clock := rfl
@[simp] theorem setChain_sched (s : State) (x : Chain) : (s.setChain x).sched = s.sched := rfl
@[simp] theorem setChain_store (s : State) (x : Chain) : (s.setChain x).store = s.store := rfl
@[simp] theorem setChain_units (s : State) (x : Chain) : (s.setChain x).units = s.units := rfl
@[simp] theorem setChain_tests (s : State) (x : Chain) : (s.setChain x).tests = s.tests := rfl
@[simp] theorem setChain_plans (s : State) (x : Chain) : (s.setChain x).plans = s.plans := rfl
@[simp] theorem setChain_seqs (s : State) (x : Chain) : (s.setChain x).seqs = s.seqs := rfl
@[simp] theorem setChain_eng (s : State) (x : Chain) : (s.setChain x).eng = s.eng := rfl
@[simp] theorem setChain_chain (s : State) (x : Chain) : (s.setChain x).chain = x := rfl
@[simp] theorem setChain_power (s : State) (x : Chain) : (s.setChain x).power = s.power := rfl
@[simp] theorem setChain_quench (s : State) (x : Chain) : (s.setChain x).quench = s.quench := rfl
@[simp] theorem setChain_svc (s : State) (x : Chain) : (s.setChain x).svc = s.svc := rfl
@[simp] theorem setChain_free (s : State) (x : Chain) : (s.setChain x).free = s.free := rfl
@[simp] theorem setChain_self (s : State) : s.setChain s.chain = s := rfl
@[simp] theorem setChain_twice (s : State) (x y : Chain) : (s.setChain x).setChain y = s.setChain y := rfl
@[simp] theorem setPower_pending (s : State) (x : Power) : (s.setPower x).pending = s.pending := rfl
@[simp] theorem setPower_mem (s : State) (x : Power) : (s.setPower x).mem = s.mem := rfl
@[simp] theorem setPower_regs (s : State) (x : Power) : (s.setPower x).regs = s.regs := rfl
@[simp] theorem setPower_flt (s : State) (x : Power) : (s.setPower x).flt = s.flt := rfl
@[simp] theorem setPower_cores (s : State) (x : Power) : (s.setPower x).cores = s.cores := rfl
@[simp] theorem setPower_tccs (s : State) (x : Power) : (s.setPower x).tccs = s.tccs := rfl
@[simp] theorem setPower_mcs (s : State) (x : Power) : (s.setPower x).mcs = s.mcs := rfl
@[simp] theorem setPower_sync (s : State) (x : Power) : (s.setPower x).sync = s.sync := rfl
@[simp] theorem setPower_host (s : State) (x : Power) : (s.setPower x).host = s.host := rfl
@[simp] theorem setPower_clock (s : State) (x : Power) : (s.setPower x).clock = s.clock := rfl
@[simp] theorem setPower_sched (s : State) (x : Power) : (s.setPower x).sched = s.sched := rfl
@[simp] theorem setPower_store (s : State) (x : Power) : (s.setPower x).store = s.store := rfl
@[simp] theorem setPower_units (s : State) (x : Power) : (s.setPower x).units = s.units := rfl
@[simp] theorem setPower_tests (s : State) (x : Power) : (s.setPower x).tests = s.tests := rfl
@[simp] theorem setPower_plans (s : State) (x : Power) : (s.setPower x).plans = s.plans := rfl
@[simp] theorem setPower_seqs (s : State) (x : Power) : (s.setPower x).seqs = s.seqs := rfl
@[simp] theorem setPower_eng (s : State) (x : Power) : (s.setPower x).eng = s.eng := rfl
@[simp] theorem setPower_chain (s : State) (x : Power) : (s.setPower x).chain = s.chain := rfl
@[simp] theorem setPower_power (s : State) (x : Power) : (s.setPower x).power = x := rfl
@[simp] theorem setPower_quench (s : State) (x : Power) : (s.setPower x).quench = s.quench := rfl
@[simp] theorem setPower_svc (s : State) (x : Power) : (s.setPower x).svc = s.svc := rfl
@[simp] theorem setPower_free (s : State) (x : Power) : (s.setPower x).free = s.free := rfl
@[simp] theorem setPower_self (s : State) : s.setPower s.power = s := rfl
@[simp] theorem setPower_twice (s : State) (x y : Power) : (s.setPower x).setPower y = s.setPower y := rfl
@[simp] theorem setQuench_pending (s : State) (x : Quench) : (s.setQuench x).pending = s.pending := rfl
@[simp] theorem setQuench_mem (s : State) (x : Quench) : (s.setQuench x).mem = s.mem := rfl
@[simp] theorem setQuench_regs (s : State) (x : Quench) : (s.setQuench x).regs = s.regs := rfl
@[simp] theorem setQuench_flt (s : State) (x : Quench) : (s.setQuench x).flt = s.flt := rfl
@[simp] theorem setQuench_cores (s : State) (x : Quench) : (s.setQuench x).cores = s.cores := rfl
@[simp] theorem setQuench_tccs (s : State) (x : Quench) : (s.setQuench x).tccs = s.tccs := rfl
@[simp] theorem setQuench_mcs (s : State) (x : Quench) : (s.setQuench x).mcs = s.mcs := rfl
@[simp] theorem setQuench_sync (s : State) (x : Quench) : (s.setQuench x).sync = s.sync := rfl
@[simp] theorem setQuench_host (s : State) (x : Quench) : (s.setQuench x).host = s.host := rfl
@[simp] theorem setQuench_clock (s : State) (x : Quench) : (s.setQuench x).clock = s.clock := rfl
@[simp] theorem setQuench_sched (s : State) (x : Quench) : (s.setQuench x).sched = s.sched := rfl
@[simp] theorem setQuench_store (s : State) (x : Quench) : (s.setQuench x).store = s.store := rfl
@[simp] theorem setQuench_units (s : State) (x : Quench) : (s.setQuench x).units = s.units := rfl
@[simp] theorem setQuench_tests (s : State) (x : Quench) : (s.setQuench x).tests = s.tests := rfl
@[simp] theorem setQuench_plans (s : State) (x : Quench) : (s.setQuench x).plans = s.plans := rfl
@[simp] theorem setQuench_seqs (s : State) (x : Quench) : (s.setQuench x).seqs = s.seqs := rfl
@[simp] theorem setQuench_eng (s : State) (x : Quench) : (s.setQuench x).eng = s.eng := rfl
@[simp] theorem setQuench_chain (s : State) (x : Quench) : (s.setQuench x).chain = s.chain := rfl
@[simp] theorem setQuench_power (s : State) (x : Quench) : (s.setQuench x).power = s.power := rfl
@[simp] theorem setQuench_quench (s : State) (x : Quench) : (s.setQuench x).quench = x := rfl
@[simp] theorem setQuench_svc (s : State) (x : Quench) : (s.setQuench x).svc = s.svc := rfl
@[simp] theorem setQuench_free (s : State) (x : Quench) : (s.setQuench x).free = s.free := rfl
@[simp] theorem setQuench_self (s : State) : s.setQuench s.quench = s := rfl
@[simp] theorem setQuench_twice (s : State) (x y : Quench) : (s.setQuench x).setQuench y = s.setQuench y := rfl
@[simp] theorem setSvc_pending (s : State) (x : Service) : (s.setSvc x).pending = s.pending := rfl
@[simp] theorem setSvc_mem (s : State) (x : Service) : (s.setSvc x).mem = s.mem := rfl
@[simp] theorem setSvc_regs (s : State) (x : Service) : (s.setSvc x).regs = s.regs := rfl
@[simp] theorem setSvc_flt (s : State) (x : Service) : (s.setSvc x).flt = s.flt := rfl
@[simp] theorem setSvc_cores (s : State) (x : Service) : (s.setSvc x).cores = s.cores := rfl
@[simp] theorem setSvc_tccs (s : State) (x : Service) : (s.setSvc x).tccs = s.tccs := rfl
@[simp] theorem setSvc_mcs (s : State) (x : Service) : (s.setSvc x).mcs = s.mcs := rfl
@[simp] theorem setSvc_sync (s : State) (x : Service) : (s.setSvc x).sync = s.sync := rfl
@[simp] theorem setSvc_host (s : State) (x : Service) : (s.setSvc x).host = s.host := rfl
@[simp] theorem setSvc_clock (s : State) (x : Service) : (s.setSvc x).clock = s.clock := rfl
@[simp] theorem setSvc_sched (s : State) (x : Service) : (s.setSvc x).sched = s.sched := rfl
@[simp] theorem setSvc_store (s : State) (x : Service) : (s.setSvc x).store = s.store := rfl
@[simp] theorem setSvc_units (s : State) (x : Service) : (s.setSvc x).units = s.units := rfl
@[simp] theorem setSvc_tests (s : State) (x : Service) : (s.setSvc x).tests = s.tests := rfl
@[simp] theorem setSvc_plans (s : State) (x : Service) : (s.setSvc x).plans = s.plans := rfl
@[simp] theorem setSvc_seqs (s : State) (x : Service) : (s.setSvc x).seqs = s.seqs := rfl
@[simp] theorem setSvc_eng (s : State) (x : Service) : (s.setSvc x).eng = s.eng := rfl
@[simp] theorem setSvc_chain (s : State) (x : Service) : (s.setSvc x).chain = s.chain := rfl
@[simp] theorem setSvc_power (s : State) (x : Service) : (s.setSvc x).power = s.power := rfl
@[simp] theorem setSvc_quench (s : State) (x : Service) : (s.setSvc x).quench = s.quench := rfl
@[simp] theorem setSvc_svc (s : State) (x : Service) : (s.setSvc x).svc = x := rfl
@[simp] theorem setSvc_free (s : State) (x : Service) : (s.setSvc x).free = s.free := rfl
@[simp] theorem setSvc_self (s : State) : s.setSvc s.svc = s := rfl
@[simp] theorem setSvc_twice (s : State) (x y : Service) : (s.setSvc x).setSvc y = s.setSvc y := rfl
@[simp] theorem setFree_pending (s : State) (x : Nat) : (s.setFree x).pending = s.pending := rfl
@[simp] theorem setFree_mem (s : State) (x : Nat) : (s.setFree x).mem = s.mem := rfl
@[simp] theorem setFree_regs (s : State) (x : Nat) : (s.setFree x).regs = s.regs := rfl
@[simp] theorem setFree_flt (s : State) (x : Nat) : (s.setFree x).flt = s.flt := rfl
@[simp] theorem setFree_cores (s : State) (x : Nat) : (s.setFree x).cores = s.cores := rfl
@[simp] theorem setFree_tccs (s : State) (x : Nat) : (s.setFree x).tccs = s.tccs := rfl
@[simp] theorem setFree_mcs (s : State) (x : Nat) : (s.setFree x).mcs = s.mcs := rfl
@[simp] theorem setFree_sync (s : State) (x : Nat) : (s.setFree x).sync = s.sync := rfl
@[simp] theorem setFree_host (s : State) (x : Nat) : (s.setFree x).host = s.host := rfl
@[simp] theorem setFree_clock (s : State) (x : Nat) : (s.setFree x).clock = s.clock := rfl
@[simp] theorem setFree_sched (s : State) (x : Nat) : (s.setFree x).sched = s.sched := rfl
@[simp] theorem setFree_store (s : State) (x : Nat) : (s.setFree x).store = s.store := rfl
@[simp] theorem setFree_units (s : State) (x : Nat) : (s.setFree x).units = s.units := rfl
@[simp] theorem setFree_tests (s : State) (x : Nat) : (s.setFree x).tests = s.tests := rfl
@[simp] theorem setFree_plans (s : State) (x : Nat) : (s.setFree x).plans = s.plans := rfl
@[simp] theorem setFree_seqs (s : State) (x : Nat) : (s.setFree x).seqs = s.seqs := rfl
@[simp] theorem setFree_eng (s : State) (x : Nat) : (s.setFree x).eng = s.eng := rfl
@[simp] theorem setFree_chain (s : State) (x : Nat) : (s.setFree x).chain = s.chain := rfl
@[simp] theorem setFree_power (s : State) (x : Nat) : (s.setFree x).power = s.power := rfl
@[simp] theorem setFree_quench (s : State) (x : Nat) : (s.setFree x).quench = s.quench := rfl
@[simp] theorem setFree_svc (s : State) (x : Nat) : (s.setFree x).svc = s.svc := rfl
@[simp] theorem setFree_free (s : State) (x : Nat) : (s.setFree x).free = x := rfl
@[simp] theorem setFree_self (s : State) : s.setFree s.free = s := rfl
@[simp] theorem setFree_twice (s : State) (x y : Nat) : (s.setFree x).setFree y = s.setFree y := rfl

end Sys2Proof.Machine
end

