-- ==== Sys2Proof/Laws/Memory.lean ====
section
/-!
SUPPORT. Memory: a read after a write, and the canonical form kept by every operation.
-/

namespace Sys2Proof.Machine

open Sys2Proof

@[simp] theorem Memory.readByte_writeByte (m : Memory) (a c : Nat) (b : Byte) :
    (m.writeByte a b).readByte c = if c = a then b else m.readByte c := by
  unfold Memory.readByte Memory.writeByte
  simp only [rmem_rdel, kget_kput]
  by_cases h : c = a
  · subst h
    have : (decide (c ≤ c) && decide (c < c + 1)) = true := by simp
    rw [this]; simp
  · have : (decide (a ≤ c) && decide (c < a + 1)) = false := by
      simp only [Bool.and_eq_false_iff, decide_eq_false_iff_not]; omega
    rw [this]; simp [h]

theorem Memory.readByte_writeBytes_outside (m : Memory) (a c : Nat) (l : List Byte)
    (h : c < a ∨ a + l.length ≤ c) : (m.writeBytes a l).readByte c = m.readByte c := by
  induction l generalizing m a with
  | nil => rfl
  | cons b l ih =>
    simp only [List.length_cons] at h
    rw [Memory.writeBytes, ih _ _ (by omega), Memory.readByte_writeByte, if_neg (by omega)]

theorem Memory.readBytes_writeBytes (m : Memory) (a : Nat) (l : List Byte) :
    (m.writeBytes a l).readBytes a l.length = l := by
  induction l generalizing m a with
  | nil => rfl
  | cons b l ih =>
    simp only [List.length_cons, Memory.readBytes, Memory.writeBytes]
    rw [Memory.readByte_writeBytes_outside _ _ _ _ (by omega), Memory.readByte_writeByte, if_pos rfl, ih]

@[simp] theorem Memory.readByte_zeroRange (m : Memory) (a n c : Nat) :
    (m.zeroRange a n).readByte c = if a ≤ c ∧ c < a + n then 0#8 else m.readByte c := by
  unfold Memory.readByte Memory.zeroRange keraseRange
  have e : kget 0#8 (m.cells.filter fun p => p.1 < a || a + n ≤ p.1) c =
      if (decide (c < a) || decide (a + n ≤ c)) = true then kget 0#8 m.cells c else 0#8 := by
    unfold kget
    rw [kfind_filter m.cells (fun k => k < a || a + n ≤ k) c]
    split <;> rfl
  simp only [rmem_rdel]
  rw [e]
  by_cases h : a ≤ c ∧ c < a + n
  · have h1 : (decide (a ≤ c) && decide (c < a + n)) = true := by simp [h]
    have h2 : (decide (c < a) || decide (a + n ≤ c)) = false := by
      simp only [Bool.or_eq_false_iff, decide_eq_false_iff_not]; omega
    rw [h1, h2]; simp [h]
  · have h1 : (decide (a ≤ c) && decide (c < a + n)) = false := by
      simp only [Bool.and_eq_false_iff, decide_eq_false_iff_not]; omega
    have h2 : (decide (c < a) || decide (a + n ≤ c)) = true := by
      simp only [Bool.or_eq_true, decide_eq_true_eq]; omega
    rw [h1, h2, if_neg h]; simp

theorem Memory.wf_writeByte {m : Memory} (h : m.wf) (a : Nat) (b : Byte) : (m.writeByte a b).wf := by
  refine ⟨kSortedFrom_kput _ _ h.1, fun c hc => ?_⟩
  simp only [Memory.writeByte, kput] at hc
  split at hc
  · exact h.2 c (List.mem_filter.1 hc).1
  · rcases mem_kinsert hc with rfl | hc
    · assumption
    · exact h.2 c hc

theorem Memory.wf_writeBytes {m : Memory} (h : m.wf) (a : Nat) (l : List Byte) : (m.writeBytes a l).wf := by
  induction l generalizing m a with
  | nil => exact h
  | cons b l ih => exact ih (Memory.wf_writeByte h a b) _

theorem Memory.wf_zeroRange {m : Memory} (h : m.wf) (a n : Nat) : (m.zeroRange a n).wf :=
  ⟨kSortedFrom_filter _ h.1, fun c hc => h.2 c (List.mem_filter.1 hc).1⟩

theorem Memory.wf_loseRange {m : Memory} (h : m.wf) (a n : Nat) : (m.loseRange a n).wf := h
theorem Memory.wf_markGood {m : Memory} (h : m.wf) (a n : Nat) : (m.markGood a n).wf := h
theorem Memory.wf_markPoison {m : Memory} (h : m.wf) (a n : Nat) : (m.markPoison a n).wf := h
theorem Memory.wf_setParity {m : Memory} (h : m.wf) (a n : Nat) (b : Bool) : (m.setParity a n b).wf := h
theorem Memory.wf_reset : Memory.reset.wf := ⟨rfl, fun _ h => nomatch h⟩

end Sys2Proof.Machine
end

