-- ==== Sys2Proof/Laws/Cores.lean ====
section
/-!
SUPPORT. Reads of a participant's registers, PC and wait after each shared operation of the cores.
-/

namespace Sys2Proof.Machine

open Sys2Proof

@[simp] theorem coreOf_setCore (s : State) (c c' : Nat) (x : Core) :
    coreOf (setCore s c x) c' = if c' = c then x else coreOf s c' := by
  simp [coreOf, setCore]

@[simp] theorem tccOf_setTcc (s : State) (t t' : Nat) (x : Tcc) :
    tccOf (setTcc s t x) t' = if t' = t then x else tccOf s t' := by
  simp [tccOf, setTcc]

theorem setCore_eq (s : State) (c : Nat) (x : Core) :
    setCore s c x = (s.setCores (kput .reset s.cores c x)).setTccs s.tccs := rfl

@[simp] theorem coreOf_setTcc (s : State) (t c : Nat) (x : Tcc) : coreOf (setTcc s t x) c = coreOf s c := rfl
@[simp] theorem tccOf_setCore (s : State) (c t : Nat) (x : Core) : tccOf (setCore s c x) t = tccOf s t := rfl
@[simp] theorem coreOf_setRegs (s : State) (r : Regs) (c : Nat) : coreOf (s.setRegs r) c = coreOf s c := rfl
@[simp] theorem tccOf_setRegs (s : State) (r : Regs) (t : Nat) : tccOf (s.setRegs r) t = tccOf s t := rfl
@[simp] theorem coreOf_setMem (s : State) (m : Memory) (c : Nat) : coreOf (s.setMem m) c = coreOf s c := rfl
@[simp] theorem tccOf_setMem (s : State) (m : Memory) (t : Nat) : tccOf (s.setMem m) t = tccOf s t := rfl

/-- What counting does: it changes the counters of the register space, and of them one. -/
theorem count_spec (s : State) (page off n : Nat) :
    ∃ k, count s page off n = s.setRegs { s.regs with counters := k } ∧
      ∀ o, o ≠ regOff page off → kget 0#64 k o = kget 0#64 s.regs.counters o := by
  unfold count
  split
  · exact ⟨s.regs.counters, rfl, fun _ _ => rfl⟩
  · exact ⟨_, rfl, fun o h => by rw [kget_kput, if_neg h]⟩

/-- What issuing shows: the current operation of the core, which nothing is held behind, and at most its counter of instructions. -/
theorem noteIssue_spec (s : State) (t p op md : Nat) :
    ∃ k, noteIssue s t p op md =
        (setCore s (coreId t p) { coreOf s (coreId t p) with opcode := op, opmod := md, held := none }).setRegs
          { s.regs with counters := k } ∧
      ∀ o, o ≠ regOff (ptPage t p) 0x800 → kget 0#64 k o = kget 0#64 s.regs.counters o := by
  simp only [noteIssue]
  split
  · next h => subst h; exact count_spec _ (tccPage t) 0x800 1
  · split
    · exact count_spec _ (ptPage t p) 0x800 1
    · exact ⟨s.regs.counters, rfl, fun _ _ => rfl⟩

/-- What ending an instruction shows: no operation in progress, unless the core waits (R134). -/
theorem noteEnd_eq (s : State) (t p : Nat) (h : (coreOf s (coreId t p)).wait = none) :
    noteEnd s t p = setCore s (coreId t p) { coreOf s (coreId t p) with opcode := 0, opmod := 0 } := by
  simp [noteEnd, h]

theorem kget_putReg {α : Type} [DecidableEq α] (e : Nat) (d dflt : α) (m : KMap α) (i j : Nat) (v : α)
    (h : e = 0 → dflt = d) : kget dflt (putReg e d m i v) j = if j = i then v else kget dflt m j := by
  unfold putReg
  split
  · rename_i h'; rw [h h', kget_kput]
  · rw [kget_kinsert]

/-- G[j] after G[i] is written; G0 discards the write (R91). -/
theorem getG_setG (s : State) (t p i j : Nat) (v : Word64) :
    getG (setG s t p i v) t p j = if j = i ∧ i ≠ 0 then v else getG s t p j := by
  unfold setG
  by_cases hi : i = 0
  · simp [hi]
  · simp only [hi, if_false]
    by_cases hb : bankTwo s t p i = true
    · simp only [hb, if_true]
      have e (j : Nat) : bankTwo (setTcc s t
          { tccOf s t with bank2 := putReg (coreOf s (coreId t p)).epoch 0#64 (tccOf s t).bank2 i v }) t p j
          = bankTwo s t p j := by simp [bankTwo]
      unfold getG
      simp only [e, coreOf_setTcc, tccOf_setTcc, if_true]
      by_cases hj : j = 0
      · have : ¬ (j = i) := by omega
        simp [hj]; omega
      · by_cases hjb : bankTwo s t p j = true
        · simp only [hj, hjb, if_true, if_false]
          rw [kget_putReg _ _ _ _ _ _ _ (by intro h; simp [lostG, h])]
          simp [hi]
        · have : j ≠ i := by rintro rfl; exact hjb hb
          simp [hj, hjb, this]
    · simp only [hb]
      have e (j : Nat) : bankTwo (setCore s (coreId t p)
          { coreOf s (coreId t p) with g := putReg (coreOf s (coreId t p)).epoch 0#64 (coreOf s (coreId t p)).g i v })
            t p j = bankTwo s t p j := by simp [bankTwo]
      unfold getG
      simp only [Bool.false_eq_true, if_false, e, coreOf_setCore, tccOf_setCore, if_true]
      by_cases hj : j = 0
      · simp [hj]; omega
      · by_cases hjb : bankTwo s t p j = true
        · have : j ≠ i := by rintro rfl; exact hb hjb
          simp [hj, hjb, this]
        · simp only [hj, hjb, if_false, Bool.false_eq_true]
          rw [kget_putReg _ _ _ _ _ _ _ (by intro h; simp [lostG, h])]
          simp [hi]

theorem getG_setPc (s : State) (t p pc j : Nat) : getG (setPc s t p pc) t p j = getG s t p j := by
  simp [getG, setPc, bankTwo]

/-- Reading a register after a core changed elsewhere than in its registers. -/
theorem getG_setCore (s : State) (t p j : Nat) (x : Core) (hg : x.g = (coreOf s (coreId t p)).g)
    (he : x.epoch = (coreOf s (coreId t p)).epoch) : getG (setCore s (coreId t p) x) t p j = getG s t p j := by
  simp [getG, bankTwo, hg, he]

theorem getG_zero (s : State) (t p : Nat) : getG s t p 0 = 0#64 := by simp [getG]

/-- What writing a scalar register changes: the core's registers or the TCC's second bank, and nothing else. -/
theorem setG_spec (s : State) (t p i : Nat) (v : Word64) :
    (∃ cores tccs, setG s t p i v = (s.setCores cores).setTccs tccs) ∧
    (∀ c, c ≠ coreId t p → coreOf (setG s t p i v) c = coreOf s c) ∧
    (coreOf (setG s t p i v) (coreId t p) =
      { coreOf s (coreId t p) with g := (coreOf (setG s t p i v) (coreId t p)).g }) ∧
    ∀ t', tccOf (setG s t p i v) t' = { tccOf s t' with bank2 := (tccOf (setG s t p i v) t').bank2 } := by
  unfold setG
  split
  · exact ⟨⟨s.cores, s.tccs, rfl⟩, fun _ _ => rfl, rfl, fun _ => rfl⟩
  · split
    · refine ⟨⟨s.cores, _, rfl⟩, fun _ _ => rfl, rfl, fun t' => ?_⟩
      by_cases h : t' = t <;> simp [h]
    · exact ⟨⟨_, _, setCore_eq ..⟩, fun c h => by simp [h], by simp, fun _ => rfl⟩

/-- Reading a register after an instruction is noted gives what reading it before gave. -/
theorem getG_noteIssue (s : State) (t p op md j : Nat) : getG (noteIssue s t p op md) t p j = getG s t p j := by
  obtain ⟨k, e, -⟩ := noteIssue_spec s t p op md
  rw [e]; simp [getG, bankTwo]

theorem coreOf_noteIssue (s : State) (t p op md c : Nat) :
    coreOf (noteIssue s t p op md) c =
      if c = coreId t p then { coreOf s c with opcode := op, opmod := md, held := none } else coreOf s c := by
  obtain ⟨k, e, -⟩ := noteIssue_spec s t p op md
  rw [e]; simp; split <;> simp_all

theorem tccOf_noteIssue (s : State) (t p op md t' : Nat) : tccOf (noteIssue s t p op md) t' = tccOf s t' := by
  obtain ⟨k, e, -⟩ := noteIssue_spec s t p op md
  rw [e]; simp

theorem mem_noteIssue (s : State) (t p op md : Nat) : (noteIssue s t p op md).mem = s.mem := by
  obtain ⟨k, e, -⟩ := noteIssue_spec s t p op md
  rw [e]; rfl

theorem sync_noteIssue (s : State) (t p op md : Nat) : (noteIssue s t p op md).sync = s.sync := by
  obtain ⟨k, e, -⟩ := noteIssue_spec s t p op md
  rw [e]; rfl

theorem clock_noteIssue (s : State) (t p op md : Nat) : (noteIssue s t p op md).clock = s.clock := by
  obtain ⟨k, e, -⟩ := noteIssue_spec s t p op md
  rw [e]; rfl

theorem coreOf_setPc (s : State) (t p pc c : Nat) :
    coreOf (setPc s t p pc) c =
      if c = coreId t p then { coreOf s (coreId t p) with pc := pc % 2 ^ 64 } else coreOf s c := by
  simp [setPc]

theorem tccOf_setPc (s : State) (t p pc t' : Nat) : tccOf (setPc s t p pc) t' = tccOf s t' := rfl

end Sys2Proof.Machine
end

