-- ==== Sys2Proof/Laws/Fabric.lean ====
section
/-!
SUPPORT. What the flits of an access change, when they arrive good, and the division of a measured power among nodes.
-/

namespace Sys2Proof.Machine

open Sys2Proof

/-- Flits on a path of bridges change counters only. -/
theorem crossBridges_spec (n : Nat) (l : List Bool) (a : Nat) (s : State) :
    ∃ k, crossBridges n a l s = s.setRegs { s.regs with counters := k } := by
  induction l generalizing a s with
  | nil => exact ⟨s.regs.counters, rfl⟩
  | cons ew l ih =>
    simp only [crossBridges]
    obtain ⟨k1, e1, -⟩ := count_spec s (bridgePage a ew) 0x800 n
    obtain ⟨k2, e2, -⟩ := count_spec (count s (bridgePage a ew) 0x800 n) (bridgePage (beyond a ew) ew) 0x808 n
    split
    · obtain ⟨k, e⟩ := ih (beyond a ew) (count (count s (bridgePage a ew) 0x800 n) (bridgePage (beyond a ew) ew) 0x808 n)
      exact ⟨k, by rw [e, e2, e1]; rfl⟩
    · obtain ⟨k3, e3, -⟩ := count_spec
        (count (count s (bridgePage a ew) 0x800 n) (bridgePage (beyond a ew) ew) 0x808 n) (bridgePage (beyond a ew) ew) 0x810 n
      obtain ⟨k, e⟩ := ih (beyond a ew) (count
        (count (count s (bridgePage a ew) 0x800 n) (bridgePage (beyond a ew) ew) 0x808 n) (bridgePage (beyond a ew) ew) 0x810 n)
      exact ⟨k, by rw [e, e3, e2, e1]; rfl⟩

/-- A chain of two changes of the counters is one. -/
theorem counters_trans {s t u : State} (h : ∃ k, t = s.setRegs { s.regs with counters := k })
    (h' : ∃ k, u = t.setRegs { t.regs with counters := k }) : ∃ k, u = s.setRegs { s.regs with counters := k } := by
  obtain ⟨k, rfl⟩ := h
  obtain ⟨k', rfl⟩ := h'
  exact ⟨k', rfl⟩

theorem count_counters (s : State) (page off n : Nat) : ∃ k, count s page off n = s.setRegs { s.regs with counters := k } :=
  let ⟨k, e, _⟩ := count_spec s page off n
  ⟨k, e⟩

/-- Flits from one place to another change counters only. -/
theorem travel_spec (s : State) (x y : Loc) (n : Nat) :
    ∃ k, (travel s x y n).2 = s.setRegs { s.regs with counters := k } := by
  have none : ∃ k, s = s.setRegs { s.regs with counters := k } := ⟨s.regs.counters, rfl⟩
  unfold travel
  split
  · split
    · dsimp only
      split
      · exact count_counters ..
      · exact none
    · split
      · exact counters_trans (counters_trans (count_counters ..) (crossBridges_spec ..)) (count_counters ..)
      · exact none
  · split
    · exact counters_trans (count_counters ..) (crossBridges_spec ..)
    · exact none
  · split
    · exact counters_trans (crossBridges_spec ..) (count_counters ..)
    · exact none
  · split
    · exact crossBridges_spec ..
    · exact none

/-- The request and the response of an access change counters, and take at most a poisoned flit from those delivered. -/
theorem carry_spec (s : State) (q : Req) (y : Loc) (n : Nat) :
    ∃ k l, (carry s q y n).2 = (s.setRegs { s.regs with counters := k }).setStore { s.store with badFlits := l } := by
  obtain ⟨k, e⟩ := travel_spec s (leafLoc q.who) y n
  unfold carry
  dsimp only
  split
  · exact ⟨k, s.store.badFlits, by rw [e]; rfl⟩
  · obtain ⟨k', e'⟩ := travel_spec (travel s (leafLoc q.who) y n).2 y (leafLoc q.who) n
    split
    · exact ⟨k', _, by rw [e', e]; rfl⟩
    · exact ⟨k', s.store.badFlits, by rw [e', e]; rfl⟩

theorem beyond_lt (a : Nat) (ew : Bool) (h : a < 4) : beyond a ew < 4 := by
  unfold beyond; split <;> omega

/-- With no bridge down, every path from a base die is up. -/
theorem pathUp_good (s : State) (h : pathsGood s) (l : List Bool) (a : Nat) (ha : a < 4) : pathUp s a l = true := by
  induction l generalizing a with
  | nil => rfl
  | cons ew l ih => simp [pathUp, h.2 a ew ha, ih (beyond a ew) (beyond_lt a ew ha)]

theorem route_good (s : State) (h : pathsGood s) (a b : Nat) (ha : a < 4) : route s a b = some (straight a b) := by
  simp [route, pathUp_good s h _ a ha]

/-- Changing counters leaves the paths good. -/
theorem pathsGood_counters (s : State) (k : KMap Word64) (h : pathsGood s) :
    pathsGood (s.setRegs { s.regs with counters := k }) := h

theorem travel_good (s : State) (h : pathsGood s) (x y : Loc) (n : Nat) (hx : x.die < 4) : (travel s x y n).1 = true := by
  unfold travel
  simp only [route_good s h x.die y.die hx]
  split <;> first | rfl | (split <;> rfl)

/-- Where no bridge is down and no flit was poisoned, every access arrives, and changes counters only. -/
theorem carry_good (s : State) (q : Req) (y : Loc) (n : Nat) (h : pathsGood s) (hx : (leafLoc q.who).die < 4) :
    (carry s q y n).1 = true ∧ ∃ k, (carry s q y n).2 = s.setRegs { s.regs with counters := k } := by
  obtain ⟨k, e⟩ := travel_spec s (leafLoc q.who) y n
  obtain ⟨k', e'⟩ := travel_spec (travel s (leafLoc q.who) y n).2 y (leafLoc q.who) n
  have hb : (travel (travel s (leafLoc q.who) y n).2 y (leafLoc q.who) n).2.store.badFlits = [] := by
    rw [e', e]; exact h.1
  unfold carry
  simp only [travel_good s h _ y n hx, hb, Bool.not_true, Bool.false_eq_true, if_false, List.find?_nil]
  exact ⟨trivial, k', by rw [e', e]; rfl⟩

/-! Powers of nodes (R407). -/

theorem splitFrom_sum (p all : Nat) (ws : List Nat) (served : Nat) :
    (splitFrom p all served ws).sum = (served + ws.sum) * p / all - served * p / all := by
  induction ws generalizing served with
  | nil => simp [splitFrom]
  | cons w l ih =>
    have h1 : served * p / all ≤ (served + w) * p / all :=
      Nat.div_le_div_right (Nat.mul_le_mul_right p (Nat.le_add_right served w))
    have h2 : (served + w) * p / all ≤ (served + (w + l.sum)) * p / all :=
      Nat.div_le_div_right (Nat.mul_le_mul_right p (by omega))
    rw [splitFrom, List.sum_cons, ih, List.sum_cons, ← Nat.add_assoc] at *
    omega

/-- The parts of a power sum to it, wherever there is a node to take it. -/
theorem splitPower_sum (p : Nat) (ws : List Nat) (h : ws ≠ []) : (splitPower p ws).sum = p := by
  have key (l : List Nat) (hl : 0 < l.sum) : (splitFrom p (l.foldl (· + ·) 0) 0 l).sum = p := by
    rw [splitFrom_sum, ← List.sum_eq_foldl, Nat.zero_add, Nat.zero_mul, Nat.zero_div, Nat.sub_zero,
      Nat.mul_div_cancel_left _ hl]
  unfold splitPower
  dsimp only
  split
  · refine key _ ?_
    cases ws with
    | nil => exact absurd rfl h
    | cons w l => simp
  · rename_i hw
    refine key _ ?_
    simp only [List.all_eq_true, decide_eq_true_eq, not_forall] at hw
    obtain ⟨x, hx, h0⟩ := hw
    exact Nat.lt_of_lt_of_le (Nat.pos_of_ne_zero h0) (List.single_le_sum (by simp) x hx)

end Sys2Proof.Machine
end

