-- ==== Sys2Proof/Laws/Faults.lean ====
section
/-!
SUPPORT. Registers after a write, and what raising a source can do.
-/

namespace Sys2Proof.Machine

open Sys2Proof

/-- A stored register after a register is stored. -/
@[simp] theorem regGet_regSet (s : State) (o o' v : Nat) :
    regGet (regSet s o v) o' = if o' = o then v % 2 ^ 32 else regGet s o' := by
  unfold regGet regSet
  simp only [setRegs_regs]
  by_cases h : o' = o
  · subst h
    simp only [if_true]
    split_ifs with h'
    · rw [kfind_kerase, if_pos rfl]; simpa using h'.symm
    · rw [kfind_kinsert, if_pos rfl]; simp
  · simp only [h, if_false]
    split_ifs
    · rw [kfind_kerase, if_neg h]
    · rw [kfind_kinsert, if_neg h]

theorem regOff_inj {p p' o o' : Nat} (h : o < 0x1000) (h' : o' < 0x1000) :
    regOff p o = regOff p' o' ↔ p = p' ∧ o = o' := by
  unfold regOff; omega

/-- A register of a page after a register of a page is stored. -/
theorem pget_pset (s : State) (p o v p' o' : Nat) (h : o < 0x1000) (h' : o' < 0x1000) :
    pget (pset s p o v) p' o' = if p' = p ∧ o' = o then v % 2 ^ 32 else pget s p' o' := by
  unfold pget pset
  rw [regGet_regSet]
  simp only [regOff_inj h' h]

theorem bitOf_eq_testBit (a i : Nat) : bitOf a i = a.testBit i := Nat.decide_shiftRight_mod_two_eq_one

theorem bitOf_mod (a i : Nat) (h : i < 32) : bitOf (a % 2 ^ 32) i = bitOf a i := by
  simp only [bitOf_eq_testBit, Nat.testBit_mod_two_pow, h, decide_true, Bool.true_and]

theorem bitOf_or (a b i : Nat) : bitOf (a ||| b) i = (bitOf a i || bitOf b i) := by
  simp only [bitOf_eq_testBit, Nat.testBit_or]

theorem bitOf_two_pow (i j : Nat) : bitOf (2 ^ i) j = decide (i = j) := by
  rw [bitOf_eq_testBit, Nat.testBit_two_pow]

/-- A sticky bit after a register other than FLT_STICKY is stored. -/
theorem sticky_pset_other (s : State) (p o v page src : Nat) (ho : o < 0x1000) (h : o ≠ 0x020) :
    sticky (pset s p o v) page src = sticky s page src := by
  unfold sticky; rw [pget_pset _ _ _ _ _ _ ho (by omega), if_neg (by rintro ⟨-, h'⟩; exact h h'.symm)]

/-- A sticky bit after bits of a FLT_STICKY are set. -/
theorem sticky_psetBits (s : State) (p m page src : Nat) (h : src < 32) :
    sticky (psetBits s p 0x020 m) page src = (sticky s page src || (decide (page = p) && bitOf m src)) := by
  unfold sticky psetBits
  rw [pget_pset _ _ _ _ _ _ (by omega) (by omega)]
  by_cases hp : page = p
  · subst hp; simp only [and_self, if_true, bitOf_mod _ _ h, bitOf_or, decide_true, Bool.true_and]
  · simp [hp]

/-! The relation `onlyFaults`. -/

theorem onlyFaults_refl (s : State) : onlyFaults s s :=
  ⟨rfl, ⟨s.host.msixPend, s.host.msixSent, rfl⟩, fun _ => rfl,
    fun t => ⟨(tccOf s t).pend, (tccOf s t).halted, (tccOf s t).locked, (tccOf s t).nested, rfl⟩, fun _ _ _ h => h⟩

theorem onlyFaults_trans {s u v : State} (h : onlyFaults s u) (h' : onlyFaults u v) : onlyFaults s v := by
  obtain ⟨e, ⟨b1, b2, eb⟩, c, d, f⟩ := h
  obtain ⟨e', ⟨b1', b2', eb'⟩, c', d', f'⟩ := h'
  refine ⟨?_, ⟨b1', b2', by rw [eb', eb]⟩, fun k => ?_, fun t => ?_, fun p x hx h => f' p x hx (f p x hx h)⟩
  · calc v = { u with regs := v.regs, flt := v.flt, host := v.host, cores := v.cores, tccs := v.tccs } := e'
      _ = { s with regs := v.regs, flt := v.flt, host := v.host, cores := v.cores, tccs := v.tccs } := by rw [e]
  · rw [c' k, c k]
  · obtain ⟨w, x, y, z, e1⟩ := d t
    obtain ⟨w', x', y', z', e2⟩ := d' t
    exact ⟨w', x', y', z', by rw [e2, e1]⟩

/-- A change of registers or of the fault record that keeps every sticky bit. -/
theorem onlyFaults_of_regs {s u : State} (e : u = { s with regs := u.regs, flt := u.flt })
    (h : ∀ page src, src < 32 → sticky s page src = true → sticky u page src = true) : onlyFaults s u := by
  rw [e] at h ⊢
  exact ⟨rfl, ⟨s.host.msixPend, s.host.msixSent, rfl⟩, fun _ => rfl,
    fun t => ⟨(tccOf s t).pend, (tccOf s t).halted, (tccOf s t).locked, (tccOf s t).nested, rfl⟩, h⟩

theorem onlyFaults_setFlt (s : State) (f : Flt) : onlyFaults s (s.setFlt f) :=
  onlyFaults_of_regs rfl fun _ _ _ h => h

theorem onlyFaults_count (s : State) (p o n : Nat) : onlyFaults s (count s p o n) := by
  obtain ⟨k, e, -⟩ := count_spec s p o n
  rw [e]; exact onlyFaults_of_regs rfl fun _ _ _ h => h

theorem onlyFaults_pset (s : State) (p o v : Nat) (ho : o < 0x1000) (h : o ≠ 0x020) : onlyFaults s (pset s p o v) :=
  onlyFaults_of_regs rfl fun page src _ hs => by rw [sticky_pset_other _ _ _ _ _ _ ho h]; exact hs

theorem onlyFaults_psetBits (s : State) (p m : Nat) : onlyFaults s (psetBits s p 0x020 m) :=
  onlyFaults_of_regs rfl fun page src hx hs => by rw [sticky_psetBits _ _ _ _ _ hx, hs]; rfl

theorem onlyFaults_markGroup (s : State) (tag : Nat) (k : CauseKind) (p x : Nat) :
    onlyFaults s (markGroup s tag k p x) := by
  unfold markGroup; split
  · dsimp only; split
    · exact onlyFaults_refl s
    · exact onlyFaults_setFlt _ _
  · exact onlyFaults_refl s

theorem onlyFaults_msixSignal (s : State) (v : Nat) : onlyFaults s (msixSignal s v) := by
  have key (p : List Nat) (n : KMap Nat) :
      onlyFaults s (s.setHost { s.host with msixPend := p, msixSent := n }) :=
    ⟨rfl, ⟨p, n, rfl⟩, fun _ => rfl,
      fun t => ⟨(tccOf s t).pend, (tccOf s t).halted, (tccOf s t).locked, (tccOf s t).nested, rfl⟩, fun _ _ _ h => h⟩
  unfold msixSignal; split
  · split
    · exact onlyFaults_refl s
    · exact key _ s.host.msixSent
  · exact key s.host.msixPend _

theorem onlyFaults_tcc (s : State) (t : Nat) (a : List TrapCause) (b c d : Bool) :
    onlyFaults s (setTcc s t { tccOf s t with pend := a, halted := b, locked := c, nested := d }) := by
  refine ⟨rfl, ⟨s.host.msixPend, s.host.msixSent, rfl⟩, fun _ => rfl,
    fun t' => ?_, fun _ _ _ h => h⟩
  rw [tccOf_setTcc]; split
  · subst_vars; exact ⟨a, b, c, d, rfl⟩
  · exact ⟨(tccOf s t').pend, (tccOf s t').halted, (tccOf s t').locked, (tccOf s t').nested, rfl⟩

theorem onlyFaults_tccCause (s : State) (t : Nat) (c : TrapCause) : onlyFaults s (tccCause s t c) := by
  unfold tccCause; dsimp only; split
  · exact onlyFaults_refl s
  · exact onlyFaults_tcc s t _ (tccOf s t).halted (tccOf s t).locked (tccOf s t).nested

theorem onlyFaults_stop (s : State) (c : Nat) (b : Bool) :
    onlyFaults s (setCore s c { coreOf s c with stopReq := b }) := by
  refine ⟨rfl, ⟨s.host.msixPend, s.host.msixSent, rfl⟩, fun c' => ?_,
    fun t => ⟨(tccOf s t).pend, (tccOf s t).halted, (tccOf s t).locked, (tccOf s t).nested, rfl⟩, fun _ _ _ h => h⟩
  rw [coreOf_setCore]; split <;> simp_all

theorem onlyFaults_trapReaction (s : State) (p x : Nat) : onlyFaults s (trapReaction s p x) := by
  unfold trapReaction; split
  · dsimp only; split
    · split
      · exact onlyFaults_trans (onlyFaults_tccCause ..) (onlyFaults_stop ..)
      · exact onlyFaults_tccCause ..
    · exact onlyFaults_tccCause ..
  · exact onlyFaults_refl s

theorem onlyFaults_stampSetting (s : State) (p x tag : Nat) (f : Bool) : onlyFaults s (stampSetting s p x tag f) := by
  unfold stampSetting; dsimp only
  refine onlyFaults_trans ?_ (onlyFaults_pset _ _ _ _ (by omega) (by omega))
  refine onlyFaults_trans ?_ (onlyFaults_pset _ _ _ _ (by omega) (by omega))
  refine onlyFaults_trans ?_ (onlyFaults_pset _ _ _ _ (by omega) (by omega))
  exact onlyFaults_trans (onlyFaults_setFlt ..) (onlyFaults_count ..)

theorem onlyFaults_ite (s u v : State) (b : Prop) [Decidable b] (h : onlyFaults s u) (h' : onlyFaults s v) :
    onlyFaults s (if b then u else v) := by split <;> assumption

theorem onlyFaults_takeReactions (s : State) (p x : Nat) : onlyFaults s (takeReactions s p x) := by
  unfold takeReactions; dsimp only
  have restart (w : State) (r : Prop) [Decidable r] :
      onlyFaults w (if r then w.setFlt { w.flt with restartReq := true } else w) :=
    onlyFaults_ite _ _ _ _ (onlyFaults_setFlt ..) (onlyFaults_refl _)
  refine onlyFaults_trans ?_ (restart _ _)
  have reset (w : State) (l : List Nat) : onlyFaults w (w.setRegs { w.regs with resetReq := l }) :=
    onlyFaults_of_regs rfl fun _ _ _ h => h
  have body (w : State) : onlyFaults w (match pagePlace p with
      | .module _ => w
      | _ => if bitOf (faultReact s p x) 3 && !w.regs.resetReq.contains p then
          w.setRegs { w.regs with resetReq := w.regs.resetReq ++ [p] } else w) := by
    split
    · exact onlyFaults_refl w
    · exact onlyFaults_ite _ _ _ _ (reset ..) (onlyFaults_refl _)
  refine onlyFaults_trans ?_ (body _)
  have trap (w : State) : onlyFaults w (if bitOf (faultReact s p x) 1 then trapReaction w p x else w) :=
    onlyFaults_ite _ _ _ _ (onlyFaults_trapReaction ..) (onlyFaults_refl _)
  refine onlyFaults_trans ?_ (trap _)
  refine onlyFaults_ite _ _ _ _ ?_ (onlyFaults_refl _)
  exact onlyFaults_ite _ _ _ _ (onlyFaults_trans (onlyFaults_msixSignal ..) (onlyFaults_msixSignal ..))
    (onlyFaults_msixSignal ..)

/-- A new setting only sets its sticky bit and takes its reactions. -/
theorem newSetting_spec (s : State) (p x tag : Nat) (f : Bool) :
    onlyFaults s (newSetting s p x tag f) ∧ (x < 32 → sticky (newSetting s p x tag f) p x = true) := by
  have h := onlyFaults_trans (onlyFaults_stampSetting (psetBits s p 0x020 (2 ^ x)) p x tag f) (onlyFaults_takeReactions _ p x)
  refine ⟨onlyFaults_trans (onlyFaults_psetBits ..) h, fun hx => ?_⟩
  exact h.2.2.2.2 p x hx (by rw [sticky_psetBits _ _ _ _ _ hx, bitOf_two_pow]; simp)

theorem onlyFaults_stampOverflow (s : State) (p : Nat) : onlyFaults s (stampOverflow s p) :=
  onlyFaults_ite _ _ _ _ (onlyFaults_refl s) (newSetting_spec ..).1

/-- Everything that setting a source can do; a source that the block has is set after it (R426, R429, R433). -/
theorem setSource_spec (s : State) (p x tag : Nat) (m f : Bool) :
    onlyFaults s (setSource s p x tag m f) ∧
      ∀ b, pageBlock p = some b → sourceDefined b x = true → x < 32 → sticky (setSource s p x tag m f) p x = true := by
  unfold setSource
  split
  · rename_i h; exact ⟨onlyFaults_refl s, fun b hb => by rw [h] at hb; cases hb⟩
  · rename_i b hb
    split
    · rename_i hd
      refine ⟨onlyFaults_refl s, fun b' hb' hd' => ?_⟩
      rw [hb] at hb'; cases hb'; simp [hd'] at hd
    · dsimp only
      have h1 : onlyFaults s (if (m && decide (sourceClass b x = 1) || decide (settingClass s p x = 1)) = true then
          markGroup s tag (causeKind b x) p x else s) :=
        onlyFaults_ite _ _ _ _ (onlyFaults_markGroup ..) (onlyFaults_refl _)
      generalize (if (m && decide (sourceClass b x = 1) || decide (settingClass s p x = 1)) = true then
          markGroup s tag (causeKind b x) p x else s) = w at h1 ⊢
      by_cases hw : sticky w p x = true
      · rw [if_pos hw]; exact ⟨h1, fun _ _ _ _ => hw⟩
      · rw [if_neg hw]
        generalize (if ((m && decide (sourceClass b x = 1) || decide (settingClass s p x = 1)) && tagLive s tag) = true then
          tag else 0) = g
        have h2 := newSetting_spec w p x g f
        split
        · have h3 := onlyFaults_stampOverflow (newSetting w p x g f) p
          exact ⟨onlyFaults_trans h1 (onlyFaults_trans h2.1 h3), fun _ _ _ hx => h3.2.2.2.2 p x hx (h2.2 hx)⟩
        · exact ⟨onlyFaults_trans h1 h2.1, fun _ _ _ hx => h2.2 hx⟩

theorem onlyFaults_nestTcc (s : State) (t : Nat) : onlyFaults s (nestTcc s t) := by
  unfold nestTcc; dsimp only
  refine onlyFaults_trans (onlyFaults_trans (onlyFaults_tcc s t (tccOf s t).pend true true true) ?_) (setSource_spec ..).1
  exact onlyFaults_pset _ _ _ _ (by omega) (by omega)

/-- Everything that raising a source can do. -/
theorem raiseWith_spec (s : State) (p x tag : Nat) (m f : Bool) :
    onlyFaults s (raiseWith s p x tag m f) ∧
      ∀ b, pageBlock p = some b → sourceDefined b x = true → x < 32 → sticky (raiseWith s p x tag m f) p x = true := by
  have h := setSource_spec s p x tag m f
  unfold raiseWith; dsimp only
  split
  · split
    · have h' := onlyFaults_nestTcc (setSource s p x tag m f) (by assumption)
      exact ⟨onlyFaults_trans h.1 h', fun b hb hd hx => h'.2.2.2.2 p x hx (h.2 b hb hd hx)⟩
    · exact h
  · exact h

/-- A source raised under a rule that names a group. -/
theorem raiseTag_spec (s : State) (p x tag : Nat) :
    onlyFaults s (raiseTag s p x tag) ∧
      ∀ b, pageBlock p = some b → sourceDefined b x = true → x < 32 → sticky (raiseTag s p x tag) p x = true :=
  raiseWith_spec s p x tag true false

end Sys2Proof.Machine
end

