-- ==== Sys2Proof/Laws/Frames.lean ====
section
/-!
SUPPORT. The frames of Safety.lean for the shared operations of the cores.
-/

namespace Sys2Proof.Machine

open Sys2Proof

/-- What an instruction does that is noted, writes one register, sets the PC and ends. -/
theorem noteSetGPc_spec (s : State) (t p d op pc : Nat) (v : Word64) (hw : (coreOf s (coreId t p)).wait = none) :
    let u := noteEnd (setPc (setG (noteIssue s t p op 0) t p d v) t p pc) t p
    onlyReg s u t p d ∧ getG u t p d = (if d = 0 then 0#64 else v) ∧ pcOf u t p = pc % 2 ^ 64 := by
  obtain ⟨k, e, hk⟩ := noteIssue_spec s t p op 0
  obtain ⟨⟨cores, tccs, e1⟩, h1, h2, h3⟩ := setG_spec (noteIssue s t p op 0) t p d v
  have hc : coreOf (setPc (setG (noteIssue s t p op 0) t p d v) t p pc) (coreId t p) = { coreOf s (coreId t p) with
      pc := pc % 2 ^ 64, g := (coreOf (setG (noteIssue s t p op 0) t p d v) (coreId t p)).g
      opcode := op, opmod := 0, held := none } := by
    rw [coreOf_setPc, if_pos rfl, h2]; simp [coreOf_noteIssue]
  intro u
  have hu : u = setCore _ _ _ := noteEnd_eq _ t p (by rw [hc]; exact hw)
  have hg (j : Nat) : getG u t p j = getG (setG (noteIssue s t p op 0) t p d v) t p j := by
    rw [hu]; refine (getG_setCore _ t p j _ ?_ ?_).trans (getG_setPc ..) <;> rfl
  have hu' : coreOf u (coreId t p) = { coreOf s (coreId t p) with
      pc := pc % 2 ^ 64, g := (coreOf (setG (noteIssue s t p op 0) t p d v) (coreId t p)).g
      opcode := 0, opmod := 0, held := none } := by
    rw [hu, coreOf_setCore, if_pos rfl, hc]
  refine ⟨⟨?_, ⟨?_, ?_⟩, ?_, ?_, ?_, ?_⟩, ?_, ?_⟩
  · rw [hu]; simp only [setPc, setCore]; rw [e1, e]; rfl
  · rw [hu]; simp only [setPc, setCore]; rw [e1, e]; rfl
  · intro o ho; rw [← hk o ho, hu]; simp only [setPc, setCore]; rw [e1, e]; rfl
  · intro j hj; rw [hg, getG_setG, getG_noteIssue, if_neg (by tauto)]
  · intro c hc'
    rw [hu, coreOf_setCore, if_neg hc', coreOf_setPc, if_neg hc', h1 c hc', coreOf_noteIssue, if_neg hc']
  · intro k; rw [show k = _ from hu']
  · intro t'; rw [hu, tccOf_setCore, tccOf_setPc, h3 t', tccOf_noteIssue]
  · rw [hg, getG_setG, getG_noteIssue]
    by_cases h : d = 0 <;> simp [h, getG_zero]
  · exact congrArg Core.pc hu'

/-- What an instruction does that writes one value and goes on. -/
theorem wroteReg_noteIssue (s : State) (t p d op : Nat) (v : Word64) (hw : (coreOf s (coreId t p)).wait = none) :
    wroteReg s (noteEnd (nextPc (setG (noteIssue s t p op 0) t p d v) t p) t p) t p d v := by
  have h := noteSetGPc_spec s t p d op ((coreOf (setG (noteIssue s t p op 0) t p d v) (coreId t p)).pc + 8) v hw
  refine ⟨h.1, h.2.1, h.2.2.trans ?_⟩
  obtain ⟨-, -, h2, -⟩ := setG_spec (noteIssue s t p op 0) t p d v
  rw [h2, coreOf_noteIssue]; simp [pcOf]

end Sys2Proof.Machine
end

