-- ==== Sys2Proof/Laws/PerInstr.lean ====
section
/-!
SUPPORT. One lemma per command: an instruction that has a word is one of a core of the module, and is well-formed whatever its
fields hold.
-/

/-- A command that has an instruction word (R92) names the core that executes it, and is well-formed. -/
def Sys2Proof.Laws.WellFormed.Statement (i : Sys2Proof.Instr) : Prop :=
  Sys2Proof.encodeCoreWord i ≠ none → (Sys2Proof.coreOfInstr i).isSome = true ∧ Sys2Proof.wellFormed i = true

theorem Sys2Proof.Laws.WellFormed.nop : ∀ a0 a1 a2, Sys2Proof.Laws.WellFormed.Statement (.nop a0 a1 a2) :=
  fun _ _ _ _ => ⟨rfl, rfl⟩
theorem Sys2Proof.Laws.WellFormed.endProgram : ∀ a0 a1 a2, Sys2Proof.Laws.WellFormed.Statement (.endProgram a0 a1 a2) :=
  fun _ _ _ _ => ⟨rfl, rfl⟩
theorem Sys2Proof.Laws.WellFormed.trap : ∀ a0 a1 a2, Sys2Proof.Laws.WellFormed.Statement (.trap a0 a1 a2) :=
  fun _ _ _ _ => ⟨rfl, rfl⟩
theorem Sys2Proof.Laws.WellFormed.fence : ∀ a0 a1 a2, Sys2Proof.Laws.WellFormed.Statement (.fence a0 a1 a2) :=
  fun _ _ _ _ => ⟨rfl, rfl⟩
theorem Sys2Proof.Laws.WellFormed.time : ∀ a0 a1 a2, Sys2Proof.Laws.WellFormed.Statement (.time a0 a1 a2) :=
  fun _ _ _ _ => ⟨rfl, rfl⟩
theorem Sys2Proof.Laws.WellFormed.ldi : ∀ a0 a1 a2, Sys2Proof.Laws.WellFormed.Statement (.ldi a0 a1 a2) :=
  fun _ _ _ _ => ⟨rfl, rfl⟩
theorem Sys2Proof.Laws.WellFormed.ldih : ∀ a0 a1 a2, Sys2Proof.Laws.WellFormed.Statement (.ldih a0 a1 a2) :=
  fun _ _ _ _ => ⟨rfl, rfl⟩
theorem Sys2Proof.Laws.WellFormed.add : ∀ a0 a1 a2, Sys2Proof.Laws.WellFormed.Statement (.add a0 a1 a2) :=
  fun _ _ _ _ => ⟨rfl, rfl⟩
theorem Sys2Proof.Laws.WellFormed.sub : ∀ a0 a1 a2, Sys2Proof.Laws.WellFormed.Statement (.sub a0 a1 a2) :=
  fun _ _ _ _ => ⟨rfl, rfl⟩
theorem Sys2Proof.Laws.WellFormed.and : ∀ a0 a1 a2, Sys2Proof.Laws.WellFormed.Statement (.and a0 a1 a2) :=
  fun _ _ _ _ => ⟨rfl, rfl⟩
theorem Sys2Proof.Laws.WellFormed.or : ∀ a0 a1 a2, Sys2Proof.Laws.WellFormed.Statement (.or a0 a1 a2) :=
  fun _ _ _ _ => ⟨rfl, rfl⟩
theorem Sys2Proof.Laws.WellFormed.xor : ∀ a0 a1 a2, Sys2Proof.Laws.WellFormed.Statement (.xor a0 a1 a2) :=
  fun _ _ _ _ => ⟨rfl, rfl⟩
theorem Sys2Proof.Laws.WellFormed.shl : ∀ a0 a1 a2, Sys2Proof.Laws.WellFormed.Statement (.shl a0 a1 a2) :=
  fun _ _ _ _ => ⟨rfl, rfl⟩
theorem Sys2Proof.Laws.WellFormed.shr : ∀ a0 a1 a2, Sys2Proof.Laws.WellFormed.Statement (.shr a0 a1 a2) :=
  fun _ _ _ _ => ⟨rfl, rfl⟩
theorem Sys2Proof.Laws.WellFormed.sar : ∀ a0 a1 a2, Sys2Proof.Laws.WellFormed.Statement (.sar a0 a1 a2) :=
  fun _ _ _ _ => ⟨rfl, rfl⟩
theorem Sys2Proof.Laws.WellFormed.mul : ∀ a0 a1 a2, Sys2Proof.Laws.WellFormed.Statement (.mul a0 a1 a2) :=
  fun _ _ _ _ => ⟨rfl, rfl⟩
theorem Sys2Proof.Laws.WellFormed.slt : ∀ a0 a1 a2, Sys2Proof.Laws.WellFormed.Statement (.slt a0 a1 a2) :=
  fun _ _ _ _ => ⟨rfl, rfl⟩
theorem Sys2Proof.Laws.WellFormed.sltu : ∀ a0 a1 a2, Sys2Proof.Laws.WellFormed.Statement (.sltu a0 a1 a2) :=
  fun _ _ _ _ => ⟨rfl, rfl⟩
theorem Sys2Proof.Laws.WellFormed.ld : ∀ a0 a1 a2, Sys2Proof.Laws.WellFormed.Statement (.ld a0 a1 a2) :=
  fun _ _ _ _ => ⟨rfl, rfl⟩
theorem Sys2Proof.Laws.WellFormed.st : ∀ a0 a1 a2, Sys2Proof.Laws.WellFormed.Statement (.st a0 a1 a2) :=
  fun _ _ _ _ => ⟨rfl, rfl⟩
theorem Sys2Proof.Laws.WellFormed.ldw : ∀ a0 a1 a2, Sys2Proof.Laws.WellFormed.Statement (.ldw a0 a1 a2) :=
  fun _ _ _ _ => ⟨rfl, rfl⟩
theorem Sys2Proof.Laws.WellFormed.stw : ∀ a0 a1 a2, Sys2Proof.Laws.WellFormed.Statement (.stw a0 a1 a2) :=
  fun _ _ _ _ => ⟨rfl, rfl⟩
theorem Sys2Proof.Laws.WellFormed.br : ∀ a0 a1 a2, Sys2Proof.Laws.WellFormed.Statement (.br a0 a1 a2) :=
  fun _ _ _ _ => ⟨rfl, rfl⟩
theorem Sys2Proof.Laws.WellFormed.beq : ∀ a0 a1 a2, Sys2Proof.Laws.WellFormed.Statement (.beq a0 a1 a2) :=
  fun _ _ _ _ => ⟨rfl, rfl⟩
theorem Sys2Proof.Laws.WellFormed.bne : ∀ a0 a1 a2, Sys2Proof.Laws.WellFormed.Statement (.bne a0 a1 a2) :=
  fun _ _ _ _ => ⟨rfl, rfl⟩
theorem Sys2Proof.Laws.WellFormed.blt : ∀ a0 a1 a2, Sys2Proof.Laws.WellFormed.Statement (.blt a0 a1 a2) :=
  fun _ _ _ _ => ⟨rfl, rfl⟩
theorem Sys2Proof.Laws.WellFormed.bge : ∀ a0 a1 a2, Sys2Proof.Laws.WellFormed.Statement (.bge a0 a1 a2) :=
  fun _ _ _ _ => ⟨rfl, rfl⟩
theorem Sys2Proof.Laws.WellFormed.loop : ∀ a0 a1 a2, Sys2Proof.Laws.WellFormed.Statement (.loop a0 a1 a2) :=
  fun _ _ _ _ => ⟨rfl, rfl⟩
theorem Sys2Proof.Laws.WellFormed.call : ∀ a0 a1 a2, Sys2Proof.Laws.WellFormed.Statement (.call a0 a1 a2) :=
  fun _ _ _ _ => ⟨rfl, rfl⟩
theorem Sys2Proof.Laws.WellFormed.jr : ∀ a0 a1 a2, Sys2Proof.Laws.WellFormed.Statement (.jr a0 a1 a2) :=
  fun _ _ _ _ => ⟨rfl, rfl⟩
theorem Sys2Proof.Laws.WellFormed.xfer : ∀ a0 a1 a2, Sys2Proof.Laws.WellFormed.Statement (.xfer a0 a1 a2) :=
  fun _ _ _ _ => ⟨rfl, rfl⟩
theorem Sys2Proof.Laws.WellFormed.xferComplete : ∀ a0 a1 a2, Sys2Proof.Laws.WellFormed.Statement (.xferComplete a0 a1 a2) :=
  fun _ _ _ h => absurd rfl h
theorem Sys2Proof.Laws.WellFormed.fset : ∀ a0 a1 a2, Sys2Proof.Laws.WellFormed.Statement (.fset a0 a1 a2) :=
  fun _ _ _ _ => ⟨rfl, rfl⟩
theorem Sys2Proof.Laws.WellFormed.fclr : ∀ a0 a1 a2, Sys2Proof.Laws.WellFormed.Statement (.fclr a0 a1 a2) :=
  fun _ _ _ _ => ⟨rfl, rfl⟩
theorem Sys2Proof.Laws.WellFormed.fwait : ∀ a0 a1 a2, Sys2Proof.Laws.WellFormed.Statement (.fwait a0 a1 a2) :=
  fun _ _ _ _ => ⟨rfl, rfl⟩
theorem Sys2Proof.Laws.WellFormed.fwaitRelease : ∀ a0 a1, Sys2Proof.Laws.WellFormed.Statement (.fwaitRelease a0 a1) :=
  fun _ _ h => absurd rfl h
theorem Sys2Proof.Laws.WellFormed.ftst : ∀ a0 a1 a2, Sys2Proof.Laws.WellFormed.Statement (.ftst a0 a1 a2) :=
  fun _ _ _ _ => ⟨rfl, rfl⟩
theorem Sys2Proof.Laws.WellFormed.bara : ∀ a0 a1 a2, Sys2Proof.Laws.WellFormed.Statement (.bara a0 a1 a2) :=
  fun _ _ _ _ => ⟨rfl, rfl⟩
theorem Sys2Proof.Laws.WellFormed.barw : ∀ a0 a1 a2, Sys2Proof.Laws.WellFormed.Statement (.barw a0 a1 a2) :=
  fun _ _ _ _ => ⟨rfl, rfl⟩
theorem Sys2Proof.Laws.WellFormed.bar : ∀ a0 a1 a2, Sys2Proof.Laws.WellFormed.Statement (.bar a0 a1 a2) :=
  fun _ _ _ _ => ⟨rfl, rfl⟩
theorem Sys2Proof.Laws.WellFormed.barrierComplete : ∀ a0 a1 a2, Sys2Proof.Laws.WellFormed.Statement (.barrierComplete a0 a1 a2) :=
  fun _ _ _ h => absurd rfl h
theorem Sys2Proof.Laws.WellFormed.illegalInstruction : ∀ a0 a1 a2, Sys2Proof.Laws.WellFormed.Statement (.illegalInstruction a0 a1 a2) :=
  fun _ _ _ h => absurd rfl h
theorem Sys2Proof.Laws.WellFormed.pcOutOfStore : ∀ a0 a1, Sys2Proof.Laws.WellFormed.Statement (.pcOutOfStore a0 a1) :=
  fun _ _ h => absurd rfl h
theorem Sys2Proof.Laws.WellFormed.mxa : ∀ a0 a1 a2, Sys2Proof.Laws.WellFormed.Statement (.mxa a0 a1 a2) :=
  fun _ _ _ _ => ⟨rfl, rfl⟩
theorem Sys2Proof.Laws.WellFormed.mxaStart : ∀ a0 a1, Sys2Proof.Laws.WellFormed.Statement (.mxaStart a0 a1) :=
  fun _ _ h => absurd rfl h
theorem Sys2Proof.Laws.WellFormed.mxaEnd : ∀ a0 a1 a2, Sys2Proof.Laws.WellFormed.Statement (.mxaEnd a0 a1 a2) :=
  fun _ _ _ h => absurd rfl h
theorem Sys2Proof.Laws.WellFormed.mxr : ∀ a0 a1 a2, Sys2Proof.Laws.WellFormed.Statement (.mxr a0 a1 a2) :=
  fun _ _ _ _ => ⟨rfl, rfl⟩
theorem Sys2Proof.Laws.WellFormed.wstrm : ∀ a0 a1 a2, Sys2Proof.Laws.WellFormed.Statement (.wstrm a0 a1 a2) :=
  fun _ _ _ _ => ⟨rfl, rfl⟩
theorem Sys2Proof.Laws.WellFormed.ringTileEligible : ∀ a0 a1, Sys2Proof.Laws.WellFormed.Statement (.ringTileEligible a0 a1) :=
  fun _ _ h => absurd rfl h
theorem Sys2Proof.Laws.WellFormed.wflush : ∀ a0 a1, Sys2Proof.Laws.WellFormed.Statement (.wflush a0 a1) :=
  fun _ _ _ => ⟨rfl, rfl⟩
theorem Sys2Proof.Laws.WellFormed.vld : ∀ a0 a1 a2, Sys2Proof.Laws.WellFormed.Statement (.vld a0 a1 a2) :=
  fun _ _ _ _ => ⟨rfl, rfl⟩
theorem Sys2Proof.Laws.WellFormed.vst : ∀ a0 a1 a2, Sys2Proof.Laws.WellFormed.Statement (.vst a0 a1 a2) :=
  fun _ _ _ _ => ⟨rfl, rfl⟩
theorem Sys2Proof.Laws.WellFormed.vmxq : ∀ a0 a1 a2, Sys2Proof.Laws.WellFormed.Statement (.vmxq a0 a1 a2) :=
  fun _ _ _ _ => ⟨rfl, rfl⟩
theorem Sys2Proof.Laws.WellFormed.vadd : ∀ a0 a1 a2, Sys2Proof.Laws.WellFormed.Statement (.vadd a0 a1 a2) :=
  fun _ _ _ _ => ⟨rfl, rfl⟩
theorem Sys2Proof.Laws.WellFormed.vsub : ∀ a0 a1 a2, Sys2Proof.Laws.WellFormed.Statement (.vsub a0 a1 a2) :=
  fun _ _ _ _ => ⟨rfl, rfl⟩
theorem Sys2Proof.Laws.WellFormed.vmul : ∀ a0 a1 a2, Sys2Proof.Laws.WellFormed.Statement (.vmul a0 a1 a2) :=
  fun _ _ _ _ => ⟨rfl, rfl⟩
theorem Sys2Proof.Laws.WellFormed.vfma : ∀ a0 a1 a2, Sys2Proof.Laws.WellFormed.Statement (.vfma a0 a1 a2) :=
  fun _ _ _ _ => ⟨rfl, rfl⟩
theorem Sys2Proof.Laws.WellFormed.vmax : ∀ a0 a1 a2, Sys2Proof.Laws.WellFormed.Statement (.vmax a0 a1 a2) :=
  fun _ _ _ _ => ⟨rfl, rfl⟩
theorem Sys2Proof.Laws.WellFormed.vmin : ∀ a0 a1 a2, Sys2Proof.Laws.WellFormed.Statement (.vmin a0 a1 a2) :=
  fun _ _ _ _ => ⟨rfl, rfl⟩
theorem Sys2Proof.Laws.WellFormed.vbc : ∀ a0 a1 a2, Sys2Proof.Laws.WellFormed.Statement (.vbc a0 a1 a2) :=
  fun _ _ _ _ => ⟨rfl, rfl⟩
theorem Sys2Proof.Laws.WellFormed.vabs : ∀ a0 a1 a2, Sys2Proof.Laws.WellFormed.Statement (.vabs a0 a1 a2) :=
  fun _ _ _ _ => ⟨rfl, rfl⟩
theorem Sys2Proof.Laws.WellFormed.vneg : ∀ a0 a1 a2, Sys2Proof.Laws.WellFormed.Statement (.vneg a0 a1 a2) :=
  fun _ _ _ _ => ⟨rfl, rfl⟩
theorem Sys2Proof.Laws.WellFormed.vexp2 : ∀ a0 a1 a2, Sys2Proof.Laws.WellFormed.Statement (.vexp2 a0 a1 a2) :=
  fun _ _ _ _ => ⟨rfl, rfl⟩
theorem Sys2Proof.Laws.WellFormed.vrcp : ∀ a0 a1 a2, Sys2Proof.Laws.WellFormed.Statement (.vrcp a0 a1 a2) :=
  fun _ _ _ _ => ⟨rfl, rfl⟩
theorem Sys2Proof.Laws.WellFormed.vrsq : ∀ a0 a1 a2, Sys2Proof.Laws.WellFormed.Statement (.vrsq a0 a1 a2) :=
  fun _ _ _ _ => ⟨rfl, rfl⟩
theorem Sys2Proof.Laws.WellFormed.vsel : ∀ a0 a1 a2, Sys2Proof.Laws.WellFormed.Statement (.vsel a0 a1 a2) :=
  fun _ _ _ _ => ⟨rfl, rfl⟩
theorem Sys2Proof.Laws.WellFormed.vcmp : ∀ a0 a1 a2, Sys2Proof.Laws.WellFormed.Statement (.vcmp a0 a1 a2) :=
  fun _ _ _ _ => ⟨rfl, rfl⟩
theorem Sys2Proof.Laws.WellFormed.viadd : ∀ a0 a1 a2, Sys2Proof.Laws.WellFormed.Statement (.viadd a0 a1 a2) :=
  fun _ _ _ _ => ⟨rfl, rfl⟩
theorem Sys2Proof.Laws.WellFormed.viota : ∀ a0 a1 a2, Sys2Proof.Laws.WellFormed.Statement (.viota a0 a1 a2) :=
  fun _ _ _ _ => ⟨rfl, rfl⟩
theorem Sys2Proof.Laws.WellFormed.vf2i : ∀ a0 a1 a2, Sys2Proof.Laws.WellFormed.Statement (.vf2i a0 a1 a2) :=
  fun _ _ _ _ => ⟨rfl, rfl⟩
theorem Sys2Proof.Laws.WellFormed.vi2f : ∀ a0 a1 a2, Sys2Proof.Laws.WellFormed.Statement (.vi2f a0 a1 a2) :=
  fun _ _ _ _ => ⟨rfl, rfl⟩
theorem Sys2Proof.Laws.WellFormed.vrsum : ∀ a0 a1 a2, Sys2Proof.Laws.WellFormed.Statement (.vrsum a0 a1 a2) :=
  fun _ _ _ _ => ⟨rfl, rfl⟩
theorem Sys2Proof.Laws.WellFormed.vrmax : ∀ a0 a1 a2, Sys2Proof.Laws.WellFormed.Statement (.vrmax a0 a1 a2) :=
  fun _ _ _ _ => ⟨rfl, rfl⟩
theorem Sys2Proof.Laws.WellFormed.vperm : ∀ a0 a1 a2, Sys2Proof.Laws.WellFormed.Statement (.vperm a0 a1 a2) :=
  fun _ _ _ _ => ⟨rfl, rfl⟩
theorem Sys2Proof.Laws.WellFormed.vrope : ∀ a0 a1 a2, Sys2Proof.Laws.WellFormed.Statement (.vrope a0 a1 a2) :=
  fun _ _ _ _ => ⟨rfl, rfl⟩
theorem Sys2Proof.Laws.WellFormed.vsort : ∀ a0 a1 a2, Sys2Proof.Laws.WellFormed.Statement (.vsort a0 a1 a2) :=
  fun _ _ _ _ => ⟨rfl, rfl⟩
theorem Sys2Proof.Laws.WellFormed.vtkm : ∀ a0 a1 a2, Sys2Proof.Laws.WellFormed.Statement (.vtkm a0 a1 a2) :=
  fun _ _ _ _ => ⟨rfl, rfl⟩
theorem Sys2Proof.Laws.WellFormed.cstart : ∀ a0 a1, Sys2Proof.Laws.WellFormed.Statement (.cstart a0 a1) :=
  fun _ _ _ => ⟨rfl, rfl⟩
theorem Sys2Proof.Laws.WellFormed.cwait : ∀ a0 a1, Sys2Proof.Laws.WellFormed.Statement (.cwait a0 a1) :=
  fun _ _ _ => ⟨rfl, rfl⟩
theorem Sys2Proof.Laws.WellFormed.cwaitRelease : ∀ a0, Sys2Proof.Laws.WellFormed.Statement (.cwaitRelease a0) :=
  fun _ h => absurd rfl h
theorem Sys2Proof.Laws.WellFormed.cabort : ∀ a0 a1, Sys2Proof.Laws.WellFormed.Statement (.cabort a0 a1) :=
  fun _ _ _ => ⟨rfl, rfl⟩
theorem Sys2Proof.Laws.WellFormed.cresume : ∀ a0 a1, Sys2Proof.Laws.WellFormed.Statement (.cresume a0 a1) :=
  fun _ _ _ => ⟨rfl, rfl⟩
theorem Sys2Proof.Laws.WellFormed.ldg : ∀ a0 a1, Sys2Proof.Laws.WellFormed.Statement (.ldg a0 a1) :=
  fun _ _ _ => ⟨rfl, rfl⟩
theorem Sys2Proof.Laws.WellFormed.stg : ∀ a0 a1, Sys2Proof.Laws.WellFormed.Statement (.stg a0 a1) :=
  fun _ _ _ => ⟨rfl, rfl⟩
theorem Sys2Proof.Laws.WellFormed.tret : ∀ a0 a1, Sys2Proof.Laws.WellFormed.Statement (.tret a0 a1) :=
  fun _ _ _ => ⟨rfl, rfl⟩
theorem Sys2Proof.Laws.WellFormed.waitev : ∀ a0 a1, Sys2Proof.Laws.WellFormed.Statement (.waitev a0 a1) :=
  fun _ _ _ => ⟨rfl, rfl⟩
theorem Sys2Proof.Laws.WellFormed.waitevRelease : ∀ a0, Sys2Proof.Laws.WellFormed.Statement (.waitevRelease a0) :=
  fun _ h => absurd rfl h
theorem Sys2Proof.Laws.WellFormed.tccTrapEntry : ∀ a0, Sys2Proof.Laws.WellFormed.Statement (.tccTrapEntry a0) :=
  fun _ h => absurd rfl h
theorem Sys2Proof.Laws.WellFormed.coreSourceTrap : ∀ a0 a1, Sys2Proof.Laws.WellFormed.Statement (.coreSourceTrap a0 a1) :=
  fun _ _ h => absurd rfl h
theorem Sys2Proof.Laws.WellFormed.tfSet : ∀ a0 a1, Sys2Proof.Laws.WellFormed.Statement (.tfSet a0 a1) :=
  fun _ _ h => absurd rfl h
theorem Sys2Proof.Laws.WellFormed.tfClr : ∀ a0 a1, Sys2Proof.Laws.WellFormed.Statement (.tfClr a0 a1) :=
  fun _ _ h => absurd rfl h
theorem Sys2Proof.Laws.WellFormed.mfSet : ∀ a0, Sys2Proof.Laws.WellFormed.Statement (.mfSet a0) :=
  fun _ h => absurd rfl h
theorem Sys2Proof.Laws.WellFormed.mfClr : ∀ a0, Sys2Proof.Laws.WellFormed.Statement (.mfClr a0) :=
  fun _ h => absurd rfl h
theorem Sys2Proof.Laws.WellFormed.tbMembersWrite : ∀ a0 a1 a2 a3, Sys2Proof.Laws.WellFormed.Statement (.tbMembersWrite a0 a1 a2 a3) :=
  fun _ _ _ _ h => absurd rfl h
theorem Sys2Proof.Laws.WellFormed.mbMembersWrite : ∀ a0 a1, Sys2Proof.Laws.WellFormed.Statement (.mbMembersWrite a0 a1) :=
  fun _ _ h => absurd rfl h
theorem Sys2Proof.Laws.WellFormed.tbAbort : ∀ a0 a1, Sys2Proof.Laws.WellFormed.Statement (.tbAbort a0 a1) :=
  fun _ _ h => absurd rfl h
theorem Sys2Proof.Laws.WellFormed.mbAbort : ∀ a0, Sys2Proof.Laws.WellFormed.Statement (.mbAbort a0) :=
  fun _ h => absurd rfl h
theorem Sys2Proof.Laws.WellFormed.tccHaltWrite : ∀ a0 a1, Sys2Proof.Laws.WellFormed.Statement (.tccHaltWrite a0 a1) :=
  fun _ _ h => absurd rfl h
theorem Sys2Proof.Laws.WellFormed.tccRestart : ∀ a0, Sys2Proof.Laws.WellFormed.Statement (.tccRestart a0) :=
  fun _ h => absurd rfl h
theorem Sys2Proof.Laws.WellFormed.mcWringWrite : ∀ a0 a1 a2 a3, Sys2Proof.Laws.WellFormed.Statement (.mcWringWrite a0 a1 a2 a3) :=
  fun _ _ _ _ h => absurd rfl h
theorem Sys2Proof.Laws.WellFormed.loadPlan : ∀ a0 a1 a2 a3 a4 a5, Sys2Proof.Laws.WellFormed.Statement (.loadPlan a0 a1 a2 a3 a4 a5) :=
  fun _ _ _ _ _ _ h => absurd rfl h
theorem Sys2Proof.Laws.WellFormed.loadPlanDone : ∀ a0, Sys2Proof.Laws.WellFormed.Statement (.loadPlanDone a0) :=
  fun _ h => absurd rfl h
theorem Sys2Proof.Laws.WellFormed.unloadPlan : ∀ a0 a1 a2, Sys2Proof.Laws.WellFormed.Statement (.unloadPlan a0 a1 a2) :=
  fun _ _ _ h => absurd rfl h
theorem Sys2Proof.Laws.WellFormed.planCtl : ∀ a0 a1 a2 a3, Sys2Proof.Laws.WellFormed.Statement (.planCtl a0 a1 a2 a3) :=
  fun _ _ _ _ h => absurd rfl h
theorem Sys2Proof.Laws.WellFormed.planSignal : ∀ a0 a1 a2 a3, Sys2Proof.Laws.WellFormed.Statement (.planSignal a0 a1 a2 a3) :=
  fun _ _ _ _ h => absurd rfl h
theorem Sys2Proof.Laws.WellFormed.chainActivation : ∀ a0 a1, Sys2Proof.Laws.WellFormed.Statement (.chainActivation a0 a1) :=
  fun _ _ h => absurd rfl h
theorem Sys2Proof.Laws.WellFormed.reloadPlacementDone : ∀ a0, Sys2Proof.Laws.WellFormed.Statement (.reloadPlacementDone a0) :=
  fun _ h => absurd rfl h
theorem Sys2Proof.Laws.WellFormed.seqOpen : ∀ a0 a1 a2, Sys2Proof.Laws.WellFormed.Statement (.seqOpen a0 a1 a2) :=
  fun _ _ _ h => absurd rfl h
theorem Sys2Proof.Laws.WellFormed.seqSuspend : ∀ a0 a1 a2, Sys2Proof.Laws.WellFormed.Statement (.seqSuspend a0 a1 a2) :=
  fun _ _ _ h => absurd rfl h
theorem Sys2Proof.Laws.WellFormed.seqResume : ∀ a0 a1 a2, Sys2Proof.Laws.WellFormed.Statement (.seqResume a0 a1 a2) :=
  fun _ _ _ h => absurd rfl h
theorem Sys2Proof.Laws.WellFormed.seqEnd : ∀ a0 a1 a2, Sys2Proof.Laws.WellFormed.Statement (.seqEnd a0 a1 a2) :=
  fun _ _ _ h => absurd rfl h
theorem Sys2Proof.Laws.WellFormed.seqRelease : ∀ a0 a1 a2, Sys2Proof.Laws.WellFormed.Statement (.seqRelease a0 a1 a2) :=
  fun _ _ _ h => absurd rfl h
theorem Sys2Proof.Laws.WellFormed.dma : ∀ a0 a1 a2 a3 a4 a5, Sys2Proof.Laws.WellFormed.Statement (.dma a0 a1 a2 a3 a4 a5) :=
  fun _ _ _ _ _ _ h => absurd rfl h
theorem Sys2Proof.Laws.WellFormed.dmaDone : ∀ a0 a1, Sys2Proof.Laws.WellFormed.Statement (.dmaDone a0 a1) :=
  fun _ _ h => absurd rfl h
theorem Sys2Proof.Laws.WellFormed.chMapout : ∀ a0 a1 a2 a3, Sys2Proof.Laws.WellFormed.Statement (.chMapout a0 a1 a2 a3) :=
  fun _ _ _ _ h => absurd rfl h
theorem Sys2Proof.Laws.WellFormed.mapoutRemapDone : Sys2Proof.Laws.WellFormed.Statement (.mapoutRemapDone) :=
  fun h => absurd rfl h
theorem Sys2Proof.Laws.WellFormed.tileCycle : ∀ a0 a1 a2 a3, Sys2Proof.Laws.WellFormed.Statement (.tileCycle a0 a1 a2 a3) :=
  fun _ _ _ _ h => absurd rfl h
theorem Sys2Proof.Laws.WellFormed.tileRejoin : ∀ a0 a1 a2 a3, Sys2Proof.Laws.WellFormed.Statement (.tileRejoin a0 a1 a2 a3) :=
  fun _ _ _ _ h => absurd rfl h
theorem Sys2Proof.Laws.WellFormed.tileParked : ∀ a0, Sys2Proof.Laws.WellFormed.Statement (.tileParked a0) :=
  fun _ h => absurd rfl h
theorem Sys2Proof.Laws.WellFormed.tileReloadDone : ∀ a0 a1, Sys2Proof.Laws.WellFormed.Statement (.tileReloadDone a0 a1) :=
  fun _ _ h => absurd rfl h
theorem Sys2Proof.Laws.WellFormed.repairPass : ∀ a0 a1 a2, Sys2Proof.Laws.WellFormed.Statement (.repairPass a0 a1 a2) :=
  fun _ _ _ h => absurd rfl h
theorem Sys2Proof.Laws.WellFormed.saveTraining : ∀ a0 a1, Sys2Proof.Laws.WellFormed.Statement (.saveTraining a0 a1) :=
  fun _ _ h => absurd rfl h
theorem Sys2Proof.Laws.WellFormed.restart : ∀ a0 a1 a2, Sys2Proof.Laws.WellFormed.Statement (.restart a0 a1 a2) :=
  fun _ _ _ h => absurd rfl h
theorem Sys2Proof.Laws.WellFormed.cfgWrite : ∀ a0 a1 a2 a3 a4, Sys2Proof.Laws.WellFormed.Statement (.cfgWrite a0 a1 a2 a3 a4) :=
  fun _ _ _ _ _ h => absurd rfl h
theorem Sys2Proof.Laws.WellFormed.acceptTopology : ∀ a0 a1, Sys2Proof.Laws.WellFormed.Statement (.acceptTopology a0 a1) :=
  fun _ _ h => absurd rfl h
theorem Sys2Proof.Laws.WellFormed.nopCommand : ∀ a0 a1, Sys2Proof.Laws.WellFormed.Statement (.nopCommand a0 a1) :=
  fun _ _ h => absurd rfl h
theorem Sys2Proof.Laws.WellFormed.invalidOpcode : ∀ a0 a1 a2 a3, Sys2Proof.Laws.WellFormed.Statement (.invalidOpcode a0 a1 a2 a3) :=
  fun _ _ _ _ h => absurd rfl h
theorem Sys2Proof.Laws.WellFormed.sqTail : ∀ a0 a1 a2 a3, Sys2Proof.Laws.WellFormed.Statement (.sqTail a0 a1 a2 a3) :=
  fun _ _ _ _ h => absurd rfl h
theorem Sys2Proof.Laws.WellFormed.cqHead : ∀ a0 a1, Sys2Proof.Laws.WellFormed.Statement (.cqHead a0 a1) :=
  fun _ _ h => absurd rfl h
theorem Sys2Proof.Laws.WellFormed.cqRoomPost : ∀ a0, Sys2Proof.Laws.WellFormed.Statement (.cqRoomPost a0) :=
  fun _ h => absurd rfl h
theorem Sys2Proof.Laws.WellFormed.queuePairEnable : ∀ a0 a1, Sys2Proof.Laws.WellFormed.Statement (.queuePairEnable a0 a1) :=
  fun _ _ h => absurd rfl h
theorem Sys2Proof.Laws.WellFormed.irqCoalesceTimeout : ∀ a0, Sys2Proof.Laws.WellFormed.Statement (.irqCoalesceTimeout a0) :=
  fun _ h => absurd rfl h
theorem Sys2Proof.Laws.WellFormed.msixUnmask : ∀ a0 a1, Sys2Proof.Laws.WellFormed.Statement (.msixUnmask a0 a1) :=
  fun _ _ h => absurd rfl h
theorem Sys2Proof.Laws.WellFormed.spRunWrite : ∀ a0, Sys2Proof.Laws.WellFormed.Statement (.spRunWrite a0) :=
  fun _ h => absurd rfl h
theorem Sys2Proof.Laws.WellFormed.admissionCutoff : ∀ a0, Sys2Proof.Laws.WellFormed.Statement (.admissionCutoff a0) :=
  fun _ h => absurd rfl h
theorem Sys2Proof.Laws.WellFormed.periodStart : ∀ a0, Sys2Proof.Laws.WellFormed.Statement (.periodStart a0) :=
  fun _ h => absurd rfl h
theorem Sys2Proof.Laws.WellFormed.periodEnd : ∀ a0, Sys2Proof.Laws.WellFormed.Statement (.periodEnd a0) :=
  fun _ h => absurd rfl h
theorem Sys2Proof.Laws.WellFormed.stepGroupCommit : ∀ a0 a1 a2 a3, Sys2Proof.Laws.WellFormed.Statement (.stepGroupCommit a0 a1 a2 a3) :=
  fun _ _ _ _ h => absurd rfl h
theorem Sys2Proof.Laws.WellFormed.pieceReplay : ∀ a0 a1 a2 a3 a4, Sys2Proof.Laws.WellFormed.Statement (.pieceReplay a0 a1 a2 a3 a4) :=
  fun _ _ _ _ _ h => absurd rfl h
theorem Sys2Proof.Laws.WellFormed.groupRerun : ∀ a0, Sys2Proof.Laws.WellFormed.Statement (.groupRerun a0) :=
  fun _ h => absurd rfl h
theorem Sys2Proof.Laws.WellFormed.replayResolve : ∀ a0 a1 a2, Sys2Proof.Laws.WellFormed.Statement (.replayResolve a0 a1 a2) :=
  fun _ _ _ h => absurd rfl h
theorem Sys2Proof.Laws.WellFormed.tgWpost : ∀ a0 a1, Sys2Proof.Laws.WellFormed.Statement (.tgWpost a0 a1) :=
  fun _ _ h => absurd rfl h
theorem Sys2Proof.Laws.WellFormed.walk : ∀ a0, Sys2Proof.Laws.WellFormed.Statement (.walk a0) :=
  fun _ h => absurd rfl h
theorem Sys2Proof.Laws.WellFormed.walkDelivery : ∀ a0 a1, Sys2Proof.Laws.WellFormed.Statement (.walkDelivery a0 a1) :=
  fun _ _ h => absurd rfl h
theorem Sys2Proof.Laws.WellFormed.walkComplete : ∀ a0 a1, Sys2Proof.Laws.WellFormed.Statement (.walkComplete a0 a1) :=
  fun _ _ h => absurd rfl h
theorem Sys2Proof.Laws.WellFormed.nlPost : ∀ a0 a1 a2, Sys2Proof.Laws.WellFormed.Statement (.nlPost a0 a1 a2) :=
  fun _ _ _ h => absurd rfl h
theorem Sys2Proof.Laws.WellFormed.stream : ∀ a0 a1, Sys2Proof.Laws.WellFormed.Statement (.stream a0 a1) :=
  fun _ _ h => absurd rfl h
theorem Sys2Proof.Laws.WellFormed.rowGrant : ∀ a0 a1 a2, Sys2Proof.Laws.WellFormed.Statement (.rowGrant a0 a1 a2) :=
  fun _ _ _ h => absurd rfl h
theorem Sys2Proof.Laws.WellFormed.nbuFinal : ∀ a0 a1 a2, Sys2Proof.Laws.WellFormed.Statement (.nbuFinal a0 a1 a2) :=
  fun _ _ _ h => absurd rfl h
theorem Sys2Proof.Laws.WellFormed.nbuDescComplete : ∀ a0 a1, Sys2Proof.Laws.WellFormed.Statement (.nbuDescComplete a0 a1) :=
  fun _ _ h => absurd rfl h
theorem Sys2Proof.Laws.WellFormed.nbuRefreshPreempt : ∀ a0 a1 a2 a3, Sys2Proof.Laws.WellFormed.Statement (.nbuRefreshPreempt a0 a1 a2 a3) :=
  fun _ _ _ _ h => absurd rfl h
theorem Sys2Proof.Laws.WellFormed.tcSpost : ∀ a0 a1, Sys2Proof.Laws.WellFormed.Statement (.tcSpost a0 a1) :=
  fun _ _ h => absurd rfl h
theorem Sys2Proof.Laws.WellFormed.scan : ∀ a0, Sys2Proof.Laws.WellFormed.Statement (.scan a0) :=
  fun _ h => absurd rfl h
theorem Sys2Proof.Laws.WellFormed.sliceListWrite : ∀ a0 a1 a2, Sys2Proof.Laws.WellFormed.Statement (.sliceListWrite a0 a1 a2) :=
  fun _ _ _ h => absurd rfl h
theorem Sys2Proof.Laws.WellFormed.scanComplete : ∀ a0, Sys2Proof.Laws.WellFormed.Statement (.scanComplete a0) :=
  fun _ h => absurd rfl h
theorem Sys2Proof.Laws.WellFormed.tgMpost : ∀ a0 a1, Sys2Proof.Laws.WellFormed.Statement (.tgMpost a0 a1) :=
  fun _ _ h => absurd rfl h
theorem Sys2Proof.Laws.WellFormed.reduce : ∀ a0, Sys2Proof.Laws.WellFormed.Statement (.reduce a0) :=
  fun _ h => absurd rfl h
theorem Sys2Proof.Laws.WellFormed.reduceRetry : ∀ a0 a1 a2, Sys2Proof.Laws.WellFormed.Statement (.reduceRetry a0 a1 a2) :=
  fun _ _ _ h => absurd rfl h
theorem Sys2Proof.Laws.WellFormed.redTimeout : ∀ a0 a1 a2, Sys2Proof.Laws.WellFormed.Statement (.redTimeout a0 a1 a2) :=
  fun _ _ _ h => absurd rfl h
theorem Sys2Proof.Laws.WellFormed.atomic : ∀ a0, Sys2Proof.Laws.WellFormed.Statement (.atomic a0) :=
  fun _ h => absurd rfl h
theorem Sys2Proof.Laws.WellFormed.send : ∀ a0, Sys2Proof.Laws.WellFormed.Statement (.send a0) :=
  fun _ h => absurd rfl h
theorem Sys2Proof.Laws.WellFormed.sendCombine : ∀ a0, Sys2Proof.Laws.WellFormed.Statement (.sendCombine a0) :=
  fun _ h => absurd rfl h
theorem Sys2Proof.Laws.WellFormed.rflag : ∀ a0, Sys2Proof.Laws.WellFormed.Statement (.rflag a0) :=
  fun _ h => absurd rfl h
theorem Sys2Proof.Laws.WellFormed.fill : ∀ a0, Sys2Proof.Laws.WellFormed.Statement (.fill a0) :=
  fun _ h => absurd rfl h
theorem Sys2Proof.Laws.WellFormed.fillDone : ∀ a0, Sys2Proof.Laws.WellFormed.Statement (.fillDone a0) :=
  fun _ h => absurd rfl h
theorem Sys2Proof.Laws.WellFormed.bondedWholeWrite : ∀ a0 a1 a2 a3 a4 a5, Sys2Proof.Laws.WellFormed.Statement (.bondedWholeWrite a0 a1 a2 a3 a4 a5) :=
  fun _ _ _ _ _ _ h => absurd rfl h
theorem Sys2Proof.Laws.WellFormed.bondedNarrowWrite : ∀ a0 a1 a2 a3 a4 a5 a6, Sys2Proof.Laws.WellFormed.Statement (.bondedNarrowWrite a0 a1 a2 a3 a4 a5 a6) :=
  fun _ _ _ _ _ _ _ h => absurd rfl h
theorem Sys2Proof.Laws.WellFormed.mbTimeout : ∀ a0 a1 a2, Sys2Proof.Laws.WellFormed.Statement (.mbTimeout a0 a1 a2) :=
  fun _ _ _ h => absurd rfl h
theorem Sys2Proof.Laws.WellFormed.rmwDone : ∀ a0 a1 a2 a3, Sys2Proof.Laws.WellFormed.Statement (.rmwDone a0 a1 a2 a3) :=
  fun _ _ _ _ h => absurd rfl h
theorem Sys2Proof.Laws.WellFormed.bondedLineRead : ∀ a0 a1 a2 a3 a4 a5, Sys2Proof.Laws.WellFormed.Statement (.bondedLineRead a0 a1 a2 a3 a4 a5) :=
  fun _ _ _ _ _ _ h => absurd rfl h
theorem Sys2Proof.Laws.WellFormed.crcRereadReturn : ∀ a0 a1 a2 a3, Sys2Proof.Laws.WellFormed.Statement (.crcRereadReturn a0 a1 a2 a3) :=
  fun _ _ _ _ h => absurd rfl h
theorem Sys2Proof.Laws.WellFormed.goldenFetchDone : ∀ a0 a1 a2, Sys2Proof.Laws.WellFormed.Statement (.goldenFetchDone a0 a1 a2) :=
  fun _ _ _ h => absurd rfl h
theorem Sys2Proof.Laws.WellFormed.refreshDue : ∀ a0 a1 a2 a3 a4, Sys2Proof.Laws.WellFormed.Statement (.refreshDue a0 a1 a2 a3 a4) :=
  fun _ _ _ _ _ h => absurd rfl h
theorem Sys2Proof.Laws.WellFormed.refreshMiss : ∀ a0 a1 a2 a3, Sys2Proof.Laws.WellFormed.Statement (.refreshMiss a0 a1 a2 a3) :=
  fun _ _ _ _ h => absurd rfl h
theorem Sys2Proof.Laws.WellFormed.lpLineRead : ∀ a0 a1 a2 a3 a4, Sys2Proof.Laws.WellFormed.Statement (.lpLineRead a0 a1 a2 a3 a4) :=
  fun _ _ _ _ _ h => absurd rfl h
theorem Sys2Proof.Laws.WellFormed.lpWholeWrite : ∀ a0 a1 a2 a3 a4, Sys2Proof.Laws.WellFormed.Statement (.lpWholeWrite a0 a1 a2 a3 a4) :=
  fun _ _ _ _ _ h => absurd rfl h
theorem Sys2Proof.Laws.WellFormed.lpNarrowWrite : ∀ a0 a1 a2 a3 a4 a5, Sys2Proof.Laws.WellFormed.Statement (.lpNarrowWrite a0 a1 a2 a3 a4 a5) :=
  fun _ _ _ _ _ _ h => absurd rfl h
theorem Sys2Proof.Laws.WellFormed.gbTimeout : ∀ a0 a1 a2, Sys2Proof.Laws.WellFormed.Statement (.gbTimeout a0 a1 a2) :=
  fun _ _ _ h => absurd rfl h
theorem Sys2Proof.Laws.WellFormed.lpRefresh : ∀ a0 a1, Sys2Proof.Laws.WellFormed.Statement (.lpRefresh a0 a1) :=
  fun _ _ h => absurd rfl h
theorem Sys2Proof.Laws.WellFormed.mr4Read : ∀ a0 a1 a2 a3, Sys2Proof.Laws.WellFormed.Statement (.mr4Read a0 a1 a2 a3) :=
  fun _ _ _ _ h => absurd rfl h
theorem Sys2Proof.Laws.WellFormed.lpEffWindow : ∀ a0 a1, Sys2Proof.Laws.WellFormed.Statement (.lpEffWindow a0 a1) :=
  fun _ _ h => absurd rfl h
theorem Sys2Proof.Laws.WellFormed.lpMapout : ∀ a0 a1, Sys2Proof.Laws.WellFormed.Statement (.lpMapout a0 a1) :=
  fun _ _ h => absurd rfl h
theorem Sys2Proof.Laws.WellFormed.lpUncClear : ∀ a0 a1, Sys2Proof.Laws.WellFormed.Statement (.lpUncClear a0 a1) :=
  fun _ _ h => absurd rfl h
theorem Sys2Proof.Laws.WellFormed.sbRead : ∀ a0 a1 a2 a3 a4, Sys2Proof.Laws.WellFormed.Statement (.sbRead a0 a1 a2 a3 a4) :=
  fun _ _ _ _ _ h => absurd rfl h
theorem Sys2Proof.Laws.WellFormed.sbWrite : ∀ a0 a1 a2 a3 a4 a5, Sys2Proof.Laws.WellFormed.Statement (.sbWrite a0 a1 a2 a3 a4 a5) :=
  fun _ _ _ _ _ _ h => absurd rfl h
theorem Sys2Proof.Laws.WellFormed.flitParityReplay : ∀ a0 a1 a2 a3 a4, Sys2Proof.Laws.WellFormed.Statement (.flitParityReplay a0 a1 a2 a3 a4) :=
  fun _ _ _ _ _ h => absurd rfl h
theorem Sys2Proof.Laws.WellFormed.arbiterGrant : ∀ a0 a1, Sys2Proof.Laws.WellFormed.Statement (.arbiterGrant a0 a1) :=
  fun _ _ h => absurd rfl h
theorem Sys2Proof.Laws.WellFormed.halfIdleTimeout : ∀ a0 a1, Sys2Proof.Laws.WellFormed.Statement (.halfIdleTimeout a0 a1) :=
  fun _ _ h => absurd rfl h
theorem Sys2Proof.Laws.WellFormed.halfDown : ∀ a0 a1, Sys2Proof.Laws.WellFormed.Statement (.halfDown a0 a1) :=
  fun _ _ h => absurd rfl h
theorem Sys2Proof.Laws.WellFormed.halfWakeRequest : ∀ a0 a1 a2 a3, Sys2Proof.Laws.WellFormed.Statement (.halfWakeRequest a0 a1 a2 a3) :=
  fun _ _ _ _ h => absurd rfl h
theorem Sys2Proof.Laws.WellFormed.halfAwake : ∀ a0 a1, Sys2Proof.Laws.WellFormed.Statement (.halfAwake a0 a1) :=
  fun _ _ h => absurd rfl h
theorem Sys2Proof.Laws.WellFormed.gatedAccess : ∀ a0 a1 a2, Sys2Proof.Laws.WellFormed.Statement (.gatedAccess a0 a1 a2) :=
  fun _ _ _ h => absurd rfl h
theorem Sys2Proof.Laws.WellFormed.fbHalfCtlWrite : ∀ a0 a1, Sys2Proof.Laws.WellFormed.Statement (.fbHalfCtlWrite a0 a1) :=
  fun _ _ h => absurd rfl h
theorem Sys2Proof.Laws.WellFormed.bridgeModuleFail : ∀ a0 a1 a2, Sys2Proof.Laws.WellFormed.Statement (.bridgeModuleFail a0 a1 a2) :=
  fun _ _ _ h => absurd rfl h
theorem Sys2Proof.Laws.WellFormed.bar0Access : ∀ a0 a1 a2, Sys2Proof.Laws.WellFormed.Statement (.bar0Access a0 a1 a2) :=
  fun _ _ _ h => absurd rfl h
theorem Sys2Proof.Laws.WellFormed.bar2Atomicop : ∀ a0 a1 a2 a3 a4 a5, Sys2Proof.Laws.WellFormed.Statement (.bar2Atomicop a0 a1 a2 a3 a4 a5) :=
  fun _ _ _ _ _ _ h => absurd rfl h
theorem Sys2Proof.Laws.WellFormed.bar4Access : ∀ a0 a1 a2 a3 a4, Sys2Proof.Laws.WellFormed.Statement (.bar4Access a0 a1 a2 a3 a4) :=
  fun _ _ _ _ _ h => absurd rfl h
theorem Sys2Proof.Laws.WellFormed.cxlMemRead : ∀ a0, Sys2Proof.Laws.WellFormed.Statement (.cxlMemRead a0) :=
  fun _ h => absurd rfl h
theorem Sys2Proof.Laws.WellFormed.cxlMemWrite : ∀ a0 a1, Sys2Proof.Laws.WellFormed.Statement (.cxlMemWrite a0 a1) :=
  fun _ _ h => absurd rfl h
theorem Sys2Proof.Laws.WellFormed.backInvalidate : ∀ a0 a1 a2 a3, Sys2Proof.Laws.WellFormed.Statement (.backInvalidate a0 a1 a2 a3) :=
  fun _ _ _ _ h => absurd rfl h
theorem Sys2Proof.Laws.WellFormed.bisnpTimeout : ∀ a0, Sys2Proof.Laws.WellFormed.Statement (.bisnpTimeout a0) :=
  fun _ h => absurd rfl h
theorem Sys2Proof.Laws.WellFormed.perstN : ∀ a0, Sys2Proof.Laws.WellFormed.Statement (.perstN a0) :=
  fun _ h => absurd rfl h
theorem Sys2Proof.Laws.WellFormed.functionLevelReset : Sys2Proof.Laws.WellFormed.Statement (.functionLevelReset) :=
  fun h => absurd rfl h
theorem Sys2Proof.Laws.WellFormed.cxlReset : Sys2Proof.Laws.WellFormed.Statement (.cxlReset) :=
  fun h => absurd rfl h
theorem Sys2Proof.Laws.WellFormed.linkTrained : ∀ a0 a1 a2 a3, Sys2Proof.Laws.WellFormed.Statement (.linkTrained a0 a1 a2 a3) :=
  fun _ _ _ _ h => absurd rfl h
theorem Sys2Proof.Laws.WellFormed.portTrainingDone : ∀ a0 a1, Sys2Proof.Laws.WellFormed.Statement (.portTrainingDone a0 a1) :=
  fun _ _ h => absurd rfl h
theorem Sys2Proof.Laws.WellFormed.cpRetrain : ∀ a0, Sys2Proof.Laws.WellFormed.Statement (.cpRetrain a0) :=
  fun _ h => absurd rfl h
theorem Sys2Proof.Laws.WellFormed.frameReceive : ∀ a0 a1 a2, Sys2Proof.Laws.WellFormed.Statement (.frameReceive a0 a1 a2) :=
  fun _ _ _ h => absurd rfl h
theorem Sys2Proof.Laws.WellFormed.framePassThrough : ∀ a0, Sys2Proof.Laws.WellFormed.Statement (.framePassThrough a0) :=
  fun _ h => absurd rfl h
theorem Sys2Proof.Laws.WellFormed.ident : ∀ a0, Sys2Proof.Laws.WellFormed.Statement (.ident a0) :=
  fun _ h => absurd rfl h
theorem Sys2Proof.Laws.WellFormed.ack : ∀ a0, Sys2Proof.Laws.WellFormed.Statement (.ack a0) :=
  fun _ h => absurd rfl h
theorem Sys2Proof.Laws.WellFormed.nak : ∀ a0, Sys2Proof.Laws.WellFormed.Statement (.nak a0) :=
  fun _ h => absurd rfl h
theorem Sys2Proof.Laws.WellFormed.syncExchange : ∀ a0 a1, Sys2Proof.Laws.WellFormed.Statement (.syncExchange a0 a1) :=
  fun _ _ h => absurd rfl h
theorem Sys2Proof.Laws.WellFormed.syncReq : ∀ a0 a1 a2, Sys2Proof.Laws.WellFormed.Statement (.syncReq a0 a1 a2) :=
  fun _ _ _ h => absurd rfl h
theorem Sys2Proof.Laws.WellFormed.syncRsp : ∀ a0 a1, Sys2Proof.Laws.WellFormed.Statement (.syncRsp a0 a1) :=
  fun _ _ h => absurd rfl h
theorem Sys2Proof.Laws.WellFormed.act : ∀ a0, Sys2Proof.Laws.WellFormed.Statement (.act a0) :=
  fun _ h => absurd rfl h
theorem Sys2Proof.Laws.WellFormed.cmb : ∀ a0, Sys2Proof.Laws.WellFormed.Statement (.cmb a0) :=
  fun _ h => absurd rfl h
theorem Sys2Proof.Laws.WellFormed.flagFrame : ∀ a0, Sys2Proof.Laws.WellFormed.Statement (.flagFrame a0) :=
  fun _ h => absurd rfl h
theorem Sys2Proof.Laws.WellFormed.barArr : ∀ a0, Sys2Proof.Laws.WellFormed.Statement (.barArr a0) :=
  fun _ h => absurd rfl h
theorem Sys2Proof.Laws.WellFormed.barRel : ∀ a0, Sys2Proof.Laws.WellFormed.Statement (.barRel a0) :=
  fun _ h => absurd rfl h
theorem Sys2Proof.Laws.WellFormed.barAbt : ∀ a0, Sys2Proof.Laws.WellFormed.Statement (.barAbt a0) :=
  fun _ h => absurd rfl h
theorem Sys2Proof.Laws.WellFormed.admitFrame : ∀ a0, Sys2Proof.Laws.WellFormed.Statement (.admitFrame a0) :=
  fun _ h => absurd rfl h
theorem Sys2Proof.Laws.WellFormed.report : ∀ a0, Sys2Proof.Laws.WellFormed.Statement (.report a0) :=
  fun _ h => absurd rfl h
theorem Sys2Proof.Laws.WellFormed.commit : ∀ a0, Sys2Proof.Laws.WellFormed.Statement (.commit a0) :=
  fun _ h => absurd rfl h
theorem Sys2Proof.Laws.WellFormed.drop : ∀ a0, Sys2Proof.Laws.WellFormed.Statement (.drop a0) :=
  fun _ h => absurd rfl h
theorem Sys2Proof.Laws.WellFormed.chainLateTimeout : ∀ a0, Sys2Proof.Laws.WellFormed.Statement (.chainLateTimeout a0) :=
  fun _ h => absurd rfl h
theorem Sys2Proof.Laws.WellFormed.seqSync : ∀ a0, Sys2Proof.Laws.WellFormed.Statement (.seqSync a0) :=
  fun _ h => absurd rfl h
theorem Sys2Proof.Laws.WellFormed.seqAck : ∀ a0, Sys2Proof.Laws.WellFormed.Statement (.seqAck a0) :=
  fun _ h => absurd rfl h
theorem Sys2Proof.Laws.WellFormed.seqSyncTimeout : ∀ a0, Sys2Proof.Laws.WellFormed.Statement (.seqSyncTimeout a0) :=
  fun _ h => absurd rfl h
theorem Sys2Proof.Laws.WellFormed.rplReq : ∀ a0, Sys2Proof.Laws.WellFormed.Statement (.rplReq a0) :=
  fun _ h => absurd rfl h
theorem Sys2Proof.Laws.WellFormed.rplRes : ∀ a0, Sys2Proof.Laws.WellFormed.Statement (.rplRes a0) :=
  fun _ h => absurd rfl h
theorem Sys2Proof.Laws.WellFormed.cbCfgWrite : ∀ a0 a1, Sys2Proof.Laws.WellFormed.Statement (.cbCfgWrite a0 a1) :=
  fun _ _ h => absurd rfl h
theorem Sys2Proof.Laws.WellFormed.bellowsEvaluation : Sys2Proof.Laws.WellFormed.Statement (.bellowsEvaluation) :=
  fun h => absurd rfl h
theorem Sys2Proof.Laws.WellFormed.sleepEntryDone : Sys2Proof.Laws.WellFormed.Statement (.sleepEntryDone) :=
  fun h => absurd rfl h
theorem Sys2Proof.Laws.WellFormed.timedWake : Sys2Proof.Laws.WellFormed.Statement (.timedWake) :=
  fun h => absurd rfl h
theorem Sys2Proof.Laws.WellFormed.wake : ∀ a0, Sys2Proof.Laws.WellFormed.Statement (.wake a0) :=
  fun _ h => absurd rfl h
theorem Sys2Proof.Laws.WellFormed.wakeDone : Sys2Proof.Laws.WellFormed.Statement (.wakeDone) :=
  fun h => absurd rfl h
theorem Sys2Proof.Laws.WellFormed.pllLockTimeout : Sys2Proof.Laws.WellFormed.Statement (.pllLockTimeout) :=
  fun h => absurd rfl h
theorem Sys2Proof.Laws.WellFormed.pwrCmdWake : Sys2Proof.Laws.WellFormed.Statement (.pwrCmdWake) :=
  fun h => absurd rfl h
theorem Sys2Proof.Laws.WellFormed.budgetEpoch : ∀ a0, Sys2Proof.Laws.WellFormed.Statement (.budgetEpoch a0) :=
  fun _ h => absurd rfl h
theorem Sys2Proof.Laws.WellFormed.budgetReport : ∀ a0 a1, Sys2Proof.Laws.WellFormed.Statement (.budgetReport a0 a1) :=
  fun _ _ h => absurd rfl h
theorem Sys2Proof.Laws.WellFormed.budgetRequest : ∀ a0 a1, Sys2Proof.Laws.WellFormed.Statement (.budgetRequest a0 a1) :=
  fun _ _ h => absurd rfl h
theorem Sys2Proof.Laws.WellFormed.grant : ∀ a0 a1, Sys2Proof.Laws.WellFormed.Statement (.grant a0 a1) :=
  fun _ _ h => absurd rfl h
theorem Sys2Proof.Laws.WellFormed.grantLapse : ∀ a0, Sys2Proof.Laws.WellFormed.Statement (.grantLapse a0) :=
  fun _ h => absurd rfl h
theorem Sys2Proof.Laws.WellFormed.arrStepChange : ∀ a0, Sys2Proof.Laws.WellFormed.Statement (.arrStepChange a0) :=
  fun _ h => absurd rfl h
theorem Sys2Proof.Laws.WellFormed.blockPowerRequest : ∀ a0 a1, Sys2Proof.Laws.WellFormed.Statement (.blockPowerRequest a0 a1) :=
  fun _ _ h => absurd rfl h
theorem Sys2Proof.Laws.WellFormed.blockParked : ∀ a0, Sys2Proof.Laws.WellFormed.Statement (.blockParked a0) :=
  fun _ h => absurd rfl h
theorem Sys2Proof.Laws.WellFormed.refclkLoss : Sys2Proof.Laws.WellFormed.Statement (.refclkLoss) :=
  fun h => absurd rfl h
theorem Sys2Proof.Laws.WellFormed.refclkRestore : Sys2Proof.Laws.WellFormed.Statement (.refclkRestore) :=
  fun h => absurd rfl h
theorem Sys2Proof.Laws.WellFormed.refclkTick : Sys2Proof.Laws.WellFormed.Statement (.refclkTick) :=
  fun h => absurd rfl h
theorem Sys2Proof.Laws.WellFormed.trimMeasure : ∀ a0, Sys2Proof.Laws.WellFormed.Statement (.trimMeasure a0) :=
  fun _ h => absurd rfl h
theorem Sys2Proof.Laws.WellFormed.timeLoad : Sys2Proof.Laws.WellFormed.Statement (.timeLoad) :=
  fun h => absurd rfl h
theorem Sys2Proof.Laws.WellFormed.inputUvWarn : Sys2Proof.Laws.WellFormed.Statement (.inputUvWarn) :=
  fun h => absurd rfl h
theorem Sys2Proof.Laws.WellFormed.inputUv : Sys2Proof.Laws.WellFormed.Statement (.inputUv) :=
  fun h => absurd rfl h
theorem Sys2Proof.Laws.WellFormed.inputOvWarn : Sys2Proof.Laws.WellFormed.Statement (.inputOvWarn) :=
  fun h => absurd rfl h
theorem Sys2Proof.Laws.WellFormed.inputOv : Sys2Proof.Laws.WellFormed.Statement (.inputOv) :=
  fun h => absurd rfl h
theorem Sys2Proof.Laws.WellFormed.hearthPowerLoss : Sys2Proof.Laws.WellFormed.Statement (.hearthPowerLoss) :=
  fun h => absurd rfl h
theorem Sys2Proof.Laws.WellFormed.quenchEvaluation : ∀ a0 a1 a2 a3, Sys2Proof.Laws.WellFormed.Statement (.quenchEvaluation a0 a1 a2 a3) :=
  fun _ _ _ _ h => absurd rfl h
theorem Sys2Proof.Laws.WellFormed.floorExit : Sys2Proof.Laws.WellFormed.Statement (.floorExit) :=
  fun h => absurd rfl h
theorem Sys2Proof.Laws.WellFormed.thermalStopExit : Sys2Proof.Laws.WellFormed.Statement (.thermalStopExit) :=
  fun h => absurd rfl h
theorem Sys2Proof.Laws.WellFormed.hwTrip : ∀ a0 a1 a2 a3, Sys2Proof.Laws.WellFormed.Statement (.hwTrip a0 a1 a2 a3) :=
  fun _ _ _ _ h => absurd rfl h
theorem Sys2Proof.Laws.WellFormed.thermTripRelease : Sys2Proof.Laws.WellFormed.Statement (.thermTripRelease) :=
  fun h => absurd rfl h
theorem Sys2Proof.Laws.WellFormed.ttHsSel : ∀ a0 a1, Sys2Proof.Laws.WellFormed.Statement (.ttHsSel a0 a1) :=
  fun _ _ h => absurd rfl h
theorem Sys2Proof.Laws.WellFormed.ttSensClr : ∀ a0, Sys2Proof.Laws.WellFormed.Statement (.ttSensClr a0) :=
  fun _ h => absurd rfl h
theorem Sys2Proof.Laws.WellFormed.fltForce : ∀ a0 a1, Sys2Proof.Laws.WellFormed.Statement (.fltForce a0 a1) :=
  fun _ _ h => absurd rfl h
theorem Sys2Proof.Laws.WellFormed.fltStickyClear : ∀ a0 a1, Sys2Proof.Laws.WellFormed.Statement (.fltStickyClear a0 a1) :=
  fun _ _ h => absurd rfl h
theorem Sys2Proof.Laws.WellFormed.faultReport : ∀ a0 a1 a2, Sys2Proof.Laws.WellFormed.Statement (.faultReport a0 a1 a2) :=
  fun _ _ _ h => absurd rfl h
theorem Sys2Proof.Laws.WellFormed.vexondaneClear : ∀ a0 a1, Sys2Proof.Laws.WellFormed.Statement (.vexondaneClear a0 a1) :=
  fun _ _ h => absurd rfl h
theorem Sys2Proof.Laws.WellFormed.blockReset : ∀ a0, Sys2Proof.Laws.WellFormed.Statement (.blockReset a0) :=
  fun _ h => absurd rfl h
theorem Sys2Proof.Laws.WellFormed.blockResetDone : ∀ a0, Sys2Proof.Laws.WellFormed.Statement (.blockResetDone a0) :=
  fun _ h => absurd rfl h
theorem Sys2Proof.Laws.WellFormed.temperTest : ∀ a0 a1, Sys2Proof.Laws.WellFormed.Statement (.temperTest a0 a1) :=
  fun _ _ h => absurd rfl h
theorem Sys2Proof.Laws.WellFormed.temperTestDone : ∀ a0 a1, Sys2Proof.Laws.WellFormed.Statement (.temperTestDone a0 a1) :=
  fun _ _ h => absurd rfl h
theorem Sys2Proof.Laws.WellFormed.temperOverdue : ∀ a0 a1, Sys2Proof.Laws.WellFormed.Statement (.temperOverdue a0 a1) :=
  fun _ _ h => absurd rfl h
theorem Sys2Proof.Laws.WellFormed.temperAbandon : ∀ a0 a1, Sys2Proof.Laws.WellFormed.Statement (.temperAbandon a0 a1) :=
  fun _ _ h => absurd rfl h
theorem Sys2Proof.Laws.WellFormed.tmRunNow : ∀ a0, Sys2Proof.Laws.WellFormed.Statement (.tmRunNow a0) :=
  fun _ h => absurd rfl h
theorem Sys2Proof.Laws.WellFormed.tmSel : ∀ a0 a1, Sys2Proof.Laws.WellFormed.Statement (.tmSel a0 a1) :=
  fun _ _ h => absurd rfl h
theorem Sys2Proof.Laws.WellFormed.coldPowerOn : ∀ a0 a1 a2 a3 a4 a5, Sys2Proof.Laws.WellFormed.Statement (.coldPowerOn a0 a1 a2 a3 a4 a5) :=
  fun _ _ _ _ _ _ h => absurd rfl h
theorem Sys2Proof.Laws.WellFormed.warmRestart : ∀ a0, Sys2Proof.Laws.WellFormed.Statement (.warmRestart a0) :=
  fun _ h => absurd rfl h
theorem Sys2Proof.Laws.WellFormed.modRstN : ∀ a0, Sys2Proof.Laws.WellFormed.Statement (.modRstN a0) :=
  fun _ h => absurd rfl h
theorem Sys2Proof.Laws.WellFormed.pwrEnFall : Sys2Proof.Laws.WellFormed.Statement (.pwrEnFall) :=
  fun h => absurd rfl h
theorem Sys2Proof.Laws.WellFormed.pwrEnRise : ∀ a0, Sys2Proof.Laws.WellFormed.Statement (.pwrEnRise a0) :=
  fun _ h => absurd rfl h
theorem Sys2Proof.Laws.WellFormed.heldReevaluate : Sys2Proof.Laws.WellFormed.Statement (.heldReevaluate) :=
  fun h => absurd rfl h
theorem Sys2Proof.Laws.WellFormed.configImageWrite : ∀ a0 a1 a2, Sys2Proof.Laws.WellFormed.Statement (.configImageWrite a0 a1 a2) :=
  fun _ _ _ h => absurd rfl h
theorem Sys2Proof.Laws.WellFormed.tileFence : ∀ a0 a1, Sys2Proof.Laws.WellFormed.Statement (.tileFence a0 a1) :=
  fun _ _ h => absurd rfl h
theorem Sys2Proof.Laws.WellFormed.baseFence : ∀ a0 a1, Sys2Proof.Laws.WellFormed.Statement (.baseFence a0 a1) :=
  fun _ _ h => absurd rfl h
theorem Sys2Proof.Laws.WellFormed.spSeqSel : ∀ a0, Sys2Proof.Laws.WellFormed.Statement (.spSeqSel a0) :=
  fun _ h => absurd rfl h
theorem Sys2Proof.Laws.WellFormed.fsHrecSel : ∀ a0, Sys2Proof.Laws.WellFormed.Statement (.fsHrecSel a0) :=
  fun _ h => absurd rfl h
theorem Sys2Proof.Laws.WellFormed.fsRingTail : ∀ a0, Sys2Proof.Laws.WellFormed.Statement (.fsRingTail a0) :=
  fun _ h => absurd rfl h
theorem Sys2Proof.Laws.WellFormed.fsRingCfgWrite : ∀ a0 a1, Sys2Proof.Laws.WellFormed.Statement (.fsRingCfgWrite a0 a1) :=
  fun _ _ h => absurd rfl h
theorem Sys2Proof.Laws.WellFormed.toPortSel : ∀ a0, Sys2Proof.Laws.WellFormed.Statement (.toPortSel a0) :=
  fun _ h => absurd rfl h
theorem Sys2Proof.Laws.WellFormed.toRtSel : ∀ a0, Sys2Proof.Laws.WellFormed.Statement (.toRtSel a0) :=
  fun _ h => absurd rfl h
theorem Sys2Proof.Laws.WellFormed.tcStrikeSel : ∀ a0 a1, Sys2Proof.Laws.WellFormed.Statement (.tcStrikeSel a0 a1) :=
  fun _ _ h => absurd rfl h
theorem Sys2Proof.Laws.WellFormed.counterClear : ∀ a0, Sys2Proof.Laws.WellFormed.Statement (.counterClear a0) :=
  fun _ h => absurd rfl h
theorem Sys2Proof.Laws.WellFormed.guardedWrite : ∀ a0 a1 a2, Sys2Proof.Laws.WellFormed.Statement (.guardedWrite a0 a1 a2) :=
  fun _ _ _ h => absurd rfl h
theorem Sys2Proof.Laws.WellFormed.registerWrite : ∀ a0 a1 a2, Sys2Proof.Laws.WellFormed.Statement (.registerWrite a0 a1 a2) :=
  fun _ _ _ h => absurd rfl h
theorem Sys2Proof.Laws.WellFormed.chainPlugRemoved : ∀ a0, Sys2Proof.Laws.WellFormed.Statement (.chainPlugRemoved a0) :=
  fun _ h => absurd rfl h
theorem Sys2Proof.Laws.WellFormed.chainPlugInserted : ∀ a0, Sys2Proof.Laws.WellFormed.Statement (.chainPlugInserted a0) :=
  fun _ h => absurd rfl h
theorem Sys2Proof.Laws.WellFormed.perstNRelease : Sys2Proof.Laws.WellFormed.Statement (.perstNRelease) :=
  fun h => absurd rfl h
theorem Sys2Proof.Laws.WellFormed.modRstNRelease : ∀ a0, Sys2Proof.Laws.WellFormed.Statement (.modRstNRelease a0) :=
  fun _ h => absurd rfl h
theorem Sys2Proof.Laws.WellFormed.pwrEnLowHoldoffEnd : ∀ a0, Sys2Proof.Laws.WellFormed.Statement (.pwrEnLowHoldoffEnd a0) :=
  fun _ h => absurd rfl h
theorem Sys2Proof.Laws.WellFormed.ucieAdapterRetry : ∀ a0 a1, Sys2Proof.Laws.WellFormed.Statement (.ucieAdapterRetry a0 a1) :=
  fun _ _ h => absurd rfl h
theorem Sys2Proof.Laws.WellFormed.sidebandMessage : ∀ a0, Sys2Proof.Laws.WellFormed.Statement (.sidebandMessage a0) :=
  fun _ h => absurd rfl h
theorem Sys2Proof.Laws.WellFormed.pldmSensorUpdate : Sys2Proof.Laws.WellFormed.Statement (.pldmSensorUpdate) :=
  fun h => absurd rfl h
theorem Sys2Proof.Laws.WellFormed.inputWarningClear : ∀ a0, Sys2Proof.Laws.WellFormed.Statement (.inputWarningClear a0) :=
  fun _ h => absurd rfl h
theorem Sys2Proof.Laws.WellFormed.lpIdlePowerDown : ∀ a0 a1, Sys2Proof.Laws.WellFormed.Statement (.lpIdlePowerDown a0 a1) :=
  fun _ _ h => absurd rfl h
end

