-- ==== Sys2Proof/Tests/Slice0.lean ====
section
/-!
SUPPORT. Tests of the model: an ill-formed command for each check of WellFormed, instruction words from the spec's encodings,
single steps with results from the spec, and for each obligation states and operands that meet its hypotheses.
-/

namespace Sys2Proof.Tests

open Sys2Proof Sys2Proof.Machine

/-! Commands and records that the tests vary. -/

/-- A frame with nothing in it. -/
def frame0 : Frame := ⟨0, 0, 0, 0, 0, 0, 0, 0, 0, []⟩

/-- A topology that names all there is (R468). -/
def topo0 : Topology :=
  ⟨0, 15, 0xFFF, List.replicate 12 32, List.replicate 12 8, List.replicate 16 15, List.replicate 8 (0xFFFF, 0), 0, [], 0⟩

/-- A configuration image without repairs, training or settings (R461). -/
def image0 : ConfigImage := ⟨topo0, [], true, none, []⟩

/-- A bring-up in which everything trains (R465, R466). -/
def up0 : BringUp :=
  ⟨none, [], [], List.replicate 4 0xFF, List.replicate 64 0, List.replicate 8 0, List.replicate 8 none, [], [], 0⟩

/-- A module of revision 2 dies (R481). -/
def fuse0 : Fuse := ⟨0, 0, 1, List.replicate 4 2, List.replicate 12 2, [], []⟩

/-- A reading of hot spot 0 of a die. -/
def diode0 (die : Fin 16) (spot : Fin 34) : DiodeReading := ⟨die, spot, 0, 0⟩

/-- A segment record of segment i of n. -/
def seg0 (i n : BitVec 8) : ChainSeg := ⟨0, i, n, 0, 0, 0, 1, false, [], []⟩

/-- A reading at a budget epoch (R392, R394). -/
def epoch0 : EpochReading := ⟨List.replicate 52 0, List.replicate 16 0, 0, 0, 0, []⟩

/-- A read of an LPDDR5X line whose check word is right (R289). -/
def lpRead0 : LpRead := ⟨[], [], 0, false⟩

/-- A leaf requester that the module does not have. -/
def noLeaf : Leaf := .slice 0 32

/-! An ill-formed command for each check. -/

theorem test_illformed_cores : [Instr.barrierComplete true 0 8, .chainActivation 0 [seg0 1 1],
    .chainActivation 0 [{ seg0 0 1 with ports := 0 }], .chainActivation 0 [{ seg0 0 1 with ports := 9 }],
    .tileReloadDone 0 [3, 3], .tileReloadDone 0 [41], .tileReloadDone 0 [320]].all (fun i => !wellFormed i) = true := by
  decide

theorem test_illformed_dma (l : List Byte) (h : 2 ^ 64 ≤ l.length) : wellFormed (.dmaDone 0 l) = false :=
  decide_eq_false (Nat.not_lt.mpr h)

theorem test_illformed_periods : [Instr.admissionCutoff [2, 2], .periodStart [(0, []), (0, [])], .periodStart [(0, [seg0 2 2])],
    .periodEnd [(7, []), (7, [])], .periodEnd [(7, [(1, 0), (1, 5)])],
    .stepGroupCommit 0 0 [(1, 0), (1, 5)] [], .stepGroupCommit 0 0 [] [(7, []), (7, [])]].all
    (fun i => !wellFormed i) = true := by decide

theorem test_illformed_bonded : [Instr.bondedWholeWrite 0 0 0 (List.replicate 127 0) .host 0,
    .bondedWholeWrite 0 0 0 (List.replicate 128 0) noLeaf 0, .bondedNarrowWrite 0 0 0 0 [] .host 0,
    .bondedNarrowWrite 0 0 0 127 [1, 2] .host 0, .bondedNarrowWrite 0 0 0 0 (List.replicate 128 0) .host 0,
    .bondedNarrowWrite 0 0 0 0 [1] noLeaf 0, .bondedLineRead 0 0 0 .host 0 [5, 5], .bondedLineRead 0 0 0 noLeaf 0 [],
    .crcRereadReturn 0 0 0 [5, 5]].all (fun i => !wellFormed i) = true := by decide +kernel

theorem test_illformed_base_lines : [Instr.lpLineRead 0 0 noLeaf 0 lpRead0, .lpLineRead 0 0 .host 0 { lpRead0 with flips := [5, 5] },
    .lpLineRead 0 0 .host 0 { lpRead0 with again := [5, 5] }, .lpWholeWrite 0 0 [] .host 0,
    .lpWholeWrite 0 0 (List.replicate 128 0) noLeaf 0, .lpNarrowWrite 0 0 0 (List.replicate 128 0) .host 0,
    .lpNarrowWrite 0 0 0 [1] noLeaf 0, .sbRead 0 0 noLeaf 0 0, .sbWrite 0 0 [] .host 0 0,
    .sbWrite 0 0x3FFFFFF [1, 2] .host 0 0, .sbWrite 0 0 [1] noLeaf 0 0].all (fun i => !wellFormed i) = true := by decide +kernel

theorem test_illformed_leaves : [Leaf.part 12 0, .part 0 41, .slice 12 0, .slice 0 32, .tongs 12, .port 8].all
    (fun x => !wellFormed (.halfWakeRequest 0 0 x 0) && !wellFormed (.bridgeModuleFail 0 0 [(x, 0)]) &&
      !wellFormed (.arbiterGrant (.die 0 0) [⟨.leaf x, true⟩])) = true := by decide

theorem test_illformed_arbiters : [ArbOut.mesh 12 0 0, .mesh 0 2 0, .slice 12 0, .slice 0 32, .strip 12 0, .strip 0 3, .die 4 0,
    .ring 4 true].all (fun x => !wellFormed (.arbiterGrant x []) && !wellFormed (.arbiterGrant (.die 0 0) [⟨.out x, true⟩])) =
    true := by decide

theorem test_illformed_accesses : [Instr.bar0Access 0 0 none, .bar0Access 0 4 (some [1]), .bar4Access true none 0 0 none,
    .bar4Access true none 0 2 (some [1]), .cxlMemWrite 0 [], .backInvalidate 127 [1, 2] 0 true,
    .guardedWrite .host 2 0, .registerWrite .host 1 0].all (fun i => !wellFormed i) = true := by decide

theorem test_illformed_frames : wellFormed (.frameReceive 0 { frame0 with fl := 2 } none) = false ∧
    wellFormed (.frameReceive 0 { frame0 with payload := List.replicate 4097 0 } none) = false := by
  decide +kernel

theorem test_illformed_power : [Instr.budgetEpoch { epoch0 with domains := [] }, .budgetEpoch { epoch0 with req := [] },
    .budgetEpoch { epoch0 with cycles := [⟨3, 0x820, 1⟩, ⟨3, 0x820, 2⟩] },
    .quenchEvaluation [diode0 4 0, diode0 4 0] (0, 0) (0, 0) 0, .quenchEvaluation [diode0 0 3] (0, 0) (0, 0) 0,
    .hwTrip 3 3 true true, .temperTest 0 41, .temperOverdue 0 63, .temperAbandon 0 320].all (fun i => !wellFormed i) = true := by
  decide

theorem test_illformed_identity : [({ fuse0 with bases := [] }, none, none), ({ fuse0 with tiles := [2] }, none, none),
    ({ fuse0 with hidden := [(0, false, 3), (0, false, 3)] }, none, none), ({ fuse0 with spares := [⟨5, 0, [0, 0]⟩] }, none, none),
    ({ fuse0 with spares := [⟨4, 0, [0]⟩] }, none, none), (fuse0, some ⟨[], true, image0⟩, none),
    (fuse0, none, some ⟨List.replicate 128 0, true, { image0 with settings := [(2, 0)] }⟩)].all
    (fun x => !wellFormed (.coldPowerOn (some x) false true 0 up0 [])) = true := by decide +kernel

theorem test_illformed_test_clocks : wellFormed (.coldPowerOn none false true 0 up0 [(true, false)]) = false ∧
    wellFormed (.coldPowerOn none true false 0 up0 [(true, false)]) = false := by decide

theorem test_illformed_bring_up : [Instr.warmRestart { up0 with rates := [] }, .pwrEnRise { up0 with lanes := [] },
    .modRstNRelease { up0 with idents := [] }, .pwrEnLowHoldoffEnd { up0 with savedBad := [1, 1] },
    .warmRestart { up0 with bondsBad := [(0, 0), (0, 0)] }, .warmRestart { up0 with bridgeLanes := [] },
    .warmRestart { up0 with failed := [(0, 1), (0, 1)] }, .warmRestart { up0 with failed := [(0, 50)] },
    .warmRestart { up0 with diag := [(0, List.replicate 9 0)] }].all (fun i => !wellFormed i) = true := by decide

theorem test_illformed_image : ([{ image0 with topo := { topo0 with mcs := [] } }, { image0 with topo := { topo0 with vcs := [] } },
    { image0 with topo := { topo0 with chans := [] } }, { image0 with topo := { topo0 with chans := List.replicate 16 16 } },
    { image0 with topo := { topo0 with ports := [] } }, { image0 with topo := { topo0 with routes := List.replicate 65 (0, 0, 0) } },
    { image0 with training := some (true, [⟨0, 0, []⟩]) }, { image0 with settings := [(6, 0)] }] ++
    [((1 : BitVec 8), [0]), (2, [0]), (3, [0]), (4, [0]), (5, [0]), (6, [0]), (7, [])].map (fun (x : BitVec 8 × List Nat) =>
      { image0 with repair := [⟨x.1, 0, x.2⟩] })).all (fun i => !wellFormed (.configImageWrite i true true)) = true := by
  decide

theorem test_wellformed : [Instr.barrierComplete true 0 7, .chainActivation 0 [seg0 0 1], .tileReloadDone 0 [40, 64, 319],
    .periodStart [(0, [seg0 1 2]), (3, [])], .bondedNarrowWrite 0 0 0 126 [1, 2] (.slice 11 31) 0,
    .sbWrite 0 0x3FFFFFF [1] (.part 11 40) 0 0, .arbiterGrant (.mesh 11 1 0) [⟨.leaf (.port 7), false⟩, ⟨.out (.ring 3 false), true⟩],
    .bar0Access 2 2 (some [1, 2]), .backInvalidate 126 [1, 2] 0 true, .hwTrip 3 2 true true, .hwTrip 4 33 true true,
    .registerWrite .host 4 0, .warmRestart up0, .budgetEpoch epoch0,
    .coldPowerOn (some ({ fuse0 with spares := [⟨4, 0, [0, 0, 0]⟩] }, none, none)) true true 0 up0 [(true, false)],
    .configImageWrite { image0 with repair := [⟨1, 0, [3, 0]⟩, ⟨6, 0, [0, 0, 0, 0]⟩], settings := [(4, 0)] } true true].all
    wellFormed = true := by decide

/-! Instruction words. The words of WSTRM, MXA and MXR are those of the example after R106; the others follow R93. -/

theorem test_word_wstrm : decodeCoreWord 2 9 0x0000800000A40342 = some (.wstrm 2 9 ⟨3, 0xA4, 0, 0x8000⟩) := by decide

theorem test_word_mxa0 : decodeCoreWord 2 9 0x00000002000C8A40 =
    some (.mxa 2 9 ⟨false, true, 2, 2, true, true, false, 0x200, 0, 0, 0⟩) := by decide

theorem test_word_mxa1 : decodeCoreWord 2 9 0x00000002100C8840 =
    some (.mxa 2 9 ⟨false, false, 2, 2, true, true, false, 0x210, 0, 0, 0⟩) := by decide

theorem test_word_mxr : decodeCoreWord 2 9 0x0000000240000841 = some (.mxr 2 9 ⟨false, false, 2, 0x240, 0⟩) := by decide

/-- MXA with every field above the example's zeros: BANK, HOLD, AREG 5, WADDR 0x3FFF, WREG 9; reserved bits set (R95, R101). -/
theorem test_word_mxa_fields : decodeCoreWord 0 31 0xF9FFFD4000F00140 =
    some (.mxa 0 31 ⟨true, false, 0, 0, false, false, true, 0, 5, 0x3FFF, 9⟩) := by decide

/-- ADD G1 ← G2 + G3 + (−1), FLAGS 0xF, reserved bits set: opcode 0x0A, GD [11:8], GA [15:12], GB [19:16] (R93, R97). -/
theorem test_word_add : decodeCoreWord 11 40 0xFFFFFFFFFFF3210A = some (.add 11 40 ⟨1, 2, 3, 0xF, 0xFFFFFFFF⟩) := by decide

/-- VFMA Y31 ← Y1 × Y2 + Y3, MOD 4, GA 5, GB 6, IMM24 0x800007 (R93, R108). -/
theorem test_word_vfma : decodeCoreWord 0 39 0x8000076541883F6B = some (.vfma 0 7 ⟨31, 1, 2, 3, 4, 5, 6, 0x800007⟩) := by decide

/-- CWAIT G7 with the mask in G8 (R93, R115), of the TCC alone. -/
theorem test_word_cwait : decodeCoreWord 3 40 0x00000000000087C1 = some (.cwait 3 ⟨7, 8, 0, 0, 0⟩) ∧
    decodeCoreWord 3 39 0x00000000000087C1 = none := by decide

/-- Opcode 0x00, a reserved opcode, and an opcode of another kind of core are no instruction (R92, R95). -/
theorem test_word_illegal : [0x00, 0x06, 0x29, 0x3F, 0x44, 0x63, 0x83, 0xA0, 0xC8, 0xFF].all (fun w =>
    [0, 32, 40].all fun p => (decodeCoreWord 0 p w).isNone) = true ∧ decodeCoreWord 0 32 0x40 = none ∧
    decodeCoreWord 0 0 0x68 = none ∧ decodeCoreWord 0 31 0xC6 = none := by decide

/-! States for the statements' hypotheses: each theorem below shows states and operands that meet the hypotheses of the clauses
of one obligation, at a boundary where the clause has one. -/

/-- A state in which participant p of tile t runs, with the fields of k. -/
def runs (t p : Nat) (k : Core) : State :=
  setCore (setTcc .reset t { Tcc.reset with halted := false, fresh := false }) (coreId t p) { k with run := .running }

/-- A core with scalar registers. -/
def regs (g : KMap Word64) : Core := { Core.reset with g := g }

/-- An outstanding transfer. -/
def xfer0 (flag : Option Nat) : Xfer := ⟨true, true, 0x5800000, 0, 128, flag, false⟩

/-! One step each, with results written out from the rules. -/

/-- The state that a command answers with, read by a function. -/
def after {α : Type} (i : Instr) (s : State) (f : State → α) : Option α :=
  match exec i s with
  | .next u => some (f u)
  | _ => none

/-- Sums wrap (R97). -/
theorem test_add_wraps : after (.add 0 0 ⟨3, 1, 2, 0, 0⟩) (runs 0 0 (regs [(1, 0xFFFFFFFFFFFFFFFF), (2, 2)]))
    (fun u => (getG u 0 0 3, pcOf u 0 0)) = some (1, 8) := by decide +kernel

/-- A store puts its word with the low byte at the lowest address (R14, R97, R99). -/
theorem test_st_byte_order : after (.st 0 0 ⟨0, 1, 2, 0, 8⟩) (runs 0 0 (regs [(1, 0x100), (2, 0x0807060504030201)]))
    (fun u => u.mem.readBytes (tlaKey 0 (storeTla 0 + 0x108)) 8) = some [1, 2, 3, 4, 5, 6, 7, 8] := by decide +kernel

/-- An event whose condition does not hold changes nothing (log 4). -/
theorem test_idle_event : after (.periodEnd []) State.reset (· == State.reset) = some true := by decide +kernel

/-! The hypotheses of the statements. -/

/-- A module in a service state whose queue pair 63 is enabled (R335, R458). -/
def fetched (svc : Nat) : State := setPair' (pset .reset (modPage 5) 0x080 svc) 63 { QPair.reset with en := true }

/-- The submission entry that spells a command (R336, R337). -/
def entryOf (r : HostRow) : List Byte := record 64 ([(0, 1, r.opc), (2, 2, r.cid.toNat)] ++ r.fields)

/-- A state in which a command's entry is the oldest that its pair has fetched. -/
def entry (s : State) (i : Instr) : State :=
  match hostRow i with
  | some r => setPair' s r.pair { pairOf s r.pair with fetched := entryOf r :: (pairOf s r.pair).fetched }
  | none => s

/-- The conditions of canRun, as a check. -/
def runsNow (x : Instr × State) : Bool :=
  match hostRow x.1 with
  | some r =>
    let p := pairOf x.2 r.pair
    p.en && !p.stopped && (match p.fetched with
      | e :: _ => spells e r.opc r.cid r.fields
      | [] => false) &&
    decide (p.held = []) && !cqFull x.2 r.pair && decide (p.opens = []) && cmdServed (svcState x.2) r.cls
  | none => false

theorem hasCommand_of {s : State} {r : HostRow} (h : ((pairOf s r.pair).en && !(pairOf s r.pair).stopped &&
    match (pairOf s r.pair).fetched with
      | e :: _ => spells e r.opc r.cid r.fields
      | [] => false) = true) : hasCommand s r := by
  simp only [Bool.and_eq_true, Bool.not_eq_true'] at h
  refine ⟨h.1.1, h.1.2, ?_⟩
  cases e : (pairOf s r.pair).fetched with
  | nil => rw [e] at h; exact absurd h.2 Bool.false_ne_true
  | cons a l => rw [e] at h; exact ⟨a, l, rfl, h.2⟩

theorem canRun_all {l : List (Instr × State)} (h : l.all runsNow = true) : ∀ x ∈ l, canRun x.1 x.2 := by
  intro x hx
  have k := List.all_eq_true.1 h x hx
  unfold runsNow at k
  split at k
  · rename_i r e
    simp only [Bool.and_eq_true, Bool.not_eq_true', decide_eq_true_eq] at k
    obtain ⟨⟨⟨⟨⟨⟨a, b⟩, c⟩, d⟩, f⟩, g⟩, j⟩ := k
    exact ⟨r, e, hasCommand_of (by simp [a, b, c]), ⟨a, d, f⟩, g, j⟩
  · exact absurd k Bool.false_ne_true

/-- A plan slot in a state. -/
def slotIn (st : SlotState) : PlanSlot := { PlanSlot.reset with state := st, man := { Manifest.empty with seqMax := 2 } }

/-- A sequence in a state. -/
def seqIn (st : SeqState) : SeqRec := { SeqRec.reset with state := st }

/-- A chain record of segment i of two. -/
def chain0 (i : Nat) : ChainRec := ⟨i, 2, i, 0, 0, 0, 0, 0, 1, 0, 0⟩

/-- A SEQ_OPEN of slot 3 whose output ring lies in a shared buffer. -/
def open0 : SeqOpenArgs := ⟨3, 63, 0, 0, 0, 0x20000000000, 0, 0, 128, 0, 0⟩

/-- An MXA of two formats of group 2 whose operands stand at the start of the store. -/
def mxa0 (ring : Bool) : MxaOp :=
  ⟨false, true, 2, 2, false, ring, false, false, false, 0, 128, List.replicate 128 0, if ring then [] else List.replicate 128 0, 0⟩

theorem pathsGood_of {s : State}
    (h : s.store.badFlits = [] ∧ ∀ a < 4, ∀ ew : Bool, bitOf (pget s (bridgePage a ew) 0x080) 4 = false) : pathsGood s :=
  ⟨h.1, fun a ew k => h.2 a k ew⟩

theorem reaches_of {s : State} {x : Leaf} (h : pState s = 0 ∧ s.power.entering = none ∧ leafOk x = true ∧
    s.store.badFlits = [] ∧ ∀ a < 4, ∀ ew : Bool, bitOf (pget s (bridgePage a ew) 0x080) 4 = false) : reaches s x :=
  ⟨⟨h.1, h.2.1⟩, h.2.2.1, pathsGood_of h.2.2.2⟩

theorem up_module {s : State} {page m : Nat}
    (h : pState s = 0 ∧ s.power.entering = none ∧ pagePlace page = .module m) : upFor s page :=
  ⟨h.1, h.2.1, fun _ _ _ e => by rw [h.2.2] at e; cases e⟩

theorem up_tile {s : State} {page t i : Nat}
    (h : pState s = 0 ∧ s.power.entering = none ∧ pagePlace page = .tile t i ∧
      ∀ k ∈ pageHalf i, halfState s t k = 0 ∨ halfGated s t k = true) : upFor s page :=
  ⟨h.1, h.2.1, fun t' i' k e f => by rw [h.2.2.1] at e; cases e; exact h.2.2.2 k f⟩

/-- A little-endian word of n bytes. -/
def le (n v : Nat) : List Byte := leBytes n v

/-- A guarded command line (R439): 64 bytes and their complements. -/
def guardedLine (l : List Byte) : List Byte :=
  let h := l ++ List.replicate (64 - l.length) 0
  h ++ h.map (~~~·)

/-- A memory command (R299 to R304, R362, R363). -/
def mcmd0 (op fmt cidx ccount src dst len arg : Nat) : List Byte :=
  guardedLine (le 1 op ++ le 1 fmt ++ le 1 63 ++ le 1 1 ++ le 2 cidx ++ le 2 ccount ++ le 8 src ++ le 8 dst ++ le 8 len ++ le 8 arg)

/-- A walk of pages 0 to 1 into the store of matrix core 0 (R197). -/
def walk0 (last : Nat) : List Byte :=
  guardedLine (le 1 1 ++ le 1 0 ++ le 1 63 ++ le 1 1 ++ le 4 last ++ le 4 0 ++ le 4 1 ++ le 16 0 ++ le 4 0 ++ le 4 128 ++ le 4 0 ++
    le 4 256 ++ le 4 0)

/-- A group of a period that its tag names. -/
def group0 : StepGroup :=
  { newGroup 0 3 5 false [7] [0] [1] with tag := 5, outcome := 0, hwUnit := 0 }

/-- A group that has passed on a chain. -/
def group1 : StepGroup := { group0 with tag := 96, passed := true }

/-- A state in which Quench holds the halves of a tile, which go down. -/
def held (s : State) (t : Nat) : State :=
  (setHalf (setHalf s t 0 1) t 1 1).setQuench { Quench.reset with holding := true }

/-- A line of 128 bytes. -/
def line0 : List Byte := List.replicate 128 7

theorem witness_Step_runs_front : (State.reset.setPending [.refclkTick, .timeLoad]).pending = [.refclkTick, .timeLoad] ∧
    State.reset.pending = [] := ⟨rfl, rfl⟩

theorem witness_Scalar_results : canIssue (runs 0 0 .reset) 0 0 = true ∧ canIssue (runs 11 40 .reset) 11 40 = true ∧
    canIssue State.reset 0 0 = false := by decide +kernel

theorem witness_Own_store_access :
    let at' (a : Word64) := runs 0 0 (regs [(1, a)])
    let addr (s : State) (n : Nat) : Nat := (getG s 0 0 1 + (0#32).signExtend 64).toNat / n * n
    let s := at' 0x1FFFF8
    let u := at' 0x200000
    let w := at' 0x1FFFFC
    let held := setMc s 0 0 { MatrixCore.reset with heldW := [⟨0x1FFFFF, [1], true⟩] }
    let busy := setMc (at' 127) 0 0 { MatrixCore.reset with cur := some (mxa0 false) }
    let moved := runs 0 0 { regs [(1, 0x1FFFF8)] with xfers := [{ xfer0 none with toRemote := false, loc := 0x1FFF80 }] }
    canIssue s 0 0 = true ∧ canIssue u 0 0 = true ∧ canIssue w 0 0 = true ∧ storeQuiet s 0 0 ∧ storeQuiet w 0 0 ∧
    loadHeld s 0 0 (addr s 8) 8 = false ∧ loadHeld w 0 0 (addr w 4) 4 = false ∧ addr s 8 + 8 ≤ storeSize 0 ∧
    addr w 4 + 4 ≤ storeSize 0 ∧ storeSize 0 < addr u 4 + 4 ∧ storeSize 0 < addr u 8 + 8 ∧ canIssue held 0 0 = true ∧
    loadHeld held 0 0 (addr held 8) 8 = true ∧ lineFree s 0 0 (addr s 8) ∧ lineFree w 0 0 (addr w 4) ∧
    canIssue busy 0 0 = true ∧ ¬ lineFree busy 0 0 (addr busy 8) ∧ addr busy 8 + 8 ≤ storeSize 0 ∧ canIssue moved 0 0 = true ∧
    (tlaWriters (noteIssue moved 0 0 0x18 0) 0 (storeTla 0 + addr moved 8) 8).length = 1 ∧
    loadHeld moved 0 0 (addr moved 8) 8 = false := by
  unfold storeQuiet lineFree; decide +kernel

theorem witness_Branches : canIssue (runs 3 33 (regs [(1, 1)])) 3 33 = true ∧
    (⟨1, 0, 0, 0, 0⟩ : SFields).gd ≠ 0 ∧ (⟨0, 0, 0, 0, 0⟩ : SFields).gd = 0 := by decide +kernel

theorem witness_Program_ends :
    let s := runs 0 31 .reset
    let x := runs 0 31 { Core.reset with xfers := [xfer0 none] }
    let c := runs 0 40 .reset
    let t := setTcc c 0 { Tcc.reset with halted := false, fresh := false, inTrap := true }
    let e := runs 0 31 { Core.reset with pc := 0x200000 }
    let h := runs 0 40 { Core.reset with pc := 0x80000 }
    canIssue s 0 31 = true ∧ canIssue c 0 40 = true ∧ (tccOf c 0).inTrap = false ∧ (tccOf c 0).pend = [] ∧ canIssue t 0 40 = true ∧
    (tccOf t 0).inTrap = true ∧ settled s 0 31 = true ∧ canGo (.fence 0 31 ⟨0, 0, 0, 0, 0⟩) x 0 31 ∧ settled x 0 31 = false ∧
    decodeCoreWord 0 31 0 = none ∧ (coreOf e (coreId 0 31)).run = .running ∧ storeSize 31 ≤ (coreOf e (coreId 0 31)).pc ∧
    (coreOf h (coreId 0 40)).run = .running ∧ storeSize 40 ≤ (coreOf h (coreId 0 40)).pc ∧ (tccOf h 0).halted = false := by
  unfold canGo; decide +kernel

theorem witness_Transfers :
    let g : KMap Word64 := [(1, 0x1FFF80), (3, 128), (4, 256)]
    let three := runs 0 0 { regs g with xfers := List.replicate 3 (xfer0 none) }
    let four := runs 0 0 { regs g with xfers := List.replicate 4 (xfer0 none) }
    let flags := runs 0 0 { regs g with xfers := [xfer0 (some 255), xfer0 (some 0)] }
    let held := setMc flags 0 0 { MatrixCore.reset with heldW := [⟨0, [1], true⟩] }
    let one (x : Xfer) := runs 0 32 { Core.reset with xfers := [x] }
    let from' : Xfer := { xfer0 none with toRemote := false, loc := 0xFFF80 }
    let shared : Xfer := { xfer0 none with tla := false, remote := 0x2000FFFFF80 }
    let down (i : Nat) : Nat := (getG three 0 0 i).toNat / 128 * 128
    canIssue three 0 0 = true ∧ (coreOf three 0).xfers.length < 4 ∧ down 1 + down 3 ≤ storeSize 0 ∧
    storeSize 0 < down 1 + down 4 ∧ 4 ≤ (coreOf four 0).xfers.length ∧ canGo (.xfer 0 0 ⟨1, 2, 3, 0, 0⟩) four 0 0 ∧
    ((coreOf flags 0).xfers[1]?).map (·.flag.isSome) = some true ∧ ((coreOf flags 0).xfers[0]?).bind (·.flag) = some 255 ∧
    storeHeld held 0 0 = true ∧ storeHeld flags 0 0 = false ∧ xferStuck flags 0 0 (xfer0 (some 255)) = false ∧
    xferStuck (flags.setQuench { Quench.reset with holding := true }) 0 0 (xfer0 (some 255)) = true ∧
    (coreOf (one (xfer0 none)) 32).xfers[0]? = some (xfer0 none) ∧ (xfer0 none).remote % 128 = 0 ∧
    (xfer0 none).remote + 128 ≤ 0x5880000 ∧ tlaStore (xfer0 none).remote = some 40 ∧ tileUp (one (xfer0 none)) 0 = true ∧
    (one (xfer0 none)).quench.holding = false ∧ firstRun (partReq (one from') 0 32).tag ∧
    (coreOf (one from') 32).xfers[0]? = some from' ∧ from'.loc + 128 ≤ storeSize 32 ∧
    daKind shared.remote = .shared 3 0x3FFFF80 ∧ baseUp (one shared) 3 = true ∧ (one shared).store.held = [] := by
  unfold canGo firstRun; decide +kernel

theorem witness_Transfers_paths : pathsGood (runs 0 32 { Core.reset with xfers := [xfer0 none] }) :=
  pathsGood_of (by decide +kernel)

theorem witness_Flags_and_barrier_instructions :
    let wait (r : Option Nat) := (runs 0 5 .reset).setCores [(5, { Core.reset with run := .waiting, wait := some (.flag true 63 true) })]
      |>.setSync { Sync.reset with waiters := [⟨5, true, false, 63, true, r, false⟩] }
    let bar (b : BarGroup) := setBar (runs 0 5 .reset) false 0 15 b
    let x := runs 0 5 { Core.reset with xfers := [xfer0 none] }
    let f : SFields := ⟨0, 0, 0, 0, 15⟩
    canIssue (runs 0 5 .reset) 0 5 = true ∧ settled (runs 0 5 .reset) 0 5 = true ∧ (63#32).toNat % 256 < 64 ∧
    ¬ (64#32).toNat % 256 < 64 ∧ settled x 0 5 = false ∧ (∀ i ∈ [Instr.fset 0 5 f, .fclr 0 5 f, .bara 0 5 f, .bar 0 5 f],
      canGo i x 0 5) ∧ ((wait none).sync.waiters.map fun y => y.awaits true 0 63 true) = [true] ∧
    (coreOf (wait none) 5).run = .waiting ∧ (coreOf (wait none) 5).wait = some (.flag true 63 true) ∧
    (waiterOf (wait none) 5).map (·.ready) = some none ∧ (waiterOf (wait (some 0)) 5).map (·.ready) = some (some 0) ∧
    served (wakeFor .reset 1) (tilePage 11 0) = true ∧ served (wakeFor .reset 1) (basePage 0 0) = true ∧
    served (wakeFor (State.reset.setStore { Storage.reset with baseFenced := [3] }) 1) (tilePage 11 0) = false ∧
    barTarget (bar { BarGroup.reset with members := 32 }) 0 5 f = some (15, some 5) ∧
    canIssue (bar { BarGroup.reset with members := 32 }) 0 5 = true ∧
    kfind (barOf (bar { BarGroup.reset with members := 32, owed := [(5, 1)] }) false 0 15).owed 5 = some 1 ∧
    kfind (barOf (bar { BarGroup.reset with members := 32 }) false 0 15).owed 5 = none ∧
    barTarget (bar { BarGroup.reset with members := 64 }) 0 5 f = some (15, none) ∧
    barTarget .reset 0 5 ⟨0, 0, 0, 1, 8⟩ = none := by
  unfold canGo; decide +kernel

theorem witness_Barrier_generations :
    let full := setBar .reset false 0 0 { BarGroup.reset with members := 3, arrived := 3, held := 1 }
    let part := setBar .reset true 0 7 { BarGroup.reset with members := 3, arrived := 1 }
    let wait := setCore (full.setSync { full.sync with waiters := [⟨1, false, true, 0, false, none, false⟩] }) 1
      { Core.reset with run := .waiting, wait := some (.barrier false 0 0) }
    (7 : Fin 16).val < 8 ∧ boundTo part 7 = none ∧ boundTo (wakeFor part 1) 7 = none ∧ allArrived (barOf full false 0 0) = true ∧
    allArrived (barOf part true 0 7) = false ∧ served (wakeFor full 1) (tilePage 0 0) = true ∧
    served (wakeFor part 1) (basePage 0 0) = true ∧
    (wait.sync.waiters.map fun x => (x.waitsFor false 0 0 false, x.saved, (coreOf wait x.core).run, (coreOf wait x.core).wait.isSome)) =
      [(true, false, .waiting, true)] := by decide +kernel


theorem witness_Matrix_issue :
    let s := runs 0 0 .reset
    let r := pset s (mcPage 0 0) 0x090 0x14000
    let t (n : Nat) : RingTile := ⟨[], n, false, 0⟩
    let q (n : Nat) := setMc r 0 0 { MatrixCore.reset with waiting := some (mxa0 true), ring := [t n] }
    let f : MxaFields := ⟨false, true, 2, 2, false, false, false, 0, 0, 0, 0⟩
    canIssue s 0 0 = true ∧ (mcOf s 0 0).cur = none ∧ (mcOf s 0 0).waiting = none ∧ storeQuiet s 0 0 ∧
    (fmtGroup 2).isSome = true ∧ mxaFeatures s 0 0 f = true ∧
    opAddr s 0 0 0 0 + actBytes 2 (mxaK 2 false) ≤ storeSize 0 ∧ opAddr s 0 0 0 0 + (tileShape 2 false).total ≤ storeSize 0 ∧
    ringBytes r 0 0 ≠ 0 ∧ canIssue r 0 0 = true ∧ storeQuiet r 0 0 ∧ (mcOf r 0 0).ring = [] ∧
    ¬ opAddr s 0 0 0 0x3FFF + actBytes 2 (mxaK 2 false) ≤ storeSize 0 ∧ fmtGroup 15 = none ∧ ringBytes s 0 0 = 0 ∧
    (ptAwake (q 1) 0 0 = true ∧ ptAwake (held (q 1) 0) 0 0 = false) ∧ (mcOf (q 1) 0 0).waiting = some (mxa0 true) ∧ canGo (.mxa 0 0 f) (q 1) 0 0 ∧
    (t ((tileShape 2 false).total / 128)).units * 128 = (tileShape 2 false).total ∧ (mcOf (q 130) 0 0).ring = [t 130] ∧
    (t 1).units * 128 ≠ (tileShape 2 false).total := by
  unfold storeQuiet canGo; decide +kernel

theorem witness_Matrix_results :
    let o (ill ring hold : Bool) : MxaOp := { mxa0 ring with bank := true, illegal := ill, hold := hold }
    let w : HeldWrite := ⟨127, [1, 2], false⟩
    let s (o : MxaOp) (l : List HeldWrite) := setMc (runs 11 31 .reset) 11 31 { MatrixCore.reset with cur := some o, heldW := l }
    let r := runs 11 31 .reset
    let p := setMc r 11 31 { MatrixCore.reset with bankA := { Bank.empty with poison := true } }
    (mcOf (s (o false true false) []) 11 31).cur = some (o false true false) ∧ (mcOf (s (o true false true) []) 11 31).mxrs = [] ∧
    (mcOf (s (o true false true) []) 11 31).heldW = [] ∧ (mcOf (s (o true false true) [w]) 11 31).heldW = [w] ∧
    (ptAwake (s (o false true false) []) 11 31 = true ∧ ptAwake (held (s (o false true false) []) 11) 11 31 = false) ∧
    (o true false true).illegal = true ∧ (mcOf r 11 31).cur = none ∧ canIssue r 11 31 = true ∧ (mcOf r 11 31).waiting = none ∧
    (mcOf r 11 31).mxrs = [] ∧ canIssue p 11 31 = true ∧ ((mcOf p 11 31).bankOf false).poison = true ∧
    opAddr r 11 31 0 0x3E00 + mxrBytes (mxrCode ((mcOf r 11 31).bankOf false) 2) ≤ storeSize 31 ∧
    storeSize 31 < opAddr r 11 31 0 0x3FFF + mxrBytes (mxrCode ((mcOf r 11 31).bankOf false) 2) ∧
    canIssue (s (o false true true) []) 11 31 = true ∧ opAddr r 11 31 0 0x3F80 + 16384 ≤ storeSize 31 := by decide +kernel

theorem witness_Weight_ring :
    let d : StreamDesc := ⟨0, 511, 2, 1, 0⟩
    let s := runs 0 0 .reset
    let m := setMc (pset s (mcPage 0 0) 0x090 0x14000) 0 0 { MatrixCore.reset with descs := [d] }
    let n := setMc (pset s (mcPage 0 0) 0x090 0x14000) 0 0 { MatrixCore.reset with descs := [d], ring := [⟨[], 130, false, 0⟩] }
    let w := setMc s 0 0 { MatrixCore.reset with cur := some (mxa0 true) }
    let full := setMc s 0 0 { MatrixCore.reset with descs := List.replicate 8 d }
    let f : WstrmFields := ⟨0, 1, 0, 0xBFFFFF⟩
    8 ≤ (mcOf full 0 0).descs.length ∧ canGo (.wstrm 0 0 f) full 0 0 ∧ canIssue s 0 0 = true ∧
    (mcOf s 0 0).descs.length < 8 ∧ f.tsize.toNat ≠ 0 ∧
    (getG s 0 0 0).toNat / 128 + f.soff.toNat + (f.count.toNat + 1) * f.tsize.toNat ≤ sliceBytes / 128 ∧
    ¬ (getG s 0 0 0).toNat / 128 + f.soff.toNat + (f.count.toNat + 1) * 2 ≤ sliceBytes / 128 ∧
    m.quench.holding = false ∧ (mcOf m 0 0).descs = [d] ∧ 511 ≤ ringBytes m 0 0 / 128 ∧ ringBytes n 0 0 / 128 < 130 + d.tsize ∧
    (mcOf w 0 0).cur = some (mxa0 true) ∧ canGo (.wflush 0 0) w 0 0 ∧ (mcOf s 0 0).cur = none ∧
    (mcOf s 0 0).waiting = none ∧ (mcOf s 0 0).ring = [] ∧ served (reach s (mcPage 0 0)) (mcPage 0 0) = true ∧
    served (reach w (mcPage 0 0)) (mcPage 0 0) = true := by
  unfold canGo; decide +kernel

theorem witness_Lane_operations : canIssue (runs 0 39 .reset) 0 (32 + 7) = true ∧ blkCap (runs 0 39 .reset) (ptPage 0 39) 0 = true ∧
    blkCap (runs 0 39 .reset) (ptPage 0 39) 1 = true ∧ (30#5).toNat % 2 = 0 ∧ ¬ (31#5).toNat % 2 = 0 ∧
    [((0x80000000 : Word32), 3), (0, 3)].Perm [(0, 3), (0x80000000, 3)] := by decide +kernel

theorem witness_Vector_memory :
    let s := runs 0 32 (regs [(1, 0xFFF80), (2, 2), (3, 0xFFFFE), (4, 0xFFFFF)])
    canIssue s 0 (32 + 0) = true ∧ storeQuiet s 0 32 ∧ blkCap s (ptPage 0 32) 2 = true ∧
    (fmtMx 5 = true ∧ (0xFFF80 : Nat) + 8 * fmtWidth 5 ≤ storeSize 32 ∧ (getG s 0 32 3).toNat + 2 ≤ storeSize 32) ∧
    (0xFFF80 : Nat) + 8 * fmtWidth 5 ≤ (getG s 0 32 3).toNat ∧ storeSize 32 < (getG s 0 32 4).toNat + 2 ∧
    (fmtMx 0 = false ∧ (getG s 0 32 1).toNat + 8 * fmtWidth 0 ≤ storeSize 32) ∧
    (fmtWidth 0 ≠ 4 ∧ (getG s 0 32 2).toNat ≠ 0 ∧
      ∀ i < 64, ((getG s 0 32 1).toNat + i * 2) % 2 ^ 64 + fmtWidth 0 / 8 ≤ storeSize 32) ∧
    (∃ i < 64, storeSize 32 < ((getG s 0 32 4).toNat + i * 2) % 2 ^ 64 + fmtWidth 0 / 8) ∧
    storeSize 32 < (getG s 0 32 4).toNat + 8 * fmtWidth 0 := by
  unfold storeQuiet; decide +kernel


theorem witness_Host_commands :
    let s := fetched 2
    let full := s.setHost { s.host with dmas := List.replicate 8 ⟨0, 0, true, 0, 0, 0⟩ }
    let i : Instr := .loadPlan 63 1 0 0 0 0
    let r : HostRow := ⟨63, 1, 0x01, [(0x08, 8, 0), (0x10, 8, 0), (0x18, 1, 0), (0x19, 1, 0)], .load⟩
    let cmds : List Instr := [.nopCommand 63 1, .invalidOpcode 63 1 5 0, .invalidOpcode 63 1 0x30 9, .planCtl 63 1 3 0,
      .planSignal 63 1 3 0, .saveTraining 63 1, .acceptTopology 63 1, .repairPass 63 1 0, .restart 63 1 0,
      .cfgWrite 63 1 2 0x10000000000 0]
    let b := entry (fetched 1) i
    (∀ x ∈ cmds.map fun i => (i, entry s i), canRun x.1 x.2) ∧
    (∀ x ∈ [(Instr.acceptTopology 63 1, entry (fetched 1) (.acceptTopology 63 1))], canRun x.1 x.2) ∧
    hasCommand b r ∧ ¬ hasCommand .reset r ∧ hostRow i = some r ∧ takesEntry b 63 ∧ (pairOf b 63).opens = [] ∧
    cmdServed (svcState b) .load = false ∧ s.host.dmas.length < 8 ∧ 8 ≤ full.host.dmas.length ∧ opcKnown 0x3F = true ∧ opcKnown 5 = false ∧ (planOf s 3).state = .empty ∧
    (planOf (setPlan s 3 (slotIn .loaded)) 3).state ≠ .empty ∧ slotRuns (setPlan s 3 (slotIn .degraded)) 3 = true ∧
    svcState (fetched 1) = 1 ∧ fld (pget (fetched (1 + 6 * 2 ^ 8)) (modPage 5) 0x080) 15 8 = 6 ∧
    residentSlots (setPlan s 3 (slotIn .failed)) ≠ [] ∧ residentSlots s = [] ∧
    inLpddr s 0x10000000000 0x1800000 = true ∧ inLpddr s 0x20000000000 1 = false := by
  refine ⟨canRun_all (by decide +kernel), canRun_all (by decide +kernel), hasCommand_of (by decide +kernel),
    fun h => absurd h.1 (by decide +kernel), ?_⟩
  unfold takesEntry; decide +kernel

theorem witness_Sequence_commands :
    let s := setSeq (setPlan (fetched 2) 3 (slotIn .active)) 4095 { seqIn .stalled with slot := 3 }
    let c := setPlan s 3 { slotIn .active with chain := some (chain0 1) }
    let cmds : List Instr := [.seqSuspend 63 1 4095, .seqResume 63 1 4095, .seqEnd 63 1 4095, .seqRelease 63 1 4095, .seqOpen 63 1 open0]
    (∀ x ∈ cmds.flatMap fun i => [(i, entry s i), (i, entry c i)], canRun x.1 x.2) ∧
    (seqOf c 4095).state ≠ .free ∧ (seqOf c 4095).orphan = false ∧ notHead c 3 = true ∧
    notHead s 3 = false ∧ segNodes s 3 = [] ∧ seqMove (projected s 4095) .release = none ∧
    seqMove (projected s 4095) .suspend ≠ none ∧ seqMove (projected s 4095) .resume ≠ none ∧
    seqMove (projected s 4095) .finish ≠ none ∧ seqMove (projected (setSeq s 0 (seqIn .ended)) 0) .release ≠ none ∧
    seqMove (projected (setSeq s 0 (seqIn .active)) 0) .suspend = none ∧
    openOperand open0 = none ∧ openOperand { open0 with cq := 64 } = some 10 ∧ (planOf s 3).chain = none ∧
    (planOf s 3).man.kvPage = 0 ∧ slotRuns (fetched 2) 3 = false ∧ slotRuns s 3 = true ∧ seqCount s 3 < (planOf s 3).man.seqMax ∧
    (planOf s 3).man.seqMax ≤ seqCount (setSeq s 7 { seqIn .ready with slot := 3 }) 3 ∧
    lowestFree s 0 = some 0 := by
  refine ⟨canRun_all (by decide +kernel), ?_⟩
  decide +kernel

/-- A table with every entry in use (R169). -/
def usedTable : KMap SeqRec := (List.range' 0 4096).map fun i => (i, seqIn .ready)

theorem kfind_range_all (v : SeqRec) (a n i : Nat) (h : a ≤ i) (h' : i < a + n) :
    kfind ((List.range' a n).map fun j => (j, v)) i = some v := by
  induction n generalizing a with
  | zero => omega
  | succ n ih =>
    rw [List.range'_succ, List.map_cons, kfind]
    split
    · rfl
    · exact ih (a + 1) (by omega) (by omega)

theorem witness_Sequence_commands_full :
    let s := setPlan (fetched 2) 3 { slotIn .active with man := { Manifest.empty with seqMax := 1 } }
    (∀ x ∈ [(Instr.seqOpen 63 1 open0, entry s (.seqOpen 63 1 open0))], canRun x.1 x.2) ∧ slotRuns s 3 = true ∧
    seqCount s 3 < (planOf s 3).man.seqMax ∧ lowestFree (State.reset.setSeqs usedTable) 0 = none := by
  refine ⟨canRun_all (by decide +kernel), by decide +kernel, by decide +kernel, ?_⟩
  rw [lowestFree, Option.map_eq_none_iff, List.find?_eq_none]
  intro x hx
  have h : kfind usedTable x = some (seqIn .ready) :=
    kfind_range_all _ 0 4096 _ (by omega) (by have := List.mem_range.1 hx; omega)
  have e : seqOf (State.reset.setSeqs usedTable) x = seqIn .ready := by
    show kget _ usedTable x = _
    rw [kget, h]; rfl
  rw [Nat.zero_add, indexFree, e]
  exact Bool.false_ne_true

theorem witness_Tile_commands_and_fences :
    let s := fetched 2
    let at' (c : Nat) := setSvc s 11 c
    let q := setUnit (at' 6) 11 40 { UnitRec.reset with quarantined := true }
    let cyc := (at' 2).setSvc { s.svc with cycles := [(11, (true, 1))] }
    (∀ x ∈ [Instr.tileCycle 63 1 11 0, .tileRejoin 63 1 11 0].flatMap fun i => [(i, entry s i), (i, entry (at' 4) i)],
      canRun x.1 x.2) ∧ quarantined q 11 40 = true ∧ quarantined s 11 40 = false ∧
    tileSvc (at' 4) 11 = 4 ∧ tileSvc s 11 = 0 ∧ tileSvc (at' 6) 11 = 6 ∧ tileSvc (at' 2) 11 = 2 ∧ tileSvc (at' 1) 11 = 1 ∧
    tileSvc (at' 7) 11 = 7 ∧ kfind s.svc.cycles 11 = none ∧ kfind cyc.svc.cycles 11 = some (true, 1) ∧ tileSvc cyc 11 = 2 ∧
    cyc.quench.holding = false ∧ (s.setQuench { Quench.reset with holding := true }).quench.holding = true ∧
    bitOf 1 1 = false ∧ 3 ∈ (s.setStore { Storage.reset with baseFenced := [3] }).store.baseFenced ∧
    3 ∉ s.store.baseFenced := by
  refine ⟨canRun_all (by decide +kernel), ?_⟩
  decide +kernel


theorem witness_Map_out_and_dma :
    let s := fetched 2
    let busy := s.setSvc { s.svc with mapouts := [(15, 3)] }
    let d : DmaCmd := ⟨63, 1, false, 0, 0x2000FFFFF80, 128⟩
    let run := s.setHost { s.host with dmas := List.replicate 7 d ++ [{ d with toHost := true }] }
    let held := s.setStore { Storage.reset with held := [⟨0, 0x20000000000, 0x20000000080⟩] }
    let copy : Instr := .dma 63 1 0 0 0x20000000000 128
    let out : Instr := .chMapout 63 1 15 3
    pathsGood run ∧ (∀ x ∈ [(copy, entry s copy), (copy, entry held copy), (out, entry s out), (out, entry busy out)], canRun x.1 x.2) ∧
    busy.svc.mapouts = [(15, 3)] ∧ chOut s 15 3 = false ∧
    chOut (setChState s 15 3 2) 15 3 = true ∧ s.host.dmas.length < 8 ∧
    rangeOpen s 0x20000000000 (2 ^ 28) = true ∧ rangeOpen s 0x20000000000 (2 ^ 28 + 1) = false ∧
    meetsHeld s 0 1 = false ∧ meetsHeld held 0x2000000007F 1 = true ∧ rangeOpen held 0x2000000007F 1 = true ∧
    s.host.dmas[7]? = none ∧ run.host.dmas[0]? = some d ∧ daKind d.da = .shared 3 0x3FFFF80 ∧ baseUp run 3 = true ∧
    d.da % 128 + d.len ≤ 128 ∧ takesEntry run d.pair ∧ run.mem.badPar = [] ∧ run.store.held = [] ∧
    run.host.dmas[7]? = some { d with toHost := true } := by
  refine ⟨pathsGood_of (by decide +kernel), canRun_all (by decide +kernel), ?_⟩
  unfold takesEntry; decide +kernel

theorem witness_Bonded_lines :
    let e (r : Bool) : GEntry := ⟨(sliceBase 11 31 + 128) / 128, [(127, 1)], 0, 0, r⟩
    let x (r : Bool) : SliceSt := { SliceSt.reset with mb := [e r] }
    let s := State.reset
    let gated := setHalf s 11 1 4
    let m (r : Bool) := setSlice s 11 31 (x r)
    let good := (m true).setMem ((m true).mem.markGood (sliceBase 11 31) 256)
    let r (g : Bool) : ReadWait := ⟨1, true, 0, [3], g⟩
    let rd (g : Bool) := setSlice good 11 31 { SliceSt.reset with reads := [r g] }
    let gold (g : Bool) := (rd g).setStore { (rd g).store with
      golden := [⟨0, sliceBase 11 31, 256, 0x10000000000⟩] }
    let gm := (gold true).setMem ((gold true).mem.markGood 0x10000000000 256)
    reaches s (.slice 11 31) ∧ pathsGood gm ∧ sliceLines ≤ (0xC00000#24).toNat ∧ (0xBFFFFF#24).toNat < sliceLines ∧ line0.length = 128 ∧ s.store.held = [] ∧
    sliceServes s 11 31 ∧ firstRun (0#32).toNat ∧ awake gated ∧ halfGated gated 11 (sliceHalf 31) = true ∧
    halfHeld (held s 11) (11, sliceHalf 31) = true ∧ (s.mem.readLine (sliceBase 11 31) []).2 = false ∧
    (good.mem.readLine (sliceBase 11 31) []).2 = true ∧
    sliceServes (m true) 11 31 ∧
    (126 : Fin 128).val + 2 ≤ 128 ∧ (sliceOf s 11 31).mb = [] ∧ (sliceOf s 11 31).mb.length < 32 ∧
    (sliceOf (m false) 11 31).mb[0]? = some (e false) ∧ (m false).clock.now < (e false).time + 1000 ∧
    1000 * max 1 (fld (pget s (scPage 11 31) 0x080) 15 8) ≤
      ((m false).setClock { Clock.reset with now := 1000 * max 1 (fld (pget s (scPage 11 31) 0x080) 15 8) }).clock.now ∧
    (e true).rmw = true ∧ (∀ b ∈ (e true).bytes, b.1 < 128) ∧ (sliceOf good 11 31).mb[0]? = some (e true) ∧
    good.mem.lineGood ((e true).line * 128) = true ∧ (m true).mem.lineGood ((e true).line * 128) = false ∧
    goldenOf (m true) ((e true).line * 128) = none ∧
    (rd false).mem.lineGood (sliceBase 11 31 + 128) = true ∧ (sliceOf (rd false) 11 31).mb = [] ∧
    (sliceOf (rd false) 11 31).reads[0]? = some (r false) ∧ goldenOf (rd false) (sliceBase 11 31 + 128) = none ∧
    (goldenOf (gold false) (sliceBase 11 31 + 128)).isSome = true ∧ (sliceOf gm 11 31).reads[0]? = some (r true) ∧
    goldenOf gm (sliceBase 11 31 + 128) = some 0x10000000080 ∧ daKind 0x10000000080 = .lpddr 0 0x80 ∧
    regionFenced gm 0 = false ∧ 0x80 < regionTop gm 0 ∧ (lpOf gm ((regionChan gm 0 0x80).1 / 4)).gb = [] ∧
    (0x10000000080 : Nat) % 128 = 0 ∧ gm.mem.lineGood 0x10000000080 = true := by
  refine ⟨reaches_of (by decide +kernel), pathsGood_of (by decide +kernel), ?_⟩
  unfold sliceServes firstRun awake; decide +kernel

theorem witness_Refresh_and_lpddr_housekeeping :
    let s := State.reset
    let owes (n : Nat) := setSlice s 11 31 { SliceSt.reset with owed := [(refKey 7 15, n)] }
    let self := psetBits s (scPage 11 31) 0x08C 2
    let at' (n : Nat) (s : State) := s.setClock { Clock.reset with now := n }
    let e : GEntry := ⟨0x10000000000 / 128, [(0, 1)], 0, 0, false⟩
    let g := setLp s 15 { LpSt.reset with gb := [e] }
    let t := 1000 * max 1 (fld (pget g (lpPage 15) 0x08C) 7 0)
    bitOf (pget self (scPage 11 31) 0x08C) 1 = true ∧ bitOf (pget s (scPage 11 31) 0x08C) 1 = false ∧
    kget 0 (sliceOf (owes 3) 11 31).owed (refKey 7 15) < 4 ∧ 4 ≤ kget 0 (sliceOf (owes 4) 11 31).owed (refKey 7 15) ∧
    kget 0 (sliceOf s 11 31).lastRef (refKey 7 15) + 5 * tRefi s 11 31 < (at' (5 * tRefi s 11 31 + 1) s).clock.now ∧
    (at' (5 * tRefi s 11 31) s).clock.now ≤ 5 * tRefi s 11 31 ∧ chState s 15 3 = 0 ∧ lpOperating s = true ∧
    chState (setChState s 15 3 3) 15 3 = 3 ∧ served (wakeFor s 1) (lpPage 15) = true ∧ (wakeFor s 1).svc.mapouts = [] ∧
    (let quiet := max (lpOf s 15).epoch (kget LpChan.reset (lpOf s 15).chans 3).lastReq + 1000
     quiet ≤ (at' quiet s).clock.now ∧ s.clock.now < quiet) ∧
    chOut s 15 3 = false ∧ chOut (setChState s 15 3 2) 15 3 = true ∧ (lpOf g 15).gb[0]? = some e ∧ g.clock.now < e.time + t ∧
    e.time + t ≤ (at' t g).clock.now ∧ (g.setMem (g.mem.markGood 0x10000000000 128)).mem.lineGood (e.line * 128) = true := by
  decide +kernel

/-- A state whose channel 3 of partition 15 was refreshed last at 0, at time `m`. -/
def refreshedAt0 (m : Nat) : State :=
  (setLp State.reset 15 { LpSt.reset with chans := [(3, { LpChan.reset with lastRef := some 0 })] }).setClock { Clock.reset with now := m }

theorem refreshedAt0_last (m : Nat) : (kget LpChan.reset (lpOf (refreshedAt0 m) 15).chans 3).lastRef = some 0 := rfl

theorem refreshedAt0_rate (m : Nat) : pget (refreshedAt0 m) (lpPage 15) 0x080 = pget .reset (lpPage 15) 0x080 := rfl

theorem lpMissed_of {m : Nat} (h : (Config.lpPostpone + 1) * 3900 < m * 16) : lpMissed (refreshedAt0 m) 15 3 = true := by
  have b : fld (pget .reset (lpPage 15) 0x080) (8 * 3 + 5) (8 * 3 + 4) = 0 := by decide +kernel
  unfold lpMissed
  rw [refreshedAt0_last, refreshedAt0_rate, b]
  exact decide_eq_true (by
    show _ < (m - 0) * 16 * 2 ^ 0
    omega)

/-- A channel that missed a refresh, however long refreshes may be postponed (R291). -/
theorem witness_Refresh_missed : ∃ m, lpMissed (refreshedAt0 m) 15 3 = true :=
  ⟨(Config.lpPostpone + 1) * 3900 + 1, lpMissed_of (by omega)⟩

theorem witness_Lpddr_lines_and_shared_buffer :
    let s := State.reset
    let top := regionTop s 3 / 128
    let q := 128 * (top - 1)
    let good := s.setMem (s.mem.markGood (regionBase 3 + q) 128)
    let bad := s.setMem (s.mem.setParity 0x2000FFFFFFC 4 true)
    let down := s.setStore { Storage.reset with baseFenced := [3] }
    reaches s (.part 11 40) ∧ firstRun (0#32).toNat ∧ awake down ∧ regionFenced down 3 = true ∧ top < 2 ^ 31 ∧
    q < 0x4000000000 ∧ regionFenced s 3 = false ∧ q < regionTop s 3 ∧ regionTop s 3 ≤ 128 * top ∧
    (lpOf s ((regionChan s 3 q).1 / 4)).gb = [] ∧ s.store.held = [] ∧ s.host.snoop = [] ∧ s.host.bisnps = [] ∧
    good.mem.lineGood (regionBase 3 + q) = true ∧ s.mem.lineGood (regionBase 3 + q) = false ∧ baseUp s 3 = true ∧
    baseUp down 3 = false ∧ s.mem.parityBad 0x2000FFFFFFC 4 = false ∧ bad.mem.parityBad 0x2000FFFFFFC 4 = true ∧
    sbBase 3 + (0x3FFFFFC#26).toNat = 0x2000FFFFFFC ∧ (0x3FFFFFC#26).toNat % 128 + 4 ≤ 128 := by
  refine ⟨reaches_of (by decide +kernel), ?_⟩
  unfold firstRun awake; decide +kernel


theorem witness_Participant_control :
    let tcc (g : KMap Word64) (k : Core) := setCore (runs 0 40 (regs g)) (coreId 0 39) k
    let s := tcc [(1, 39), (2, 2 ^ 39)] .reset
    let trap (w : Option Wait) := tcc [(1, 39)] { Core.reset with run := .trapped, wait := w }
    let busy := tcc [(1, 39), (2, 2 ^ 39)] { Core.reset with run := .running }
    let wait (k : Core) := setCore (setCore .reset 39 k) 40
      { Core.reset with run := .waiting, wait := some (.cwait (2 ^ 39) 15) }
    canIssue s 0 40 = true ∧ (getG s 0 40 1).toNat % 64 < 40 ∧ (coreOf s (coreId 0 39)).run = .idle ∧ ptHalf 39 = some 1 ∧
    halfState s 0 1 ≠ 4 ∧ halfState (setHalf s 0 1 4) 0 1 = 4 ∧ canIssue (setHalf s 0 1 4) 0 40 = true ∧
    (getG (runs 0 40 (regs [(1, 40)])) 0 40 1).toNat % 64 = 40 ∧ (coreOf busy (coreId 0 39)).run ≠ .idle ∧
    (coreOf (trap none) (coreId 0 39)).run = .trapped ∧ (coreOf (trap none) (coreId 0 39)).wait = none ∧
    canIssue (trap (some (.flag false 0 true))) 0 40 = true ∧
    (waiterOf (trap (some (.flag false 0 true))) (coreId 0 39)).bind (·.ready) = none ∧
    setBits (getG s 0 40 2).toNat 40 = [39] ∧ (wait .reset).cores ≠ [] ∧
    (coreOf (wait .reset) (coreId 0 40)).wait = some (.cwait (2 ^ 39) 15) ∧
    (coreOf (wait { Core.reset with run := .running }) (coreId 0 39)).run ≠ .idle ∧
    served (wakeFor s 1) (tccPage 0) = true ∧ (tccOf (wakeFor s 1) 0).locked = false ∧
    (tccOf (wakeFor (setTcc s 0 { Tcc.reset with locked := true }) 1) 0).locked = true := by decide +kernel

theorem witness_Traps_and_events :
    let a : TrapCause := .fault 5 31
    let b : TrapCause := .software 0 0
    let k : Tcc := { Tcc.reset with halted := false, pend := [b, a] }
    let st (k : Tcc) := setTcc (runs 0 40 .reset) 0 k
    let t : Tcc := { k with inTrap := true }
    let ev := setTcc (setCore .reset 40 { Core.reset with run := .waiting, wait := some (.event 4 1) }) 0 { Tcc.reset with events := 4 }
    let stop (r : RunState) : Core := { Core.reset with run := r, stopReq := true }
    k.nested = false ∧ k.halted = false ∧ k.inTrap = false ∧ (a ∈ k.pend ∧ ∀ d ∈ k.pend, d ≠ a → TrapCause.before a d = true) ∧
    (tccOf (st { k with nested := true }) 0).nested = true ∧ canIssue (st t) 0 40 = true ∧
    canIssue (st { t with pend := [] }) 0 40 = true ∧ t.savedWait = none ∧ canIssue (st { k with pend := [] }) 0 40 = true ∧
    (4#32).toNat % 8 ≠ 0 ∧ (8#32).toNat % 8 = 0 ∧ ({ k with events := 4 } : Tcc).events &&& 4 ≠ 0 ∧ k.events &&& 4 = 0 ∧
    (coreOf ev 40).wait = some (.event 4 1) ∧ (tccOf ev 0).events &&& 4 ≠ 0 ∧
    (stop .waiting).stopReq = true ∧ (coreOf (setCore .reset 39 (stop .running)) (coreId 0 39)).run = .running ∧
    (coreOf .reset (coreId 0 39)).stopReq = false := by decide +kernel


theorem witness_Register_writes :
    let s := State.reset
    let down := s.setStore { Storage.reset with baseFenced := [3] }
    let pend (g : Nat) (w : Word32) := s.setRegs { Regs.reset with guards := [(4, (g, w))] }
    upFor s 18 ∧ pageBlock 18 = none ∧ upFor down (tilePage 11 0) ∧ pageServes down (tilePage 11 0) = false ∧
    upFor s 4 ∧ pageBlock 4 = some .quench ∧ pageServes s 4 = true ∧ loPair .quench 0x024 = none ∧
    upFor s 3 ∧ pageBlock 3 = some .bellows ∧ loPair .bellows 0x088 = none ∧ inReset s 3 = false ∧
    (regDesc .bellows 0x08C).map (·.rwg) = some 0 ∧ isGuarded .bellows 0x08C = false ∧ guardOf .bellows 0x08C = none ∧
    ownWrite s .bellows 3 0x08C 5 = none ∧ cntCtl .bellows ≠ some 0x08C ∧ guardOf .quench 0x080 = none ∧
    isGuarded .quench 0x080 = true ∧ loPair .quench 0x07C = none ∧ kfind s.regs.guards 4 = none ∧
    kfind (pend 0x080 5#32).regs.guards 4 = some (0x080, 5#32) ∧ guardOf .quench 0x084 = some 0x080 ∧
    guardOf .quench 0x034 = some 0x030 ∧ upFor (pend 0x030 5#32) 4 ∧ kfind (pend 0x030 5#32).regs.guards 4 = some (0x030, 5#32) ∧
    (5#32).toNat + (0xFFFFFFFA#32).toNat = 0xFFFFFFFF ∧ (regDesc .quench 0x080).isSome = true ∧
    (5#32).toNat + (0xFFFFFFFB#32).toNat ≠ 0xFFFFFFFF := by
  refine ⟨up_module (m := 18) (by decide +kernel), by decide +kernel, ?_⟩
  refine ⟨up_tile (t := 11) (i := 0) (by decide +kernel), by decide +kernel, up_module (m := 4) (by decide +kernel), ?_⟩
  iterate 3 refine ⟨by decide +kernel, ?_⟩
  refine ⟨up_module (m := 3) (by decide +kernel), ?_⟩
  iterate 15 refine ⟨by decide +kernel, ?_⟩
  exact ⟨up_module (m := 4) (by decide +kernel), by decide +kernel⟩

theorem witness_Register_writes_halves :
    let s := State.reset
    let p := mcPage 11 31
    let held := (setHalf s 11 1 1).setQuench { Quench.reset with holding := true }
    let gated := setHalf s 11 1 4
    pathsGood s ∧ pathsGood (s.setRegs { Regs.reset with guards := [(4, (0x030, 5#32))] }) ∧ upFor gated p ∧ pageGated gated p ∧
    ¬ pageGated (s.setStore { Storage.reset with baseFenced := [3] }) (tilePage 11 0) ∧ pagePlace p = .tile 11 33 ∧
    pageHalf 33 = some 1 ∧ halfHeld held (11, 1) = true ∧ tileAway gated 11 = false ∧ 11 / 3 ∉ gated.store.baseFenced := by
  refine ⟨pathsGood_of (by decide +kernel), pathsGood_of (by decide +kernel), up_tile (t := 11) (i := 33) (by decide +kernel),
    ⟨11, 33, 1, by decide +kernel⟩, ?_, by decide +kernel⟩
  rintro ⟨t, i, h, e, k, -⟩
  have d : pagePlace (tilePage 11 0) = .tile 11 0 := by decide +kernel
  rw [d] at e
  cases e
  have n : pageHalf 0 = none := by decide +kernel
  rw [n] at k
  cases k

theorem witness_Word_accesses :
    let at' (a : Word64) := runs 11 40 (regs [(1, a), (2, 7)])
    let da (a : Word64) := (getG (at' a) 11 40 1 + (0#32).signExtend 64).toNat / 4 * 4
    let s := at' 0x3000000608C
    let w := at' 0x2000FFFFFFF
    let m : Nat := 0x30000000000 + mcPage 11 31 * 0x1000
    let held := (setHalf (at' (BitVec.ofNat 64 m)) 11 1 1).setQuench { Quench.reset with holding := true }
    pathsGood s ∧ pathsGood w ∧ firstRun (coreOf w (coreId 11 40)).tag.toNat ∧ canGo (.ldg 11 ⟨2, 1, 0, 0, 0⟩) held 11 40 ∧
    (globalHalves m).any (halfHeld held) = true ∧ canIssue s 11 40 = true ∧ daKind (da 0x3000000608C) = .register 0x608C ∧ upFor s 6 ∧
    (pageBlock 6 = some .faultSummary ∧ isLo .faultSummary 0x08C = none ∧ isLo .faultSummary 0x088 = none ∧ pageStatus s 6 = .ok) ∧
    0x608C / 0x1000 ≠ tccPage 11 ∧ canIssue (at' 0x40000000000) 11 40 = true ∧ daKind (da 0x40000000000) = .unmapped ∧
    canIssue w 11 40 = true ∧ daKind (da 0x2000FFFFFFF) = .shared 3 0x3FFFFFC ∧ baseUp w 3 = true ∧
    w.mem.parityBad 0x2000FFFFFFC 4 = false ∧ w.store.held = [] ∧ pagePlace 6 ≠ .unmapped ∧ pState s = 0 ∧
    s.power.entering = none ∧ ¬ (([1, 2] : List Byte).length = 4 ∨ ([1, 2] : List Byte).length = 8) ∧ (0x608C + 3) % 4 + 1 ≤ 4 := by
  refine ⟨pathsGood_of (by decide +kernel), pathsGood_of (by decide +kernel), ?_⟩
  unfold canGo firstRun
  refine ⟨by decide +kernel, by decide +kernel, by decide +kernel, by decide +kernel, by decide +kernel,
    up_module (m := 6) (by decide +kernel), by decide +kernel⟩

theorem witness_Selections_and_ring :
    let s := State.reset
    let on := pset s (modPage 6) 0x094 0x10001
    let head := pset s (modPage 6) 0x098 4
    upFor s 6 ∧ upFor s (mcPage 11 31) ∧ (pageBlock 6).bind cntCtl = none ∧ (pageBlock (mcPage 11 31)).bind cntCtl ≠ none ∧
    served s (mcPage 11 31) = true ∧ kfind (wakeFor s 1).chain.expect 7 = none ∧ (wakeFor s 1).chain.routes.length ≤ 0 ∧
    served (wakeFor s 1) (tilePage 11 0) = true ∧ (pget (wakeFor head 1) (modPage 6) 0x098 + 2 ^ 32 - (4#32).toNat) % 2 ^ 32 < 2 ^ 31 ∧
    ¬ (pget (wakeFor head 1) (modPage 6) 0x098 + 2 ^ 32 - (5#32).toNat) % 2 ^ 32 < 2 ^ 31 ∧
    bitOf (pget (wakeFor on 1) (modPage 6) 0x094) 16 = true ∧ bitOf (pget (wakeFor s 1) (modPage 6) 0x094) 16 = false ∧
    (0x10000#32).getLsbD 16 = true := by
  refine ⟨up_module (m := 6) (by decide +kernel), up_tile (t := 11) (i := 33) (by decide +kernel), by decide +kernel⟩

/-- The smallest Plauth image (R142 to R160): a manifest without regions, empty CODE, WEIGHTS and VARIANTS sections and a
variant 0 that asks for nothing. -/
def manifest0 : List Byte :=
  le 4 1000000 ++ le 2 0 ++ le 2 1 ++ le 2 0 ++ le 2 1 ++ le 4 0 ++ le 8 0 ++ le 8 0 ++ le 4 1 ++ le 8 0x20000000000 ++ le 4 0

/-- A section-table entry of it. -/
def sect0 (type count off size crc : Nat) : List Byte := le 4 type ++ le 4 count ++ le 8 off ++ le 8 size ++ le 8 crc

/-- Its section table. -/
def table0 : List Byte :=
  sect0 1 1 384 48 (crc32 manifest0) ++ sect0 2 0 512 0 (crc32 []) ++ sect0 3 0 512 0 (crc32 []) ++ sect0 4 0 512 0 (crc32 []) ++
    sect0 5 1 512 64 (crc32 (List.replicate 64 0))

/-- Its header. -/
def header0 : List Byte :=
  let h := le 4 0x48544C50 ++ le 2 0x0100 ++ le 2 0x0080 ++ le 8 576 ++ le 4 (crc32 (table0 ++ manifest0)) ++ le 4 5 ++ le 8 0 ++
    le 8 128 ++ le 8 7 ++ List.replicate 16 0
  h ++ h.map (~~~·)

/-- A state with that image at the start of LPDDR5X. -/
def stored (s : State) : State :=
  s.setMem ((((s.mem.writeBytes 0x10000000000 (header0 ++ table0)).writeBytes 0x10000000180 manifest0).markGood 0x10000000000 640))

theorem witness_Load_and_unload :
    let load : Instr := .loadPlan 63 1 0x10000000000 576 3 0
    let un : Instr := .unloadPlan 63 1 3
    let s := entry (stored (fetched 2)) load
    let r := readImage (taken s 63) 0x10000000000 576
    let run := entry (setPlan (fetched 2) 3 (slotIn .active)) un
    (∀ x ∈ [(load, s), (un, run), (un, entry (fetched 2) un)], canRun x.1 x.2) ∧ pState s = 0 ∧ s.power.entering = none ∧ (0x10000000800#64).toNat % 4096 ≠ 0 ∧
    loadBusy s = false ∧ (planOf s 3).state = .empty ∧ checkRange s 0x10000000000 576 = none ∧
    (checkRange s 0x20000000000 576).isSome = true ∧
    firstFail [checkHeader r.1 576, checkFit r.2 r.1 0x10000000000 576 3, checkChain r.2 r.1.chainRec] = none ∧
    (usableFrom r.2 (r.1.reqRecs.map fun x => x.2.2) 0).isSome = true ∧ (checkHeader r.1 575).isSome = true ∧ takesEntry r.2 63 ∧
    loadBusy (setPlan s 0 (slotIn .loading)) = true ∧ loadBusy run = false ∧
    (planOf run 3).state ≠ .empty ∧ slotRuns run 3 = true ∧ run.sched.inPeriod = false := by
  refine ⟨canRun_all (by decide +kernel), ?_⟩
  unfold takesEntry; decide +kernel


theorem witness_Plan_events :
    let img := stored (fetched 2)
    let m := (readImage img 0x10000000000 576).1
    let v : VarReq := ⟨0, false, 0, [], []⟩
    let s := setPlan img 3 (loadedSlot m v 63 1 0x10000000000 576 0)
    let lost := setPlan img 3 { loadedSlot m v 63 1 0x10000000000 576 0 with reqs := [] }
    let two (x : Word32) : List ChainSeg := [{ seg0 0 2 with uid := 7, tSeg := x }, { seg0 1 2 with uid := 7 }]
    let wt : WeightRec := ⟨0, 0, 1, false, false, 0, 0, 0, 1⟩
    let rel (w : List WeightRec) := setPlan img 3 { slotIn .reloading with imageDa := 0x10000000000, weights := w }
    let p (w : List WeightRec) := planOf (rel w) 3
    let a (w : List WeightRec) := placeAll (fun s x => placeWeight s (p w).imageDa x)
      ((p w).weights.filter fun x => bitOf x.vmask (p w).variant) 0 (rel w)
    (planOf .reset 3).state ≠ .loading ∧ (planOf s 3).state = .loading ∧ (planOf s 3).load = some ⟨63, 1, false⟩ ∧ takesEntry s 63 ∧
    loadAborted lost (planOf lost 3) = some 0xFFFF ∧ (placePlan s 3).1 = none ∧ takesEntry (placePlan s 3).2 63 ∧
    (placePlan lost 3).1 = some (0x16, [0xFFFF]) ∧ takesEntry (placePlan lost 3).2 63 ∧
    chainMismatch (chain0 1) 8 (two 0) ≠ none ∧ chainMismatch (chain0 1) 7 (two 0) = none ∧
    periodLen .reset < chainBound (two 2000000) ∧ chainBound (two 1987600) ≤ periodLen .reset ∧
    (p []).state = .reloading ∧ (a []).1 = none ∧ (a [wt]).1 = some 0 := by
  unfold takesEntry; decide +kernel

theorem witness_Queue_pairs_and_completions :
    let p (q : QPair) := setPair' .reset 63 { q with en := true }
    let s := p .reset
    let room := regSet s (qReg 63 0x10) 0x20FF0FF
    let heldQ := setPair' room 63 { QPair.reset with en := true, held := [[1], [2]] }
    let full := setPair' room 63 { QPair.reset with en := true, cqTail := 255 }
    let lost := setPair' room 63 { QPair.reset with en := true, lost := 1 }
    let irq := regSet (p { QPair.reset with unsig := 1 }) (qReg 63 0x14) 0x10000BF
    let msix := State.reset.setHost { HostPort.reset with msixPend := [255] }
    let w := wakeFor s 2
    (pairOf w 63).en = true ∧ (pairOf w 63).stopped = false ∧ (pairOf (wakeFor .reset 2) 63).en = false ∧
    sqSize w 63 ≤ (4095#12).toNat ∧ (0#12).toNat < sqSize w 63 ∧
    newEntries (sqSize (wakeFor room 2) 63) 0 (4#12).toNat = 4 ∧ (4#12).toNat < sqSize (wakeFor room 2) 63 ∧
    (3#12).toNat < 4 ∧ 4 ≤ (5#12).toNat ∧ (∀ p < 64, (pairOf (wakeFor room 2) p).waiting = []) ∧
    (pairOf (wakeFor s 1) 63).en = true ∧ (wakeFor s 1).chain.opens = [] ∧ 63 ∈ evtPairs lost ∧ takesEntry lost 63 ∧
    (wakeFor msix 1).host.fnMask = false ∧
    (pairOf (wakeFor .reset 1) 63).en ≠ true ∧ takesEntry s 63 ∧ cqFull full 63 = true ∧
    (pairOf room 63).en = true ∧ cqFull room 63 = false ∧ (pairOf room 63).held = [] ∧ (pairOf room 63).lost = 0 ∧
    cqFull heldQ 63 = false ∧ (pairOf heldQ 63).held ≠ [] ∧ (pairOf heldQ 63).held.length ≤ 64 ∧ (pairOf heldQ 63).lost = 0 ∧
    cqFull lost 63 = false ∧ 0 < (pairOf lost 63).lost ∧ bitOf (regGet irq (qReg 63 0x14)) 24 = true ∧
    (pairOf irq 63).unsig ≠ 0 ∧ (pairOf irq 63).oldest + fld (regGet irq (qReg 63 0x14)) 23 16 * 1000 ≤ irq.clock.now ∧
    vecMasked (regSet irq (0x10000 + 16 * 191 + 12) 0) 191 = false ∧ vecMasked (regSet irq (0x10000 + 16 * 191 + 12) 1) 191 = true ∧
    (wakeFor msix 1).host.fnMask = false ∧ 255 ∈ (wakeFor msix 1).host.msixPend := by
  unfold takesEntry; decide +kernel

theorem witness_Periods :
    let s := State.reset
    let on := pset s (modPage 11) 0x080 1
    let due (c : List (Nat × SeqCmdKind)) := on.setSched { Sched.reset with next := some 100000, cmds := c }
    let run := on.setSched { Sched.reset with inPeriod := true, len := 2000000 }
    running (wakeFor on 1) = true ∧ running (wakeFor s 1) = false ∧ (wakeFor s 1).sched.early = [] ∧ nextStart s = none ∧ nextStart (due []) = some 100000 ∧
    (due []).sched.admitted = false ∧ (due []).chain.waits = [] ∧ (due [(4095, .suspend)]).sched.cmds = [(4095, .suspend)] ∧
    seqMove (seqOf (setSeq (due [(4095, .suspend)]) 4095 (seqIn .ready)) 4095).state .suspend = some .suspended ∧
    seqMove (seqOf (due [(4095, .suspend)]) 4095).state .suspend = none ∧ (due []).sched.inPeriod = false ∧
    run.sched.inPeriod = true ∧ (planOf run 0).chain = none ∧ (82 : Nat) % 41 ≠ 40 ∧
    tagOf run run.sched.num (coreOf (setCore run 82 { Core.reset with tag := 1#32 }) 82).tag.toNat = true := by decide +kernel

theorem witness_Commits_and_replays :
    let pcb : List Host.Cell := (List.range' 128 128).map fun i => (0x20000000000 + i, 255)
    let inP (g : StepGroup) : State := State.reset.setSched { Sched.reset with inPeriod := true, len := 2000000, groups := [g] }
    let s := setSeq (setPlan ((inP group0).setMem { Memory.reset with cells := pcb }) 3
      { slotIn .active with man := { Manifest.empty with pcb := 0x20000000000 } }) 7 { seqIn .active with slot := 3 }
    let mark (g : StepGroup) (k : CauseKind) (pg src : Nat) := (inP g).setFlt { Flt.reset with marks := [⟨5, k, pg, src⟩] }
    let pg := mcPage 11 31
    let due := mark group0 .unit pg 0
    let rep (r : Replay) := { group0 with replays := [r] }
    let r (u : Option Nat) (same : Bool) : Replay := ⟨u, 0, same, 0, false, 0, [], []⟩
    let key := pieceKey pg 0
    let spares := ((mcPool .reset 11 0)[16]?).toList ++ ((mcPool .reset 11 1)[16]?).toList
    let full := setPlan (pset (mark { group0 with replays := spares.map fun x => ⟨none, unitPhy 11 x, true, 0, false, 0, [], []⟩ } .unit pg 0)
      (tilePage 11 0) 0x748 5) 3 { slotIn .active with reqs := [⟨0, false, 2 ^ 11, List.replicate 12 (2 ^ 32 - 1), []⟩] }
    let nocode := setPlan due 3 { slotIn .active with code := [⟨11, 31, 1, 0, 8, 0, 1, 0⟩] }
    groupOf .reset 5 = none ∧ groupOf s 5 = some group0 ∧ s.sched.inPeriod = true ∧ group0.fate = .running ∧
    group0.passed = false ∧ max s.clock.now 1999999 < s.sched.start + s.sched.len ∧ fatalHold s = false ∧
    group0.noCommit = false ∧ group0.fenced = false ∧ group0.unserved = false ∧ marksClear s group0 = true ∧
    pcbGood s 3 = true ∧ pcbGood (inP group0) 3 = false ∧ (planOf s 3).chain = none ∧ group0.members = [7] ∧
    (seqOf s 7).kind = 0 ∧ (seqOf s 7).slot = group0.slot ∧ programMarked due group0 = false ∧
    suspectPiece due group0 pg = true ∧ key ∉ group0.replayed ∧ rerunDue due group0 = false ∧
    rerunDue (mark group0 .data pg 0) group0 = true ∧ group0.replays = [] ∧ pageUnit pg 0 = some (11, 31) ∧
    (rep (r none false)).replays.find? (fun y => y.unit = none) = some (r none false) ∧
    (rep (r (some key) true)).replays.find? (fun y => y.unit = some key) = some (r (some key) true) ∧
    mismatchOnly due group0 pg = true ∧ mismatchOnly (mark group0 .unit pg 1) group0 pg = false ∧
    (match replayHw due pg 0 with | .core _ => true | _ => false) = true ∧ (copyCode due 3 11 31 0).1 = true ∧
    replayHw full pg 0 = .peer 5 ∧ replayHw due (tccPage 11) 0 = .none ∧ (copyCode nocode 3 11 31 0).1 = false ∧
    replayResult s group0 (r (some key) true) (some (pg, 0)) .identical = .identical ∧
    replayResult s group0 { r (some key) true with differ := true } (some (pg, 0)) .identical = .differs ∧
    replayResult s { group0 with wrote := [(coreId 11 31, 1)] } (r (some key) false) (some (pg, 0)) .identical = .differs := by
  decide +kernel


theorem witness_Engine_posts :
    let s := State.reset
    let w := wakeFor s 1
    let full := setScan (setLayer (setTongs s 11 { Tongs.reset with walkQ := List.replicate 64 [], memQ := List.replicate 32 [] })
      11 7 { NbLayer.reset with queue := List.replicate 32 ⟨false, [], 0, [], [], false⟩ }) 11
      { Sequencer.reset with queue := List.replicate 8 [] }
    served w (tgPage 3) = true ∧ served w (nlPage 11 7) = true ∧ served w (tilePage 11 0) = true ∧
    (tongsOf w 11).walkQ.length + 16 ≤ 64 ∧ 64 < (tongsOf full 11).walkQ.length + 1 ∧ w.mem.badPar = [] ∧
    (tongsOf w 11).memQ.length + 16 ≤ 32 ∧ 32 < (tongsOf full 11).memQ.length + 1 ∧
    ((layerOf w 11 7).queue.filter fun i => !i.scan).length + 16 ≤ 32 ∧
    32 < ((layerOf full 11 7).queue.filter fun i => !i.scan).length + 1 ∧ (scanOf w 11).queue.length + 8 ≤ 8 ∧
    8 < (scanOf full 11).queue.length + 1 := by decide +kernel

theorem witness_Walks :
    let s := setPlan .reset 0 { slotIn .active with man := { Manifest.empty with kvPage := 8192 } }
    let q (c : List Byte) := setTongs s 11 { Tongs.reset with walkQ := [c] }
    let w (p n : Nat) : WalkRun := ⟨walk0 64, [], true, p, n, none⟩
    let ready : WalkRun := { w 1 255 with found := some none }
    let run (p n : Nat) := setTongs s 11 { Tongs.reset with walks := [w p n] }
    let next (p n : Nat) := walkNext (run p n) 11 (w p n) (walkLeft (w p n)) p
    let c := walk0 64
    pathsGood (q c) ∧ pathsGood (run 1 255) ∧ lineFree (q c) 11 (field c 1 1) (field c 0x28 4) ∧
    lineFree (run 1 255) 11 (field c 1 1) (field c 0x28 4) ∧ ¬ (tlaHalves 11 (ringTla c 0) 8).any (halfHeld s) = true ∧
    (tlaHalves 11 (ringTla c 0) 8).any (halfHeld (held (q c) 11)) = true ∧
    (walkHalves 11 (w 1 0) none).any (halfHeld (held (run 1 0) 11)) = true ∧
    ¬ (walkHalves 11 (w 1 255) none).any (halfHeld (run 1 255)) = true ∧
    (tongsOf s 11).walkQ = [] ∧ 4 ≤ (tongsOf (setTongs s 11 { Tongs.reset with walks := List.replicate 4 (w 0 0) }) 11).walks.length ∧
    (tongsOf (q (walk0 64)) 11).walkQ = [walk0 64] ∧ (tongsOf (q (walk0 64)) 11).walks.length < 4 ∧
    walkOk (q (walk0 0)) (walk0 0) = false ∧ walkOk (q (walk0 64)) (walk0 64) = true ∧ tileOpen (q (walk0 64)) 11 ∧
    (tongsOf s 11).walks[3]? = none ∧ (tongsOf (run 2 2) 11).walks[0]? = some (w 2 2) ∧ (next 2 2).1 = none ∧
    bitOf (field (walk0 64) 3 1) 0 = true ∧ (next 1 0).1 = some (1, none) ∧
    (tongsOf (setTongs s 11 { Tongs.reset with walks := [ready] }) 11).walks[0]? = some ready ∧ ready.found = some none ∧ ringRoom (next 1 255).2 11 (w 1 255) = true ∧
    ringRoom (next 1 256).2 11 (w 1 256) = false ∧ tileOpen (run 1 255) 11 ∧ walkOk (run 1 255) (walk0 64) = true := by
  refine ⟨pathsGood_of (by decide +kernel), pathsGood_of (by decide +kernel), ?_⟩
  unfold tileOpen lineFree; decide +kernel

/-- A near-bank descriptor of slice 31 and one bank, and a scan of one layer (R213, R240). -/
def nb0 (ctl bank : Nat) : List Byte :=
  guardedLine (le 1 1 ++ le 1 0 ++ le 1 1 ++ le 1 ctl ++ le 4 63 ++ le 4 (2 ^ 31) ++ le 4 (2 ^ bank) ++ le 4 98303 ++ le 4 1 ++ le 8 0)

def scan0 (q : Nat) : List Byte :=
  guardedLine (le 1 1 ++ le 1 0 ++ le 1 q ++ le 1 2 ++ le 1 63 ++ le 1 128 ++ le 2 1 ++ le 4 (2 ^ 31) ++ le 2 1 ++ le 2 64 ++ le 4 0 ++
    le 4 1 ++ le 4 0 ++ le 4 128 ++ le 4 256)

theorem witness_Near_bank_and_scans :
    let it (c : List Byte) (n : Nat) (fin : Bool) : NbItem := ⟨false, c, 0, if n = 0 then [] else [(15, n)], [], fin⟩
    let lay (q r : List NbItem) := setLayer .reset 11 7 { NbLayer.reset with queue := q, run := r }
    let next (s : State) := nextItem ((layerOf s 11 7).run.flatMap fun i => cmdBanks i.cmd) [] (layerOf s 11 7).queue
    let i := it (nb0 10 15) 0 false
    let j := it (nb0 10 15) 1 false
    let s := lay [i] []
    let run := lay [] [i]
    let fin (s : State) := (layerOf s 11 7).run.find? fun i => !i.scan && !i.final && nbFinalBit i.cmd && i.streamed
    let done (s : State) := (layerOf s 11 7).run.find? fun i => !i.scan && i.streamed && i.wb.isEmpty && (i.final || !nbFinalBit i.cmd)
    let busy (s : State) := (layerOf s 11 7).run.find? fun i => i.left 15
    let tile (c : List Byte) (written : List Nat) (blocks : KMap Nat) :=
      setScan .reset 11 { Sequencer.reset with run := some ⟨c, [], [], blocks, written⟩ }
    let q (c : List Byte) := setScan .reset 11 { Sequencer.reset with queue := [c] }
    let r := scan0 1
    pathsGood (tile r [] [(31, 1)]) ∧ halfHeld (held run 11) (11, sliceHalf 31) = true ∧ ¬ halfHeld run (11, sliceHalf 31) = true ∧
    i.wb = [] ∧ halfState run 11 (sliceHalf 31) = 0 ∧
    ((11, sliceHalf 31) :: tlaHalves 11 (field r 0x1C 4) (listSize r)).any (halfHeld (held (tile r [] [(31, 1)]) 11)) = true ∧
    ¬ ((11, sliceHalf 31) :: tlaHalves 11 (field r 0x1C 4) (listSize r)).any (halfHeld (tile r [] [(31, 1)])) = true ∧
    8 ≤ (layerOf (lay [] (List.replicate 8 i)) 11 7).run.length ∧ next run = none ∧ next s = some (i, []) ∧
    descOk s 11 7 i = true ∧ descOk s 11 7 (it [] 0 false) = false ∧ waitingBanks s 11 7 = [] ∧ (layerOf run 11 7).run = [i] ∧
    cmdBanks i.cmd = [15] ∧ i.left 15 = true ∧ 1 ≤ limOf run 11 7 ∧ fin run = none ∧ fin (lay [] [j]) = some j ∧ done run = none ∧
    done (lay [] [it (nb0 10 15) 1 true]) = some (it (nb0 10 15) 1 true) ∧ bitOf (nbCtl i.cmd) 3 = true ∧ busy run = some i ∧
    busy (lay [] [j]) = none ∧ cmdSlices i.cmd = [31] ∧
    (scanOf .reset 11).queue = [] ∧ (scanOf (q r) 11).run = none ∧ (scanOf (q r) 11).queue = [r] ∧ scanOk (q r) 11 r = true ∧
    scanOk (q (scan0 17)) 11 (scan0 17) = false ∧ scLayers r = [7] ∧ (scanOf (tile r [] []) 11).run = some ⟨r, [], [], [], []⟩ ∧
    31 ∈ cmdSlices r ∧ kget 0 [(31, 1)] 31 = (scLayers r).length * (cmdBanks r).length * scBpb r ∧
    kget 0 ([] : KMap Nat) 31 ≠ (scLayers r).length * (cmdBanks r).length * scBpb r ∧ tileOpen (tile r [] [(31, 1)]) 11 ∧
    (listBytes ⟨r, [], [], [(31, 1)], []⟩ 31).length + field r 0x1C 4 + (cmdSlices r).idxOf 31 * field r 0x20 4 ≤ 0x1000000 ∧
    (∀ m ∈ cmdSlices r, m ∈ [31]) ∧ (¬ ∀ m ∈ cmdSlices r, m ∈ ([] : List Nat)) ∧ bitOf (nbCtl r) 1 = true := by
  refine ⟨pathsGood_of (by decide +kernel), ?_⟩
  unfold tileOpen; decide +kernel

theorem witness_Memory_commands :
    let sb := 0x2000FFFFF80
    let q (c : List Byte) := setTongs .reset 11 { Tongs.reset with memQ := [c] }
    let red (i n : Nat) := mcmd0 2 0xE i n 0 sb 128 0
    let at4 := mcmd0 3 0 7 0 0 0x2000FFFFFFC 0 5
    let at8 := mcmd0 3 1 1 0 0x1000000 0x2000FFFFFF8 0 5
    let to' (op fmt n len : Nat) := mcmd0 op fmt 0 n 0 sb len 0xFFFE
    let route (s : State) := pset (s.setChain { s.chain with routes := [(0xFFFE, 0xFFFE, 1)] }) (cpPage 0) 0x08C 2
    let op (s : State) := { s with store := { s.store with adders := (addersOf .reset sb 128).map fun k => (k, [⟨sb, 256, 2, 0xE, 0, 0, []⟩]) } }
    let ans (s : State) (c : List Byte) :=
      let took := setTongs s 11 { tongsOf s 11 with memQ := [] }
      let d := tlaRead took (tongsReq 11 (cmdTag c)) 11 (mcSrc c) (mcLen c)
      answerOf d.2 ⟨11, mcFlag c, d.1.1, mcDst c, mcLen c, mcCidx c, mcCcount c, mcFmt c, cmdTag c, s.clock.now, none⟩
    pathsGood (q at4) ∧ pathsGood (q (red 0 1)) ∧ tileOpen (q at4) 11 ∧
    (∀ c ∈ [red 0 1, at4, to' 4 0 0 128], (mcmdHalves 11 c).any (halfHeld (held (q c) 11)) = true ∧
      ¬ (mcmdHalves 11 c).any (halfHeld (q c)) = true) ∧ tlaStore (mcSrc at8) = some 0 ∧ lineFree (q at8) 11 0 (mcSrc at8 - storeTla 0) ∧
    (tongsOf .reset 11).memQ = [] ∧
    4 ≤ (tongsOf (setTongs .reset 11 { Tongs.reset with sends := 4 }) 11).reds.length +
      (tongsOf (setTongs .reset 11 { Tongs.reset with sends := 4 }) 11).sends ∧
    (tongsOf (q at4) 11).memQ = [at4] ∧ (tongsOf (q at4) 11).reds.length + (tongsOf (q at4) 11).sends < 4 ∧
    mcmdOk (mcmd0 3 0 8 0 0 sb 0 0) = false ∧ mcmdOk (red 0 1) = true ∧ mcOp (red 0 1) = 2 ∧ mcFlag (red 0 1) = some 63 ∧
    ans (q (red 1 2)) (red 1 2) = .refuse ∧ ans (op (q (red 0 2))) (red 0 2) = .conflict ∧ ans (q (red 0 2)) (red 0 2) = .take ∧
    daKind (mcDst (red 0 1)) = .shared 3 0x3FFFF80 ∧ baseUp (q (red 0 1)) 3 = true ∧ (q (red 0 1)).store.held = [] ∧
    tileOpen (q (red 0 1)) 11 ∧ mcCidx (red 0 1) = 0 ∧ mcLen (red 0 1) = 128 ∧ mcmdOk at4 = true ∧ mcmdOk at8 = true ∧
    mcOp at4 = 3 ∧ daKind (mcDst at4) = .shared 3 0x3FFFFFC ∧ (q at4).mem.parityBad 0x2000FFFFFFC 4 = false ∧
    (mcmdOk (to' 4 0 0 128) = true ∧ mcmdOk (to' 5 0xD 1 128) = true ∧ mcmdOk (to' 6 0 0 0) = true) ∧ mcOp (to' 6 0 0 0) = 6 ∧
    fld (mcArg0 (to' 4 0 0 128)) 15 0 = 0xFFFE ∧ bundleOf (q (to' 4 0 0 128)) 0xFFFE = [] ∧
    bundleOf (route (q (to' 4 0 0 128))) 0xFFFE ≠ [] := by
  refine ⟨pathsGood_of (by decide +kernel), pathsGood_of (by decide +kernel), ?_⟩
  unfold tileOpen lineFree; decide +kernel

theorem witness_Waiting_reductions_and_fill :
    let k (cidx dst : Nat) : Contribution := ⟨11, none, [], dst, 128, cidx, 2, 0xE, 0, 0, none⟩
    let sb := 0x2000FFFFF80
    let s (c : Contribution) := setTongs .reset 11 { Tongs.reset with reds := [c] }
    let clash := { s (k 0 sb) with store := { Storage.reset with adders := (addersOf .reset sb 128).map fun n => (n, [⟨sb, 256, 2, 0xE, 0, 0, []⟩]) } }
    let remote := State.reset.setEng { Engines.reset with remote := [(3, [k 1 sb])] }
    let fill (len : Nat) := pset (pset (pset .reset (tgPage 3) 0x280 0xC0000000) (tgPage 3) 0x284 0x8F) (tgPage 3) 0x288 len
    let go := pset (fill 128) (tgPage 3) 0x294 1
    let range := fillRange (fill 128) 3
    let limit := 1000 * max 1 (fld (pget (s (k 1 sb)) (tgPage 3) 0x340) 15 0)
    let bonded := 11 * tileBytes + 128
    pathsGood .reset ∧ (daHalves bonded 128).any (halfHeld (held (s (k 1 bonded)) 11)) = true ∧
    ¬ (daHalves sb 128).any (halfHeld (s (k 1 sb))) = true ∧ (redsOf (s (k 1 bonded)) 3 (some 2))[0]? = some (k 1 bonded) ∧
    (daHalves range.1 range.2).any (halfHeld (held .reset 11)) = true ∧ ¬ (daHalves range.1 range.2).any (halfHeld .reset) = true ∧
    (redsOf .reset 3 (some 2))[0]? = none ∧ (redsOf (s (k 1 sb)) 3 (some 2))[0]? = some (k 1 sb) ∧
    (redsOf remote 3 none)[0]? = some (k 1 sb) ∧ answerOf (s (k 1 sb)) (k 1 sb) = .refuse ∧
    answerOf clash (k 0 sb) = .conflict ∧ answerOf (s (k 0 sb)) (k 0 sb) = .take ∧ (s (k 1 sb)).clock.now < (k 1 sb).since + limit ∧
    (k 1 sb).since + limit ≤ ((s (k 1 sb)).setClock { Clock.reset with now := limit }).clock.now ∧
    served (wakeFor (fill 128) 1) (tgPage 3) = true ∧ bitOf (pget (wakeFor go 1) (tgPage 3) 0x294) 0 = true ∧
    bitOf (pget (wakeFor (fill 128) 1) (tgPage 3) 0x294) 0 = false ∧ fillOk (wakeFor (fill 128) 1) 3 range.1 range.2 = true ∧
    fillOk (wakeFor (fill 0) 1) 3 (fillRange (fill 0) 3).1 (fillRange (fill 0) 3).2 = false ∧
    kfind (State.reset.setEng { Engines.reset with fills := [(3, range)] }).eng.fills 3 = some range ∧
    3 * 3 * tileBytes ≤ range.1 ∧ range.1 + range.2 ≤ (3 * 3 + 3) * tileBytes ∧ (∀ j < 3, tileOpen .reset (3 * 3 + j)) := by
  refine ⟨pathsGood_of (by decide +kernel), ?_⟩
  unfold tileOpen; decide +kernel

theorem witness_Flits_and_bridges :
    let s := State.reset
    let arb : ArbOut := .die 3 0
    let l (w : Bool) : List ArbInput := [⟨.leaf (.port 7), w⟩, ⟨.out (.strip 11 2), w⟩]
    let one := pset s (bridgeEnds 3).1 0x080 8
    (∀ x ∈ l true, arbFeeds arb x.src = true) ∧ (∃ x, (l true)[1]? = some x ∧ x.waiting = true) ∧
    (∀ x ∈ l false, x.waiting = false) ∧ arbFeeds arb (.out (.strip 0 2)) = false ∧
    bitOf (fld (pget (pset s (bridgeEnds 3).1 0x080 7) (bridgeEnds 3).1 0x080) 3 0) 3 = false ∧
    bitOf (fld (pget s (bridgeEnds 3).1 0x080) 3 0) 3 = true ∧ setBitN (fld (pget s (bridgeEnds 3).1 0x080) 3 0) 3 false ≠ 0 ∧
    setBitN (fld (pget one (bridgeEnds 3).1 0x080) 3 0) 3 false = 0 := by
  refine ⟨by decide +kernel, ⟨⟨.out (.strip 11 2), true⟩, by decide +kernel⟩, by decide +kernel⟩

theorem witness_Tile_halves :
    let s := State.reset
    let sleepy (n : Nat) := (pset s (fbPage 11) 0x080 3).setClock { Clock.reset with now := n }
    let idle := 1000 * max 1 (fld (pget s (fbPage 11) 0x088) 15 0)
    let h (c : Nat) := setHalf s 11 1 c
    let woken (n : Nat) := ((h 2).setStore { Storage.reset with wakeSince := [(23, 0)] }).setClock { Clock.reset with now := n }
    let full := (h 2).setStore { Storage.reset with seam := [(23, List.replicate 64 ⟨.host, 0, 0, false⟩)] }
    let fifo (x : State) : Nat := (kget [] x.store.seam 23).length
    halfGated (h 4) 11 1 = true ∧ halfGated (h 2) 11 1 = false ∧ bitOf (4#32).toNat (2 + 0) = true ∧
    (⟨.host, 0, 0, false⟩ ∈ kget [] full.store.seam 23 ∧ 0 + 8000 < (full.setClock { Clock.reset with now := 8001 }).clock.now) ∧
    (tileUp (sleepy idle) 11 = true ∧ halfState (sleepy idle) 11 1 = 0 ∧ bitOf (pget (sleepy idle) (fbPage 11) 0x080) 1 = true ∧
      halfIdle (sleepy idle) 11 1 = true ∧ kget 0 (sleepy idle).store.idleSince 23 + idle ≤ (sleepy idle).clock.now) ∧
    (sleepy (idle - 1)).clock.now < idle ∧ halfState (h 1) 11 1 = 1 ∧ halfState (h 3) 11 1 = 3 ∧ halfState (h 4) 11 1 = 4 ∧
    halfState (h 2) 11 1 = 2 ∧ tileUp (h 2) 11 = true ∧ tileUp (h 4) 11 = true ∧
    tileUp (setSvc s 11 6) 11 = false ∧ fifo (h 2) < 64 ∧
    64 ≤ fifo full ∧ (((woken 8001).setQuench { Quench.reset with holding := true }).quench.holding = true) ∧ kfind (woken 8001).store.wakeSince 23 = some 0 ∧ halfState (woken 8001) 11 1 = 2 ∧
    (woken 8001).quench.holding = false ∧ 8000 < (woken 8001).clock.now ∧ served (wakeFor (h 2) 1) (fbPage 11) = true := by
  decide +kernel

theorem witness_Host_windows :
    let s := State.reset
    pathsGood s ∧ awake s ∧ 0x10000000 < (0xFFFFFFF#48).toNat + 2 ∧ 2 ^ s.host.bar4Log < (0xFFFFFFFFF#48).toNat + 2 ∧
    baseUp s ((0xFFFFFFF#48).toNat / 0x4000000) = true ∧ (0xFFFFFFF#48).toNat + 1 ≤ 0x10000000 ∧
    (0xFFFFFFF#48).toNat % 128 + 1 ≤ 128 ∧ (0xFFFFFFF#48).toNat / 0x4000000 = 3 ∧ cntFrozen s (bridgePage 1 true) = false ∧
    s.mem.parityBad (sbBase 0 + (0xFFFFFFF#48).toNat) 1 = false ∧ s.store.held = [] ∧
    4 * 2 ^ (1 : Fin 3).val ≤ 8 ∧ (0xFFFFFF8#28).toNat % 8 = 0 ∧ baseUp s ((0xFFFFFF8#28).toNat / 0x4000000) = true ∧
    s.mem.parityBad (sbBase 3 + 0x3FFFFF8) 8 = false ∧
    (s.setMem (s.mem.setParity (sbBase 3 + 0x3FFFFF8) 4 true)).mem.parityBad (sbBase 3 + 0x3FFFFF8) 8 = true ∧
    8 < 4 * 2 ^ (2 : Fin 3).val ∧ (0xFFFFFF9#28).toNat % 8 ≠ 0 ∧ HostBar.bar0 ≠ .bar2 := by
  refine ⟨pathsGood_of (by decide +kernel), ?_⟩
  unfold awake; decide +kernel


theorem witness_Cxl_memory :
    let s := State.reset.setHost { HostPort.reset with hdm := true }
    let x := regionBase 0
    let good := s.setMem (s.mem.markGood x 128)
    let snoop := s.setHost { s.host with snoop := [x / 128] }
    let w : BiSnp := ⟨x / 128, 0, x, [], 0⟩
    let wait (n : Nat) := (s.setHost { s.host with bisnps := [w] }).setClock { Clock.reset with now := n }
    pathsGood good ∧ (State.reset.setHost { HostPort.reset with hdm := false }).host.hdm = false ∧ cxlServes good = true ∧ awake good ∧
    (s.setSvc { s.svc with fuse := { fuse0 with code := 2 } }).svc.fuse.code ≠ 1#8 ∧
    regionFenced s 0 = false ∧ (0 : Nat) < regionTop s 0 ∧ (lpOf s ((regionChan s 0 0).1 / 4)).gb = [] ∧ good.mem.lineGood x = true ∧
    good.host.snoop.length < 131072 ∧ s.store.held = [] ∧ daKind 0x20000000000 = .shared 0 0 ∧ daKind x = .lpddr 0 0 ∧
    x / 128 ∈ snoop.host.snoop ∧ w ∈ (wait 0).host.bisnps ∧ s.host.bisnps = [] ∧ x / 128 ∉ s.host.snoop ∧ line0.length = 128 ∧
    x % 128 = 0 ∧ (wait 10000000).host.bisnps[0]? = some w ∧ w.since + 10000000 ≤ (wait 10000000).clock.now ∧
    (wait 9999999).clock.now < w.since + 10000000 := by
  refine ⟨pathsGood_of (by decide +kernel), ?_⟩
  unfold awake; decide +kernel

theorem witness_Host_resets :
    let s := State.reset
    let low := s.setHost { HostPort.reset with perst := true }
    low.host.perst = true ∧ s.host.perst = false ∧ s.chain.opens = [] ∧ s.host.bisnps = [] ∧ (LinkRate.g64 ≠ .g64 ∨ LinkWidth.x8 ≠ .x16) := by
  decide +kernel

/-- A state with a frame in the inbox of port 7, in state `st`. -/
def gets (s : State) (st : Nat) (f : Frame) : State :=
  pset (setPort s 7 { Port.reset with inbox := [f] }) (cpPage 7) 0x08C st

/-- A frame of a type with an argument. -/
def frameOf (type : Byte) (arg : Word64) : Frame := { frame0 with type := type, arg := arg }

/-- What stands when the frame of port 7 has been taken. -/
def takenFrom (s : State) : State := setPort s 7 { portOf s 7 with inbox := [] }

/-- The oldest frame of a type in the inbox of port 7. -/
def front (s : State) (type : Nat) : Option Frame := (portOf s 7).inbox.find? fun f => f.type.toNat = type

/-- A port in service with nothing unacknowledged and nothing held takes every frame there is (R354, R358). -/
theorem canSend_of {s : State} {c : Nat} {f : Frame} (h : portState s c = 2) (t : (portOf s c).tx = [])
    (w : (portOf s c).held = []) (n : f.payload.length ≤ 4096) : canSend s c f = true := by
  have k : frameSize f ≤ 2 ^ 20 := by unfold frameSize; omega
  simp [canSend, h, t, w]; exact k

theorem hasRoom_of {s : State} {c : Nat} (vc : Bool) {n : Nat} (h : portState s c = 2) (t : (portOf s c).tx = [])
    (w : (portOf s c).held = []) (k : n ≤ 4096) : hasRoom s c vc n :=
  fun _ _ p => canSend_of h t w (p ▸ k)

theorem not_hasRoom_of {s : State} {c : Nat} {n : Nat} (f : Frame) (p : f.payload.length = n)
    (h : canSend s c f = false) : ¬ hasRoom s c (onControl f) n :=
  fun r => by rw [r f rfl p] at h; exact nomatch h

theorem witness_Chain_ports_and_neighbours :
    let st (n : Nat) := pset .reset (cpPage 7) 0x08C n
    let id := frameOf 1 0
    let tx : TxFrame := ⟨frame0, 0, none, 0⟩
    let rsp := frameOf 5 0
    let asked := setPort (gets .reset 2 rsp) 7 { portOf (gets .reset 2 rsp) 7 with sync1 := some 0 }
    let parent := pset asked (modPage 8) 0x080 0x70000
    let body (n : Nat) := { frameOf 4 0 with payload := List.replicate n 0 }
    let stuck := setPort (st 2) 7 { Port.reset with held := [{ tx with frame := body 9 }] }
    (hasRoom (st 2) 7 true 9 ∧ ¬ hasRoom stuck 7 true 9 ∧ hasRoom (gets .reset 2 (frameOf 4 0)) 7 true 17) ∧
    portState stuck 7 = 2 ∧ portState (gets .reset 2 (frameOf 4 0)) 7 = 2 ∧
    kfind (gets .reset 2 (frameOf 4 0)).chain.expect 7 = none ∧
    portState (st 1) 7 = 1 ∧ portState (st 4) 7 = 4 ∧ portState (st 0) 7 ≠ 1 ∧ lanesUsed (st 1) 7 0x7F ≠ 0xFF ∧
    lanesUsed (st 1) 7 0xFF ≠ 0 ∧ lanesUsed (st 1) 7 0x77 = 0 ∧ served (wakeFor (st 2) 1) (cpPage 7) = true ∧
    portState (wakeFor (st 2) 1) 7 = 2 ∧ portState (st 5) 7 = 5 ∧ portState (st 3) 7 ≠ 0 ∧
    bitOf (pget (pset (st 0) (cpPage 7) 0x080 1) (cpPage 7) 0x080) 0 = true ∧
    front (gets .reset 2 id) 1 = some id ∧ front .reset 1 = none ∧
    kfind (State.reset.setChain { Chain.reset with expect := [(7, (0, 0))] }).chain.expect 7 = some (0, 0) ∧
    kfind State.reset.chain.expect 7 ≠ some (0, 0) ∧ portState (gets .reset 2 id) 7 = 2 ∧
    front (gets .reset 2 (frameOf 4 0)) 4 = some (frameOf 4 0) ∧ front asked 5 = some rsp ∧
    (portOf (gets .reset 2 rsp) 7).sync1 = none ∧ (portOf asked 7).sync1 = some 0 ∧ parentPort asked ≠ some 7 ∧
    parentPort parent = some 7 ∧ running parent = false ∧ running (pset parent (modPage 11) 0x080 1) = true ∧
    (setPort .reset 7 { Port.reset with tx := [tx] }).chain.ports ≠ [] := by
  refine ⟨⟨hasRoom_of _ (by decide +kernel) (by decide +kernel) (by decide +kernel) (by decide), ?_,
    hasRoom_of _ (by decide +kernel) (by decide +kernel) (by decide +kernel) (by decide)⟩, by decide +kernel⟩
  exact not_hasRoom_of { frameOf 4 0 with payload := List.replicate 9 0 } (by decide) (by decide +kernel)

theorem witness_Link_frames :
    let up := pset .reset (cpPage 7) 0x08C 2
    let f (dst : BitVec 16) (type : Byte) (n : Nat) : Frame :=
      { frame0 with dst := dst, type := type, arg := 0xFFFFFFFF, payload := List.replicate n 0 }
    let own := BitVec.ofNat 16 (ownNode up)
    let tr (g : Frame) := setPort up 7 { Port.reset with transit := [g] }
    let route (s : State) := pset (s.setChain { s.chain with routes := [(0xFFFE, 0xFFFE, 1)] }) (cpPage 0) 0x08C 2
    let x (n : Nat) : TxFrame := ⟨{ frame0 with lseq := 0xFFFFFFFF }, n, none, 0⟩
    let nak (l : List TxFrame) := setPort (gets .reset 2 (f 0 3 0)) 7 { portOf (gets .reset 2 (f 0 3 0)) 7 with tx := l }
    let far := f 0xFFFE 0x12 0
    let went := { far with lseq := 0 }
    let heldOut := setPort (route (tr far)) 0 { Port.reset with held := [⟨far, 0, none, 0⟩] }
    (pathsGood up ∧ pathsGood (route (tr far)) ∧ pathsGood heldOut ∧ canSend (route (tr far)) 0 far = true) ∧ awake up ∧
    canSend heldOut 0 far = false ∧ (passPort heldOut far).1 = some 0 ∧ some (frameCrc went) = some (frameCrc went) ∧
    (none : Option (BitVec 32)) ≠ some (frameCrc went) ∧ (f 0 3 0).payload = [] ∧
    (((f 0 3 0).lseq.toNat + 2 ^ 32 - 1) % 2 ^ 32 = 2 ^ 32 - 1 ∧ 2 ^ 31 ≤ 2 ^ 32 - 1) ∧
    ((({ frame0 with lseq := 2 } : Frame).lseq.toNat + 2 ^ 32 - 1) % 2 ^ 32 = 1) ∧
    (portOf (nak [x 7]) 7).held = [] ∧ portState (nak [x 7]) 7 = 2 ∧
    ((portOf (tr far) 7).transit.find? onControl <|> (portOf (tr far) 7).transit.head?) = some far ∧
    ¬ (portState .reset 7 = 2 ∨ (portState .reset 7 = 3 ∧ (f 0 1 0).type = 1)) ∧ portState up 7 = 2 ∧
    (1 ≤ (f 0 3 0).type.toNat ∧ (f 0 3 0).type.toNat ≤ 3) ∧ ¬ (f 0 4 0).type.toNat ≤ 3 ∧ (portOf up 7).rxSeq < 2 ^ 32 ∧
    (f 0 4 0).lseq.toNat = (portOf up 7).rxSeq % 2 ^ 32 ∧ ({ frame0 with lseq := 0xFFFFFFFF } : Frame).lseq.toNat ≠ 0 ∧
    ¬ ((f (own + 1) 0x12 0).dst.toNat = ownNode up ∨ bitOf (f (own + 1) 0x12 0).fl.toNat 0 = true) ∧ (f own 0x12 0).dst.toNat = ownNode up ∧
    pState up = 0 ∧ up.power.entering = none ∧ Machine.frameOk (f own 0x12 0) = true ∧ Machine.frameOk (f own 0x10 127) = false ∧
    (portOf up 7).transit = [] ∧ (portOf (tr (f 0xFFFE 0x12 0)) 7).transit = [f 0xFFFE 0x12 0] ∧
    passPort (tr (f 0xFFFE 0x12 0)) (f 0xFFFE 0x12 0) = (none, tr (f 0xFFFE 0x12 0)) ∧
    (passPort (route (tr (f 0xFFFE 0x12 0))) (f 0xFFFE 0x12 0)).1 = some 0 ∧ portState (route (tr (f 0xFFFE 0x12 0))) 0 = 2 ∧
    front (gets .reset 2 (f 0 2 0)) 2 = some (f 0 2 0) ∧ front (nak [x 7]) 3 = some (f 0 3 0) ∧
    seqLe (fld (f 0 3 0).arg.toNat 31 0) (x 7).frame.lseq.toNat = true ∧
    (∀ y ∈ (portOf (gets .reset 2 (f 0 3 0)) 7).tx, seqLe 0 y.frame.lseq.toNat = false) := by
  refine ⟨⟨pathsGood_of (by decide +kernel), pathsGood_of (by decide +kernel), pathsGood_of (by decide +kernel),
    canSend_of (by decide +kernel) (by decide +kernel) (by decide +kernel) (by decide)⟩, ?_⟩
  unfold awake; decide +kernel

theorem witness_Delivery_and_chain_barriers :
    let sb := 0x2000FFFFF80
    let f (type : Byte) (addr ext : Word64) (n : Nat) : Frame :=
      { frame0 with type := type, addr := addr, ext := ext, payload := List.replicate n 1 }
    let g (type : Byte) (addr ext : Word64) (n : Nat) := gets .reset 2 (f type addr ext n)
    let e (i : Nat) : Word64 := BitVec.ofNat 64 (2 ^ 36 + 0xE * 2 ^ 32 + 2 * 2 ^ 16 + i)
    let k (i : Nat) : Contribution := ⟨0, none, List.replicate 128 1, sb, 128, i, 2, 0xE, 0, 0, some (0, 0)⟩
    let clash (s : State) := { s with store := { s.store with adders := [(403, [⟨sb, 256, 2, 0xE, 0, 0, []⟩])] } }
    let cfg (n : Nat) (s : State) := pset (setBar s true 0 7 { BarGroup.reset with members := 1 }) (basePage 0 0) 0x46C (ownNode s + n * 2 ^ 16 + 2 ^ 28)
    let bar (type fl : Byte) (n : Nat) (arr : Nat) :=
      let s := cfg n (gets .reset 2 { frameOf type 3 with fl := fl })
      setBar s true 0 7 { barOf s true 0 7 with arrived := arr }
    let half := f 0x10 (BitVec.ofNat 64 (11 * tileBytes)) 0 128
    pathsGood (takenFrom (g 0x10 0x2000FFFFF80 0 128)) ∧ firstRun (f 0x10 0x2000FFFFF80 0 128).tag.toNat ∧
    cannotLand (takenFrom (g 0x10 0x30000000000 0 128)) (f 0x10 0x30000000000 0 128) ∧
    cannotLand (takenFrom (g 0x10 0x40000000000 0 128)) (f 0x10 0x40000000000 0 128) ∧
    front (held (gets .reset 2 half) 11) 0x10 = some half ∧
    (frameHalves half).any (halfHeld (held (gets .reset 2 half) 11)) = true ∧
    (frameHalves half).any (halfHeld (gets .reset 2 half)) = false ∧
    (∀ x ∈ [0x10, 0x11], (frameHalves (f x 0x2000FFFFF80 0 128)).any (halfHeld (g x 0x2000FFFFF80 0 128)) = false) ∧
    front (g 0x10 0x30000000000 0 128) 0x10 = some (f 0x10 0x30000000000 0 128) ∧ daKind sb = .shared 3 0x3FFFF80 ∧ baseUp (takenFrom (g 0x10 0x2000FFFFF80 0 128)) 3 = true ∧
    (takenFrom (g 0x10 0x2000FFFFF80 0 128)).store.held = [] ∧ sb % 128 + 128 ≤ 128 ∧
    front (g 0x11 0x2000FFFFF80 (e 0) 128) 0x11 = some (f 0x11 0x2000FFFFF80 (e 0) 128) ∧ bitOf (e 0).toNat 36 = true ∧
    redRangeOk sb 128 = true ∧ redRangeOk sb 256 = false ∧ answerOf (takenFrom (g 0x11 0x2000FFFFF80 (e 1) 128)) (k 1) = .refuse ∧
    answerOf (clash (takenFrom (g 0x11 0x2000FFFFF80 (e 0) 128))) (k 0) = .conflict ∧
    answerOf (takenFrom (g 0x11 0x2000FFFFF80 (e 0) 128)) (k 0) = .take ∧
    front (gets .reset 2 (frameOf 0x12 63)) 0x12 = some (frameOf 0x12 63) ∧
    front (bar 0x13 0 2 0) 0x13 = some (frameOf 0x13 3) ∧ front (bar 0x14 0 2 0) 0x14 = some (frameOf 0x14 3) ∧
    front (bar 0x15 1 2 0) 0x15 = some { frameOf 0x15 3 with fl := 1 } ∧
    barCurrent (takenFrom (bar 0x13 0 2 0)) (frameOf 0x13 3) = true ∧
    cbRoot (takenFrom (bar 0x13 0 2 0)) 3 = ownNode (takenFrom (bar 0x13 0 2 0)) ∧
    (cbOf (takenFrom (bar 0x13 0 2 0)) 3).arrived + 1 < cbMembers (takenFrom (bar 0x13 0 2 0)) 3 ∧
    cbMembers (takenFrom (bar 0x13 0 1 0)) 3 ≤ (cbOf (takenFrom (bar 0x13 0 1 0)) 3).arrived + 1 ∧
    barCurrent (takenFrom (bar 0x14 0 2 0)) (frameOf 0x14 0x10003) = false ∧
    served (wakeFor (bar 0x13 0 2 0) 1) (basePage 0 0) = true ∧ (barOf (wakeFor (bar 0x13 0 2 1) 1) true 0 7).arrived ≠ 0 ∧
    (barOf (wakeFor (bar 0x13 0 2 0) 1) true 0 7).arrived = 0 := by
  refine ⟨pathsGood_of (by decide +kernel), rfl, ⟨0x30000000000, by decide, .inl ⟨0, by decide +kernel⟩⟩,
    ⟨0x40000000000, by decide, .inr (.inl (by decide +kernel))⟩, by decide +kernel⟩

/-- A module with a chain plan of two segments in slot 3, at its second segment, in a period. -/
def segment : State :=
  (setPlan (fetched 2) 3 { slotIn .active with chain := some (chain0 1) }).setSched { Sched.reset with inPeriod := true, len := 2000000 }

theorem witness_Chain_decisions :
    let in' (s : State) (f : Frame) := takenFrom (gets s 2 f)
    let adm (k : Word64) : Frame := { frame0 with type := 0x20, ext := k, payload := le 16 7 }
    let s := setSeq segment 7 { seqIn .ready with slot := 3 }
    let grp := s.setSched { s.sched with groups := [group1] }
    let held' := pset s (scPage 11 31) 0x020 (2 ^ 11)
    front (gets s 2 (adm 0)) 0x20 = some (adm 0) ∧ slotOfUid (in' s (adm 0)) 0 = some 3 ∧ slotOfUid (in' s (adm 0)) 1 = none ∧
    (notHead (in' s (adm 0)) 3 = true ∧ slotRuns (in' s (adm 0)) 3 = true) ∧ notHead (setPlan s 3 (slotIn .active)) 3 = false ∧
    ((admitEntries (adm 0).payload).filter fun e => (seqOf s e.seq).slot = 3 && (seqOf s e.seq).state != .free) = [⟨7, 0, 0, 0, 0⟩] ∧
    (adm 0).ext.toNat = s.sched.num ∧ s.sched.inPeriod = true ∧ (adm 1).ext.toNat = (s.sched.num + 1) % 2 ^ 64 ∧
    (adm 2).ext.toNat ≠ (s.sched.num + 1) % 2 ^ 64 ∧ frameTag (frameOf 0x21 0) 3 = 96 ∧
    front (gets grp 2 (frameOf 0x21 0)) 0x21 = some (frameOf 0x21 0) ∧
    (∀ y ∈ s.sched.groups, y.tag = 96 → y.passed = false) ∧ grp.sched.groups.find? (fun g => g.tag = 96) = some group1 ∧
    (planOf grp 3).chain = some (chain0 1) ∧ group1.slot = 3 ∧ group1.passed = true ∧ group1.fate = .running ∧ mayCommit grp group1 = true ∧
    grp.clock.now < grp.sched.start + grp.sched.len ∧ 
    (∀ j < (chain0 1).count - 1, j ∈ group1.chainReports ++ [frameSeg (frameOf 0x21 0)]) ∧
    (chain0 1).index + 1 = (chain0 1).count ∧ (fatalHold s = false ∧ fatalHold held' = true) ∧
    (slotRuns s 3 = true ∧ slotRuns .reset 3 = false) := by
  decide +kernel

/-- A group that waits for its decision, the decision that commits it, and the ones that do not (R368). -/
theorem witness_Chain_decisions_made :
    let s := setSeq segment 7 { seqIn .ready with slot := 3 }
    let grp := s.setSched { s.sched with groups := [group1] }
    let waits := s.setSched { s.sched with awaiting := [(0, 1000, group1)], records := [(0, [(96, [7])])] }
    let dec (n : Nat) : List Byte := le 8 0 ++ le 8 0 ++ le 2 n ++ le 2 2 ++ le 4 0
    front (gets waits 2 (frameOf 0x22 0)) 0x22 = some (frameOf 0x22 0) ∧ frameTag (frameOf 0x22 0) 3 = 96 ∧
    recordedMembers waits 96 = [7] ∧ decisionWhole (addPart waits 96 1 (dec 7)) = none ∧
    decisionWhole (addPart waits 96 0 (dec 7)) = some (dec 7) ∧ decisionRecords 1 ((dec 7).drop 16) = some [⟨7, 2, 0, []⟩] ∧
    decisionRecords 1 ((dec 8).drop 16) = some [⟨8, 2, 0, []⟩] ∧ 96 ∉ waits.chain.drops ∧
    96 ∈ (waits.setChain { Chain.reset with drops := [96] }).chain.drops ∧
    96 ∈ (waits.setChain { Chain.reset with commits := [96] }).chain.commits ∧
    openGroup waits 96 = some (0, 1000, group1) ∧ openGroup grp 96 = some (0, 2000000, group1) ∧ field (dec 7) 0 8 < 1000 ∧
    (∀ x ∈ waits.sched.awaiting, x.2.2.tag = 96 → waits.clock.now < x.2.1 + decisionTravel (planOf waits x.2.2.slot).segs 1) ∧
    front (gets waits 2 (frameOf 0x23 0)) 0x23 = some (frameOf 0x23 0) ∧
    (planOf waits 3).chain.any (fun x => x.index + 1 = x.count) = true ∧ waits.sched.awaiting[0]? = some (0, 1000, group1) ∧
    waits.sched.awaiting[1]? = none := by
  decide +kernel

theorem witness_Chain_decisions_end :
    let in' (s : State) (f : Frame) := takenFrom (gets s 2 f)
    let s := setSeq segment 7 { seqIn .ready with slot := 3 }
    let grp := s.setSched { s.sched with groups := [group1] }
    let late := s.setSched { s.sched with awaiting := [(0, 0, group1)] }
    let com (part : Word64) : Frame := { frame0 with type := 0x22, arg := part, payload := List.replicate 16 0 }
    let d (part : Word64) := addPart (in' grp (com part)) 96 (fld part.toNat 31 16) (com part).payload
    let recs (l : List Byte) := decisionRecords (recordedMembers (in' grp (com 0)) 96).length (l.drop 16)
    let dropped := grp.setChain { grp.chain with drops := [96], commits := [96] }
    front (gets grp 2 (com 0)) 0x22 = some (com 0) ∧ (decisionWhole (d 0x10000)).bind recs = none ∧
    decisionWhole (d 0) = some (com 0).payload ∧ recs (com 0).payload = some [] ∧ 96 ∈ dropped.chain.drops ∧
    notHead dropped 3 = true ∧ notHead (setPlan dropped 3 { slotIn .active with chain := some (chain0 0) }) 3 = false ∧
    96 ∉ grp.chain.drops ∧ openGroup (in' grp (com 0)) 96 = some (0, 2000000, group1) ∧ field (com 0).payload 0 8 < 2000000 ∧
    front (gets grp 2 (frameOf 0x23 0)) 0x23 = some (frameOf 0x23 0) ∧ 96 ∉ grp.chain.commits ∧ 96 ∈ dropped.chain.commits ∧
    (planOf dropped 3).chain.any (fun x => x.index + 1 = x.count) = true ∧ s.sched.awaiting[0]? = none ∧
    late.sched.awaiting[0]? = some (0, 0, group1) := by decide +kernel

theorem witness_Chain_sequences :
    let in' (s : State) (f : Frame) := takenFrom (gets s 2 f)
    let sync (op n : Nat) (ext : Word64) : Frame :=
      { frame0 with type := 0x24, arg := BitVec.ofNat 64 (n + op * 2 ^ 16), ext := ext, payload := List.replicate 64 0 }
    let s := segment
    let used := setSeq s 4095 { seqIn .ready with slot := 3 }
    front (gets s 2 (sync 1 4095 0)) 0x24 = some (sync 1 4095 0) ∧ slotOfUid (in' s (sync 1 4095 0)) 0 = some 3 ∧
    indexFree (in' used (sync 1 4095 0)) 4095 = false ∧ indexFree (in' s (sync 1 4095 0)) 4095 = true ∧
    (openChecks (in' s (sync 1 4095 0)) 3 0 0).1 = none ∧ (openChecks (in' .reset (sync 1 4095 0)) 3 0 0).1 ≠ none ∧
    (seqOf used 4095).slot = 3 ∧ (seqOf used 4095).state = .ready ∧ (seqOf s 4095).state ≠ .ready ∧ nextCutoff used ≤ (1#64).toNat ∧
    (0#64).toNat < nextCutoff used ∧ seqMove (seqOf used 4095).state (syncOp 2) = some .suspended := by decide +kernel

/-- A SEQ_OPEN on a chain that waits for its answers, and the answers (R367). -/
theorem witness_Chain_sequences_answered :
    let in' (s : State) (f : Frame) := takenFrom (gets s 2 f)
    let s := segment
    let o (a : Option Bool) : ChainOpen := ⟨63, 1, 3, 4095, 1, 0, .reset, [⟨0, a, 0, 0⟩]⟩
    let opens (a : Option Bool) := s.setChain { s.chain with opens := [o a] }
    let opened (x : State) := setPair' x 63 { pairOf x 63 with opens := [(1, none)] }
    let ack : Frame := frameOf 0x25 (BitVec.ofNat 64 (4095 + 2 ^ 16 + 2 ^ 20))
    let mine (o : ChainOpen) : Bool := o.slot = 3 && o.index = fld ack.arg.toNat 15 0 && o.round = fld ack.arg.toNat 23 20
    let pair : ChainOpen := { o none with answers := [⟨0, none, 0, 0⟩, ⟨1, none, 0, 0⟩] }
    let all (o : ChainOpen) := (o.answers.filter fun x => x.node != ack.src.toNat) ++
      if o.answers.any (·.node = ack.src.toNat) then [⟨ack.src.toNat, some (bitOf ack.arg.toNat 16), fld ack.arg.toNat 31 24, 0⟩] else []
    (∃ x ∈ all pair, x.accept = none) ∧ (∃ x ∈ (o none).answers, x.accept = none) ∧ front (gets s 2 ack) 0x25 = some ack ∧
    (∀ x ∈ s.chain.opens, mine x = false) ∧ (opens none).chain.opens.find? mine = some (o none) ∧
    all (o none) = [⟨0, some true, 0, 0⟩] ∧ takesEntry (in' (opened (opens none)) ack) 63 ∧
    (pairOf (in' (opened (opens none)) ack) 63).opens = [((o none).cid, none)] ∧
    1000000 ≤ ((opens none).setClock { Clock.reset with now := 1000000 }).clock.now ∧ (opens none).clock.now < 1000000 ∧
    (opens none).chain.opens[0]? = some (o none) ∧ (∀ x ∈ (o (some true)).answers, x.accept ≠ none) := by
  unfold takesEntry; decide +kernel

/-- The frames of a replay on a peer (R369). -/
theorem witness_Chain_sequences_replayed :
    let s := segment
    let rpl (type : Byte) (total : Nat) (ext addr : Word64) : Frame :=
      { frameOf type (BitVec.ofNat 64 (total * 2 ^ 32)) with ext := ext, addr := addr, tag := 96 }
    let peer : Replay := ⟨some 1, unitPhy 0x80 0xFF, false, 0, false, 0, [], []⟩
    let replayed := { group0 with tag := 96, replays := [peer] }
    let again := s.setSched { s.sched with groups := [replayed] }
    cannotLand s (rpl 0x31 1 0 0x30000000000) ∧ pathsGood s ∧
    (frameHalves (rpl 0x30 128 3 0)).any (halfHeld s) = false ∧ (frameHalves (rpl 0x31 0 3 0)).any (halfHeld s) = false ∧
    front (gets s 2 (rpl 0x30 128 3 0)) 0x30 = some (rpl 0x30 128 3 0) ∧ s.chain.landings = [] ∧
    fld (rpl 0x30 128 3 0).arg.toNat 63 32 = 128 ∧ (planOf s 3).state ≠ .empty ∧ (planOf s 2).state = .empty ∧
    (rpl 0x30 0 3 0).payload.length < 128 ∧ fld (rpl 0x30 0 3 0).arg.toNat 63 32 = 0 ∧ fld (rpl 0x30 0 3 0).ext.toNat 15 0 = 3 ∧
    ({ rpl 0x30 128 3 0 with payload := line0 } : Frame).payload ≠ [] ∧
    front (gets s 2 (rpl 0x31 0 3 0)) 0x31 = some (rpl 0x31 0 3 0) ∧
    again.sched.groups.find? (fun x => x.tag = tagBase 96) = some replayed ∧
    daKind (rpl 0x31 1 0 0x2000FFFFF80).addr.toNat = .shared 3 0x3FFFF80 ∧ baseUp s 3 = true ∧ s.store.held = [] ∧
    workGroup s ⟨.port 7, 96 + 128⟩ = none ∧ workGroup again ⟨.port 7, 96 + 128⟩ = some replayed ∧
    replayOf again replayed (.port 7) = some peer ∧ peer.unit.isSome = true ∧
    fld (rpl 0x31 1 0 0x30000000000).arg.toNat 63 32 ≠ 0 := by
  refine ⟨⟨0x30000000000, by decide, .inl ⟨0, by decide +kernel⟩⟩, pathsGood_of (by decide +kernel), ?_⟩
  decide +kernel


theorem witness_Power_states :
    let s := State.reset
    let busy := s.setHost { s.host with dmas := [⟨0, 0, true, 0, 0, 0⟩] }
    let due := (pset (setSeq s 0 (seqIn .ready)) (modPage 11) 0x080 1).setSched { Sched.reset with next := some 100000000 }
    let pw (p : Power) (st : Nat) := pset (s.setPower p) pwrPage 0x094 st
    let enter (st : Nat) := pw { Power.reset with entering := some st } 0
    let wakes := pw { Power.reset with waking := some (0, 3) } 4
    portState (pset s (cpPage 7) 0x08C 2) 7 = 2 ∧ saveArea s = none ∧ residentSlots (setPlan s 3 (slotIn .active)) ≠ [] ∧
    workInProgress busy = true ∧ workInProgress s = false ∧ sequencesReady s = false ∧ workInProgress due = false ∧
    sequencesReady due = true ∧ running due = true ∧ nextStart due = some 100000000 ∧ s.power.entering = none ∧
    (enter 4).power.entering = some 4 ∧ fld (pget (enter 4) pwrPage 0x094) 4 4 = 0 ∧
    fld (pget (pw { Power.reset with entering := some 1 } 16) pwrPage 0x094) 4 4 = 1 ∧ (enter 4).power.waking = none ∧
    tileUp s 11 = true ∧ pget s (tilePage 11 0) 0x01C = 0 ∧ s.power.waking = none ∧ pState (pw .reset 4) ≠ 0 ∧ pState s = 0 ∧
    (pw { Power.reset with armed := some 7 } 2).power.armed = some 7 ∧ wakes.power.waking = some (0, 3) ∧ pState wakes = 4 ∧
    workInProgress wakes = false ∧
    wakeBound 4 < (wakes.setClock { Clock.reset with now := wakeBound 4 + 1 }).clock.now := by decide +kernel

/-- R393, worked by hand: a laggard below its floor is filled to its request, and what that frees goes to the rest; floors that exceed
the budget are granted as they are. -/
theorem test_budget_laggard :
    divideBudget 10 [(1, 2), (9, 3)] [true, false] = [1, 9] ∧ divideBudget 4 [(1, 2), (9, 3)] [true, false] = [2, 3] ∧
    divideBudget 8 [(6, 2), (9, 3)] [false, true] = [2, 6] := by decide

theorem witness_Power_budgets :
    let s := State.reset
    let b (k : Nat) (x : Budget) := setBudget s k x
    let c : CycleCount := ⟨BitVec.ofNat 11 (mcPage 11 31), 0x818, 7⟩
    ({ epoch0 with cycles := [c] } : EpochReading).cycles = [c] ∧ measuredCounter c.page.toNat c.off.toNat = true ∧
    pageServes s c.page.toNat = true ∧ cntFrozen s c.page.toNat = false ∧ tileUp s 11 = true ∧
    dieUp s 15 = true ∧ dieUp (setSvc s 11 6) 15 = false ∧ granter 15 = 3 ∧ pget (pset s (powerPage 15) 0x080 100) (powerPage 15) 0x080 ≠ 0 ∧
    pget (pset s (powerPage 15) 0x080 100) (powerPage 15) 0x080 * 105 < (106#16).toNat * 100 ∧ (15 : Fin 16).val = 4 + (11 : Fin 12).val ∧
    (messageGood (arrives (reportMessage s 15) []) = true ∧ messageGood (arrives (reportMessage s 15) [255]) = false) ∧
    (messageGood (arrives (requestMessage s 15) []) = true ∧ messageGood (arrives (requestMessage s 15) [255]) = false) ∧
    (let m := budgetMessage s 3 15 0 0 7 (floorOf s (tileDie 11)) 0
     messageGood (arrives m []) = true ∧ messageGood (arrives m [0]) = false) ∧
    (budgetOf (b (budgetKey 15) { Budget.reset with next := some 7 }) (budgetKey 15)).next = some 7 ∧
    kfind (budgetOf s (granter 15)).shares (budgetKey 15) = none ∧
    kfind (budgetOf (b (granter 15) { Budget.reset with shares := [(budgetKey 15, 7)] }) (granter 15)).shares (budgetKey 15) = some 7 ∧
    kfind (budgetOf (b (granter 3) { Budget.reset with shares := [(budgetKey 3, 7)] }) (granter 3)).shares (budgetKey 3) = some 7 ∧
    (budgetOf (b (budgetKey 15) { Budget.reset with missed := 2 }) (budgetKey 15)).missed < 3 ∧
    3 ≤ (budgetOf (b (budgetKey 15) { Budget.reset with missed := 3 }) (budgetKey 15)).missed ∧
    (budgetOf s (0x10 + 11)).target = none ∧
    (budgetOf (b (0x10 + 11) { Budget.reset with target := some 48 }) (0x10 + 11)).target = some 48 := by decide +kernel

theorem witness_Block_power :
    let s := State.reset
    let p := tilePage 11 0
    let goes (act dest : Nat) (l : Option Nat) := (pset s p 0x01C act).setPower { Power.reset with blocks := [(p, (dest, l))] }
    pageBlock 18 = none ∧ pageBlock p = some .tileControl ∧ pageServes (reach s p) p = true ∧ tileInUse (reach s p) 11 = false ∧
    tileInUse (setPlan s 3 { slotIn .active with reqs := [⟨0, false, 2 ^ 11, [], []⟩] }) 11 = true ∧
    pageBlock (nlPage 11 7) = some .layerCtl ∧ pageBlock (cpPage 7) = some .chainPort ∧ pageBlock (mcPage 11 31) = some .matrixCore ∧
    kfind (reach s p).power.blocks p = none ∧ pget (reach s p) p 0x01C < appliedPreq (reach s p) p 3 ∧
    appliedPreq (reach s p) p 0 = pget (reach s p) p 0x01C ∧
    appliedPreq (reach (pset s p 0x01C 3) p) p 0 < pget (reach (pset s p 0x01C 3) p) p 0x01C ∧
    kfind (reach (goes 5 0 none) p).power.blocks p = some (0, none) ∧ pget (reach (goes 5 0 none) p) p 0x01C = 5 ∧
    kfind (reach (goes 4 3 none) p).power.blocks p = some (3, none) ∧ appliedPreq (reach (goes 4 3 none) p) p 3 = 3 ∧
    pget (reach (goes 4 3 none) p) p 0x01C ≠ 5 ∧ kfind s.power.blocks p = none ∧
    kfind (goes 6 3 (some 0)).power.blocks p = some (3, some 0) := by decide +kernel

theorem witness_References_and_timebase :
    let s := State.reset
    let ld (now : Nat) := s.setClock { Clock.reset with now := now, loadReq := true }
    let int := pset s hhPage 0x08C (2 ^ 16)
    s.clock.loadReq = false ∧ (s.setClock { Clock.reset with now := 2 ^ 64 - 43 }).clock.now + 42 < 2 ^ 64 ∧ s.clock.hold = 0 ∧
    s.clock.trimAcc = 0 ∧ pget s hhPage 0x090 = 0 ∧ s.clock.slew = 0 ∧
    0 < (s.setClock { Clock.reset with hold := 1 }).clock.hold ∧ (ld 0).clock.loadReq = true ∧ running (ld 0) = false ∧
    running (pset (ld 0) (modPage 11) 0x080 1) = true ∧ parentPort (pset (ld 0) (modPage 8) 0x080 0xF0000) = none ∧
    (parentPort (pset (ld 0) (modPage 8) 0x080 0x70000)).isSome = true ∧
    pget (ld 0) (modPage 7) 0x088 + pget (ld 0) (modPage 7) 0x08C * 2 ^ 32 = (ld 0).clock.now ∧
    pget (ld 1) (modPage 7) 0x088 + pget (ld 1) (modPage 7) 0x08C * 2 ^ 32 < (ld 1).clock.now ∧
    bitOf (pget int hhPage 0x08C) 16 = true ∧ bitOf (pget s hhPage 0x08C) 16 = false ∧ -((1501#16).toInt * 100) < -150000 ∧
    150000 < -((64035#16).toInt * 100) := by decide +kernel

theorem witness_Input_and_trip :
    let s := State.reset
    let spot (a b : Nat) := setSpot s 15 33 { HotSpot.reset with st0 := a, st1 := b }
    let trip (t : Option Nat) := s.setQuench { Quench.reset with tripped := true, below := t }
    let air (b : Nat) := s.setQuench { Quench.reset with outlet := ⟨0, 0, b, 0⟩ }
    (1 : Nat) < 2 ∧ (bitOf (air 0).quench.outlet.bad 0 = false ∧ bitOf (air 0).quench.outlet.bad 1 = false) ∧
    (bitOf (air 1).quench.outlet.bad 0 = true ∧ bitOf (air 1).quench.outlet.bad 1 = false) ∧
    (bitOf (air 2).quench.outlet.bad 0 = false ∧ bitOf (air 2).quench.outlet.bad 1 = true) ∧
    (33 : Fin 34).val < spotCount 15 ∧ ((spotOf s 15 33).st0 ≠ 2 ∧ (spotOf s 15 33).st1 ≠ 2) ∧
    ((spotOf (spot 0 2) 15 33).st0 ≠ 2 ∧ (spotOf (spot 0 2) 15 33).st1 = 2) ∧
    ((spotOf (spot 2 0) 15 33).st1 ≠ 2 ∧ (spotOf (spot 2 0) 15 33).st0 = 2) ∧ s.quench.tripped = false ∧
    (trip none).quench.below = none ∧ (trip (some 7)).quench.tripped = true ∧ (trip (some 7)).svc.pwrEn = false ∧
    (trip (some 7)).quench.below = some 7 ∧ s.power.mainOn = false ∧
    (s.setPower { Power.reset with mainOn := true }).power.mainOn = true := by decide +kernel

theorem witness_Budget_division :
    let r : List (Nat × Nat) := [(10, 4), (2, 4)]
    r[1]? = some (2, 4) ∧ (r.map Prod.snd).sum ≤ 8 ∧ 7 ≤ (r.map Prod.snd).sum := by decide

theorem witness_Thermal_control :
    let s := State.reset
    let l (a b : BitVec 16) : List DiodeReading := [⟨15, 33, a, b⟩]
    let after (s : State) (l : List DiodeReading) (inlet : BitVec 16) :=
      readAir (readDiodes (s.setQuench { s.quench with evals := s.quench.evals + 1 }) l) (inlet, inlet) (0, 0)
    let s1 (l : List DiodeReading) := after s l 0
    let far (s : State) (r : HotSpot → Int) : Prop :=
      let h := spotOf s 15 33
      384 < (r h - spotModel s 15 33).natAbs ∧ 384 < (r h - consensus s 15 33).natAbs
    let mode (n : Nat) (q : Quench) := (pset s qnPage 0x090 n).setQuench q
    let warm := s.setQuench { Quench.reset with evals := 1, temps := List.replicate 1789 (8000 * 65536) }
    let hot := after warm (l 8000 8000) 0
    let h := spotOf hot 15 33
    let out := spotOf (after (setSpot s 15 33 { HotSpot.reset with st0 := 2, st1 := 2 }) (l 0 0) 0) 15 33
    (¬ far hot HotSpot.r0 ∧ ¬ far hot HotSpot.r1 ∧ h.st0 ≠ 2 ∧ h.st1 ≠ 2 ∧ (h.r0 - h.r1).natAbs ≤ 192 ∧
      spotLimit 15 33 + 320 ≤ max h.r0 h.r1) ∧ (out.st0 = 2 ∧ out.st1 = 2) ∧
    (15, 33) ∈ allSpots ∧ far (s1 (l 385 0)) HotSpot.r0 ∧ ¬ far (s1 (l 384 0)) HotSpot.r0 ∧ far (s1 (l 0 385)) HotSpot.r1 ∧
    ¬ far (s1 (l 385 0)) HotSpot.r1 ∧
    (∃ x ∈ limitedNodes 15, (∀ i < spotCount 15, spotNode 15 i ≠ x.1) ∧ x.2 + 320 ≤ nodeValue hot x.1) ∧
    11 ∈ emergencyTiles 15 ∧ tileUp s 11 = true ∧ riseAct s ≤ (after warm [] 8000).quench.inlet.rate ∧
    qnMode (mode 2 .reset) = 2 ∧ qnMode (mode 1 { Quench.reset with raw := 400 }) = 1 ∧
    400 ≤ (mode 1 { Quench.reset with raw := 400 }).quench.raw ∧ (mode 1 { Quench.reset with raw := 399 }).quench.raw < 400 ∧
    (mode 2 { Quench.reset with raw := 400, cool := some 7 }).quench.cool = some 7 ∧ s.quench.cool = none ∧ s.store.waits = [] ∧
    served (wakeFor s 1) (thermalPage 15) = true ∧ (33 : Nat) < spotCount 15 ∧
    (spotOf (wakeFor (setSpot s 15 33 { HotSpot.reset with st0 := 2 }) 1) 15 33).st0 = 2 := by decide +kernel

theorem witness_Faults_and_block_resets :
    let s := State.reset
    let p := mcPage 11 31
    let set := pset s p 0x020 1
    let key := srcKey p 0
    let clear (n : Nat) := set.setFlt { Flt.reset with reported := [key], storms := [(key, ⟨List.replicate n 0, false⟩)] }
    let x (urgent : Bool) : Stamp := ⟨p, 0, 0, false, false, 1, 0, [], 0, 0, 0, [], none, urgent⟩
    let rep (u : Bool) (n : Nat) := s.setFlt { Flt.reset with stamps := [x u], times := List.replicate n 0 }
    let down := s.setStore { Storage.reset with baseFenced := [3] }
    settingClass s (scPage 11 31) 11 = 2 ∧ pageServes (reach down p) p = false ∧ pageBlock p = some .matrixCore ∧ pageServes (reach s p) p = true ∧
    sourceDefined .matrixCore 0 = true ∧ mayClear set p 0 = false ∧ mayClear (clear 14) p 0 = true ∧
    (clearsNow (clear 14) p 0).length < 16 ∧ mayClear (clear 15) p 0 = true ∧ 16 ≤ (clearsNow (clear 15) p 0).length ∧
    sticky s p 0 = false ∧ liveBit (pset s p 0x070 1) p 0 = true ∧ nextStamp s = none ∧ nextStamp (rep true 0) = some (x true) ∧
    nextStamp (rep false 999) = some (x false) ∧
    ((rep false 999).flt.times.filter fun t => (rep false 999).clock.now < t + 1000000000).length < 1000 ∧
    1000 ≤ ((rep false 1000).flt.times.filter fun t => (rep false 1000).clock.now < t + 1000000000).length ∧
    bitOf (pget s (modPage 6) 0x094) 16 = false ∧ s.regs.resetReq.contains p = false ∧
    (s.setRegs { Regs.reset with resetReq := [p] }).regs.resetReq.contains p = true ∧ inReset (reach s p) p = false ∧
    inReset (s.setRegs { Regs.reset with inReset := [p] }) p = true ∧
    (let g := (setPlan s 3 { slotIn .active with reqs := [⟨0, false, 0, List.replicate 11 0 ++ [2 ^ 31], []⟩] }).setSched
      { Sched.reset with groups := [group1] }
     planOnBlock g 3 p = true ∧ tagLive g 96 = true) := by decide +kernel

theorem witness_Temper_tests :
    let s := State.reset
    let u := 39
    let on := (pset s (tmPage 11) 0x080 1).setClock { Clock.reset with now := 1000000000000 }
    let run (second : Bool) := s.setTests [(11, ⟨u, 0, second⟩)]
    bitOf (pget on (tmPage 11) 0x080) 0 = true ∧ pState on = 0 ∧ tileUp on 11 = true ∧ tested on 11 u = true ∧
    unitIdle on 11 u = true ∧ kfind on.tests 11 = none ∧ (unitOf on 11 u).tested + tmInterval on 11 ≤ activeTime on ∧
    nextStart on = none ∧ inReset on (tmPage 11) = false ∧ ¬ (unitOf s 11 u).tested + tmInterval s 11 ≤ activeTime s ∧
    kfind (run false).tests 11 = some ⟨u, 0, false⟩ ∧ kfind (run true).tests 11 = some ⟨u, 0, true⟩ ∧ overdue s 11 u = false ∧
    overdue on 11 u = true ∧ served (wakeFor s 1) (tmPage 11) = true ∧ unitOk 319 = true ∧
    tested (wakeFor s 1) 11 319 = true := by decide +kernel

/-- A slot of the flash whose header is right (R460). -/
def slot0 : FlashSlot :=
  ⟨guardedLine (le 4 0x46435654 ++ le 2 0x0100 ++ le 2 0 ++ le 4 6), true, image0⟩

theorem witness_Bring_up :
    let s := State.reset
    let cold := factoryState (unpowered s) (some (fuse0, some slot0, none))
    let sv (v : Service) := s.setSvc v
    let v : Service := { Service.reset with flashA := some slot0, current := some false, fuse := fuse0 }
    let trip (x : State) := x.setQuench { Quench.reset with tripped := true }
    let due (v : Service) := (s.setSvc { v with upOnce := true, restart := some 0 }).setPower { Power.reset with mainOn := true }
    let bits : List Bool := List.replicate 128 true
    bits.length = 128 ∧ wellFormed (.coldPowerOn none true true 0 up0 ([(false, false), (true, false), (false, false), (false, false)] ++
      bits.map fun b => (false, b))) = true ∧
    flashValid (factoryState (unpowered s) none) false = false ∧ flashValid (factoryState (unpowered s) none) true = false ∧
    flashValid cold false = true ∧ s.svc.pwrEn = false ∧ (sv { v with pwrEn := true }).svc.pwrEn = true ∧
    s.quench.tripped = false ∧ (trip s).quench.tripped = true ∧ (sv v).clock.now < (sv v).svc.fell + 100000000 ∧
    ¬ ((sv v).setClock { Clock.reset with now := 100000000 }).clock.now < (sv v).svc.fell + 100000000 ∧
    ((sv v).power.mainOn = false ∧ inputGood (sv v) = true ∧ (sv v).svc.test = false ∧ (currentImage (sv v)).isSome = true) ∧
    s.svc.riseWaits = false ∧ (sv { v with riseWaits := true }).svc.riseWaits = true ∧ restartDue s = false ∧
    restartDue (due { v with modRst := true }) = true ∧ restartDue (due v) = true ∧ (due v).svc.modRst = false ∧
    bitOf ((due v).svc.restart.getD 0) 1 = false ∧ (currentImage (due v)).isSome = true ∧ s.svc.upOnce = false ∧
    (99#16).toNat < 100 ∧ 1000 ≤ (1000#16).toNat ∧ (999#16).toNat < 1000 ∧ s.svc.heldReset = false ∧
    (sv { v with heldReset := true }).svc.heldReset = true := by decide +kernel

theorem witness_Images_and_sideband :
    let s := State.reset
    let v : Service := { Service.reset with flashA := some slot0, current := some false, writes := [(1, none)] }
    let held := pset (s.setSvc v) cfPage 0x080 1
    s.svc.writes = [] ∧ (s.setSvc v).svc.writes = [(1, none)] ∧ (s.setSvc v).svc.current = some false ∧ s.svc.current = none ∧
    currentImage held = some image0 ∧ svcState held = 1 ∧ s.svc.events = 0 := by decide +kernel

theorem witness_Every_command_completes : Instr.timeLoad ≠ .sidebandMessage .other ∧
    (∀ c rest, State.reset.pending = c :: rest → c ≠ .sidebandMessage .other) :=
  ⟨fun h => (nomatch h), fun _ _ h => (nomatch h)⟩

theorem witness_Core_words_round_trip : coreOfInstr (.add 11 39 ⟨31, 30, 29, 0, 0xFFFFFFFF⟩) = some (11, 39) ∧
    coreOfInstr .timeLoad = none ∧ (decodeCoreWord 11 40 3).isSome = true := by decide +kernel

theorem witness_Memory_form_kept : State.reset.mem.wf ∧ step State.reset = .next State.reset := ⟨by decide, rfl⟩


end Sys2Proof.Tests
end

section
/-!
SUPPORT. Accesses that the fabric carries good to one LPDDR5X line: what they read or write, and what else they change (R28, R285 to
R289, R313).
-/

namespace Sys2Proof.Machine

open Sys2Proof

/-! Ranges of memory. -/

@[simp] theorem Memory.length_readBytes (m : Memory) (a n : Nat) : (m.readBytes a n).length = n := by
  induction n generalizing a with
  | zero => rfl
  | succ n ih => simp [Memory.readBytes, ih]

theorem Memory.readBytes_add (m : Memory) (a n k : Nat) :
    m.readBytes a (n + k) = m.readBytes a n ++ m.readBytes (a + n) k := by
  induction n generalizing a with
  | zero => simp [Memory.readBytes]
  | succ n ih => rw [Nat.succ_add, Memory.readBytes, ih, Memory.readBytes, Nat.add_right_comm, List.cons_append, Nat.add_assoc]

/-- Bytes in the middle of a range that is read. -/
theorem Memory.take_drop_readBytes (m : Memory) (a n off len : Nat) (h : off + len ≤ n) :
    ((m.readBytes a n).drop off).take len = m.readBytes (a + off) len := by
  obtain ⟨k, rfl⟩ := Nat.exists_eq_add_of_le h
  rw [Nat.add_assoc, Memory.readBytes_add, List.drop_left' (m.length_readBytes a off), Memory.readBytes_add,
    List.take_left' (m.length_readBytes _ len)]

/-- A range inside one line is one piece. -/
theorem pieces_inLine (a n : Nat) (h0 : 0 < n) (h : a % 128 + n ≤ 128) : pieces a n = [(a, n)] := by
  have hmin : min n (128 - a % 128) = n := by omega
  simp [pieces, linePieces, Nat.pos_iff_ne_zero.1 h0, hmin]

theorem Memory.lineGood_line (m : Memory) (a : Nat) : m.lineGood (a / 128 * 128) = m.lineGood a := by
  simp [Memory.lineGood]

/-! Places. -/

/-- A module that is awake has nothing to wake (R389). -/
theorem wakeFor_awake {s : State} (h : awake s) (cause : Nat) : wakeFor s cause = s := if_pos (by simp [h.1, h.2])

theorem daKind_eq_lpddr {da a q : Nat} (h : daKind da = .lpddr a q) : da = regionBase a + q ∧ q < 0x4000000000 := by
  unfold daKind at h
  split_ifs at h with _ hin
  simp only [Bool.and_eq_true, decide_eq_true_eq] at hin
  cases h
  have hdiv := Nat.div_add_mod' (da - 0x10000000000) 0x4000000000
  unfold regionBase
  exact ⟨by omega, Nat.mod_lt _ (by decide)⟩

theorem daKind_regionBase {a q : Nat} (ha : a < 4) (hq : q < 0x4000000000) : daKind (regionBase a + q) = .lpddr a q := by
  have hdiv : (regionBase a + q - 0x10000000000) / 0x4000000000 = a := by unfold regionBase; omega
  have hmod : (regionBase a + q - 0x10000000000) % 0x4000000000 = q := by unfold regionBase; omega
  have hlo : ¬ regionBase a + q < 0x9000000000 := by unfold regionBase; omega
  have hin : 0x10000000000 ≤ regionBase a + q ∧ regionBase a + q < 0x20000000000 := by unfold regionBase; omega
  rw [daKind, if_neg hlo, if_pos (by rw [Bool.and_eq_true, decide_eq_true_eq, decide_eq_true_eq]; exact hin), hdiv, hmod]

theorem regionBase_eq (a : Nat) : regionBase a = 128 * (0x200000000 + a * 0x80000000) := by
  rw [regionBase]; ring

theorem regionBase_add_mod (a q : Nat) : (regionBase a + q) % 128 = q % 128 := by
  rw [regionBase_eq, Nat.mul_add_mod]

/-- The line of an offset of a region. -/
theorem regionBase_add_line (a q : Nat) : (regionBase a + q) / 128 * 128 = regionBase a + q / 128 * 128 := by
  rw [regionBase_eq, Nat.mul_add_div (by decide)]; ring

/-! The charges of an access (R296). -/

/-- What an access to LPDDR5X may change beside its line: counters, what the controllers keep of their channels, and free values; the
gather buffers stay. -/
def lpTraffic (s u : State) : Prop :=
  u = { s with
    regs := { s.regs with counters := u.regs.counters }, store := { s.store with lps := u.store.lps }, free := u.free } ∧
  ∀ p, (lpOf u p).gb = (lpOf s p).gb

theorem lpTraffic_trans {s u v : State} (h : lpTraffic s u) (h' : lpTraffic u v) : lpTraffic s v := by
  refine ⟨?_, fun p => (h'.2 p).trans (h.2 p)⟩
  rw [h'.1, h.1]

theorem lpTraffic_of_counters {s u : State} (h : ∃ k, u = s.setRegs { s.regs with counters := k }) : lpTraffic s u := by
  obtain ⟨k, rfl⟩ := h
  exact ⟨rfl, fun _ => rfl⟩

theorem lpTraffic_count (s : State) (page off n : Nat) : lpTraffic s (count s page off n) :=
  lpTraffic_of_counters (count_counters ..)

theorem lpOf_setLp (s : State) (p p' : Nat) (x : LpSt) : lpOf (setLp s p x) p' = if p' = p then x else lpOf s p' := by
  simp [lpOf, setLp]

/-- A controller's channels changed, and not its gather buffer. -/
theorem lpTraffic_setLp (s : State) (p : Nat) (x : LpSt) (h : x.gb = (lpOf s p).gb) : lpTraffic s (setLp s p x) := by
  refine ⟨rfl, fun p' => ?_⟩
  rw [lpOf_setLp]; split_ifs with hp
  · rw [h, hp]
  · rfl

theorem lpTraffic_lpMoved (s : State) (ch n lo hi : Nat) (write : Bool) : lpTraffic s (lpMoved s ch n lo hi write) := by
  unfold lpMoved drawWord
  dsimp only
  set s₁ := count (s.setFree (s.free + 1)) (lpPage (ch / 4)) (lpCnt (ch % 4) 1) (8 * n)
  have h₁ : lpTraffic s s₁ := lpTraffic_trans (u := s.setFree (s.free + 1)) ⟨rfl, fun _ => rfl⟩ (lpTraffic_count ..)
  have h₂ (b : Prop) [Decidable b] (k : Nat) : lpTraffic s (if b then s₁ else count s₁ (lpPage (ch / 4)) (lpCnt (ch % 4) 2) k) := by
    split_ifs
    · exact h₁
    · exact lpTraffic_trans h₁ (lpTraffic_count ..)
  have h₃ := lpTraffic_trans (h₂ ((kget LpChan.reset (lpOf s (ch / 4)).chans (ch % 4)).writing = write) (if write then 8 else 16))
    (lpTraffic_count _ (lpPage (ch / 4)) (lpCnt (ch % 4) 3) (32 * ((Config.freeWord s.free).toNat % (n + 1))))
  exact lpTraffic_trans h₃ (lpTraffic_setLp _ _ _ (h₃.2 _).symm)

theorem lpTraffic_lpCharge (s : State) (ch cda : Nat) (write : Bool) : lpTraffic s (lpCharge s ch cda write) :=
  lpTraffic_lpMoved ..

section
variable {s u : State} (h : lpTraffic s u)
include h

theorem lpTraffic.mem_eq : u.mem = s.mem := by rw [h.1]
theorem lpTraffic.host_eq : u.host = s.host := by rw [h.1]
theorem lpTraffic.clock_eq : u.clock = s.clock := by rw [h.1]
theorem lpTraffic.regGet_eq (o : Nat) : regGet u o = regGet s o := by rw [h.1]; rfl
theorem lpTraffic.chState_eq (p c : Nat) : chState u p c = chState s p c := by simp only [chState, pget, h.regGet_eq]
theorem lpTraffic.regionChans_eq (a : Nat) : regionChans u a = regionChans s a := by
  simp only [regionChans, h.chState_eq]
theorem lpTraffic.regionChan_eq (a q : Nat) : regionChan u a q = regionChan s a q := by
  simp [regionChan, h.regionChans_eq]
theorem lpTraffic.regionTop_eq (a : Nat) : regionTop u a = regionTop s a := by simp [regionTop, h.regionChans_eq]

end

/-! Reads of a line (R289). -/

/-- What a read with no flips finds. -/
theorem Memory.readLine_nil (m : Memory) (da : Nat) : m.readLine da [] = (m.readBytes (da / 128 * 128) 128, m.lineGood da) := rfl

/-- A line whose check word is right is read as it is stored. -/
theorem lpCheckedLine_good (s : State) (op tag a q : Nat) (h : s.mem.lineGood (regionBase a + q / 128 * 128) = true) :
    ∃ u, lpTraffic s u ∧ lpCheckedLine s op tag a q plainRead =
      ((s.mem.readBytes ((regionBase a + q / 128 * 128) / 128 * 128) 128, .ok), u) := by
  have hu := lpTraffic_lpCharge s (regionChan s a q).1 (regionChan s a q).2 false
  refine ⟨_, hu, ?_⟩
  rw [← hu.mem_eq] at h ⊢
  exact if_pos h

theorem lpFlush_none (s : State) (p line : Nat) (h : ∀ e ∈ (lpOf s p).gb, e.line ≠ line) : lpFlush s p line = s := by
  have : (lpOf s p).gb.find? (fun e => e.line = line) = none := by simpa using h
  simp [lpFlush, this]

/-- A good line that no gather buffer holds a part of, read by a requester whose flits arrive good (R289, R313). -/
theorem chunkRead_lpddr (s : State) (r : Req) {da a q n : Nat} (hda : daKind da = .lpddr a q) (hp : pathsGood s)
    (hr : (leafLoc r.who).die < 4) (hf : regionFenced s a = false) (hq : q < regionTop s a)
    (hgb : ∀ e ∈ (lpOf s ((regionChan s a q).1 / 4)).gb, e.line ≠ da / 128) (hg : s.mem.lineGood da = true)
    (hn : da % 128 + n ≤ 128) :
    ∃ u, lpTraffic s u ∧ chunkRead s r da n = ((s.mem.readBytes da n, .ok), u) := by
  obtain ⟨hup, hcnt⟩ := carry_good s r (daLoc da) 1 hp hr
  have hw := lpTraffic_of_counters hcnt
  generalize hwdef : (carry s r (daLoc da) 1).2 = w at hw
  have heq := (daKind_eq_lpddr hda).1
  have hline : regionBase a + q / 128 * 128 = da / 128 * 128 := by rw [heq, regionBase_add_line]
  have hoff : q % 128 = da % 128 := by rw [heq, regionBase_add_mod]
  have hflush : lpFlush w ((regionChan w a q).1 / 4) ((regionBase a + q) / 128) = w :=
    lpFlush_none _ _ _ (by rw [hw.2, hw.regionChan_eq, ← heq]; exact hgb)
  obtain ⟨u, hu, hread⟩ := lpCheckedLine_good w 1 r.tag a q (by rw [hline, hw.mem_eq, Memory.lineGood_line]; exact hg)
  have hbytes : ((w.mem.readBytes ((regionBase a + q / 128 * 128) / 128 * 128) 128).drop (q % 128)).take n =
      s.mem.readBytes da n := by
    rw [hw.mem_eq, hline, hoff, Nat.mul_div_cancel _ (by decide), Memory.take_drop_readBytes _ _ _ _ _ hn, Nat.div_add_mod']
  refine ⟨u, lpTraffic_trans hw hu, ?_⟩
  simp only [chunkRead, hda, hf, Nat.not_le.2 hq, hup, hwdef, lpReadLine, hflush, hread, hbytes, if_false,
    Bool.not_true, Bool.false_eq_true]

/-- A range in one line read piece by piece is read at once. -/
theorem daRead_inLine {s u : State} {r : Req} {a n : Nat} {d : List Byte} (h0 : 0 < n) (hn : a % 128 + n ≤ 128)
    (h : chunkRead s r a n = ((d, .ok), u)) : daRead s r a n = ((d, .ok), u) := by
  simp [daRead, pieces_inLine a n h0 hn, readPieces, h, ASt.worse]

/-! Writes of a line (R265, R288). -/

@[simp] theorem Memory.readByte_markGood (m : Memory) (a n c : Nat) : (m.markGood a n).readByte c = m.readByte c := rfl

@[simp] theorem Memory.readBytes_markGood (m : Memory) (a n c k : Nat) : (m.markGood a n).readBytes c k = m.readBytes c k := by
  induction k generalizing c with
  | zero => rfl
  | succ k ih => simp only [Memory.readBytes, Memory.readByte_markGood, ih]

/-- What memory holds after a whole line of LPDDR5X is written. -/
theorem mem_lpWriteLine (s : State) (a q : Nat) (data : List Byte) :
    (lpWriteLine s a q data).mem =
      (s.mem.writeBytes (regionBase a + q / 128 * 128) data).markGood (regionBase a + q / 128 * 128) 128 := by
  simp only [lpWriteLine, putLine, if_true, setMem_mem, (lpTraffic_lpCharge ..).mem_eq]
  rfl

theorem narrowBytes_cons (off : Nat) (b : Byte) (l : List Byte) :
    narrowBytes off (b :: l) = (off, b) :: narrowBytes (off + 1) l := rfl

/-- The bytes of a narrow write taken into those of an entry. -/
theorem kfind_narrowBytes (m : KMap Byte) (off : Nat) (data : List Byte) (j : Nat) :
    kfind ((narrowBytes off data).foldl (fun m b => kinsert m b.1 b.2) m) j =
      if off ≤ j ∧ j < off + data.length then data[j - off]? else kfind m j := by
  induction data generalizing m off with
  | nil => rw [if_neg (by simp)]; rfl
  | cons b l ih =>
    rw [narrowBytes_cons, List.foldl_cons, ih, kfind_kinsert, List.length_cons]
    rcases lt_trichotomy j off with h | rfl | h
    · rw [if_neg (by omega), if_neg (by omega), if_neg (by omega)]
    · rw [if_neg (by omega), if_pos rfl, if_pos (by omega)]; simp
    · obtain ⟨k, rfl⟩ := Nat.exists_eq_add_of_lt h
      simp only [show off + k + 1 - off = k + 1 by omega, show off + k + 1 - (off + 1) = k by omega,
        List.getElem?_cons_succ, if_neg (show ¬ off + k + 1 = off by omega)]
      congr 1
      apply propext; omega

theorem length_kinsert_le {α : Type} (m : KMap α) (k : Nat) (v : α) : (kinsert m k v).length ≤ m.length + 1 := by
  induction m with
  | nil => simp [kinsert]
  | cons p m ih => unfold kinsert; split_ifs <;> simp [ih]

theorem length_narrowBytes_le (m : KMap Byte) (off : Nat) (data : List Byte) :
    ((narrowBytes off data).foldl (fun m b => kinsert m b.1 b.2) m).length ≤ m.length + data.length := by
  induction data generalizing m off with
  | nil => simp [narrowBytes]
  | cons b l ih =>
    rw [narrowBytes_cons, List.foldl_cons, List.length_cons]
    have hone : (kinsert m (off, b).1 (off, b).2).length ≤ m.length + 1 := length_kinsert_le ..
    exact (ih ..).trans (by omega)

/-- The entry of a narrow write to a line of which nothing is gathered. -/
def freshEntry (s : State) (tag da : Nat) (data : List Byte) : GEntry :=
  ⟨da / 128, (narrowBytes (da % 128) data).foldl (fun m b => kinsert m b.1 b.2) [], tag, s.clock.now, false⟩

theorem gatherInto_fresh (s : State) (l : List GEntry) (tag da : Nat) (data : List Byte) (h : ∀ e ∈ l, e.line ≠ da / 128) :
    gatherInto l (da / 128) (da % 128) tag s.clock.now data = l ++ [freshEntry s tag da data] := by
  have hfind : l.find? (fun e => e.line = da / 128) = none := by simpa using h
  have hfilter : l.filter (fun e => e.line != da / 128) = l := List.filter_eq_self.2 (by simpa using h)
  rw [gatherInto, hfind, hfilter]
  rfl

/-- A narrow write of less than a line, of which nothing is gathered, where the buffer has room: it enters the buffer (R288). -/
theorem lpWriteNarrow_fresh (s : State) (tag a q : Nat) (data : List Byte)
    (hgb : ∀ e ∈ (lpOf s ((regionChan s a q).1 / 4)).gb, e.line ≠ (regionBase a + q) / 128)
    (hroom : (lpOf s ((regionChan s a q).1 / 4)).gb.length < 64) (hlen : data.length < 128) :
    lpWriteNarrow s tag a q data = setLp s ((regionChan s a q).1 / 4) { lpOf s ((regionChan s a q).1 / 4) with
      gb := (lpOf s ((regionChan s a q).1 / 4)).gb ++ [freshEntry s tag (regionBase a + q) data] } := by
  generalize hp : (regionChan s a q).1 / 4 = p at hgb hroom
  have hlapsed : (lpOf s p).gb.find? (fun e => e.line = (regionBase a + q) / 128 && lapsed s e.time (gbTime s p)) = none := by
    simpa using fun e he h => absurd h (hgb e he)
  have hany : (lpOf s p).gb.any (fun e => e.line = (regionBase a + q) / 128) = false := by simpa using hgb
  have hpartial : (freshEntry s tag (regionBase a + q) data).bytes.length ≠ 128 :=
    (Nat.lt_of_le_of_lt (length_narrowBytes_le ..) (by simpa using hlen)).ne
  simp only [lpWriteNarrow, hp, hlapsed, hany, Nat.not_le.2 hroom, gatherInto_fresh _ _ _ _ _ hgb, List.getLast?_concat,
    hpartial, if_false, Bool.not_false, Bool.true_and, decide_false, Bool.false_eq_true]

/-! The snoop filter (R330). -/

/-- No device write waits for a back-invalidate of a line. -/
theorem bisnps_filter_nil {s : State} {line : Nat} (h : ¬ ∃ w ∈ s.host.bisnps, w.line = line) :
    s.host.bisnps.filter (fun w => w.line = line) = [] := by
  simpa using h

/-- A line that the host does not hold and that no write waits for needs no back-invalidate. -/
theorem snoopOut_unheld {s : State} {line : Nat} (hs : line ∉ s.host.snoop) (hw : ¬ ∃ w ∈ s.host.bisnps, w.line = line) :
    snoopOut s line = s := by
  simp [snoopOut, bisnps_filter_nil hw, hs, foldList]

/-- A line that no write waits for leaves the snoop filter, and memory stays. -/
theorem snoopOut_noWaits {s : State} {line : Nat} (hw : ¬ ∃ w ∈ s.host.bisnps, w.line = line) :
    (snoopOut s line).mem = s.mem ∧ line ∉ (snoopOut s line).host.snoop := by
  by_cases hs : line ∈ s.host.snoop
  · obtain ⟨k, hk⟩ := count_counters (s.setHost { s.host with
      snoop := s.host.snoop.filter (· != line), bisnps := s.host.bisnps.filter fun w => w.line != line }) (modPage 1) 0x810 1
    simp [snoopOut, bisnps_filter_nil hw, hs, foldList, hk]
  · rw [snoopOut_unheld hs hw]; exact ⟨rfl, hs⟩

/-- A line taken into a snoop filter that has room. -/
theorem snoopIn_room {s : State} {line : Nat} (h : s.host.snoop.length < 131072) :
    ∃ l, snoopIn s line = s.setHost { s.host with snoop := l } ∧ line ∈ l := by
  unfold snoopIn
  by_cases hs : line ∈ s.host.snoop
  · exact ⟨s.host.snoop, if_pos (List.contains_iff_mem.2 hs), hs⟩
  · refine ⟨s.host.snoop ++ [line], ?_, by simp⟩
    rw [if_neg (by simpa using hs), if_neg (Nat.not_le.2 h)]

end Sys2Proof.Machine
end

section
/-!
CXL.mem and back-invalidation (R2, R327, R329, R330): the statement Cxl_memory, a lemma for each of its commands and cases.
-/

namespace Sys2Proof.Machine

open Sys2Proof

/-! CXL.mem. -/

/-- Without a committed decoder, or on another part, CXL.mem does not reach the module. -/
theorem cxlServes_eq_false {s : State} (h : s.host.hdm = false ∨ s.svc.fuse.code ≠ 1#8) : cxlServes s = false := by
  rcases h with h | h <;> simp [cxlServes, offersCxl, h]

theorem idles_cxlMem {s : State} (h : cxlServes s = false) (y : BitVec 40) (data : List Byte) :
    idles (.cxlMemRead y) s ∧ idles (.cxlMemWrite y data) s := by
  constructor
  · change execCxlMemRead y s = _
    simp [execCxlMemRead, h]
  · change execCxlMemWrite y data s = _
    simp [execCxlMemWrite, h]

/-- A read of 64 bytes that finds its line good (R329, R330). -/
theorem execCxlMemRead_good (s : State) (y : BitVec 40) {x q : Nat} (hq : q = y.toNat / 64 * 64) (hx : x = regionBase 0 + q)
    (hc : cxlServes s = true) (ha : awake s) (hp : pathsGood s) (hf : regionFenced s 0 = false) (hlt : q < 0x4000000000)
    (htop : q < regionTop s 0) (hgb : ∀ e ∈ (lpOf s ((regionChan s 0 q).1 / 4)).gb, e.line ≠ x / 128)
    (hg : s.mem.lineGood x = true) (hroom : s.host.snoop.length < 131072) :
    ∃ u, execCxlMemRead y s = .next u ∧ u.mem = s.mem ∧ u.host.rstat = .success ∧ u.host.rdata = s.mem.readBytes x 64 ∧
      x / 128 ∈ u.host.snoop := by
  have hkind : daKind x = .lpddr 0 q := by rw [hx, daKind_regionBase (by decide) hlt]
  have hin : x % 128 + 64 ≤ 128 := by rw [hx, regionBase_add_mod]; omega
  obtain ⟨w, hw, hchunk⟩ := chunkRead_lpddr s hostReq hkind hp (by decide) hf htop hgb hg hin
  have hread := daRead_inLine (by decide) hin hchunk
  set v := w.setHost { w.host with rdata := s.mem.readBytes x 64, rstat := .success } with hv
  have hhost : cxlReply (hostRead s x 64) = v := by simp [hostRead, hread, hostReply, cxlReply, hv]
  have htop' : q < regionTop v 0 := (hw.regionTop_eq 0).symm ▸ htop
  obtain ⟨l, hl, hmem⟩ := snoopIn_room (s := v) (line := x / 128) (by rw [hv]; simpa [hw.host_eq] using hroom)
  refine ⟨v.setHost { v.host with snoop := l }, ?_, ?_, rfl, rfl, hmem⟩
  · simp only [execCxlMemRead, hc, wakeFor_awake ha, ← hq, ← hx, hhost, hkind, htop', if_true, hl, Bool.not_true,
      Bool.false_eq_true, if_false]
  · simpa [hv] using hw.mem_eq

/-- A write of 64 bytes to a line of which nothing is gathered: it enters the gather buffer (R288, R330). -/
theorem execCxlMemWrite_fresh (s : State) (y : BitVec 40) (data : List Byte) {x q p : Nat} (hq : q = y.toNat / 64 * 64)
    (hx : x = regionBase 0 + q) (hpk : p = (regionChan s 0 q).1 / 4) (hc : cxlServes s = true) (ha : awake s)
    (hp : pathsGood s) (hf : regionFenced s 0 = false) (hlt : q < 0x4000000000) (htop : q < regionTop s 0)
    (hgb : ∀ e ∈ (lpOf s p).gb, e.line ≠ x / 128) (hheld : s.store.held = []) (hroom : (lpOf s p).gb.length < 64)
    (hlen : data.length = 64) :
    ∃ u, execCxlMemWrite y data s = .next u ∧ u.mem = s.mem ∧ (lpOf u p).gb = (lpOf s p).gb ++ [freshEntry s 0 x data] := by
  have hkind : daKind x = .lpddr 0 q := by rw [hx, daKind_regionBase (by decide) hlt]
  obtain ⟨hup, hcnt⟩ := carry_good s hostReq (daLoc x) 1 hp (by decide)
  have hw := lpTraffic_of_counters hcnt
  generalize hwdef : (carry s hostReq (daLoc x) 1).2 = w at hw
  have hfit : fitBytes 64 data = data := by simp [fitBytes, ← hlen]
  have hfresh := lpWriteNarrow_fresh w 0 0 q data
    (by rw [hw.2, hw.regionChan_eq, ← hpk, ← hx]; exact hgb) (by rw [hw.2, hw.regionChan_eq, ← hpk]; exact hroom) (by omega)
  have hentry : freshEntry w 0 x data = freshEntry s 0 x data := by simp only [freshEntry, hw.clock_eq]
  rw [hw.regionChan_eq, ← hpk, ← hx, hw.2, hentry] at hfresh
  refine ⟨setLp w p { lpOf w p with gb := (lpOf s p).gb ++ [freshEntry s 0 x data] }, ?_, hw.mem_eq, ?_⟩
  · simp only [execCxlMemWrite, hc, wakeFor_awake ha, ← hq, ← hx, hkind, hf, meetsHeld, hheld, List.any_nil, Bool.or_false,
      Nat.not_le.2 htop, hup, hwdef, hfit, hfresh, if_true, Bool.not_true, Bool.false_eq_true, if_false]
  · rw [lpOf_setLp, if_pos rfl]

/-- The bytes of the entry that a CXL.mem write makes. -/
theorem kfind_freshEntry (s : State) (tag x : Nat) (data : List Byte) {k : Nat} (h : k < data.length) :
    kfind (freshEntry s tag x data).bytes (x % 128 + k) = data[k]? := by
  rw [freshEntry, kfind_narrowBytes, if_pos (by omega), Nat.add_sub_cancel_left]

/-! Back-invalidation (R330). -/

theorem any_bisnps {s : State} {line : Nat} :
    (s.host.bisnps.any fun w => w.line = line) = true ↔ ∃ w ∈ s.host.bisnps, w.line = line := by simp

/-- A device write to a line that the host may hold waits for its answer. -/
theorem execBackInvalidate_waits (s : State) (da : BitVec 48) (data : List Byte) (tag : BitVec 32) {a r : Nat}
    (h : daKind da.toNat = .lpddr a r)
    (hl : da.toNat / 128 ∈ s.host.snoop ∨ ∃ w ∈ s.host.bisnps, w.line = da.toNat / 128) :
    ∃ u, execBackInvalidate da data tag false s = .next u ∧ u.mem = s.mem ∧ u.store = s.store ∧
      u.host.snoop = s.host.snoop ∧
      ∃ d, u.host.bisnps = s.host.bisnps ++ [⟨da.toNat / 128, s.clock.now, da.toNat, d, tag.toNat⟩] := by
  obtain ⟨k, hk⟩ := count_counters s hiPage 0x810 1
  have hc : (s.host.snoop.contains (da.toNat / 128) || s.host.bisnps.any fun w => w.line = da.toNat / 128) = true := by
    rw [Bool.or_eq_true, any_bisnps, List.contains_iff_mem]; exact hl
  simp only [execBackInvalidate, h, hc, hk, Bool.not_true, Bool.or_false, Bool.false_eq_true, if_false]
  refine ⟨_, rfl, ?_⟩
  split_ifs <;> exact ⟨rfl, rfl, rfl, _, rfl⟩

/-- A device write that is answered, or to a line that the host does not hold, goes on. -/
theorem execBackInvalidate_passes (s : State) (da : BitVec 48) (data : List Byte) (tag : BitVec 32) (ok : Bool) {a r : Nat}
    (h : daKind da.toNat = .lpddr a r) (hw : ¬ ∃ w ∈ s.host.bisnps, w.line = da.toNat / 128)
    (hok : ok = true ∨ da.toNat / 128 ∉ s.host.snoop) :
    execBackInvalidate da data tag ok s = .next (
      if (data.take (128 - da.toNat % 128)).isEmpty then snoopOut s (da.toNat / 128)
      else (chunkWrite (snoopOut s (da.toNat / 128)) (ownReq tag.toNat) da.toNat (data.take (128 - da.toNat % 128))).2) := by
  have hc : (ok || !(s.host.snoop.contains (da.toNat / 128) || s.host.bisnps.any fun w => w.line = da.toNat / 128)) = true := by
    rw [← any_bisnps, Bool.not_eq_true] at hw
    rcases hok with rfl | hs
    · rfl
    · simp [hw, hs]
  simp only [execBackInvalidate, execBackInvalidate.narrowData', h]
  exact congrArg Host.Outcome.next (if_pos hc)

/-- With nothing to write, the line leaves the snoop filter. -/
theorem execBackInvalidate_nothing (s : State) (da : BitVec 48) (tag : BitVec 32) (ok : Bool) {a r : Nat}
    (h : daKind da.toNat = .lpddr a r) (hw : ¬ ∃ w ∈ s.host.bisnps, w.line = da.toNat / 128)
    (hok : ok = true ∨ da.toNat / 128 ∉ s.host.snoop) :
    execBackInvalidate da [] tag ok s = .next (snoopOut s (da.toNat / 128)) := by
  rw [execBackInvalidate_passes s da [] tag ok h hw hok, List.take_nil, List.isEmpty_nil, if_pos rfl]

/-- A whole line written by the module's own sequencers where the fabric carries it: nothing else of memory changes. -/
theorem chunkWrite_own_line (s : State) (tag : Nat) {da a r : Nat} {data : List Byte} (h : daKind da = .lpddr a r)
    (hlen : data.length = 128) (hal : da % 128 = 0) (hf : regionFenced s a = false) (htop : r < regionTop s a)
    (hheld : s.store.held = []) (hp : pathsGood s) (hs : da / 128 ∉ s.host.snoop)
    (hw : ¬ ∃ w ∈ s.host.bisnps, w.line = da / 128) :
    (chunkWrite s (ownReq tag) da data).2.mem = (s.mem.writeBytes da data).markGood da 128 := by
  obtain ⟨hup, hcnt⟩ := carry_good s (ownReq tag) (daLoc da) 1 hp (show (0 : Nat) < 4 by decide)
  have hv := lpTraffic_of_counters hcnt
  generalize hvdef : (carry s (ownReq tag) (daLoc da) 1).2 = v at hv
  have heq := (daKind_eq_lpddr h).1
  have hbase : regionBase a + r / 128 * 128 = da := by rw [← regionBase_add_line, ← heq]; omega
  have hsnoop : snoopOut v (da / 128) = v := snoopOut_unheld (by rw [hv.host_eq]; exact hs) (by rw [hv.host_eq]; exact hw)
  have hput : (putResult v (ownReq tag) da data fun s => lpDeviceWrite s tag a r data).2 = lpWriteLine v a r data := by
    simp [putResult, peerPiece, noteLine, workGroup, lpDeviceWrite, lpPut, hlen, ← heq, hsnoop]
  have hchunk : chunkWrite s (ownReq tag) da data = chunkPut s (ownReq tag) da data := by
    simp [chunkWrite, inRanges, hheld]
  rw [hchunk]
  simp only [chunkPut, h, hf, Nat.not_le.2 htop, hup, hvdef, if_true, if_false, Bool.false_eq_true]
  rw [hput, mem_lpWriteLine, hbase, hv.mem_eq]

/-- A device write of a whole line that the host does not hold lands. -/
theorem execBackInvalidate_lands (s : State) (da : BitVec 48) (data : List Byte) (tag : BitVec 32) (ok : Bool) {a r : Nat}
    (h : daKind da.toNat = .lpddr a r) (hs : da.toNat / 128 ∉ s.host.snoop)
    (hw : ¬ ∃ w ∈ s.host.bisnps, w.line = da.toNat / 128) (hlen : data.length = 128) (hal : da.toNat % 128 = 0)
    (hf : regionFenced s a = false) (htop : r < regionTop s a) (hheld : s.store.held = []) (hp : pathsGood s) :
    ∃ u, execBackInvalidate da data tag ok s = .next u ∧
      u.mem.readBytes da.toNat 128 = data ∧ memSameOutside s u da.toNat (da.toNat + 128) := by
  have htake : data.take (128 - da.toNat % 128) = data := List.take_of_length_le (by omega)
  have hne : data ≠ [] := by rintro rfl; cases hlen
  have hmem := chunkWrite_own_line s tag.toNat h hlen hal hf htop hheld hp hs hw
  refine ⟨(chunkWrite s (ownReq tag.toNat) da.toNat data).2, ?_, ?_, fun c hc => ?_⟩
  · simp [execBackInvalidate_passes s da data tag ok h hw (.inr hs), htake, hne, snoopOut_unheld hs hw]
  · rw [hmem, Memory.readBytes_markGood, ← hlen, Memory.readBytes_writeBytes]
  · rw [hmem, Memory.readByte_markGood, Memory.readByte_writeBytes_outside _ _ _ _ (by omega)]

/-! The time-out of a back-invalidate (R330). -/

theorem execBisnpTimeout_due (s : State) (i : Nat) {w : BiSnp} (h : s.host.bisnps[i]? = some w)
    (hd : w.since + 10000000 ≤ s.clock.now) :
    ∃ u, execBisnpTimeout i s = .next u ∧ u.mem = s.mem ∧ u.host.bisnps = s.host.bisnps ∧ sticky u hiPage 8 = true := by
  obtain ⟨⟨hu, ⟨p, n, hhost⟩, -⟩, hset⟩ := raiseTag_spec s hiPage 8 0
  refine ⟨raiseTag s hiPage 8 0, by simp [execBisnpTimeout, h, hd], by rw [hu], by rw [hhost], ?_⟩
  exact hset .hostIf rfl (by decide) (by decide)

theorem execBisnpTimeout_early (s : State) (i : Nat) (h : ∀ w, s.host.bisnps[i]? = some w → s.clock.now < w.since + 10000000) :
    execBisnpTimeout i s = .next s := by
  unfold execBisnpTimeout
  split
  · next w hw => rw [if_neg (Nat.not_le.2 (h w hw))]
  · rfl

/-- Settles O39: each command by its lemma; a read is served from memory, a write enters the gather buffer, and a device write waits
or lands by what the snoop filter says. -/
theorem cxlMemory : Obligations.Cxl_memory := by
  intro y data da tag i s
  dsimp only
  refine ⟨fun h => idles_cxlMem (cxlServes_eq_false h) y data, ?_, ?_, ?_, ?_, fun h => execBisnpTimeout_early s i h⟩
  · rintro hc ha hp ⟨hf, hlt, htop, hgb⟩
    refine ⟨fun hg hroom => execCxlMemRead_good s y rfl rfl hc ha hp hf hlt htop hgb hg hroom, fun hheld hroom hlen => ?_⟩
    obtain ⟨u, hu, hmem, hentry⟩ := execCxlMemWrite_fresh s y data rfl rfl rfl hc ha hp hf hlt htop hgb hheld hroom hlen
    exact ⟨u, hu, hmem, _, hentry, rfl, fun k hk => kfind_freshEntry _ _ _ _ (by omega)⟩
  · intro h ok
    change execBackInvalidate da data tag ok s = _
    unfold execBackInvalidate
    split
    · next a r hk => exact absurd hk (h a r)
    · rfl
  · intro a r hk
    refine ⟨fun hl => execBackInvalidate_waits s da data tag hk hl, ?_, ?_, ?_⟩
    · rintro rfl hw
      exact ⟨_, execBackInvalidate_nothing s da tag true hk hw (.inl rfl), snoopOut_noWaits hw⟩
    · rintro hs hw rfl
      exact (execBackInvalidate_nothing s da tag false hk hw (.inr hs)).trans (by rw [snoopOut_unheld hs hw])
    · intro ok hs hw hlen hal hf htop hheld hp
      exact execBackInvalidate_lands s da data tag ok hk hs hw hlen hal hf htop hheld hp
  · intro w h hd
    exact execBisnpTimeout_due s i h hd

end Sys2Proof.Machine
end

section
/-!
Bring-up (R461, R472, R473, R491): the statement Bring_up fails at its clause on a warm restart, which says that flags and barriers are
at reset after it. SETTINGS of the image in force give registers their reset values, and the members of a barrier group are such
registers: an image that names one leaves the group with those members.
-/

namespace Sys2Proof.Machine

open Sys2Proof

/-- An image of a module whose every unit is in service, with one setting: participant 0 of tile 0 is the member of barrier group 0 of
the tile. -/
def barrierImage : ConfigImage where
  topo := ⟨0, 15, 0xFFF, List.replicate 12 32, List.replicate 12 8, List.replicate 16 15, List.replicate 8 (0xFFFF, 0), 0, [], 0⟩
  repair := []
  calib := true
  training := none
  settings := [(BitVec.ofNat 26 (regOff (tilePage 0 0) 0x440), 1)]

/-- A module that came up from that image in slot A, for which RESTART has asked for a warm restart with no flags. -/
def barrierRestart : State :=
  (State.reset.setPower { Power.reset with mainOn := true }).setSvc { Service.reset with
    flashA := some ⟨newHeader State.reset barrierImage 0 0 0 0, true, barrierImage⟩
    current := some false, upOnce := true, restart := some 0 }

/-- A bring-up in which every interface trains and every unit passes. -/
def cleanBringUp : BringUp :=
  ⟨none, [], [], List.replicate 4 0xFF, List.replicate 64 0, List.replicate 8 0, List.replicate 8 none, [], [], 0⟩

/-- The counterexample is a module with a valid slot and a well-formed command, whose warm restart is due and runs to its end. -/
theorem barrierRestart_due :
    flashValid barrierRestart false = true ∧ wellFormed (.warmRestart cleanBringUp) = true ∧
    restartDue barrierRestart = true ∧ barrierRestart.svc.modRst = false ∧
    bitOf (barrierRestart.svc.restart.getD 0) 1 = false ∧ (currentImage barrierRestart).isSome = true := by decide +kernel

/-- After the warm restart the group has the member that the image names. -/
theorem warmRestart_keeps_barrier_setting :
    ∃ u, exec (.warmRestart cleanBringUp) barrierRestart = .next u ∧ (barOf u false 0 0).members = 1 :=
  ⟨_, rfl, by decide +kernel⟩

theorem barOf_of_sync_reset {u : State} (h : u.sync = .reset) : (barOf u false 0 0).members = 0 := by
  rw [barOf, h]; rfl

/-- Refutes O55: after a warm restart from an image whose SETTINGS name the members of a barrier group, that group has those members,
so the flag and barrier logic is not at reset. -/
theorem not_bringUp : ¬ Obligations.Bring_up := by
  intro h
  obtain ⟨-, -, hdue, hmod, hflag, himage⟩ := barrierRestart_due
  obtain ⟨-, -, -, -, -, -, -, -, -, -, hwarm, -⟩ := h none false false 0 cleanBringUp 0 [] barrierRestart
  obtain ⟨u, hu, -, -, -, -, hsync⟩ := hwarm hdue hmod hflag himage
  obtain ⟨u', hu', hmember⟩ := warmRestart_keeps_barrier_setting
  have heq : u = u' := Host.Outcome.next.inj (hu.symm.trans hu')
  rw [← heq, barOf_of_sync_reset hsync] at hmember
  exact absurd hmember (by decide)

end Sys2Proof.Machine
end

section
/-!
SUPPORT. Operations that leave memory as it is: registers, counters, sources, queues, frames, power and the records of the engines.
The lemma about an operation is stated once, for simp, in the order of the model.
-/

namespace Sys2Proof.Machine

open Sys2Proof
@[simp] theorem mem_ite (c : Prop) [Decidable c] (s u : State) : (if c then s else u).mem = if c then s.mem else u.mem :=
  apply_ite State.mem c s u

@[simp] theorem snd_ite {α : Type} (c : Prop) [Decidable c] (x y : α × State) :
    (if c then x else y).2 = if c then x.2 else y.2 :=
  apply_ite Prod.snd c x y

/-- What every element keeps, the fold keeps. -/
theorem foldList_induction {σ α : Type} {f : α → σ → σ} {P : σ → Prop}
    (hf : ∀ a x, P x → P (f a x)) (l : List α) {x : σ} (h : P x) : P (foldList f l x) := by
  induction l generalizing x with
  | nil => exact h
  | cons a l ih => exact ih (hf a x h)

theorem foldl_induction {σ α : Type} {f : σ → α → σ} {P : σ → Prop}
    (hf : ∀ x a, P x → P (f x a)) (l : List α) {x : σ} (h : P x) : P (l.foldl f x) := by
  induction l generalizing x with
  | nil => exact h
  | cons a l ih => exact ih (hf x a h)

@[simp] theorem mem_foldList {α : Type} {f : α → State → State} (hf : ∀ a s, (f a s).mem = s.mem)
    (l : List α) (s : State) : (foldList f l s).mem = s.mem :=
  foldList_induction (P := (·.mem = s.mem)) (fun a u hu => (hf a u).trans hu) l rfl

/-! Operations that every part uses. -/

@[simp] theorem mem_drawBool (s) : (drawBool s).2.mem = s.mem := by simp [drawBool]
@[simp] theorem mem_drawWord (s) : (drawWord s).2.mem = s.mem := by simp [drawWord]
@[simp] theorem mem_regSet (s off v) : (regSet s off v).mem = s.mem := by simp [regSet]
@[simp] theorem mem_pset (s page off v) : (pset s page off v).mem = s.mem := by simp [pset]
@[simp] theorem mem_psetBits (s page off mask) : (psetBits s page off mask).mem = s.mem := by simp [psetBits]
@[simp] theorem mem_pclrBits (s page off mask) : (pclrBits s page off mask).mem = s.mem := by simp [pclrBits]
@[simp] theorem mem_count (s page off n) : (count s page off n).mem = s.mem := by simp [count]
@[simp] theorem mem_clearWindows (s page) : (clearWindows s page).mem = s.mem := by
  unfold clearWindows
  split <;> simp
@[simp] theorem mem_cntClear (s page) : (cntClear s page).mem = s.mem := by simp [cntClear]
@[simp] theorem mem_setLive (s page src b) : (setLive s page src b).mem = s.mem := by simp [setLive]
@[simp] theorem mem_markGroup (s tag kind page src) : (markGroup s tag kind page src).mem = s.mem := by
  simp [markGroup]
@[simp] theorem mem_markWhere (s p kind page src) : (markWhere s p kind page src).mem = s.mem := by
  simp [markWhere]
@[simp] theorem mem_msixSignal (s v) : (msixSignal s v).mem = s.mem := by simp [msixSignal]
@[simp] theorem mem_setCurop (s page ws) : (setCurop s page ws).mem = s.mem := by
  unfold setCurop
  split <;> simp
@[simp] theorem mem_setTcc (s t x) : (setTcc s t x).mem = s.mem := by simp [setTcc]
@[simp] theorem mem_setCore (s c x) : (setCore s c x).mem = s.mem := by simp [setCore]
@[simp] theorem mem_setMc (s t n x) : (setMc s t n x).mem = s.mem := by simp [setMc]
@[simp] theorem mem_tccCause (s t c) : (tccCause s t c).mem = s.mem := by simp [tccCause]
@[simp] theorem mem_trapReaction (s page src) : (trapReaction s page src).mem = s.mem := by
  unfold trapReaction
  split <;> simp
@[simp] theorem mem_stampSetting (s page src tag forced) : (stampSetting s page src tag forced).mem = s.mem := by
  simp [stampSetting]
@[simp] theorem mem_takeReactions (s page src) : (takeReactions s page src).mem = s.mem := by
  unfold takeReactions
  split <;> simp
@[simp] theorem mem_newSetting (s page src tag forced) : (newSetting s page src tag forced).mem = s.mem := by
  simp [newSetting]
@[simp] theorem mem_stampOverflow (s page) : (stampOverflow s page).mem = s.mem := by simp [stampOverflow]
@[simp] theorem mem_setSource (s page src tag named forced) : (setSource s page src tag named forced).mem = s.mem := by
  unfold setSource
  split <;> simp
@[simp] theorem mem_nestTcc (s t) : (nestTcc s t).mem = s.mem := by simp [nestTcc]
@[simp] theorem mem_raiseWith (s page src tag named forced) : (raiseWith s page src tag named forced).mem = s.mem := by
  unfold raiseWith
  split <;> simp
@[simp] theorem mem_raiseTag (s page src tag) : (raiseTag s page src tag).mem = s.mem := by simp [raiseTag]
@[simp] theorem mem_raise (s page src) : (raise s page src).mem = s.mem := by simp [raise]
@[simp] theorem mem_raiseLive (s page src) : (raiseLive s page src).mem = s.mem := by simp [raiseLive]
@[simp] theorem mem_gatedPage (s page tag) : (gatedPage s page tag).mem = s.mem := by
  unfold gatedPage
  split <;> simp
@[simp] theorem mem_blockWrite (s page) {f : State → State} (hf : ∀ u, (f u).mem = u.mem) :
    (blockWrite s page f).mem = s.mem := by
  simp [blockWrite, hf]
@[simp] theorem mem_setPlan (s i x) : (setPlan s i x).mem = s.mem := by simp [setPlan]

/-! Operands. -/

@[simp] theorem mem_setG (s t p i v) : (setG s t p i v).mem = s.mem := by simp [setG]
@[simp] theorem mem_setPc (s t p pc) : (setPc s t p pc).mem = s.mem := by simp [setPc]
@[simp] theorem mem_nextPc (s t p) : (nextPc s t p).mem = s.mem := by simp [nextPc]
@[simp] theorem mem_noteEnd (s t p) : (noteEnd s t p).mem = s.mem := by simp [noteEnd]
@[simp] theorem mem_issue (s t p op md) {f : State → State} (hf : ∀ u, (f u).mem = u.mem) :
    (issue s t p op md f).mem = s.mem := by
  simp [issue, hf, mem_noteIssue]
@[simp] theorem mem_issueWhen (s i t p op free) {f : State → State} (hf : ∀ u, (f u).mem = u.mem) :
    (issueWhen s i t p op free f).mem = s.mem := by
  simp [issueWhen, hf, mem_noteIssue]
@[simp] theorem mem_progErr (s t p) : (progErr s t p).mem = s.mem := by simp [progErr]
@[simp] theorem mem_illegal (s t p) : (illegal s t p).mem = s.mem := by simp [illegal]
@[simp] theorem mem_addrErr (s t p) : (addrErr s t p).mem = s.mem := by simp [addrErr]
@[simp] theorem mem_aluOp (t p f op g s) : (aluOp t p f op g s).mem = s.mem := by simp [aluOp]
@[simp] theorem mem_branchTo (s t p f taken) : (branchTo s t p f taken).mem = s.mem := by simp [branchTo]
@[simp] theorem mem_condBranch (t p f op c s) : (condBranch t p f op c s).mem = s.mem := by simp [condBranch]
@[simp] theorem mem_enterWait (s c w) : (enterWait s c w).mem = s.mem := by simp [enterWait]
@[simp] theorem mem_endWait (s t p) : (endWait s t p).mem = s.mem := by simp [endWait]
@[simp] theorem mem_haltTcc (s t locked) : (haltTcc s t locked).mem = s.mem := by simp [haltTcc]

/-! Routes. -/

@[simp] theorem mem_crossBridges (n a l s) : (crossBridges n a l s).mem = s.mem := by
  induction l generalizing a s with
  | nil => rfl
  | cons ew l ih => simp [crossBridges, ih]

@[simp] theorem mem_travel (s x y n) : (travel s x y n).2.mem = s.mem := by
  grind [travel, mem_count, mem_crossBridges]
@[simp] theorem mem_carry (s q y n) : (carry s q y n).2.mem = s.mem := by
  grind [carry, mem_travel, State.setStore]

/-! Bonded DRAM, LPDDR5X and the shared buffers. -/

@[simp] theorem mem_raiseOp (s page src ws) : (raiseOp s page src ws).mem = s.mem := by simp [raiseOp]
@[simp] theorem mem_setHalf (s t h code) : (setHalf s t h code).mem = s.mem := by simp [setHalf]
@[simp] theorem mem_touchHalf (s t h) : (touchHalf s t h).mem = s.mem := by simp [touchHalf]
@[simp] theorem mem_touchHalves (s hs) : (touchHalves s hs).mem = s.mem := by simp [touchHalves]
@[simp] theorem mem_touchPart (s t p) : (touchPart s t p).mem = s.mem := by simp [touchPart]
@[simp] theorem mem_latchWake (s t h) : (latchWake s t h).mem = s.mem := by simp [latchWake]
@[simp] theorem mem_slowRequests (s t h) : (slowRequests s t h).mem = s.mem := by simp [slowRequests]
@[simp] theorem mem_slowWake (s t h) : (slowWake s t h).mem = s.mem := by
  unfold slowWake
  split <;> simp

@[simp] theorem mem_awaken (s t h) : (awaken s t h).mem = s.mem := by
  unfold awaken
  dsimp only
  split <;> simp

@[simp] theorem mem_wakeHalf (s t h) : (wakeHalf s t h).mem = s.mem := by simp [wakeHalf]
@[simp] theorem mem_seamRequest (s q t h n) : (seamRequest s q t h n).mem = s.mem := by simp [seamRequest]
@[simp] theorem mem_seamOnce (s q t h) : (seamOnce s q t h).mem = s.mem := by simp [seamOnce]
@[simp] theorem mem_awaitHalves (s q hs) {f : State → State} (hf : ∀ u, (f u).mem = u.mem) :
    (awaitHalves s q hs f).mem = s.mem := by
  simp [awaitHalves, hf]
@[simp] theorem mem_reachHalf (s t h tag) : (reachHalf s t h tag).2.mem = s.mem := by simp [reachHalf]
@[simp] theorem mem_sliceReach (s q t n) : (sliceReach s q t n).2.mem = s.mem := by simp [sliceReach]
@[simp] theorem mem_setLp (s p x) : (setLp s p x).mem = s.mem := by simp [setLp]
@[simp] theorem mem_lpMoved (s ch n lo hi write) : (lpMoved s ch n lo hi write).mem = s.mem := by
  simp [lpMoved]
@[simp] theorem mem_lpCharge (s ch cda write) : (lpCharge s ch cda write).mem = s.mem := by simp [lpCharge]
@[simp] theorem mem_lpBulk (s a b0 b1 write) : (lpBulk s a b0 b1 write).mem = s.mem := by simp [lpBulk]
@[simp] theorem mem_lpUncCount (s ch op cda tag) : (lpUncCount s ch op cda tag).mem = s.mem := by
  simp [lpUncCount]
@[simp] theorem mem_lpLineLost (s op tag ch cda) : (lpLineLost s op tag ch cda).mem = s.mem := by
  simp [lpLineLost]
@[simp] theorem mem_setSlice (s t n x) : (setSlice s t n x).mem = s.mem := by simp [setSlice]

@[simp] theorem mem_rowLog (s t n o op kind tag) : (rowLog s t n o op kind tag).mem = s.mem := by
  unfold rowLog
  dsimp only
  split <;> simp

@[simp] theorem mem_lpTail (s a tag) : (lpTail s a tag).mem = s.mem := by simp [lpTail]
@[simp] theorem mem_trainedSlice (s t n) : (trainedSlice s t n).mem = s.mem := by simp [trainedSlice]
@[simp] theorem mem_sbBad (s a o op tag) : (sbBad s a o op tag).mem = s.mem := by simp [sbBad]
@[simp] theorem mem_sbRead (s op tag a o n) : (sbRead s op tag a o n).2.mem = s.mem := by simp [sbRead]

/-! Accesses. -/

@[simp] theorem mem_reqAddrErr (s who write) : (reqAddrErr s who write).mem = s.mem := by
  unfold reqAddrErr
  split <;> simp
@[simp] theorem mem_reqWrite (who x) : (reqWrite who x).mem = x.2.mem := by simp [reqWrite]
@[simp] theorem mem_setGroup (s x) : (setGroup s x).mem = s.mem := by simp [setGroup]
@[simp] theorem mem_noteLine (s q differs) : (noteLine s q differs).2.mem = s.mem := by
  grind [noteLine, mem_setGroup]

theorem mem_readPieces {rd : State → Nat → Nat → (List Byte × ASt) × State} (h : ∀ u a n, (rd u a n).2.mem = u.mem) (l s) :
    (readPieces rd l s).2.mem = s.mem := by
  induction l generalizing s with
  | nil => rfl
  | cons x l ih => simp [readPieces, ih, h]

@[simp] theorem mem_tlaReach (s q t a) : (tlaReach s q t a).2.mem = s.mem := by
  unfold tlaReach
  dsimp only
  split <;> simp

@[simp] theorem mem_tlaChunkRead (s q t a n) : (tlaChunkRead s q t a n).2.mem = s.mem := by
  simp [tlaChunkRead]
@[simp] theorem mem_tlaRead (s q t a n) : (tlaRead s q t a n).2.mem = s.mem :=
  mem_readPieces (by simp) _ _
@[simp] theorem mem_wordUnderXfer (s t p w) : (wordUnderXfer s t p w).2.mem = s.mem :=
  foldl_induction (P := fun r : List Byte × State => r.2.mem = s.mem) (by simp [drawBool]) _ rfl
@[simp] theorem mem_loadUnderXfer (s t p a n) : (loadUnderXfer s t p a n).2.mem = s.mem := by
  simp [loadUnderXfer]

@[simp] theorem mem_wordsUnderXfer (s t p a n) : (wordsUnderXfer s t p a n).2.mem = s.mem := by
  induction n generalizing a s with
  | zero => rfl
  | succ n ih => simp [wordsUnderXfer, ih]

@[simp] theorem mem_loadRange (s t p a n) : (loadRange s t p a n).2.mem = s.mem := by simp [loadRange]

/-! Flags and barriers. -/

@[simp] theorem mem_setFlag (s module t num v) : (setFlag s module t num v).mem = s.mem := by simp [setFlag]
@[simp] theorem mem_dropWaiter (s c) : (dropWaiter s c).mem = s.mem := by simp [dropWaiter]
@[simp] theorem mem_addWaiter (s w) : (addWaiter s w).mem = s.mem := by simp [addWaiter]
@[simp] theorem mem_saveWaiter (s c saved) : (saveWaiter s c saved).mem = s.mem := by simp [saveWaiter]
@[simp] theorem mem_dropWaiters (s c) : (dropWaiters s c).mem = s.mem := by simp [dropWaiters]
@[simp] theorem mem_setBar (s module t g b) : (setBar s module t g b).mem = s.mem := by simp [setBar]

@[simp] theorem mem_finishWait (s c status) : (finishWait s c status).mem = s.mem := by
  unfold finishWait
  dsimp only
  split <;> simp

@[simp] theorem mem_grantBarrier (s w status) : (grantBarrier s w status).mem = s.mem := by
  simp [grantBarrier]
@[simp] theorem mem_endGeneration (s module t g status) : (endGeneration s module t g status).mem = s.mem := by
  simp [endGeneration]
@[simp] theorem mem_arrive (s module t g m) : (arrive s module t g m).mem = s.mem := by simp [arrive]
@[simp] theorem mem_writeMembers (s module t g members) : (writeMembers s module t g members).mem = s.mem := by
  simp [writeMembers]

/-! Transfers. -/

@[simp] theorem mem_issueRelease (s i t p op) {f : State → State} (hf : ∀ u, (f u).mem = u.mem) :
    (issueRelease s i t p op f).mem = s.mem := by
  simp [issueRelease, hf]
@[simp] theorem mem_flagOp (i t p f op v s) : (flagOp i t p f op v s).mem = s.mem := by
  unfold flagOp
  split <;> simp

@[simp] theorem mem_barWait (s t p f g m) : (barWait s t p f g m).mem = s.mem := by
  unfold barWait
  dsimp only
  split <;> simp

@[simp] theorem mem_tfSetWrite (t flag s) : (tfSetWrite t flag s).mem = s.mem := by simp [tfSetWrite]
@[simp] theorem mem_tfClrWrite (t flag s) : (tfClrWrite t flag s).mem = s.mem := by simp [tfClrWrite]
@[simp] theorem mem_mfSetWrite (flag s) : (mfSetWrite flag s).mem = s.mem := by simp [mfSetWrite]
@[simp] theorem mem_mfClrWrite (flag s) : (mfClrWrite flag s).mem = s.mem := by simp [mfClrWrite]
@[simp] theorem mem_tbMembersWrite (t g high v s) : (tbMembersWrite t g high v s).mem = s.mem := by
  simp [tbMembersWrite]
@[simp] theorem mem_mbMembersWrite (g v s) : (mbMembersWrite g v s).mem = s.mem := by simp [mbMembersWrite]
@[simp] theorem mem_tbAbortWrite (t g s) : (tbAbortWrite t g s).mem = s.mem := by simp [tbAbortWrite]

/-! Units. -/

@[simp] theorem mem_setUnit (s t u x) : (setUnit s t u x).mem = s.mem := by simp [setUnit]
@[simp] theorem mem_setSvc (s t code) : (setSvc s t code).mem = s.mem := by simp [setSvc]
@[simp] theorem mem_setSvcReason (s t r) : (setSvcReason s t r).mem = s.mem := by simp [setSvcReason]
@[simp] theorem mem_condemn (s t u) : (condemn s t u).mem = s.mem := by simp [condemn]
@[simp] theorem mem_strike (s t u) : (strike s t u).mem = s.mem := by simp [strike]
@[simp] theorem mem_abandonTest (s t u) : (abandonTest s t u).mem = s.mem := by
  unfold abandonTest
  split <;> simp
@[simp] theorem mem_startProgram (s t p pc g1 tag) : (startProgram s t p pc g1 tag).mem = s.mem := by
  unfold startProgram
  split <;> simp
@[simp] theorem mem_startReplay (s g t u pos) : (startReplay s g t u pos).mem = s.mem := by
  unfold startReplay
  repeat' (split <;> simp)
@[simp] theorem mem_rerunPiece (s tag c) : (rerunPiece s tag c).mem = s.mem := by
  unfold rerunPiece
  split <;> simp
@[simp] theorem mem_rerunPieces (s) : (rerunPieces s).mem = s.mem := by simp [rerunPieces]

/-! Values of registers. -/

@[simp] theorem mem_placeBar4 (s base) : (placeBar4 s base).mem = s.mem := by simp [placeBar4]
@[simp] theorem mem_bar4Write (s hi v) : (bar4Write s hi v).mem = s.mem := by simp [bar4Write]
@[simp] theorem mem_ringDaWrite (s v) : (ringDaWrite s v).mem = s.mem := by simp [ringDaWrite]
@[simp] theorem mem_ringCfgWrite (s v) : (ringCfgWrite s v).mem = s.mem := by simp [ringCfgWrite]
@[simp] theorem mem_ringTailWrite (s v) : (ringTailWrite s v).mem = s.mem := by simp [ringTailWrite]
@[simp] theorem mem_putRing (s pg size v) : (putRing s pg size v).mem = s.mem := by simp [putRing]
@[simp] theorem mem_settingMembers (s module t g new) : (settingMembers s module t g new).mem = s.mem := by
  simp [settingMembers]
@[simp] theorem mem_placeSetting (s page o v) : (placeSetting s page o v).mem = s.mem := by
  unfold placeSetting
  repeat' (split <;> simp)
@[simp] theorem mem_applySettings (s lo n o) : (applySettings s lo n o).mem = s.mem := by simp [applySettings]

/-! Matrix units. -/

@[simp] theorem mem_mxaOp (s t n f) : (mxaOp s t n f).2.mem = s.mem := by simp [mxaOp]
@[simp] theorem mem_mcRaise (s t n src tag) : (mcRaise s t n src tag).mem = s.mem := by simp [mcRaise]

@[simp] theorem mem_ringStart (s t n o) : (ringStart s t n o).mem = s.mem := by
  unfold ringStart
  dsimp only
  split <;> simp

@[simp] theorem mem_countCheck (s t n c) : (countCheck s t n c).mem = s.mem := by
  unfold countCheck
  split <;> simp

@[simp] theorem mem_compareBank (s t n b r) : (compareBank s t n b r).mem = s.mem := by
  unfold compareBank
  dsimp only
  repeat' (split <;> simp)

@[simp] theorem mem_mxaDone (s t n) : (mxaDone s t n).mem = s.mem := by
  unfold mxaDone
  dsimp only
  split <;> simp

@[simp] theorem mem_upsetOperands (s t n o up) : (upsetOperands s t n o up).mem = s.mem := by
  unfold upsetOperands
  split <;> simp
@[simp] theorem mem_upsetBank (s t n o up) : (upsetBank s t n o up).mem = s.mem := by
  unfold upsetBank
  split <;> simp
@[simp] theorem mem_ringFlush (s t n) : (ringFlush s t n).mem = s.mem := by simp [ringFlush]
@[simp] theorem mem_mcWringWrite (t n size v s) : (mcWringWrite t n size v s).mem = s.mem := by
  simp [mcWringWrite]

/-! Vector units. -/

@[simp] theorem mem_setY (s t p r l) : (setY s t p r l).mem = s.mem := by simp [setY]
@[simp] theorem mem_vop (t v f op ok) {g : State → State} (hg : ∀ u, (g u).mem = u.mem) (s) :
    (vop t v f op ok g s).mem = s.mem := by
  simp [vop, hg]
@[simp] theorem mem_laneOp (t v f op g s) : (laneOp t v f op g s).mem = s.mem := by simp [laneOp]
@[simp] theorem mem_crossOp (t v f op g s) : (crossOp t v f op g s).mem = s.mem := by simp [crossOp]

@[simp] theorem mem_vldRaw (s t p f) : (vldRaw s t p f).2.mem = s.mem := by
  unfold vldRaw
  dsimp only
  split
  · simp
  · induction strideAddrs (vecAddr s t p f) (getG s t p f.gb.toNat).toNat with
    | nil => rfl
    | cons x l ih => simp [ih]

@[simp] theorem mem_tuOp (t v f op g s) : (tuOp t v f op g s).mem = s.mem := by simp [tuOp]
@[simp] theorem mem_setPair (s t p r l) : (setPair s t p r l).mem = s.mem := by simp [setPair]

/-! Control cores. -/

@[simp] theorem mem_tccOp (t op) {g : State → State} (hg : ∀ u, (g u).mem = u.mem) (s) : (tccOp t op g s).mem = s.mem := by
  simp [tccOp, hg]
@[simp] theorem mem_noteStart (s t p pc g1 tag) : (noteStart s t p pc g1 tag).mem = s.mem := by
  simp [noteStart]

@[simp] theorem mem_resumePart (s c w) : (resumePart s c w).mem = s.mem := by
  unfold resumePart
  cases w with
  | none => simp
  | some w =>
    dsimp only
    split
    · split <;> simp
    · simp

@[simp] theorem mem_enterTrap (s t c epc saved) : (enterTrap s t c epc saved).mem = s.mem := by
  simp [enterTrap]
@[simp] theorem mem_tileEvent (s t ev) : (tileEvent s t ev).mem = s.mem := by simp [tileEvent]
@[simp] theorem mem_haltWrite (s t halt) : (haltWrite s t halt).mem = s.mem := by simp [haltWrite]
@[simp] theorem mem_tccHaltReg (t halt s) : (tccHaltReg t halt s).mem = s.mem := by simp [tccHaltReg]
@[simp] theorem mem_tccRestart (s t) : (tccRestart s t).mem = s.mem := by simp [tccRestart]
@[simp] theorem mem_tccRestartWrite (t s) : (tccRestartWrite t s).mem = s.mem := by simp [tccRestartWrite]
@[simp] theorem mem_spoilTile (s t) : (spoilTile s t).mem = s.mem := by simp [spoilTile]

/-! Queues of the host. -/

@[simp] theorem mem_setPair' (s q x) : (setPair' s q x).mem = s.mem := by simp [setPair']
@[simp] theorem mem_qStatBit (s q bit) : (qStatBit s q bit).mem = s.mem := by simp [qStatBit]
@[simp] theorem mem_cqLost (s q) : (cqLost s q).mem = s.mem := by simp [cqLost]
@[simp] theorem mem_cqSignal (s q) : (cqSignal s q).mem = s.mem := by simp [cqSignal]
@[simp] theorem mem_cqWrite (s q e) : (cqWrite s q e).mem = s.mem := by simp [cqWrite]
@[simp] theorem mem_cqPost (s q e) : (cqPost s q e).mem = s.mem := by simp [cqPost]
@[simp] theorem mem_completeNow (s q cid status d) : (completeNow s q cid status d).mem = s.mem := by
  simp [completeNow]

@[simp] theorem mem_flushDone (q l s) : (flushDone q l s).mem = s.mem := by
  induction l generalizing s with
  | nil => rfl
  | cons x l ih => obtain ⟨cid, _ | y⟩ := x <;> simp [flushDone, ih]

@[simp] theorem mem_complete (s q cid status d) : (complete s q cid status d).mem = s.mem := by
  simp [complete]
@[simp] theorem mem_keepOpen (s q cid) : (keepOpen s q cid).mem = s.mem := by simp [keepOpen]
@[simp] theorem mem_postEvent (s q evt fs seqs) : (postEvent s q evt fs seqs).mem = s.mem := by
  simp [postEvent]
@[simp] theorem mem_event (s evt fs seqs) : (event s evt fs seqs).mem = s.mem := by simp [event]

@[simp] theorem mem_hostCmd (q cid opc fs c) {f : State → State} (hf : ∀ u, (f u).mem = u.mem) (s) :
    (hostCmd q cid opc fs c f s).mem = s.mem := by
  unfold hostCmd
  dsimp only
  repeat' (split <;> simp [hf])

@[simp] theorem mem_maintCmd (q cid oper fs) {f : State → State} (hf : ∀ u, (f u).mem = u.mem) (s) :
    (maintCmd q cid oper fs f s).mem = s.mem := mem_hostCmd _ _ _ _ _ hf _
@[simp] theorem mem_cacheFill (s addr n) : (cacheFill s addr n).mem = s.mem := by simp [cacheFill]

@[simp] theorem mem_fetchOne (s q) : (fetchOne s q).mem = s.mem := by
  unfold fetchOne
  dsimp only
  split <;> simp

@[simp] theorem mem_fetchEntries (k s) : (fetchEntries k s).mem = s.mem := by
  induction k generalizing s with
  | zero => rfl
  | succ k ih => unfold fetchEntries; split <;> simp [ih]

@[simp] theorem mem_sqTail (q tail entries bad s) : (sqTail q tail entries bad s).mem = s.mem := by
  simp [sqTail]

@[simp] theorem mem_cqDrain (s q k) : (cqDrain s q k).mem = s.mem := by
  induction k generalizing s with
  | zero => rfl
  | succ k ih => unfold cqDrain; dsimp only; split <;> simp [ih]

@[simp] theorem mem_cqHeadWrite (q head s) : (cqHeadWrite q head s).mem = s.mem := by simp [cqHeadWrite]
@[simp] theorem mem_completeTicket (s k status d) : (completeTicket s k status d).mem = s.mem := by
  simp [completeTicket]
@[simp] theorem mem_msixRelease (s v) : (msixRelease s v).mem = s.mem := by simp [msixRelease]
@[simp] theorem mem_msixUnmask (v mask s) : (msixUnmask v mask s).mem = s.mem := by
  unfold msixUnmask
  split <;> simp

/-! Sleep. -/

@[simp] theorem mem_countPower (s t0 t1) : (countPower s t0 t1).mem = s.mem := by simp [countPower]
@[simp] theorem mem_setPwrStat (s hi lo v) : (setPwrStat s hi lo v).mem = s.mem := by simp [setPwrStat]
@[simp] theorem mem_saveMoved (s da write) : (saveMoved s da write).mem = s.mem := by
  unfold saveMoved
  split <;> simp
@[simp] theorem mem_saveLost (s line) : (saveLost s line).mem = s.mem := by
  unfold saveLost
  split <;> simp
@[simp] theorem mem_setHalves (s code) : (setHalves s code).mem = s.mem := by simp [setHalves]
@[simp] theorem mem_lpEpoch (s) : (lpEpoch s).mem = s.mem := by simp [lpEpoch]
@[simp] theorem mem_wakeHalves (s) : (wakeHalves s).mem = s.mem := by simp [wakeHalves]
@[simp] theorem mem_wakeTrigger (s cause) : (wakeTrigger s cause).mem = s.mem := by
  unfold wakeTrigger
  split <;> simp
@[simp] theorem mem_pageWake (s page) : (pageWake s page).mem = s.mem := by
  grind [pageWake, mem_wakeHalf]
@[simp] theorem mem_refreshSave (s) : (refreshSave s).mem = s.mem := by
  unfold refreshSave
  split <;> simp
@[simp] theorem mem_dropSave (s a) : (dropSave s a).mem = s.mem := by
  unfold dropSave
  split <;> simp

/-! Plans. -/

@[simp] theorem mem_setSlotState (s i st code) : (setSlotState s i st code).mem = s.mem := by
  simp [setSlotState]
@[simp] theorem mem_releaseSlot (s i) : (releaseSlot s i).mem = s.mem := by simp [releaseSlot]

@[simp] theorem mem_doUnload (s i) : (doUnload s i).mem = s.mem := by
  unfold doUnload
  dsimp only
  split <;> simp

/-! Links. -/

@[simp] theorem mem_setPort (s c x) : (setPort s c x).mem = s.mem := by simp [setPort]
@[simp] theorem mem_setPortState (s c code) : (setPortState s c code).mem = s.mem := by simp [setPortState]
@[simp] theorem mem_rotatePort (s node) : (rotatePort s node).2.mem = s.mem := by
  unfold rotatePort
  split <;> simp
@[simp] theorem mem_transmit (s c f last) : (transmit s c f last).mem = s.mem := by simp [transmit]
@[simp] theorem mem_toPort (s x c f last) : (toPort s x c f last).2.mem = s.mem := by
  grind [toPort, mem_travel, mem_transmit]
@[simp] theorem mem_sendFrom (s x from' f) : (sendFrom s x from' f).mem = s.mem := by
  grind [sendFrom, mem_toPort, mem_raiseOp]
@[simp] theorem mem_sendControl (s from' f) : (sendControl s from' f).mem = s.mem := by simp [sendControl]
@[simp] theorem mem_transmitLink (s c type arg ext) : (transmitLink s c type arg ext).mem = s.mem := by
  simp [transmitLink]
@[simp] theorem mem_sendIdent (s c) : (sendIdent s c).mem = s.mem := by simp [sendIdent]
@[simp] theorem mem_sendAck (s c) : (sendAck s c).mem = s.mem := mem_transmitLink ..
@[simp] theorem mem_sendNak (s c) : (sendNak s c).mem = s.mem := by simp [sendNak]
@[simp] theorem mem_freeRun (s c) : (freeRun s c).mem = s.mem := by simp [freeRun]
@[simp] theorem mem_broadcast (s except f) : (broadcast s except f).mem = s.mem := by simp [broadcast]
@[simp] theorem mem_setCb (s g x) : (setCb s g x).mem = s.mem := by simp [setCb]
@[simp] theorem mem_endModuleGen (s g status) : (endModuleGen s g status).mem = s.mem := by
  unfold endModuleGen
  repeat' (split <;> simp)
@[simp] theorem mem_endChainGen (s g status) : (endChainGen s g status).mem = s.mem := by simp [endChainGen]
@[simp] theorem mem_rootArrival (s g) : (rootArrival s g).mem = s.mem := by simp [rootArrival]
@[simp] theorem mem_chainArrive (s g) : (chainArrive s g).mem = s.mem := by simp [chainArrive]
@[simp] theorem mem_rootAbort (s g) : (rootAbort s g).mem = s.mem := by simp [rootAbort]
@[simp] theorem mem_abortModuleBar (s g) : (abortModuleBar s g).mem = s.mem := by
  unfold abortModuleBar
  split <;> simp
@[simp] theorem mem_abortBar (s module t g) : (abortBar s module t g).mem = s.mem := by simp [abortBar]
@[simp] theorem mem_completeBar (s module t g) : (completeBar s module t g).mem = s.mem := by
  grind [completeBar, mem_chainArrive, mem_endModuleGen, mem_endGeneration]
@[simp] theorem mem_mbAbortWrite (g s) : (mbAbortWrite g s).mem = s.mem := by simp [mbAbortWrite]

/-! Chains. -/

@[simp] theorem mem_reboundChain (s slot segs) : (reboundChain s slot segs).mem = s.mem := by
  simp [reboundChain]
@[simp] theorem mem_resumeChain (s slot) : (resumeChain s slot).mem = s.mem := by simp [resumeChain]

/-! KV pages. -/

@[simp] theorem mem_listGuard (s own) : (listGuard s own).mem = s.mem := by simp [listGuard]
@[simp] theorem mem_returnPages (s slot l) : (returnPages s slot l).mem = s.mem := by simp [returnPages]

/-! Sequences. -/

@[simp] theorem mem_setSeq (s i x) : (setSeq s i x).mem = s.mem := by simp [setSeq]
@[simp] theorem mem_acceptCmd (s i k) : (acceptCmd s i k).mem = s.mem := by simp [acceptCmd]
@[simp] theorem mem_seqSync (s slot node seq op round ext image) :
    (seqSync s slot node seq op round ext image).mem = s.mem := by
  simp [seqSync]
@[simp] theorem mem_seqSyncAll (s slot seq op round ext image) : (seqSyncAll s slot seq op round ext image).mem = s.mem := by
  simp [seqSyncAll]
@[simp] theorem mem_assignEntry (s i e) : (assignEntry s i e).mem = s.mem := by simp [assignEntry]
@[simp] theorem mem_startRound (s o) : (startRound s o).mem = s.mem := by simp [startRound]
@[simp] theorem mem_seqCommand (s q cid seq k) : (seqCommand s q cid seq k).mem = s.mem := by
  unfold seqCommand
  repeat' (split <;> simp)

/-! The end of an engine's work. -/

@[simp] theorem mem_setTongs (s t x) : (setTongs s t x).mem = s.mem := by simp [setTongs]
@[simp] theorem mem_setLayer (s t l x) : (setLayer s t l x).mem = s.mem := by simp [setLayer]
@[simp] theorem mem_setScan (s t x) : (setScan s t x).mem = s.mem := by simp [setScan]
@[simp] theorem mem_putNbSet (s t l n b k x) : (putNbSet s t l n b k x).mem = s.mem := by simp [putNbSet]
@[simp] theorem mem_emptySets (s t l i) : (emptySets s t l i).mem = s.mem := by
  grind [emptySets, mem_putNbSet, mem_foldList]
@[simp] theorem mem_showTongs (s t) : (showTongs s t).mem = s.mem := by simp [showTongs]
@[simp] theorem mem_showLayer (s t l) : (showLayer s t l).mem = s.mem := by simp [showLayer]
@[simp] theorem mem_showScan (s t) : (showScan s t).mem = s.mem := by simp [showScan]
@[simp] theorem mem_endTongs (s t p) : (endTongs s t p).mem = s.mem := by simp [endTongs]
@[simp] theorem mem_endLayer (s t l p) : (endLayer s t l p).mem = s.mem := by simp [endLayer]
@[simp] theorem mem_endScan (s t p) : (endScan s t p).mem = s.mem := by simp [endScan]
@[simp] theorem mem_showRed (s a) : (showRed s a).mem = s.mem := by simp [showRed]
@[simp] theorem mem_sendLost (s x) : (sendLost s x).mem = s.mem := by
  unfold sendLost
  split <;> simp
@[simp] theorem mem_endSends (s p) : (endSends s p).mem = s.mem := by simp [endSends]
@[simp] theorem mem_dropWalks (s t tag) : (dropWalks s t tag).mem = s.mem := by simp [dropWalks]
@[simp] theorem mem_stopScan (s t) : (stopScan s t).mem = s.mem := by
  unfold stopScan
  split <;> simp

/-! Periods. -/

@[simp] theorem mem_advanceTo (s t) : (advanceTo s t).mem = s.mem := by simp [advanceTo]
@[simp] theorem mem_idBit (s off bit) : (idBit s off bit).mem = s.mem := by simp [idBit]
@[simp] theorem mem_showQuarantine (s t u) : (showQuarantine s t u).mem = s.mem := by simp [showQuarantine]
@[simp] theorem mem_quarantine (s t u) : (quarantine s t u).mem = s.mem := by
  unfold quarantine
  repeat' (split <;> simp)
@[simp] theorem mem_quarantineAll (s) : (quarantineAll s).mem = s.mem := by simp [quarantineAll]
@[simp] theorem mem_settle (s g outcome) : (settle s g outcome).mem = s.mem := by simp [settle]
@[simp] theorem mem_sendAdmit (s slot k l) : (sendAdmit s slot k l).mem = s.mem := by simp [sendAdmit]
@[simp] theorem mem_failStranded (s slot) : (failStranded s slot).mem = s.mem := by simp [failStranded]

@[simp] theorem mem_switchSlot (s i) : (switchSlot s i).mem = s.mem := by
  unfold switchSlot
  dsimp only
  repeat' (split <;> simp)

@[simp] theorem mem_activateSlot (s i start) : (activateSlot s i start).mem = s.mem := by
  unfold activateSlot
  dsimp only
  split <;> simp

@[simp] theorem mem_startDrains (s) : (startDrains s).mem = s.mem := by simp [startDrains]
@[simp] theorem mem_returnTiles (s) : (returnTiles s).mem = s.mem := by simp [returnTiles]
@[simp] theorem mem_stopChains (s away) : (stopChains s away).mem = s.mem := by simp [stopChains]
@[simp] theorem mem_putRecord (s k gs) : (putRecord s k gs).mem = s.mem := by simp [putRecord]
@[simp] theorem mem_showPeriod (s dec lanes) : (showPeriod s dec lanes).mem = s.mem := by simp [showPeriod]
@[simp] theorem mem_noteDrop (s tag) : (noteDrop s tag).mem = s.mem := by simp [noteDrop]
@[simp] theorem mem_noteCommit (s tag) : (noteCommit s tag).mem = s.mem := by simp [noteCommit]
@[simp] theorem mem_sendDrop (s g k reason) : (sendDrop s g k reason).mem = s.mem := by
  unfold sendDrop
  split <;> simp
@[simp] theorem mem_clearPlaces (s g) : (clearPlaces s g).mem = s.mem := by simp [clearPlaces]
@[simp] theorem mem_releasePlaced (s g) : (releasePlaced s g).mem = s.mem := by simp [releasePlaced]
@[simp] theorem mem_atRisk (s slot lag) : (atRisk s slot lag).mem = s.mem := by simp [atRisk]
@[simp] theorem mem_evaluateLag (s) : (evaluateLag s).mem = s.mem := by simp [evaluateLag]
@[simp] theorem mem_noteEnds (s parts) : (noteEnds s parts).mem = s.mem := by
  grind [noteEnds, mem_setGroup, mem_foldList]
@[simp] theorem mem_sendCommit (s g c tc kinds) : (sendCommit s g c tc kinds).mem = s.mem := by
  simp [sendCommit]
@[simp] theorem mem_sendReport (s g index) : (sendReport s g index).mem = s.mem := by simp [sendReport]
@[simp] theorem mem_spoilPlan (s slot) : (spoilPlan s slot).mem = s.mem := by simp [spoilPlan]

/-! Replays. -/

@[simp] theorem mem_showResolution (s t outcome same u tag hw) : (showResolution s t outcome same u tag hw).mem = s.mem := by
  simp [showResolution]
@[simp] theorem mem_sendReplayRequest (s g node da t p inputs) : (sendReplayRequest s g node da t p inputs).mem = s.mem := by
  simp [sendReplayRequest]
@[simp] theorem mem_endSpare (s r) : (endSpare s r).mem = s.mem := by
  unfold endSpare
  split <;> simp
@[simp] theorem mem_resolvePiece (s g r page n res) : (resolvePiece s g r page n res).mem = s.mem := by
  unfold resolvePiece
  repeat' (split <;> simp)
@[simp] theorem mem_resolveRerun (s g r res) : (resolveRerun s g r res).mem = s.mem := by simp [resolveRerun]

/-! DMA. -/

@[simp] theorem mem_dmaStart (s q cid dir host da len) : (dmaStart s q cid dir host da len).mem = s.mem := by
  simp [dmaStart]
@[simp] theorem mem_hostWrite (s addr l) : (hostWrite s addr l).mem = s.mem := by simp [hostWrite]
@[simp] theorem mem_setChState (s p c code) : (setChState s p c code).mem = s.mem := by simp [setChState]
@[simp] theorem mem_doomPlans (s f) : (doomPlans s f).mem = s.mem := by simp [doomPlans]
@[simp] theorem mem_mapOut (s p c) : (mapOut s p c).mem = s.mem := by simp [mapOut]
@[simp] theorem mem_lpMapoutWrite (p mask s) : (lpMapoutWrite p mask s).mem = s.mem := by simp [lpMapoutWrite]
@[simp] theorem mem_initLines (s a) : (initLines s a).mem = s.mem := by simp [initLines]
@[simp] theorem mem_showCdat (s) : (showCdat s).mem = s.mem := by simp [showCdat]

/-! Walks. -/

@[simp] theorem mem_sbCommands (s a off n) : (sbCommands s a off n).2.mem = s.mem :=
  foldList_induction (P := fun x : List (List Byte) × State => x.2.mem = s.mem)
    (fun i x hx => by dsimp only; split <;> simp [hx]) _ rfl
@[simp] theorem mem_tongsPost (s t cap src v queue put) : (tongsPost s t cap src v queue put).mem = s.mem := by
  simp [tongsPost]
@[simp] theorem mem_tgWpostWrite (t v s) : (tgWpostWrite t v s).mem = s.mem := by simp [tgWpostWrite]
@[simp] theorem mem_walkCur (s t cmd page) : (walkCur s t cmd page).mem = s.mem := by simp [walkCur]
@[simp] theorem mem_walkFault (s t src cmd) : (walkFault s t src cmd).mem = s.mem := by simp [walkFault]

/-! Commands of memory. -/

@[simp] theorem mem_tgMpostWrite (t v s) : (tgMpostWrite t v s).mem = s.mem := by simp [tgMpostWrite]

@[simp] theorem mem_takeMcmd (s t op) {f : List Byte → State → State} (hf : ∀ c u, (f c u).mem = u.mem) :
    (takeMcmd s t op f).mem = s.mem := by
  unfold takeMcmd
  dsimp only
  split <;> simp [hf]

@[simp] theorem mem_mcmdDone (s t flag) : (mcmdDone s t flag).mem = s.mem := by
  unfold mcmdDone
  split <;> simp
@[simp] theorem mem_landBytes (s src id n) : (landBytes s src id n).mem = s.mem := by
  unfold landBytes
  repeat' (split <;> simp)
@[simp] theorem mem_redDone (s c) : (redDone s c).mem = s.mem := by
  unfold redDone
  split <;> simp
@[simp] theorem mem_setReds (s a t l) : (setReds s a t l).mem = s.mem := by
  unfold setReds
  split <;> simp
@[simp] theorem mem_redTimeout (s a t i c) : (redTimeout s a t i c).mem = s.mem := by simp [redTimeout]
@[simp] theorem mem_noRoute (s t c) : (noRoute s t c).mem = s.mem := by simp [noRoute]
@[simp] theorem mem_sendFrame (s t port f last) : (sendFrame s t port f last).mem = s.mem := by
  grind [sendFrame, mem_toPort, mem_raiseOp, mem_sendLost]
@[simp] theorem mem_sendFrames (s t c type) : (sendFrames s t c type).mem = s.mem := by
  grind [sendFrames, mem_rotatePort, mem_noRoute, mem_tlaRead, mem_setTongs, mem_sendFrame, State.setChain, mem_foldList]
@[simp] theorem mem_fillWrite (a s) : (fillWrite a s).mem = s.mem := by simp [fillWrite]

/-! Frames. -/

@[simp] theorem mem_setSyncState (s c v) : (setSyncState s c v).mem = s.mem := by simp [setSyncState]
@[simp] theorem mem_rescueFrame (s c node x sent) : (rescueFrame s c node x sent).mem = s.mem := by
  grind [rescueFrame, mem_raiseOp, mem_sendLost, mem_toPort, mem_count]
@[simp] theorem mem_portOff (s c code) : (portOff s c code).mem = s.mem := by simp [portOff]
@[simp] theorem mem_portDown (s c) : (portDown s c).mem = s.mem := by simp [portDown]
@[simp] theorem mem_retrain (s c) : (retrain s c).mem = s.mem := by simp [retrain]
@[simp] theorem mem_sendHeld (s c) : (sendHeld s c).mem = s.mem := by simp [sendHeld]
@[simp] theorem mem_trainingDone (s c good) : (trainingDone s c good).mem = s.mem := by simp [trainingDone]
@[simp] theorem mem_cpRetrainWrite (c s) : (cpRetrainWrite c s).mem = s.mem := by simp [cpRetrainWrite]
@[simp] theorem mem_portEnable (s c on) : (portEnable s c on).mem = s.mem := by simp [portEnable]
@[simp] theorem mem_frameBad (s c f) : (frameBad s c f).mem = s.mem := by simp [frameBad]
@[simp] theorem mem_keepFrame (s c f) : (keepFrame s c f).mem = s.mem := by simp [keepFrame]

@[simp] theorem mem_toModule (s c f) {next : State → State} (h : ∀ u, (next u).mem = u.mem) :
    (toModule s c f next).mem = s.mem := by
  unfold toModule
  split
  · exact h s
  · have := mem_travel s (leafLoc (.port c)) (leafLoc .vexondane) (frameFlits f)
    split <;> simp_all

@[simp] theorem mem_takeFrame (s c type) : (takeFrame s c type).2.mem = s.mem := by
  unfold takeFrame
  dsimp only
  split <;> simp

@[simp] theorem mem_passPort (s f) : (passPort s f).2.mem = s.mem := by
  unfold passPort
  repeat' (split <;> simp)
@[simp] theorem mem_identArrives (s c node port) : (identArrives s c node port).mem = s.mem := by
  simp [identArrives]
@[simp] theorem mem_sendDone (s t flag) : (sendDone s t flag).mem = s.mem := by simp [sendDone]
@[simp] theorem mem_correctTime (s c th) : (correctTime s c th).mem = s.mem := by simp [correctTime]
@[simp] theorem mem_openLanding (s f) : (openLanding s f).mem = s.mem := by simp [openLanding]
@[simp] theorem mem_forwardBroadcast (s c f) : (forwardBroadcast s c f).mem = s.mem := by
  simp [forwardBroadcast]
@[simp] theorem mem_cbCfgWrite (g v s) : (cbCfgWrite g v s).mem = s.mem := by simp [cbCfgWrite]

/-! Scalar instructions. -/

@[simp] theorem mem_endProgram (t p s) : (endProgram t p s).mem = s.mem := by simp [endProgram]
@[simp] theorem mem_loadOp (i t p f op n s) : (loadOp i t p f op n s).mem = s.mem := by simp [loadOp]

/-! Chain plans. -/

@[simp] theorem mem_splitHead (s tag tc) : (splitHead s tag tc).mem = s.mem := by simp [splitHead]
@[simp] theorem mem_endAwait (s tag) : (endAwait s tag).mem = s.mem := by simp [endAwait]
@[simp] theorem mem_endDecision (s tag) : (endDecision s tag).mem = s.mem := by simp [endDecision]
@[simp] theorem mem_seqAck (s f accept reason free) : (seqAck s f accept reason free).mem = s.mem := by
  simp [seqAck]
@[simp] theorem mem_endOpen (s o) : (endOpen s o).mem = s.mem := by simp [endOpen]
@[simp] theorem mem_cancelRound (s o) : (cancelRound s o).mem = s.mem := by simp [cancelRound]
@[simp] theorem mem_peerResults (s x) : (peerResults s x).mem = s.mem := by simp [peerResults]

/-! Power of the nodes. -/

@[simp] theorem mem_powerNodes (s domains) : (powerNodes s domains).mem = s.mem := by simp [powerNodes]
@[simp] theorem mem_addCycles (l s) : (addCycles l s).mem = s.mem := by simp [addCycles]
@[simp] theorem mem_setSpot (s d i x) : (setSpot s d i x).mem = s.mem := by simp [setSpot]

/-! Power. -/

@[simp] theorem mem_beginSleep (s st deadline) : (beginSleep s st deadline).mem = s.mem := by
  simp [beginSleep]
@[simp] theorem mem_setBudget (s k x) : (setBudget s k x).mem = s.mem := by simp [setBudget]
@[simp] theorem mem_divideAt (s k p dies limit) : (divideAt s k p dies limit).mem = s.mem := by
  simp [divideAt]

@[simp] theorem mem_finishStep (s t) : (finishStep s t).mem = s.mem := by
  unfold finishStep
  dsimp only
  split <;> simp

@[simp] theorem mem_beginStep (s t st) : (beginStep s t st).mem = s.mem := by simp [beginStep]
@[simp] theorem mem_epochDie (s d meas req) : (epochDie s d meas req).mem = s.mem := by simp [epochDie]
@[simp] theorem mem_budgetBad (s k) : (budgetBad s k).mem = s.mem := by simp [budgetBad]
@[simp] theorem mem_setPact (s page v) : (setPact s page v).mem = s.mem := by simp [setPact]
@[simp] theorem mem_setBlock (s page x) : (setBlock s page x).mem = s.mem := by simp [setBlock]
@[simp] theorem mem_moveBlock (s page r) : (moveBlock s page r).mem = s.mem := by
  unfold moveBlock
  split <;> simp

@[simp] theorem mem_blockPowerRequestWrite (page req s) : (blockPowerRequestWrite page req s).mem = s.mem := by
  unfold blockPowerRequestWrite
  dsimp only
  split <;> simp

@[simp] theorem mem_setRefInt (s b) : (setRefInt s b).mem = s.mem := by simp [setRefInt]
@[simp] theorem mem_tick (s) : (tick s).mem = s.mem := by simp [tick]
@[simp] theorem mem_timeLoadWrite (s) : (timeLoadWrite s).mem = s.mem := by simp [timeLoadWrite]

/-! Temperatures. -/

@[simp] theorem mem_evalSpot (s₀ x s) : (evalSpot s₀ x s).mem = s.mem := by
  unfold evalSpot
  dsimp only
  split <;> simp

@[simp] theorem mem_advanceModel (s) : (advanceModel s).mem = s.mem := by simp [advanceModel]
@[simp] theorem mem_calibrate (s₀ x s) : (calibrate s₀ x s).mem = s.mem := by simp [calibrate]
@[simp] theorem mem_forecastNodes (s) : (forecastNodes s).mem = s.mem := by simp [forecastNodes]
@[simp] theorem mem_readDiodes (s l) : (readDiodes s l).mem = s.mem := by simp [readDiodes]
@[simp] theorem mem_readAir (s inlet outlet) : (readAir s inlet outlet).mem = s.mem := by simp [readAir]
@[simp] theorem mem_setMode (s m) : (setMode s m).mem = s.mem := by simp [setMode]
@[simp] theorem mem_setCapNow (s c) : (setCapNow s c).mem = s.mem := by simp [setCapNow]
@[simp] theorem mem_setGrant (s t g reason) : (setGrant s t g reason).mem = s.mem := by simp [setGrant]
@[simp] theorem mem_emergencyGrant (s d) : (emergencyGrant s d).mem = s.mem := by simp [emergencyGrant]
@[simp] theorem mem_emergencyAll (s) : (emergencyAll s).mem = s.mem := by simp [emergencyAll]
@[simp] theorem mem_enterFloor (s) : (enterFloor s).mem = s.mem := by simp [enterFloor]

@[simp] theorem mem_enterStop (s) : (enterStop s).mem = s.mem := by
  unfold enterStop
  dsimp only
  split
  · rfl
  · rw [mem_raise, setQuench_mem, mem_foldList (by simp), mem_emergencyAll, mem_setCapNow, mem_setMode]

@[simp] theorem mem_actOnLimits (s) : (actOnLimits s).mem = s.mem := by
  unfold actOnLimits
  extract_lets all hotDies rates warn act stop s₁ s₂ _ s₃ s₄ s₅ cool reads below
  have h₁ : s₁.mem = s.mem := by simp [s₁]
  have h₂ : s₂.mem = s.mem := by unfold s₂; split <;> simp [h₁]
  have h₃ : s₃.mem = s.mem := by unfold s₃; split <;> [rw [setQuench_mem, mem_raise]; skip] <;> exact h₂
  have h₄ : s₄.mem = s.mem := by unfold s₄; split <;> simp [h₃]
  have h₅ : s₅.mem = s.mem := by unfold s₅; split <;> simp [h₄]
  rw [setQuench_mem, h₅]

@[simp] theorem mem_tileThermal (busy t s) : (tileThermal busy t s).mem = s.mem := by simp [tileThermal]
@[simp] theorem mem_updateTheta (s) : (updateTheta s).mem = s.mem := by simp [updateTheta]
@[simp] theorem mem_updateCap (s) : (updateCap s).mem = s.mem := by simp [updateCap]
@[simp] theorem mem_divideCap (s) : (divideCap s).mem = s.mem := by simp [divideCap]
@[simp] theorem mem_showQuench (s) : (showQuench s).mem = s.mem := by simp [showQuench]
@[simp] theorem mem_ttHsSelWrite (d hs s) : (ttHsSelWrite d hs s).mem = s.mem := by simp [ttHsSelWrite]
@[simp] theorem mem_liveSensors (s) : (liveSensors s).mem = s.mem := by simp [liveSensors]
@[simp] theorem mem_clearSensors (s d) : (clearSensors s d).mem = s.mem := by simp [clearSensors]
@[simp] theorem mem_ttSensClrWrite (d s) : (ttSensClrWrite d s).mem = s.mem := by simp [ttSensClrWrite]

/-! Faults. -/

@[simp] theorem mem_forceSource (s page src) : (forceSource s page src).mem = s.mem := by
  unfold forceSource
  split <;> simp
@[simp] theorem mem_writeForce (s page bits) : (writeForce s page bits).mem = s.mem := by simp [writeForce]
@[simp] theorem mem_showStorm (s) : (showStorm s).mem = s.mem := by simp [showStorm]
@[simp] theorem mem_dropSticky (s page src) : (dropSticky s page src).mem = s.mem := by simp [dropSticky]
@[simp] theorem mem_hostClear (s page src) : (hostClear s page src).mem = s.mem := by simp [hostClear]
@[simp] theorem mem_takeStamp (s x) : (takeStamp s x).mem = s.mem := by simp [takeStamp]

/-! Maintenance. -/

@[simp] theorem mem_resetPages (s lo n) : (resetPages s lo n).mem = s.mem := by simp [resetPages]
@[simp] theorem mem_startCycle (s t flags fenced) : (startCycle s t flags fenced).mem = s.mem := by
  simp [startCycle]
@[simp] theorem mem_failTest (s t u) : (failTest s t u).mem = s.mem := by simp [failTest]
@[simp] theorem mem_losePort (s c) : (losePort s c).mem = s.mem := by simp [losePort]

/-! Resets of blocks. -/

@[simp] theorem mem_resetBlockRegs (s page) : (resetBlockRegs s page).mem = s.mem := by simp [resetBlockRegs]
@[simp] theorem mem_dropAdder (s k) : (dropAdder s k).mem = s.mem := by simp [dropAdder]
@[simp] theorem mem_resetCore (s t p) : (resetCore s t p).mem = s.mem := by simp [resetCore]
@[simp] theorem mem_resetBaseEngine (s a j b) : (resetBaseEngine s a j b).mem = s.mem := by
  unfold resetBaseEngine
  split <;> simp
@[simp] theorem mem_testEnds (s t u result) : (testEnds s t u result).mem = s.mem := by simp [testEnds]
@[simp] theorem mem_testScratch (s t u) : (testScratch s t u).mem = s.mem := by simp [testScratch]
@[simp] theorem mem_showOverdue (s t) : (showOverdue s t).mem = s.mem := by simp [showOverdue]
@[simp] theorem mem_runNowAll (s t) : (runNowAll s t).mem = s.mem := by simp [runNowAll]
@[simp] theorem mem_tmSelect (s t v) : (tmSelect s t v).mem = s.mem := by simp [tmSelect]

/-! The host port. -/

@[simp] theorem mem_hostReply (s n data st) : (hostReply s n data st).mem = s.mem := by
  unfold hostReply
  dsimp only
  split <;> simp

@[simp] theorem mem_postedDiscard (s) : (postedDiscard s).mem = s.mem := by simp [postedDiscard]
@[simp] theorem mem_hostWriteDone (s da st) : (hostWriteDone s da st).mem = s.mem := by
  unfold hostWriteDone
  split <;> simp
@[simp] theorem mem_resizeBar4 (s k) : (resizeBar4 s k).mem = s.mem := by
  unfold resizeBar4
  split <;> simp
@[simp] theorem mem_cxlReply (s) : (cxlReply s).mem = s.mem := by simp [cxlReply]

/-! The fabric. -/

@[simp] theorem mem_fbHalfCtlWrite (t v s) : (fbHalfCtlWrite t v s).mem = s.mem := by simp [fbHalfCtlWrite]
@[simp] theorem mem_liveBridge (s pg) : (liveBridge s pg).mem = s.mem := by simp [liveBridge]
@[simp] theorem mem_bridgeLose (s pg mods) : (bridgeLose s pg mods).mem = s.mem := by simp [bridgeLose]
@[simp] theorem mem_loseFlit (x m y s) : (loseFlit x m y s).mem = s.mem := by simp [loseFlit]
@[simp] theorem mem_downBridge (s lost x) : (downBridge s lost x).mem = s.mem := by simp [downBridge]

/-! Near-bank units. -/

@[simp] theorem mem_touchSlices (s t c) : (touchSlices s t c).mem = s.mem := by simp [touchSlices]
@[simp] theorem mem_nlPostWrite (t l v s) : (nlPostWrite t l v s).mem = s.mem := by simp [nlPostWrite]
@[simp] theorem mem_wakeSlices (s t l c) : (wakeSlices s t l c).mem = s.mem := by simp [wakeSlices]
@[simp] theorem mem_openSet (s t l n b k op int) : (openSet s t l n b k op int).mem = s.mem := by
  simp [openSet]
@[simp] theorem mem_openSets (s t l c) : (openSets s t l c).mem = s.mem := by simp [openSets]

@[simp] theorem mem_startItem (s t l) : (startItem s t l).mem = s.mem := by
  unfold startItem
  dsimp only
  repeat' (split <;> simp)

@[simp] theorem mem_recordNbFail (s pg n b q d e) : (recordNbFail s pg n b q d e).mem = s.mem := by
  simp [recordNbFail]
@[simp] theorem mem_compareSet (s t l n b k i) : (compareSet s t l n b k i).mem = s.mem := by
  grind [compareSet, mem_count, mem_raiseTag, mem_recordNbFail, mem_foldList]

@[simp] theorem mem_blockDone (s t l n b j i) : (blockDone s t l n b j i).mem = s.mem := by
  unfold blockDone
  dsimp only
  split <;> simp

@[simp] theorem mem_nbUpset (s t n l b k tag ups) : (nbUpset s t n l b k tag ups).mem = s.mem := by
  simp [nbUpset]
@[simp] theorem mem_feedFiles (s t l b p m i) : (feedFiles s t l b p m i).mem = s.mem := by simp [feedFiles]
@[simp] theorem mem_showOwed (s t n) : (showOwed s t n).mem = s.mem := by simp [showOwed]
@[simp] theorem mem_notePreempt (s t l b) : (notePreempt s t l b).mem = s.mem := by simp [notePreempt]
@[simp] theorem mem_takeRefresh (s t n l b due) : (takeRefresh s t n l b due).mem = s.mem := by
  simp [takeRefresh]
@[simp] theorem mem_dueRefresh (s t n l b) : (dueRefresh s t n l b).mem = s.mem := by simp [dueRefresh]
@[simp] theorem mem_idleSlot (s t n) : (idleSlot s t n).mem = s.mem := by simp [idleSlot]

/-! Scans. -/

@[simp] theorem mem_tcSpostWrite (t v s) : (tcSpostWrite t v s).mem = s.mem := by simp [tcSpostWrite]

@[simp] theorem mem_startScan (s t) : (startScan s t).mem = s.mem := by
  unfold startScan
  dsimp only
  split <;> simp

/-! Reads of registers. -/

@[simp] theorem mem_setLatch (s ag page o v) : (setLatch s ag page o v).mem = s.mem := by simp [setLatch]
@[simp] theorem mem_latchedRead (s ag page o) : (latchedRead s ag page o).2.mem = s.mem := by
  unfold latchedRead
  repeat' (split <;> simp)
@[simp] theorem mem_carryPage (s ag page) : (carryPage s ag page).2.mem = s.mem := by
  unfold carryPage
  split <;> simp
@[simp] theorem mem_gatedAccess (s ag page) : (gatedAccess s ag page).mem = s.mem := by simp [gatedAccess]

/-! Storages. -/

@[simp] theorem mem_sliceDeliver (s t n line data st) : (sliceDeliver s t n line data st).mem = s.mem := by
  simp [sliceDeliver]
@[simp] theorem mem_countBonds (s t n op o tag bits) : (countBonds s t n op o tag bits).mem = s.mem := by
  simp [countBonds]
@[simp] theorem mem_lpDeliver (s p line data st) : (lpDeliver s p line data st).mem = s.mem := by
  simp [lpDeliver]
@[simp] theorem mem_mapChan (s p c f) : (mapChan s p c f).mem = s.mem := by simp [mapChan]
@[simp] theorem mem_lpMissCheck (s p c) : (lpMissCheck s p c).mem = s.mem := by simp [lpMissCheck]
@[simp] theorem mem_lpUncClearWrite (p c s) : (lpUncClearWrite p c s).mem = s.mem := by simp [lpUncClearWrite]

/-! Registers. -/

@[simp] theorem mem_seqSelect (s v) : (seqSelect s v).mem = s.mem := by simp [seqSelect]
@[simp] theorem mem_hrecSelect (s v) : (hrecSelect s v).mem = s.mem := by simp [hrecSelect]
@[simp] theorem mem_portSelect (s v) : (portSelect s v).mem = s.mem := by simp [portSelect]
@[simp] theorem mem_routeSelect (s v) : (routeSelect s v).mem = s.mem := by simp [routeSelect]
@[simp] theorem mem_strikeSelect (s t v) : (strikeSelect s t v).mem = s.mem := by simp [strikeSelect]
@[simp] theorem mem_drawEntries (s n) : (drawEntries s n).2.mem = s.mem := by simp [drawEntries]
@[simp] theorem mem_doorbellWrite (s o v) : (doorbellWrite s o v).mem = s.mem := by
  unfold doorbellWrite
  repeat' (split <;> simp)
@[simp] theorem mem_msixWrite (s page o v) : (msixWrite s page o v).mem = s.mem := by simp [msixWrite]
@[simp] theorem mem_lpUncWrite (s p v) : (lpUncWrite s p v).mem = s.mem := by simp [lpUncWrite]
@[simp] theorem mem_saveWrite (s o v) : (saveWrite s o v).mem = s.mem := by simp [saveWrite]
@[simp] theorem mem_tccCtlWrite (s t v) : (tccCtlWrite s t v).mem = s.mem := by simp [tccCtlWrite]
@[simp] theorem mem_guardFails (s page) : (guardFails s page).mem = s.mem := by simp [guardFails]
@[simp] theorem mem_guardValue (s page o v) : (guardValue s page o v).mem = s.mem := by
  unfold guardValue
  split <;> simp
@[simp] theorem mem_guardApply (s b page o v) : (guardApply s b page o v).mem = s.mem := by
  unfold guardApply
  repeat' (split <;> simp)
@[simp] theorem mem_guardComplement (s b page o v) : (guardComplement s b page o v).mem = s.mem := by
  unfold guardComplement
  split <;> simp
@[simp] theorem mem_keepClasses (s page w) : (keepClasses s page w).mem = s.mem := by simp [keepClasses]
@[simp] theorem mem_latchWrite (s ag b page o) : (latchWrite s ag b page o).mem = s.mem := by
  simp [latchWrite]
@[simp] theorem mem_tccAddrErr (s t) : (tccAddrErr s t).mem = s.mem := by simp [tccAddrErr]
@[simp] theorem mem_agentWrite (ag x) : (agentWrite ag x).mem = x.2.mem := by
  unfold agentWrite
  split <;> simp

/-! Test access. -/

@[simp] theorem mem_tapClocks (l s) : (tapClocks l s).mem = s.mem := by simp [tapClocks]

/-! Bring-up. -/

@[simp] theorem mem_setCf (s state cause step) : (setCf s state cause step).mem = s.mem := by simp [setCf]
@[simp] theorem mem_setDetail (s d0 d1) : (setDetail s d0 d1).mem = s.mem := by simp [setDetail]

@[simp] theorem mem_selectSlot (s l) : (selectSlot s l).2.mem = s.mem := by
  induction l generalizing s with
  | nil => simp [selectSlot]
  | cons b l ih => simp [selectSlot, ih]

@[simp] theorem mem_showSlots (s) : (showSlots s).mem = s.mem := by simp [showSlots]
@[simp] theorem mem_startFirmware (s) : (startFirmware s).mem = s.mem := by
  grind [startFirmware, mem_selectSlot, mem_showSlots, mem_pset, mem_setCf, State.setSvc]
@[simp] theorem mem_showFused (s) : (showFused s).mem = s.mem := by simp [showFused]
@[simp] theorem mem_showIdentity (s) : (showIdentity s).mem = s.mem := by simp [showIdentity]
@[simp] theorem mem_showRevisions (s) : (showRevisions s).mem = s.mem := by simp [showRevisions]
@[simp] theorem mem_showAllQuarantine (s) : (showAllQuarantine s).mem = s.mem := by simp [showAllQuarantine]
@[simp] theorem mem_loadTopology (s t) : (loadTopology s t).mem = s.mem := by simp [loadTopology]
@[simp] theorem mem_mapRepairs (s l) : (mapRepairs s l).mem = s.mem := by simp [mapRepairs]
@[simp] theorem mem_trainChannel (s k rate) : (trainChannel s k rate).mem = s.mem := by simp [trainChannel]
@[simp] theorem mem_showChannels (s) : (showChannels s).mem = s.mem := by simp [showChannels]
@[simp] theorem mem_trainPort (s r c) : (trainPort s r c).mem = s.mem := by
  unfold trainPort
  repeat' (split <;> simp)
@[simp] theorem mem_showLanes (s x n) : (showLanes s x n).mem = s.mem := by simp [showLanes]
@[simp] theorem mem_trainAll (s r full) : (trainAll s r full).mem = s.mem := by simp [trainAll]
@[simp] theorem mem_failUnit (s t u) : (failUnit s t u).mem = s.mem := by simp [failUnit]
@[simp] theorem mem_testAll (s r) : (testAll s r).mem = s.mem := by simp [testAll]
@[simp] theorem mem_detailWord (s d) : (detailWord s d).2.mem = s.mem := by
  unfold detailWord
  split <;> simp
@[simp] theorem mem_enterHeld (s x) : (enterHeld s x).mem = s.mem := by simp [enterHeld]
@[simp] theorem mem_enterReady (s) : (enterReady s).mem = s.mem := by simp [enterReady]
@[simp] theorem mem_checkTopology (s i) : (checkTopology s i).mem = s.mem := by
  unfold checkTopology
  split <;> simp
@[simp] theorem mem_holdHalves (s) : (holdHalves s).mem = s.mem := by simp [holdHalves]
@[simp] theorem mem_factoryState (s x) : (factoryState s x).mem = s.mem := by
  unfold factoryState
  split <;> simp
@[simp] theorem mem_execHeldReevaluate.recheckPort (s c) : (execHeldReevaluate.recheckPort s c).mem = s.mem := by
  simp [execHeldReevaluate.recheckPort]

/-! Restarts. -/

@[simp] theorem mem_putFlash (s b x) : (putFlash s b x).mem = s.mem := by simp [putFlash]
@[simp] theorem mem_writeImage (s type i ok) : (writeImage s type i ok).mem = s.mem := by simp [writeImage]
@[simp] theorem mem_endSlotCommands (s) : (endSlotCommands s).mem = s.mem := by simp [endSlotCommands]
@[simp] theorem mem_committedTable (s) : (committedTable s).mem = s.mem := by simp [committedTable]
@[simp] theorem mem_resetMostPages (s) : (resetMostPages s).mem = s.mem := by simp [resetMostPages]
@[simp] theorem mem_failUnheld (s) : (failUnheld s).mem = s.mem := by simp [failUnheld]
@[simp] theorem mem_keepOut (s) : (keepOut s).mem = s.mem := by simp [keepOut]

end Sys2Proof.Machine
end

section
/-!
SUPPORT. Operations that keep memory in its canonical form (O59, log 1), in the order of the model: each takes a state whose memory is in
that form to one whose memory is. An operation that takes a continuation keeps the form where the continuation does.
-/

namespace Sys2Proof.Machine

open Sys2Proof
/-- Memory stands in its canonical form: `Memory.wf` as a predicate that simp does not take apart. -/
def Memory.Canon (m : Memory) : Prop := m.wf

/-- The same of the memory of a state. Stated of the state, so that a check of two forms of one state compares the states and not what
they evaluate to. -/
def State.Canon (s : State) : Prop := s.mem.Canon

/-- A state with memory in its canonical form. -/
structure CanonState where
  state : State
  canon : state.mem.Canon

/-- An operation that keeps memory in its canonical form. -/
def KeepsCanon (f : State → State) : Prop := ∀ u : CanonState, (f u.state).Canon

/-- An outcome that, where it is a state, has memory in its canonical form. -/
def OutCanon : Out → Prop
  | .next u => u.mem.Canon
  | _ => True

@[simp] theorem State.canon_iff (s : State) : s.Canon ↔ s.mem.Canon := Iff.rfl
@[simp] theorem CanonState.mem_canon (u : CanonState) : u.state.mem.Canon := u.canon
@[simp] theorem keepsCanon_iff (f) : KeepsCanon f ↔ ∀ u : CanonState, (f u.state).Canon := Iff.rfl
@[simp] theorem outCanon_next (u) : OutCanon (.next u) ↔ u.mem.Canon := Iff.rfl
@[simp] theorem outCanon_refused (r) : OutCanon (.refused r) := trivial

theorem KeepsCanon.apply {f : State → State} (hf : KeepsCanon f) {s : State} (hm : s.mem.Canon) : (f s).mem.Canon :=
  hf ⟨s, hm⟩

/-- The state that an operation gives beside a value. -/
theorem canon_of_eq {α : Type} {x : α × State} {a : α} {u : State} (heq : x = (a, u)) (hx : x.2.mem.Canon) :
    u.mem.Canon := by
  subst heq
  exact hx

/-! Memory itself. -/

section
variable {m : Memory} (hm : m.Canon)
include hm

@[simp] theorem Memory.canon_writeBytes (a l) : (m.writeBytes a l).Canon := Memory.wf_writeBytes hm a l
@[simp] theorem Memory.canon_zeroRange (a n) : (m.zeroRange a n).Canon := Memory.wf_zeroRange hm a n
@[simp] theorem Memory.canon_loseRange (a n) : (m.loseRange a n).Canon := Memory.wf_loseRange hm a n
@[simp] theorem Memory.canon_markGood (a n) : (m.markGood a n).Canon := Memory.wf_markGood hm a n
@[simp] theorem Memory.canon_markPoison (a n) : (m.markPoison a n).Canon := Memory.wf_markPoison hm a n
@[simp] theorem Memory.canon_setParity (a n b) : (m.setParity a n b).Canon := Memory.wf_setParity hm a n b

end

@[simp] theorem Memory.canon_reset (e) : Memory.Canon { Memory.reset with epoch := e } := Memory.wf_reset

@[simp] theorem Memory.canon_ite (c : Prop) [Decidable c] (m n : Memory) :
    (if c then m else n).Canon ↔ if c then m.Canon else n.Canon := by split <;> rfl

/-- Entries put in one after another keep the order of the addresses. -/
theorem kSortedFrom_foldl_kinsert (g : Nat → Nat) (l m : KMap Byte) (h : kSortedFrom 0 m = true) :
    kSortedFrom 0 (l.foldl (fun m c => kinsert m (g c.1) c.2) m) = true :=
  foldl_induction (P := (kSortedFrom 0 · = true)) (fun _ _ hm => kSortedFrom_kinsert _ hm (Nat.zero_le _)) l h

/-- Entries put in are those that stood before and those put in. -/
theorem snd_ne_zero_foldl_kinsert (g : Nat → Nat) {l m : KMap Byte} (hl : ∀ c ∈ l, c.2 ≠ 0#8) (hm : ∀ c ∈ m, c.2 ≠ 0#8) :
    ∀ c ∈ l.foldl (fun m c => kinsert m (g c.1) c.2) m, c.2 ≠ 0#8 := by
  induction l generalizing m with
  | nil => exact hm
  | cons x l ih =>
    refine ih (fun c h => hl c (.tail _ h)) fun c h => ?_
    obtain rfl | h := mem_kinsert h
    · exact hl x (.head _)
    · exact hm c h

@[simp] theorem Memory.canon_copyRange {m : Memory} (hm : m.Canon) (src dst n) : (m.copyRange src dst n).Canon :=
  ⟨kSortedFrom_foldl_kinsert (· - src + dst) _ _ (kSortedFrom_filter _ hm.1),
    snd_ne_zero_foldl_kinsert (· - src + dst) (fun c h => hm.2 c (List.mem_filter.1 h).1)
      fun c h => hm.2 c (List.mem_filter.1 h).1⟩

/-! Folds. -/

@[simp] theorem canon_foldList {α : Type} {s : State} (hm : s.mem.Canon) {f : α → State → State}
    (hf : ∀ a, KeepsCanon (f a)) (l : List α) : (foldList f l s).mem.Canon :=
  foldList_induction (P := fun u : State => u.mem.Canon) (fun a _ hu => (hf a).apply hu) l hm

/-- A fold that carries a value beside the state. -/
theorem canon_foldList_snd {α β : Type} {x : β × State} (hm : x.2.mem.Canon) {f : α → β × State → β × State}
    (hf : ∀ a b, KeepsCanon fun u => (f a (b, u)).2) (l : List α) : (foldList f l x).2.mem.Canon :=
  foldList_induction (P := fun x : β × State => x.2.mem.Canon) (fun a x hx => (hf a x.1).apply hx) l hm

@[simp] theorem Memory.canon_foldl {α : Type} {m : Memory} (hm : m.Canon) {f : Memory → α → Memory}
    (hf : ∀ m a, m.Canon → (f m a).Canon) (l : List α) : (l.foldl f m).Canon :=
  foldl_induction hf l hm

/-! Operations that every part uses. -/

@[simp] theorem canon_writeBytes {s : State} (hm : s.mem.Canon) (a l) : (writeBytes s a l).mem.Canon := by
  simp [writeBytes, hm]

/-! Operands. -/

@[simp] theorem canon_issue {s : State} (hm : s.mem.Canon) {f : State → State} (hf : KeepsCanon f) (t p op md) :
    (issue s t p op md f).mem.Canon := by
  have : (f (noteIssue s t p op md)).mem.Canon := hf.apply (by rwa [mem_noteIssue])
  simp [issue, hm, this]

@[simp] theorem canon_issueWhen {s : State} (hm : s.mem.Canon) {f : State → State} (hf : KeepsCanon f) (i t p op free) :
    (issueWhen s i t p op free f).mem.Canon := by
  have : (f (noteIssue s t p op 0)).mem.Canon := hf.apply (by rwa [mem_noteIssue])
  simp [issueWhen, hm, this]

@[simp] theorem canon_storePut {s : State} (hm : s.mem.Canon) (t p off data own) : (storePut s t p off data own).mem.Canon := by
  simp [storePut, hm]
@[simp] theorem canon_storeWrite {s : State} (hm : s.mem.Canon) (t p off data own) :
    (storeWrite s t p off data own).mem.Canon := by
  simp [storeWrite, hm]
@[simp] theorem canon_landHeld {s : State} (hm : s.mem.Canon) (t n) : (landHeld s t n).mem.Canon := by
  simp [landHeld, hm]

/-! Bonded DRAM, LPDDR5X and the shared buffers. -/

@[simp] theorem canon_awaitHalves {s : State} (hm : s.mem.Canon) {f : State → State} (hf : KeepsCanon f) (q hs) :
    (awaitHalves s q hs f).mem.Canon := by
  simp [awaitHalves, hm, hf.apply hm]
@[simp] theorem canon_awaitAccess {s : State} (hm : s.mem.Canon) {f : State → State} (hf : KeepsCanon f) (q hs i) :
    (awaitAccess s q hs i f).mem.Canon := by
  simp [awaitAccess, hm, hf.apply hm]
@[simp] theorem canon_lpCheckPar {s : State} (hm : s.mem.Canon) (op tag da ch cda par) :
    (lpCheckPar s op tag da ch cda par).mem.Canon := by
  simp [lpCheckPar, hm]
@[simp] theorem canon_lpCheckedLine {s : State} (hm : s.mem.Canon) (op tag a q r) :
    (lpCheckedLine s op tag a q r).2.mem.Canon := by
  simp [lpCheckedLine, hm]
@[simp] theorem canon_putLine {s : State} (hm : s.mem.Canon) (da data good) : (putLine s da data good).mem.Canon := by
  simp [putLine, hm]
@[simp] theorem canon_lpMerge {s : State} (hm : s.mem.Canon) (p e par) : (lpMerge s p e par).mem.Canon := by
  simp [lpMerge, hm]
@[simp] theorem canon_lpRmw {s : State} (hm : s.mem.Canon) (p e) : (lpRmw s p e).mem.Canon := by
  simp [lpRmw, hm]
@[simp] theorem canon_lpFlush {s : State} (hm : s.mem.Canon) (p line) : (lpFlush s p line).mem.Canon := by
  unfold lpFlush
  split <;> simp [hm]
@[simp] theorem canon_lpFlushAll {s : State} (hm : s.mem.Canon) (p) : (lpFlushAll s p).mem.Canon := by
  simp [lpFlushAll, hm]
@[simp] theorem canon_lpReadLine {s : State} (hm : s.mem.Canon) (op tag a q r) : (lpReadLine s op tag a q r).2.mem.Canon := by
  simp [lpReadLine, hm]
@[simp] theorem canon_lpWriteLine {s : State} (hm : s.mem.Canon) (a q data) : (lpWriteLine s a q data).mem.Canon := by
  simp [lpWriteLine, hm]

@[simp] theorem canon_lpWriteNarrow {s : State} (hm : s.mem.Canon) (tag a q data) :
    (lpWriteNarrow s tag a q data).mem.Canon := by
  unfold lpWriteNarrow
  extract_lets da line
  split
  next ch _ _ =>
    extract_lets p s₁ l has s₂ l' gb s₃
    have h₁ : s₁.Canon := by unfold s₁; split <;> simp [hm]
    have h₂ : s₂.Canon := by
      unfold s₂
      split
      · split
        · exact canon_lpRmw h₁ ..
        · exact h₁
      · exact h₁
    have h₃ : s₃.Canon := by rw [State.canon_iff, mem_setLp]; exact h₂
    split
    · split
      · exact canon_lpWriteLine h₃ ..
      · exact h₃
    · exact h₃

@[simp] theorem canon_lpPut {s : State} (hm : s.mem.Canon) (tag a q data) : (lpPut s tag a q data).mem.Canon := by
  simp [lpPut, hm]
@[simp] theorem canon_snoopOut {s : State} (hm : s.mem.Canon) (line) : (snoopOut s line).mem.Canon :=
  canon_foldList (by simp [hm]) (fun a u => by split <;> simp) ..
@[simp] theorem canon_lpDeviceWrite {s : State} (hm : s.mem.Canon) (tag a q data) :
    (lpDeviceWrite s tag a q data).mem.Canon := by
  simp [lpDeviceWrite, hm]

@[simp] theorem canon_goldenLine {s : State} (hm : s.mem.Canon) (tag t n g) : (goldenLine s tag t n g).2.mem.Canon := by
  unfold goldenLine
  dsimp only
  split <;> simp [hm]

@[simp] theorem canon_goldenStep {s : State} (hm : s.mem.Canon) (tag t n o g) : (goldenStep s tag t n o g).2.mem.Canon := by
  simp [goldenStep, hm]
@[simp] theorem canon_badLine {s : State} (hm : s.mem.Canon) (bond tag t n o) : (badLine s bond tag t n o).2.mem.Canon := by
  unfold badLine
  split <;> simp [hm]

@[simp] theorem canon_sliceRmw {s : State} (hm : s.mem.Canon) (t n e) : (sliceRmw s t n e).mem.Canon := by
  unfold sliceRmw
  dsimp only
  (repeat' split) <;> simp [hm]

@[simp] theorem canon_sliceParity {s : State} (hm : s.mem.Canon) (t n e) : (sliceParity s t n e).mem.Canon := by
  simp [sliceParity, hm]
@[simp] theorem canon_sliceFlush {s : State} (hm : s.mem.Canon) (t n line) : (sliceFlush s t n line).mem.Canon := by
  unfold sliceFlush
  split <;> simp [hm]
@[simp] theorem canon_sliceFlushAll {s : State} (hm : s.mem.Canon) (t n) : (sliceFlushAll s t n).mem.Canon := by
  simp [sliceFlushAll, hm]
@[simp] theorem canon_sliceFlushBank {s : State} (hm : s.mem.Canon) (t n l b) : (sliceFlushBank s t n l b).mem.Canon := by
  simp [sliceFlushBank, hm]
@[simp] theorem canon_sliceReadLine {s : State} (hm : s.mem.Canon) (bond tag t n o) :
    (sliceReadLine s bond tag t n o).2.mem.Canon := by
  simp [sliceReadLine, hm]
@[simp] theorem canon_sliceWriteLine {s : State} (hm : s.mem.Canon) (t n o data) : (sliceWriteLine s t n o data).mem.Canon := by
  simp [sliceWriteLine, hm]

@[simp] theorem canon_sliceWriteNarrow {s : State} (hm : s.mem.Canon) (tag t n o data) :
    (sliceWriteNarrow s tag t n o data).mem.Canon := by
  unfold sliceWriteNarrow
  extract_lets da line s₁ x has s₂ y mb s₃
  have h₁ : s₁.Canon := by unfold s₁; split <;> simp [hm]
  have h₂ : s₂.Canon := by
    unfold s₂
    split
    · split
      · exact canon_sliceRmw h₁ ..
      · exact h₁
    · exact h₁
  have h₃ : s₃.Canon := by rw [State.canon_iff, mem_setSlice]; exact h₂
  split
  · split
    · exact canon_sliceWriteLine (by rw [mem_count]; exact h₃) ..
    · exact h₃
  · exact h₃

@[simp] theorem canon_sbWrite {s : State} (hm : s.mem.Canon) (tag a o data) : (sbWrite s tag a o data).mem.Canon := by
  simp [sbWrite, hm]

/-! Accesses. -/

@[simp] theorem canon_putResult {s : State} (hm : s.mem.Canon) {f : State → State} (hf : KeepsCanon f) (q da data) :
    (putResult s q da data f).2.mem.Canon := by
  have : (f (noteLine s q (inPlace s da data.length != data)).2).mem.Canon := hf.apply (by simpa using hm)
  unfold putResult
  split <;> simp [hm, this]

@[simp] theorem canon_chunkRead {s : State} (hm : s.mem.Canon) (q da n) : (chunkRead s q da n).2.mem.Canon := by
  unfold chunkRead
  split <;> simp [hm]
@[simp] theorem canon_chunkPut {s : State} (hm : s.mem.Canon) (q da data) : (chunkPut s q da data).2.mem.Canon := by
  unfold chunkPut
  split <;> simp [hm]

@[simp] theorem canon_putUnheld {s : State} (hm : s.mem.Canon) (q da l) : (putUnheld s q da l).2.mem.Canon := by
  induction l generalizing s da with
  | nil => exact hm
  | cons b l ih => unfold putUnheld; split <;> simp [ih, hm]

@[simp] theorem canon_chunkWrite {s : State} (hm : s.mem.Canon) (q da data) : (chunkWrite s q da data).2.mem.Canon := by
  simp [chunkWrite, hm]

@[simp] theorem canon_readPieces {s : State} (hm : s.mem.Canon) {rd : State → Nat → Nat → (List Byte × ASt) × State}
    (hr : ∀ a n, KeepsCanon fun u => (rd u a n).2) (l) : (readPieces rd l s).2.mem.Canon := by
  induction l generalizing s with
  | nil => exact hm
  | cons x l ih => exact ih ((hr x.1 x.2).apply hm)

@[simp] theorem canon_writePieces {s : State} (hm : s.mem.Canon) {wr : State → Nat → List Byte → ASt × State}
    (hw : ∀ a d, KeepsCanon fun u => (wr u a d).2) (l d) : (writePieces wr l d s).2.mem.Canon := by
  induction l generalizing s d with
  | nil => exact hm
  | cons x l ih => exact ih ((hw x.1 _).apply hm) _

@[simp] theorem canon_daRead {s : State} (hm : s.mem.Canon) (q a n) : (daRead s q a n).2.mem.Canon := by
  simp [daRead, hm]
@[simp] theorem canon_daWrite {s : State} (hm : s.mem.Canon) (q a data) : (daWrite s q a data).2.mem.Canon := by
  simp [daWrite, hm]

@[simp] theorem canon_tlaChunkWrite {s : State} (hm : s.mem.Canon) (q t a data) : (tlaChunkWrite s q t a data).2.mem.Canon := by
  unfold tlaChunkWrite
  dsimp only
  (repeat' split) <;> simp [hm]

@[simp] theorem canon_tlaWrite {s : State} (hm : s.mem.Canon) (q t a data) : (tlaWrite s q t a data).2.mem.Canon := by
  simp [tlaWrite, hm]
@[simp] theorem canon_fillSlice {s : State} (hm : s.mem.Canon) (da n i) : (fillSlice s da n i).2.mem.Canon := by
  simp [fillSlice, hm]
@[simp] theorem canon_zeroLines {s : State} (hm : s.mem.Canon) (a n tile) : (zeroLines s a n tile).mem.Canon :=
  canon_foldList hm (fun a u => by split <;> simp) ..
@[simp] theorem canon_fillRegion {s : State} (hm : s.mem.Canon) (r) : (fillRegion s r).mem.Canon := by
  simp [fillRegion, hm]

/-! Transfers. -/

@[simp] theorem canon_execXfer {s : State} (hm : s.mem.Canon) (t p f) : OutCanon (execXfer t p f s) := by
  simp [execXfer, hm]
@[simp] theorem canon_xferCopy {s : State} (hm : s.mem.Canon) (t p x) : (xferCopy s t p x).2.mem.Canon := by
  simp [xferCopy, hm]
@[simp] theorem canon_xferLand {s : State} (hm : s.mem.Canon) (t p x) : (xferLand s t p x).mem.Canon := by
  simp [xferLand, hm]

@[simp] theorem canon_landBefore {s : State} (hm : s.mem.Canon) (t p x n) : (landBefore s t p x n).mem.Canon := by
  unfold landBefore
  dsimp only
  exact canon_foldList hm (fun a u => by split <;> simp) ..

@[simp] theorem canon_landLine {s : State} (hm : s.mem.Canon) (t da) : (landLine s t da).mem.Canon := by
  simp [landLine, hm]
@[simp] theorem canon_execXferComplete {s : State} (hm : s.mem.Canon) (t p i) : OutCanon (execXferComplete t p i s) := by
  unfold execXferComplete
  (repeat' split) <;> simp [hm]
@[simp] theorem canon_issueRelease {s : State} (hm : s.mem.Canon) {f : State → State} (hf : KeepsCanon f) (i t p op) :
    (issueRelease s i t p op f).mem.Canon := canon_issueWhen hm hf ..
@[simp] theorem canon_execFset {s : State} (hm : s.mem.Canon) (t p f) : OutCanon (execFset t p f s) := by
  simp [execFset, hm]
@[simp] theorem canon_execFclr {s : State} (hm : s.mem.Canon) (t p f) : OutCanon (execFclr t p f s) := by
  simp [execFclr, hm]
@[simp] theorem canon_execFwait {s : State} (hm : s.mem.Canon) (t p f) : OutCanon (execFwait t p f s) := by
  unfold execFwait
  split <;> simp [hm]

@[simp] theorem canon_execFwaitRelease {s : State} (hm : s.mem.Canon) (t p) : OutCanon (execFwaitRelease t p s) := by
  unfold execFwaitRelease
  dsimp only
  split <;> simp [hm]

@[simp] theorem canon_execFtst {s : State} (hm : s.mem.Canon) (t p f) : OutCanon (execFtst t p f s) := by
  unfold execFtst
  split <;> simp [hm]
@[simp] theorem canon_execBara {s : State} (hm : s.mem.Canon) (t p f) : OutCanon (execBara t p f s) :=
  canon_issueRelease hm (fun u => by split <;> simp) ..
@[simp] theorem canon_execBarw {s : State} (hm : s.mem.Canon) (t p f) : OutCanon (execBarw t p f s) :=
  canon_issue hm (fun u => by split <;> simp) ..
@[simp] theorem canon_execBar {s : State} (hm : s.mem.Canon) (t p f) : OutCanon (execBar t p f s) :=
  canon_issueRelease hm (fun u => by split <;> simp) ..

/-! Matrix units. -/

@[simp] theorem canon_execMxa {s : State} (hm : s.mem.Canon) (t n f) : OutCanon (execMxa t n f s) := by
  simp [execMxa, hm]

@[simp] theorem canon_execMxaStart {s : State} (hm : s.mem.Canon) (t n) : OutCanon (execMxaStart t n s) := by
  unfold execMxaStart
  dsimp only
  split <;> simp [hm]

@[simp] theorem canon_mxrLegal {s : State} (hm : s.mem.Canon) (t n r code) : (mxrLegal s t n r code).mem.Canon := by
  simp [mxrLegal, hm]
@[simp] theorem canon_mxrRun {s : State} (hm : s.mem.Canon) (t n r) : (mxrRun s t n r).mem.Canon := by
  simp [mxrRun, hm]
@[simp] theorem canon_mxrDrain {s : State} (hm : s.mem.Canon) (t n bank) : (mxrDrain s t n bank).mem.Canon := by
  simp [mxrDrain, hm]
@[simp] theorem canon_mxaFinish {s : State} (hm : s.mem.Canon) (t n up) : (mxaFinish s t n up).mem.Canon := by
  unfold mxaFinish
  split <;> simp [hm]
@[simp] theorem canon_execMxaEnd {s : State} (hm : s.mem.Canon) (t n up) : OutCanon (execMxaEnd t n up s) := by
  simp [execMxaEnd, hm]
@[simp] theorem canon_execMxr {s : State} (hm : s.mem.Canon) (t n f) : OutCanon (execMxr t n f s) := by
  simp [execMxr, hm]
@[simp] theorem canon_execWstrm {s : State} (hm : s.mem.Canon) (t n f) : OutCanon (execWstrm t n f s) := by
  simp [execWstrm, hm]

@[simp] theorem canon_execRingTileEligible {s : State} (hm : s.mem.Canon) (t n) : OutCanon (execRingTileEligible t n s) := by
  unfold execRingTileEligible
  rw [outCanon_next]
  dsimp only
  split
  · exact hm
  · split
    · exact hm
    · exact canon_awaitHalves hm (fun u => by simp) ..

@[simp] theorem canon_execWflush {s : State} (hm : s.mem.Canon) (t n) : OutCanon (execWflush t n s) := by
  simp [execWflush, hm]

@[simp] theorem canon_mcAbort {s : State} (hm : s.mem.Canon) (t n) : (mcAbort s t n).mem.Canon := by
  unfold mcAbort
  dsimp only
  (repeat' split) <;> simp [hm]

/-! Vector units. -/

@[simp] theorem canon_vop {s : State} (hm : s.mem.Canon) {g : State → State} (hg : KeepsCanon g) (t v f op ok) :
    (vop t v f op ok g s).mem.Canon :=
  canon_issue hm (fun u => by simp [hg.apply u.canon]) ..
@[simp] theorem canon_execVld {s : State} (hm : s.mem.Canon) (t v f) : OutCanon (execVld t v f s) := by
  simp [execVld, hm]

@[simp] theorem canon_execVst {s : State} (hm : s.mem.Canon) (t v f) : OutCanon (execVst t v f s) := by
  unfold execVst
  dsimp only
  exact canon_vop hm (fun u => by split <;> simp) ..

@[simp] theorem canon_execVmxq {s : State} (hm : s.mem.Canon) (t v f) : OutCanon (execVmxq t v f s) :=
  canon_vop hm (fun u => by simp) ..
@[simp] theorem canon_execVadd {s : State} (hm : s.mem.Canon) (t v f) : OutCanon (execVadd t v f s) := by
  simp [execVadd, hm]
@[simp] theorem canon_execVsub {s : State} (hm : s.mem.Canon) (t v f) : OutCanon (execVsub t v f s) := by
  simp [execVsub, hm]
@[simp] theorem canon_execVmul {s : State} (hm : s.mem.Canon) (t v f) : OutCanon (execVmul t v f s) := by
  simp [execVmul, hm]
@[simp] theorem canon_execVfma {s : State} (hm : s.mem.Canon) (t v f) : OutCanon (execVfma t v f s) := by
  simp [execVfma, hm]
@[simp] theorem canon_execVmax {s : State} (hm : s.mem.Canon) (t v f) : OutCanon (execVmax t v f s) := by
  simp [execVmax, hm]
@[simp] theorem canon_execVmin {s : State} (hm : s.mem.Canon) (t v f) : OutCanon (execVmin t v f s) := by
  simp [execVmin, hm]
@[simp] theorem canon_execVbc {s : State} (hm : s.mem.Canon) (t v f) : OutCanon (execVbc t v f s) := by
  simp [execVbc, hm]
@[simp] theorem canon_execVabs {s : State} (hm : s.mem.Canon) (t v f) : OutCanon (execVabs t v f s) := by
  simp [execVabs, hm]
@[simp] theorem canon_execVneg {s : State} (hm : s.mem.Canon) (t v f) : OutCanon (execVneg t v f s) := by
  simp [execVneg, hm]
@[simp] theorem canon_execVexp2 {s : State} (hm : s.mem.Canon) (t v f) : OutCanon (execVexp2 t v f s) := by
  simp [execVexp2, hm]
@[simp] theorem canon_execVrcp {s : State} (hm : s.mem.Canon) (t v f) : OutCanon (execVrcp t v f s) := by
  simp [execVrcp, hm]
@[simp] theorem canon_execVrsq {s : State} (hm : s.mem.Canon) (t v f) : OutCanon (execVrsq t v f s) := by
  simp [execVrsq, hm]
@[simp] theorem canon_execVsel {s : State} (hm : s.mem.Canon) (t v f) : OutCanon (execVsel t v f s) := by
  simp [execVsel, hm]
@[simp] theorem canon_execVcmp {s : State} (hm : s.mem.Canon) (t v f) : OutCanon (execVcmp t v f s) := by
  simp [execVcmp, hm]
@[simp] theorem canon_execViadd {s : State} (hm : s.mem.Canon) (t v f) : OutCanon (execViadd t v f s) := by
  simp [execViadd, hm]
@[simp] theorem canon_execViota {s : State} (hm : s.mem.Canon) (t v f) : OutCanon (execViota t v f s) := by
  simp [execViota, hm]
@[simp] theorem canon_execVf2i {s : State} (hm : s.mem.Canon) (t v f) : OutCanon (execVf2i t v f s) := by
  simp [execVf2i, hm]
@[simp] theorem canon_execVi2f {s : State} (hm : s.mem.Canon) (t v f) : OutCanon (execVi2f t v f s) := by
  simp [execVi2f, hm]
@[simp] theorem canon_execVrsum {s : State} (hm : s.mem.Canon) (t v f) : OutCanon (execVrsum t v f s) := by
  simp [execVrsum, hm]
@[simp] theorem canon_execVrmax {s : State} (hm : s.mem.Canon) (t v f) : OutCanon (execVrmax t v f s) := by
  simp [execVrmax, hm]
@[simp] theorem canon_execVperm {s : State} (hm : s.mem.Canon) (t v f) : OutCanon (execVperm t v f s) := by
  simp [execVperm, hm]
@[simp] theorem canon_execVrope {s : State} (hm : s.mem.Canon) (t v f) : OutCanon (execVrope t v f s) := by
  simp [execVrope, hm]
@[simp] theorem canon_execVsort {s : State} (hm : s.mem.Canon) (t v f) : OutCanon (execVsort t v f s) := by
  simp [execVsort, hm]
@[simp] theorem canon_execVtkm {s : State} (hm : s.mem.Canon) (t v f) : OutCanon (execVtkm t v f s) := by
  simp [execVtkm, hm]

/-! Control cores. -/

@[simp] theorem canon_tccOp {s : State} (hm : s.mem.Canon) {g : State → State} (hg : KeepsCanon g) (t op) :
    (tccOp t op g s).mem.Canon := canon_issue hm hg ..
@[simp] theorem canon_execCstart {s : State} (hm : s.mem.Canon) (t f) : OutCanon (execCstart t f s) := by
  simp [execCstart, hm]
@[simp] theorem canon_execCwait {s : State} (hm : s.mem.Canon) (t f) : OutCanon (execCwait t f s) := by
  simp [execCwait, hm]

@[simp] theorem canon_execCwaitRelease {s : State} (hm : s.mem.Canon) (t) : OutCanon (execCwaitRelease t s) := by
  unfold execCwaitRelease
  dsimp only
  split <;> simp [hm]

@[simp] theorem canon_endAborted {s : State} (hm : s.mem.Canon) (t p) : (endAborted s t p).mem.Canon := by
  simp [endAborted, hm]
@[simp] theorem canon_abortPart {s : State} (hm : s.mem.Canon) (t p) : (abortPart s t p).mem.Canon := by
  simp [abortPart, hm]
@[simp] theorem canon_abortRunning {s : State} (hm : s.mem.Canon) (t p) : (abortRunning s t p).mem.Canon := by
  simp [abortRunning, hm]
@[simp] theorem canon_execPcOutOfStore {s : State} (hm : s.mem.Canon) (t p) : OutCanon (execPcOutOfStore t p s) := by
  simp [execPcOutOfStore, hm]
@[simp] theorem canon_execCabort {s : State} (hm : s.mem.Canon) (t f) : OutCanon (execCabort t f s) :=
  canon_tccOp hm (fun u => by simp) ..
@[simp] theorem canon_execCresume {s : State} (hm : s.mem.Canon) (t f) : OutCanon (execCresume t f s) := by
  simp [execCresume, hm]
@[simp] theorem canon_execTret {s : State} (hm : s.mem.Canon) (t _f) : OutCanon (execTret t _f s) :=
  canon_tccOp hm (fun u => by dsimp only; (repeat' split) <;> simp) ..
@[simp] theorem canon_execWaitev {s : State} (hm : s.mem.Canon) (t f) : OutCanon (execWaitev t f s) := by
  simp [execWaitev, hm]

@[simp] theorem canon_execWaitevRelease {s : State} (hm : s.mem.Canon) (t) : OutCanon (execWaitevRelease t s) := by
  unfold execWaitevRelease
  dsimp only
  split <;> simp [hm]

@[simp] theorem canon_execCoreSourceTrap {s : State} (hm : s.mem.Canon) (t p) : OutCanon (execCoreSourceTrap t p s) := by
  simp [execCoreSourceTrap, hm]
@[simp] theorem canon_nestResponse {s : State} (hm : s.mem.Canon) (t) : (nestResponse s t).mem.Canon := by
  simp [nestResponse, hm]

@[simp] theorem canon_execTccTrapEntry {s : State} (hm : s.mem.Canon) (t) : OutCanon (execTccTrapEntry t s) := by
  unfold execTccTrapEntry
  dsimp only
  (repeat' split) <;> simp [hm]

/-! Queues of the host. -/

@[simp] theorem canon_hostCmd {s : State} (hm : s.mem.Canon) {f : State → State} (hf : KeepsCanon f) (q cid opc fs c) :
    (hostCmd q cid opc fs c f s).mem.Canon := by
  have hf' (x) : (f (setPair' s q x)).mem.Canon := hf.apply (by simpa using hm)
  unfold hostCmd
  dsimp only
  (repeat' split) <;> simp [hm, hf']

@[simp] theorem canon_maintCmd {s : State} (hm : s.mem.Canon) {f : State → State} (hf : KeepsCanon f) (q cid oper fs) :
    (maintCmd q cid oper fs f s).mem.Canon := canon_hostCmd hm hf ..
@[simp] theorem canon_execNopCommand {s : State} (hm : s.mem.Canon) (q cid) : OutCanon (execNopCommand q cid s) := by
  simp [execNopCommand, hm]
@[simp] theorem canon_execInvalidOpcode {s : State} (hm : s.mem.Canon) (q cid opc oper) :
    OutCanon (execInvalidOpcode q cid opc oper s) := by
  simp [execInvalidOpcode, hm]
@[simp] theorem canon_execCqRoomPost {s : State} (hm : s.mem.Canon) (q) : OutCanon (execCqRoomPost q s) := by
  simp [execCqRoomPost, hm]
@[simp] theorem canon_execIrqCoalesceTimeout {s : State} (hm : s.mem.Canon) (q) : OutCanon (execIrqCoalesceTimeout q s) := by
  simp [execIrqCoalesceTimeout, hm]

/-! Sleep. -/

@[simp] theorem canon_loseRegs {s : State} (hm : s.mem.Canon) : (loseRegs s).mem.Canon :=
  canon_foldList (by simp [hm]) (fun a u => by simp) ..

@[simp] theorem canon_saveStores {s : State} (hm : s.mem.Canon) (da) : (saveStores s da).mem.Canon := by
  unfold saveStores
  extract_lets lines s₁ s₂ f
  have h₂ : s₂.mem.Canon := by simp [s₂, s₁, hm]
  exact foldList_induction (P := fun x : Nat × Memory => x.2.Canon) (fun x a ha => by simp [f, ha]) savedStores h₂

@[simp] theorem canon_restoreStore {s : State} (hm : s.mem.Canon) (src key n t p) :
    (restoreStore s src key n t p).mem.Canon := by
  simp_all [restoreStore]

@[simp] theorem canon_restoreStores {s : State} (hm : s.mem.Canon) (da) : (restoreStores s da).mem.Canon :=
  canon_foldList_snd (by simp [hm]) (fun a b u => by simp) _
@[simp] theorem canon_flushSlices {s : State} (hm : s.mem.Canon) : (flushSlices s).mem.Canon := by
  simp [flushSlices, hm]
@[simp] theorem canon_flushLp {s : State} (hm : s.mem.Canon) : (flushLp s).mem.Canon := by simp [flushLp, hm]
@[simp] theorem canon_tileRefresh {s : State} (hm : s.mem.Canon) (t on) : (tileRefresh s t on).mem.Canon := by
  simp [tileRefresh, hm]
@[simp] theorem canon_selfRefresh {s : State} (hm : s.mem.Canon) (on) : (selfRefresh s on).mem.Canon := by
  simp [selfRefresh, hm]
@[simp] theorem canon_loseSram {s : State} (hm : s.mem.Canon) : (loseSram s).mem.Canon := by
  simp_all [loseSram]
@[simp] theorem canon_loseStores {s : State} (hm : s.mem.Canon) : (loseStores s).mem.Canon := by
  simp_all [loseStores]

@[simp] theorem canon_enterSleep {s : State} (hm : s.mem.Canon) (st) : (enterSleep s st).mem.Canon := by
  unfold enterSleep
  extract_lets s₁ s₂ s₃ s₄ s₅ s₆ _ s₇
  have h₁ : s₁.mem.Canon := by simp [s₁, hm]
  have h₃ : s₃.mem.Canon := by simp [s₃, s₂, h₁]
  have h₄ : s₄.mem.Canon := by simp only [s₄]; split <;> [split; skip] <;> simp [h₃]
  simp [s₇, s₆, s₅, h₄]

@[simp] theorem canon_leaveSleep {s : State} (hm : s.mem.Canon) : (leaveSleep s).mem.Canon := by
  unfold leaveSleep
  dsimp only
  (repeat' split) <;> simp [hm]

@[simp] theorem canon_wakeDone {s : State} (hm : s.mem.Canon) : (wakeDone s).mem.Canon := by
  unfold wakeDone
  split <;> simp [hm]
@[simp] theorem canon_wakeFor {s : State} (hm : s.mem.Canon) (cause) : (wakeFor s cause).mem.Canon := by
  unfold wakeFor
  (repeat' split) <;> simp [hm]
@[simp] theorem canon_reach {s : State} (hm : s.mem.Canon) (page) : (reach s page).mem.Canon := by
  simp [reach, hm]
@[simp] theorem canon_execSqTail {s : State} (hm : s.mem.Canon) (q tail entries bad) :
    OutCanon (execSqTail q tail entries bad s) := by
  simp [execSqTail, hm]
@[simp] theorem canon_execCqHead {s : State} (hm : s.mem.Canon) (q head) : OutCanon (execCqHead q head s) := by
  simp [execCqHead, hm]
@[simp] theorem canon_execMsixUnmask {s : State} (hm : s.mem.Canon) (v mask) : OutCanon (execMsixUnmask v mask s) := by
  simp [execMsixUnmask, hm]

/-! Plans. -/

@[simp] theorem canon_readImage {s : State} (hm : s.mem.Canon) (da size) : (readImage s da size).2.mem.Canon := by
  unfold readImage
  exact canon_foldList_snd (by simp [hm]) (fun a b u => by dsimp only; split <;> simp) _

@[simp] theorem canon_loadPlan {s : State} (hm : s.mem.Canon) (q cid da size slot pin) :
    (loadPlan s q cid da size slot pin).mem.Canon := by
  unfold loadPlan
  dsimp only
  (repeat' split) <;> simp [hm]

@[simp] theorem canon_execLoadPlan {s : State} (hm : s.mem.Canon) (q cid imageDa imageSize slot pin) :
    OutCanon (execLoadPlan q cid imageDa imageSize slot pin s) := by
  simp [execLoadPlan, hm]
@[simp] theorem canon_recordBytes {s : State} (hm : s.mem.Canon) (t da n crc) : (recordBytes s t da n crc).2.mem.Canon := by
  simp [recordBytes, hm]

@[simp] theorem canon_placeCode {s : State} (hm : s.mem.Canon) (image c) : (placeCode s image c).2.mem.Canon := by
  have hr := canon_recordBytes hm c.tile (image + c.data) c.len c.crc
  unfold placeCode
  split
  · exact hm
  · split <;> simp_all

@[simp] theorem canon_placeWeight {s : State} (hm : s.mem.Canon) (image w) : (placeWeight s image w).2.mem.Canon := by
  have hr := canon_recordBytes hm w.tile (image + w.data) w.len w.crc
  unfold placeWeight
  split
  · exact hm
  · split <;> simp_all

@[simp] theorem canon_placeAll {α : Type} {s : State} (hm : s.mem.Canon) {f : State → α → Bool × State}
    (hf : ∀ a, KeepsCanon fun u => (f u a).2) (l i) : (placeAll f l i s).2.mem.Canon := by
  induction l generalizing i s with
  | nil => exact hm
  | cons a l ih =>
    have := (hf a).apply hm
    unfold placeAll
    split <;> simp_all

@[simp] theorem canon_writePcb {s : State} (hm : s.mem.Canon) (da vsel) : (writePcb s da vsel).mem.Canon := by
  simp [writePcb, hm]
@[simp] theorem canon_loseRegions {s : State} (hm : s.mem.Canon) (i) : (loseRegions s i).mem.Canon :=
  canon_foldList hm (fun a u => by split <;> simp) ..

@[simp] theorem canon_placePlan {s : State} (hm : s.mem.Canon) (i) : (placePlan s i).2.mem.Canon := by
  unfold placePlan
  dsimp only
  split
  · exact hm
  · have h₁ := canon_foldList (canon_readImage hm (planOf s i).imageDa (planOf s i).imageSize)
      (f := fun k st => foldList (fun r st => fillRegion st r) ((planOf s i).man.regions.filter fun r => r.kind = k) st)
      (fun k u => by simp) [1, 2, 3, 4]
    split
    · next heq => exact canon_of_eq heq (canon_placeAll h₁ (fun x u => by simp) ..)
    · next heq =>
      have h₂ := canon_of_eq heq (canon_placeAll h₁ (fun x u => by simp) ..)
      split
      · next heq => exact canon_of_eq heq (canon_placeAll h₂ (fun x u => by simp) ..)
      · next heq =>
        have h₃ := canon_of_eq heq (canon_placeAll h₂ (fun x u => by simp) ..)
        rw [mem_setPlan]
        exact canon_writePcb (by rw [setStore_mem]; exact canon_foldList h₃ (fun x u => by simp) _) ..

@[simp] theorem canon_execLoadPlanDone {s : State} (hm : s.mem.Canon) (slot) : OutCanon (execLoadPlanDone slot s) := by
  have hp := canon_placePlan hm slot
  unfold execLoadPlanDone
  rw [outCanon_next]
  dsimp only
  (repeat' split) <;> simp_all

@[simp] theorem canon_execUnloadPlan {s : State} (hm : s.mem.Canon) (q cid slot) : OutCanon (execUnloadPlan q cid slot s) := by
  simp [execUnloadPlan, hm]
@[simp] theorem canon_execPlanCtl {s : State} (hm : s.mem.Canon) (q cid slot pin) :
    OutCanon (execPlanCtl q cid slot pin s) := by
  simp [execPlanCtl, hm]
@[simp] theorem canon_execPlanSignal {s : State} (hm : s.mem.Canon) (q cid slot arg) :
    OutCanon (execPlanSignal q cid slot arg s) := by
  simp [execPlanSignal, hm]

@[simp] theorem canon_execReloadPlacementDone {s : State} (hm : s.mem.Canon) (slot) :
    OutCanon (execReloadPlacementDone slot s) := by
  unfold execReloadPlacementDone
  rw [outCanon_next]
  dsimp only
  split
  · exact hm
  · split
    · next heq => simpa using canon_of_eq heq (canon_placeAll hm (fun x u => by simp) ..)
    · next heq =>
      have hu := canon_of_eq heq (canon_placeAll hm (fun x u => by simp) ..)
      split <;> next heq => simpa using canon_of_eq heq (canon_placeAll hu (fun x u => by simp) ..)

/-! Links. -/

@[simp] theorem canon_execBarrierComplete {s : State} (hm : s.mem.Canon) (module t g) :
    OutCanon (execBarrierComplete module t g s) := by
  simp [execBarrierComplete, hm]

/-! Chains. -/

@[simp] theorem canon_execChainActivation {s : State} (hm : s.mem.Canon) (slot segs) :
    OutCanon (execChainActivation slot segs s) := by
  unfold execChainActivation
  dsimp only
  (repeat' split) <;> simp [hm]

/-! KV pages. -/

@[simp] theorem canon_readRec {s : State} (hm : s.mem.Canon) (q da n) : (readRec s q da n).2.mem.Canon := by
  simp [readRec, hm]
@[simp] theorem canon_readDescs {s : State} (hm : s.mem.Canon) (m i) : (readDescs s m i).2.mem.Canon :=
  canon_foldList_snd hm (fun a b u => by dsimp only; split <;> simp) _
@[simp] theorem canon_putDesc {s : State} (hm : s.mem.Canon) (d count staged) : (putDesc s d count staged).mem.Canon := by
  simp [putDesc, hm]
@[simp] theorem canon_putEntry {s : State} (hm : s.mem.Canon) (d p word) : (putEntry s d p word).mem.Canon := by
  simp [putEntry, hm]
@[simp] theorem canon_readEntry {s : State} (hm : s.mem.Canon) (q listDa p) : (readEntry s q listDa p).2.mem.Canon := by
  simp [readEntry, hm]

@[simp] theorem canon_stageList {s : State} (hm : s.mem.Canon) (d ws) : (stageList s d ws).mem.Canon := by
  unfold stageList
  split
  · exact hm
  · exact canon_putDesc (canon_foldList hm (fun x u => by simp) _) ..

@[simp] theorem canon_stagePages {s : State} (hm : s.mem.Canon) (slot plist len) :
    (stagePages s slot plist len).2.mem.Canon := by
  have hr := canon_readDescs hm (planOf s slot).man plist
  unfold stagePages
  dsimp only
  (repeat' split) <;> simp_all

@[simp] theorem canon_listPages {s : State} (hm : s.mem.Canon) (own d lo hi) : (listPages s own d lo hi).2.mem.Canon := by
  refine canon_foldList_snd hm (fun a b u => ?_) _
  have hr := canon_readEntry u.canon (ownReq 0) d.listDa a
  dsimp only
  split <;> simp_all

@[simp] theorem canon_eachList {s : State} (hm : s.mem.Canon) {f : Region → ListDesc → State → State}
    (hf : ∀ r d, KeepsCanon (f r d)) (slot plist) : (eachList s slot plist f).mem.Canon := by
  have := canon_readDescs hm (planOf s slot).man plist
  unfold eachList
  (repeat' split) <;> simp_all

@[simp] theorem canon_commitPages {s : State} (hm : s.mem.Canon) (slot plist) : (commitPages s slot plist).mem.Canon := by
  simp [commitPages, hm]
@[simp] theorem canon_dropPages {s : State} (hm : s.mem.Canon) (slot plist) : (dropPages s slot plist).mem.Canon :=
  canon_eachList hm (fun a b u => by simp) ..
@[simp] theorem canon_releasePages {s : State} (hm : s.mem.Canon) (slot plist) : (releasePages s slot plist).mem.Canon :=
  canon_eachList hm (fun a b u => by simp) ..

@[simp] theorem canon_claimList {s : State} (hm : s.mem.Canon) (m own d used) : (claimList s m own d used).2.mem.Canon := by
  refine canon_foldList_snd hm (fun a b u => ?_) _
  have hr := canon_readEntry u.canon (ownReq 0) d.listDa a
  dsimp only
  (repeat' split) <;> simp_all

@[simp] theorem canon_claimPages {s : State} (hm : s.mem.Canon) (slot plist kvLen) :
    (claimPages s slot plist kvLen).2.mem.Canon := by
  have hr := canon_readDescs hm (planOf s slot).man plist
  unfold claimPages
  dsimp only
  (repeat' split)
  case _ => exact hm
  case _ heq => exact canon_of_eq heq hr
  case _ heq _ => exact canon_of_eq heq hr
  case _ heq _ _ => exact canon_of_eq heq hr
  case _ heq _ _ _ => exact canon_of_eq heq hr
  case _ heq _ _ _ => exact canon_foldList_snd (canon_of_eq heq hr) (fun a b u => by dsimp only; split <;> simp) _

/-! Sequences. -/

@[simp] theorem canon_applyMove {s : State} (hm : s.mem.Canon) (i k) : (applyMove s i k).mem.Canon := by
  unfold applyMove
  dsimp only
  (repeat' split) <;> simp [hm]

@[simp] theorem canon_applyCmds {s : State} (hm : s.mem.Canon) (k) : (applyCmds s k).mem.Canon :=
  canon_foldList (by simp [hm]) (fun a u => by simp) ..

@[simp] theorem canon_openChecks {s : State} (hm : s.mem.Canon) (slot plist kvLen) :
    (openChecks s slot plist kvLen).2.mem.Canon := by
  have hr := canon_claimPages hm slot plist kvLen
  unfold openChecks
  (repeat' split) <;> simp_all

@[simp] theorem canon_seqOpen {s : State} (hm : s.mem.Canon) (q cid o) : (seqOpen s q cid o).mem.Canon := by
  have hr := canon_openChecks hm (fld o.mode.toNat 1 0) o.plist.toNat o.kvLen.toNat
  unfold seqOpen
  dsimp only
  (repeat' split) <;> simp_all

@[simp] theorem canon_execSeqOpen {s : State} (hm : s.mem.Canon) (q cid o) : OutCanon (execSeqOpen q cid o s) := by
  simp [execSeqOpen, hm]
@[simp] theorem canon_execSeqSuspend {s : State} (hm : s.mem.Canon) (q cid seq) : OutCanon (execSeqSuspend q cid seq s) := by
  simp [execSeqSuspend, hm]
@[simp] theorem canon_execSeqResume {s : State} (hm : s.mem.Canon) (q cid seq) : OutCanon (execSeqResume q cid seq s) := by
  simp [execSeqResume, hm]
@[simp] theorem canon_execSeqEnd {s : State} (hm : s.mem.Canon) (q cid seq) : OutCanon (execSeqEnd q cid seq s) := by
  simp [execSeqEnd, hm]
@[simp] theorem canon_execSeqRelease {s : State} (hm : s.mem.Canon) (q cid seq) : OutCanon (execSeqRelease q cid seq s) := by
  simp [execSeqRelease, hm]

/-! The end of an engine's work. -/

@[simp] theorem canon_endReductions {s : State} (hm : s.mem.Canon) (p) : (endReductions s p).mem.Canon := by
  simp_all [endReductions]
@[simp] theorem canon_endEngines {s : State} (hm : s.mem.Canon) (k) : (endEngines s k).mem.Canon := by
  simp [endEngines, hm]
@[simp] theorem canon_stopWork {s : State} (hm : s.mem.Canon) (t) : (stopWork s t).mem.Canon := by
  simp [stopWork, hm]
@[simp] theorem canon_stopTile {s : State} (hm : s.mem.Canon) (t) : (stopTile s t).mem.Canon := by
  simp [stopTile, hm]

/-! Periods. -/

@[simp] theorem canon_unstage {s : State} (hm : s.mem.Canon) (slot i) : (unstage s slot i).mem.Canon := by
  simp [unstage, hm]
@[simp] theorem canon_unadmit {s : State} (hm : s.mem.Canon) : (unadmit s).mem.Canon :=
  canon_foldList hm (fun a u => by simp) ..
@[simp] theorem canon_runWrite {s : State} (hm : s.mem.Canon) (run) : (runWrite s run).mem.Canon := by
  simp [runWrite, hm]
@[simp] theorem canon_execSpRunWrite {s : State} (hm : s.mem.Canon) (run) : OutCanon (execSpRunWrite run s) := by
  simp [execSpRunWrite, hm]

@[simp] theorem canon_admitSeq {x : (List Nat × List Nat) × State} (hm : x.2.mem.Canon) (slot i) :
    (admitSeq slot i x).2.mem.Canon := by
  unfold admitSeq
  dsimp only
  (repeat' split) <;> simp [hm]

@[simp] theorem canon_putPcb {s : State} (hm : s.mem.Canon) (k slot gs) : (putPcb s k slot gs).mem.Canon := by
  simp [putPcb, hm]

@[simp] theorem canon_admitPlan {x : List StepGroup × State} (hm : x.2.mem.Canon) (k slot) :
    (admitPlan k slot x).2.mem.Canon := by
  have hf (l) : (foldList (admitSeq slot) l (([], []), x.2)).2.mem.Canon :=
    canon_foldList_snd (by exact hm) (fun a b u => canon_admitSeq u.canon ..) l
  unfold admitPlan
  dsimp only
  (repeat' split) <;> simp [hm, hf]

theorem admitPlans_canon {s : State} (hm : s.mem.Canon) (k l gs) : (foldList (admitPlan k) l (gs, s)).2.mem.Canon :=
  canon_foldList_snd hm (fun a b u => canon_admitPlan (x := (b, u.state)) u.canon k a) _

@[simp] theorem canon_cutoff {s : State} (hm : s.mem.Canon) (t away) : (cutoff s t away).mem.Canon := by
  have h₁ : (advanceTo s (t - 20000)).mem.Canon := by rw [mem_advanceTo]; exact hm
  rw [cutoff]
  generalize advanceTo s (t - 20000) = s₁ at h₁ ⊢
  generalize (s.sched.num + 1) % 2 ^ 64 = k
  split
  next heq =>
    rw [mem_putRecord, setSched_mem]
    refine canon_of_eq heq (admitPlans_canon ?_ ..)
    rw [mem_stopChains, mem_returnTiles]
    exact canon_applyCmds (by rw [setSched_mem]; exact h₁) k

@[simp] theorem canon_execAdmissionCutoff {s : State} (hm : s.mem.Canon) (away) : OutCanon (execAdmissionCutoff away s) := by
  unfold execAdmissionCutoff
  split <;> simp [hm]
@[simp] theorem canon_placeGroup {x : List StepGroup × State} (hm : x.2.mem.Canon) (g) : (placeGroup g x).2.mem.Canon := by
  simp [placeGroup, hm]

@[simp] theorem canon_startPeriod {s : State} (hm : s.mem.Canon) (start routes) : (startPeriod s start routes).mem.Canon := by
  unfold startPeriod
  extract_lets s₁ k early _ s₂ s₃ s₄ s₅ s₆
  clear_value k
  have h₁ : s₁.mem.Canon := by simp [s₁, hm]
  clear_value s₁
  have h₂ : s₂.mem.Canon := by rw [setSched_mem]; exact h₁
  clear_value s₂
  have h₃ : s₃.mem.Canon := by simp [s₃, h₂]
  clear_value s₃
  have h₄ : s₄.mem.Canon := by simp [s₄, h₃]
  have h₆ : s₆.mem.Canon := by simp [s₆, s₅, h₄]
  clear_value s₆
  split
  next heq =>
    have hu := canon_of_eq heq (canon_foldList_snd h₆ (fun a b u => canon_placeGroup u.canon _) _)
    simp [hu]

@[simp] theorem canon_execPeriodStart {s : State} (hm : s.mem.Canon) (routes) : OutCanon (execPeriodStart routes s) := by
  unfold execPeriodStart
  split <;> simp [hm]
@[simp] theorem canon_dropSeq {s : State} (hm : s.mem.Canon) (i reason at' k) : (dropSeq s i reason at' k).mem.Canon := by
  simp [dropSeq, hm]
@[simp] theorem canon_dropGroup {s : State} (hm : s.mem.Canon) (g reason at' k) : (dropGroup s g reason at' k).mem.Canon := by
  simp [dropGroup, hm]
@[simp] theorem canon_abortPeriod {s : State} (hm : s.mem.Canon) (k) : (abortPeriod s k).mem.Canon := by
  simp [abortPeriod, hm]

@[simp] theorem canon_endPeriod {s : State} (hm : s.mem.Canon) : (endPeriod s).mem.Canon := by
  unfold endPeriod
  extract_lets k e s₁ s₂ s₃ gs wait s₄ _ s₅ s₆ s₇ s₈ s₉ next _ _
  have h₃ : s₃.mem.Canon := by simp [s₃, s₂, s₁, hm]
  have h₄ : s₄.mem.Canon := canon_foldList h₃ (fun g u => by simp) _
  have h₆ : s₆.mem.Canon := by simp [s₆, s₅, h₄]
  have h₉ : s₉.mem.Canon := by simp [s₉, s₈, s₇, h₆]
  simpa using h₉

@[simp] theorem canon_execPeriodEnd {s : State} (hm : s.mem.Canon) (parts) : OutCanon (execPeriodEnd parts s) := by
  simp [execPeriodEnd, hm]
@[simp] theorem canon_ringCopy {s : State} (hm : s.mem.Canon) (da size head l) : (ringCopy s da size head l).mem.Canon := by
  simp [ringCopy, hm]
@[simp] theorem canon_commitSeq {s : State} (hm : s.mem.Canon) (k tc i n fin out) :
    (commitSeq s k tc i n fin out).mem.Canon := by
  simp [commitSeq, hm]
@[simp] theorem canon_commitGroup {s : State} (hm : s.mem.Canon) (g k tc outs fins) :
    (commitGroup s g k tc outs fins).mem.Canon := by
  simp [commitGroup, hm]
@[simp] theorem canon_tryChainCommit {s : State} (hm : s.mem.Canon) (g tc) : (tryChainCommit s g tc).mem.Canon := by
  unfold tryChainCommit
  split <;> simp [hm]
@[simp] theorem canon_tryCommit {s : State} (hm : s.mem.Canon) (g tc) : (tryCommit s g tc).mem.Canon := by
  simp [tryCommit, hm]

@[simp] theorem canon_groupEnded {s : State} (hm : s.mem.Canon) (g tc ends outs) : (groupEnded s g tc ends outs).mem.Canon := by
  unfold groupEnded
  dsimp only
  (repeat' split) <;> simp [hm]

@[simp] theorem canon_execStepGroupCommit {s : State} (hm : s.mem.Canon) (g tc ends outs) :
    OutCanon (execStepGroupCommit g tc ends outs s) := by
  unfold execStepGroupCommit
  split <;> simp [hm]

/-! Replays. -/

@[simp] theorem canon_replayCode {s : State} (hm : s.mem.Canon) (slot t p c) : (replayCode s slot t p c).2.mem.Canon := by
  simp [replayCode, hm]

@[simp] theorem canon_copyCode {s : State} (hm : s.mem.Canon) (slot t p pos) : (copyCode s slot t p pos).2.mem.Canon := by
  refine canon_foldList_snd hm (fun c b u => ?_) _
  have hr := canon_replayCode u.canon slot t p c
  dsimp only
  split
  next heq =>
    have hu := canon_of_eq heq hr
    split <;> simp [hu]
  next heq => exact canon_of_eq heq hr

@[simp] theorem canon_pieceReplay {s : State} (hm : s.mem.Canon) (g page n da inputs) :
    (pieceReplay s g page n da inputs).mem.Canon := by
  have hr (t u pos) := canon_copyCode hm g.slot t u pos
  unfold pieceReplay
  dsimp only
  split
  · exact hm
  · split
    · split <;> next heq => simp [canon_of_eq heq (hr ..)]
    · simp [hm]
    · simp [hm]
    · simp [hm]

@[simp] theorem canon_execPieceReplay {s : State} (hm : s.mem.Canon) (g page n da inputs) :
    OutCanon (execPieceReplay g page n da inputs s) := by
  unfold execPieceReplay
  split <;> simp [hm]

@[simp] theorem canon_execGroupRerun {s : State} (hm : s.mem.Canon) (g) : OutCanon (execGroupRerun g s) := by
  unfold execGroupRerun
  split <;> simp [hm]
@[simp] theorem canon_retryCommit {s : State} (hm : s.mem.Canon) (tag) : (retryCommit s tag).mem.Canon := by
  unfold retryCommit
  split <;> simp [hm]

@[simp] theorem canon_execReplayResolve {s : State} (hm : s.mem.Canon) (g piece r) :
    OutCanon (execReplayResolve g piece r s) := by
  unfold execReplayResolve
  dsimp only
  (repeat' split) <;> simp [hm]

/-! DMA. -/

@[simp] theorem canon_execDma {s : State} (hm : s.mem.Canon) (q cid dir host da len) :
    OutCanon (execDma q cid dir host da len s) := by
  simp [execDma, hm]
@[simp] theorem canon_dmaRead {s : State} (hm : s.mem.Canon) (da len) : (dmaRead s da len).2.mem.Canon :=
  canon_foldList_snd hm (fun x b u => by simp) _

@[simp] theorem canon_execDmaDone {s : State} (hm : s.mem.Canon) (i data) : OutCanon (execDmaDone i data s) := by
  unfold execDmaDone
  rw [outCanon_next]
  split
  · exact hm
  next c _ =>
    refine canon_awaitHalves hm (fun u => ?_) ..
    dsimp only
    split
    · have hd {v : State} (hv : v.mem.Canon) := canon_dmaRead hv c.da c.len
      split <;> simp [hd]
    · simp

@[simp] theorem canon_execChMapout {s : State} (hm : s.mem.Canon) (q cid pkg ch) : OutCanon (execChMapout q cid pkg ch s) := by
  simp [execChMapout, hm]

@[simp] theorem canon_initRegion {s : State} (hm : s.mem.Canon) (a) : (initRegion s a).mem.Canon := by
  unfold initRegion
  extract_lets n lines s₁ s₂
  have h₂ : s₂.mem.Canon := by simp [s₂, s₁, hm]
  simp [h₂]

@[simp] theorem canon_finishMapOut {s : State} (hm : s.mem.Canon) (p c) : (finishMapOut s p c).mem.Canon := by
  simp [finishMapOut, hm]
@[simp] theorem canon_execMapoutRemapDone {s : State} (hm : s.mem.Canon) : OutCanon (execMapoutRemapDone s) :=
  canon_foldList (by simp [hm]) (fun a u => by simp) ..

/-! Walks. -/

@[simp] theorem canon_startWalk {s : State} (hm : s.mem.Canon) (t) : (startWalk s t).mem.Canon := by
  unfold startWalk
  dsimp only
  split <;> simp [hm]

@[simp] theorem canon_execWalk {s : State} (hm : s.mem.Canon) (t) : OutCanon (execWalk t s) := by
  simp [execWalk, hm]
@[simp] theorem canon_walkMasked {s : State} (hm : s.mem.Canon) (t w p) : (walkMasked s t w p).2.mem.Canon := by
  simp [walkMasked, hm]

@[simp] theorem canon_walkPage {s : State} (hm : s.mem.Canon) (t w p) : (walkPage s t w p).2.mem.Canon := by
  have hr {v : State} (hv : v.mem.Canon) (q da) := canon_readEntry hv q da p
  have hu := canon_walkMasked hm t w p
  unfold walkPage
  dsimp only
  split
  · simp [hu]
  · split
    · exact hu
    · split
      · simp [hu]
      · split <;> next heq =>
          have hv := canon_of_eq heq (hr (by simpa using hu) ..)
          (repeat' split) <;> simp [hv]

@[simp] theorem canon_walkNext {s : State} (hm : s.mem.Canon) (t w n p) : (walkNext s t w n p).2.mem.Canon := by
  induction n generalizing s p with
  | zero => exact hm
  | succ n ih =>
    have := canon_walkPage hm t w p
    unfold walkNext
    split <;> simp_all

@[simp] theorem canon_walkCopy {s : State} (hm : s.mem.Canon) (t w da) : (walkCopy s t w da).2.mem.Canon := by
  unfold walkCopy
  split <;> simp [hm]

@[simp] theorem canon_walkDeliver {s : State} (hm : s.mem.Canon) (t i w p da) : (walkDeliver s t i w p da).mem.Canon := by
  have hr := canon_walkCopy hm t w da
  unfold walkDeliver
  split
  next heq =>
    have hu := canon_of_eq heq hr
    extract_lets q tokens rec16 s₁ s₂ s₃ s₄
    have h₂ : s₂.mem.Canon := by simp [s₂, s₁, hu]
    have h₄ : s₄.mem.Canon := by simp only [s₄]; split <;> simp [s₃, h₂]
    simp [h₄]

@[simp] theorem canon_execWalkDelivery {s : State} (hm : s.mem.Canon) (t i) : OutCanon (execWalkDelivery t i s) := by
  unfold execWalkDelivery
  rw [outCanon_next]
  split
  · exact hm
  next w _ =>
    have hr := canon_walkNext hm t w (walkLeft w) w.page
    split
    · exact hm
    next heq =>
      have hv := canon_of_eq heq (by split <;> [exact hm; exact hr])
      refine canon_awaitHalves hm (fun u => ?_) ..
      split <;> simp [hv]

@[simp] theorem canon_execWalkComplete {s : State} (hm : s.mem.Canon) (t i) : OutCanon (execWalkComplete t i s) := by
  unfold execWalkComplete
  rw [outCanon_next]
  split
  · exact hm
  next w _ =>
    have hr := canon_walkNext hm t w (walkLeft w) w.page
    split
    · exact hm
    · exact hm
    next heq =>
      have hu := canon_of_eq heq hr
      extract_lets x s₁ s₂ s₃
      have h₂ : s₂.mem.Canon := by simp [s₂, s₁, hu]
      have h₃ : s₃.mem.Canon := by simp only [s₃]; split <;> simp [h₂]
      simp [h₃]

/-! Commands of memory. -/

@[simp] theorem canon_takeMcmd {s : State} (hm : s.mem.Canon) {f : List Byte → State → State}
    (hf : ∀ c, KeepsCanon (f c)) (t op) : (takeMcmd s t op f).mem.Canon := by
  have hf' (c x) : (f c (setTongs s t x)).mem.Canon := (hf c).apply (by simpa using hm)
  unfold takeMcmd
  dsimp only
  split <;> simp [hm, awaitHalves, hf']

@[simp] theorem canon_redLine {s : State} (hm : s.mem.Canon) (q c k) : (redLine s q c k).2.mem.Canon := by
  unfold redLine
  dsimp only
  (repeat' split) <;> simp [hm]

@[simp] theorem canon_applyRed {s : State} (hm : s.mem.Canon) (a c) : (applyRed s a c).mem.Canon := by
  unfold applyRed
  extract_lets ks before
  split
  next heq =>
    have hu := canon_of_eq heq (canon_foldList_snd hm (fun k b u => by simp) _)
    extract_lets adders _ s₁ s₂ s₃
    have h₂ : s₂.mem.Canon := by simp only [s₂]; split <;> simp [s₁, hu]
    have h₃ : s₃.mem.Canon := by simp only [s₃]; split <;> simp [h₂]
    simp [h₃]

@[simp] theorem canon_offerRed {s : State} (hm : s.mem.Canon) {wait : State → State} (hw : KeepsCanon wait) (a c) :
    (offerRed s a c wait).mem.Canon := by
  unfold offerRed
  split <;> simp [hm, hw.apply hm]

@[simp] theorem canon_execReduce {s : State} (hm : s.mem.Canon) (t) : OutCanon (execReduce t s) := by
  simp [execReduce, hm]

@[simp] theorem canon_execReduceRetry {s : State} (hm : s.mem.Canon) (a t i) : OutCanon (execReduceRetry a t i s) := by
  unfold execReduceRetry
  rw [outCanon_next]
  split
  · exact hm
  · split
    · simp [hm]
    · refine canon_awaitHalves hm (fun u => ?_) ..
      dsimp only
      split
      · simp
      · exact canon_offerRed (by simp) (fun u => by simp) ..

@[simp] theorem canon_execRedTimeout {s : State} (hm : s.mem.Canon) (a t i) : OutCanon (execRedTimeout a t i s) := by
  unfold execRedTimeout
  split <;> simp [hm]
@[simp] theorem canon_sbAtomic {s : State} (hm : s.mem.Canon) (a o n op arg0 arg1 tag) :
    (sbAtomic s a o n op arg0 arg1 tag).2.mem.Canon := by
  simp [sbAtomic, hm]
@[simp] theorem canon_execAtomic {s : State} (hm : s.mem.Canon) (t) : OutCanon (execAtomic t s) :=
  canon_takeMcmd hm (fun a u => by split <;> simp) ..
@[simp] theorem canon_execSend {s : State} (hm : s.mem.Canon) (t) : OutCanon (execSend t s) := by
  simp [execSend, hm]
@[simp] theorem canon_execSendCombine {s : State} (hm : s.mem.Canon) (t) : OutCanon (execSendCombine t s) := by
  simp [execSendCombine, hm]
@[simp] theorem canon_execRflag {s : State} (hm : s.mem.Canon) (t) : OutCanon (execRflag t s) := by
  simp [execRflag, hm]

@[simp] theorem canon_execFillDone {s : State} (hm : s.mem.Canon) (a) : OutCanon (execFillDone a s) := by
  unfold execFillDone
  rw [outCanon_next]
  split
  · exact hm
  · refine canon_awaitHalves hm (fun u => ?_) ..
    rw [State.canon_iff]
    extract_lets _ s₁
    split
    next heq =>
      have hu := canon_of_eq heq (canon_foldList_snd (by simp [s₁]) (fun k b u => by simp) _)
      split <;> simp [hu]

/-! Frames. -/

@[simp] theorem canon_execPortTrainingDone {s : State} (hm : s.mem.Canon) (c lanes) :
    OutCanon (execPortTrainingDone c lanes s) := by
  simp [execPortTrainingDone, hm]
@[simp] theorem canon_execChainPlugRemoved {s : State} (hm : s.mem.Canon) (c) : OutCanon (execChainPlugRemoved c s) := by
  simp [execChainPlugRemoved, hm]
@[simp] theorem canon_execChainPlugInserted {s : State} (hm : s.mem.Canon) (c) : OutCanon (execChainPlugInserted c s) := by
  simp [execChainPlugInserted, hm]
@[simp] theorem canon_acceptFrame {s : State} (hm : s.mem.Canon) (c f) : (acceptFrame s c f).mem.Canon := by
  simp [acceptFrame, hm]
@[simp] theorem canon_execFrameReceive {s : State} (hm : s.mem.Canon) (c f crc) : OutCanon (execFrameReceive c f crc s) := by
  simp [execFrameReceive, hm]

@[simp] theorem canon_onFrame {s : State} (hm : s.mem.Canon) {g : Frame → State → State} (hg : ∀ f, KeepsCanon (g f)) (c type) :
    OutCanon (onFrame c type s g) := by
  have hg' (f) : (g f (takeFrame s c type).2).mem.Canon := (hg f).apply (by simpa using hm)
  have := mem_takeFrame s c type
  unfold onFrame
  rw [outCanon_next]
  split <;> simp_all

@[simp] theorem canon_onLanding {s : State} (hm : s.mem.Canon) {g : Frame → State → State} (hg : ∀ f,
  KeepsCanon (g f)) (c type hs) :
    OutCanon (onLanding c type hs s g) := by
  have hg' (f) : (g f (takeFrame s c type).2).mem.Canon := (hg f).apply (by simpa using hm)
  have := mem_takeFrame s c type
  unfold onLanding
  rw [outCanon_next]
  split <;> simp_all

@[simp] theorem canon_execFramePassThrough {s : State} (hm : s.mem.Canon) (c) : OutCanon (execFramePassThrough c s) := by
  unfold execFramePassThrough
  rw [outCanon_next]
  dsimp only
  split
  · exact hm
  · split
    next heq =>
      have hu := canon_of_eq heq (by simp [hm])
      split <;> next heq => simp [canon_of_eq heq (by simpa using hu)]
    next heq => simp [canon_of_eq heq (by simp [hm])]

@[simp] theorem canon_execIdent {s : State} (hm : s.mem.Canon) (c) : OutCanon (execIdent c s) := by
  simp [execIdent, hm]

@[simp] theorem canon_execAck {s : State} (hm : s.mem.Canon) (c) : OutCanon (execAck c s) :=
  canon_onFrame hm (fun f u => by
    rw [State.canon_iff]
    extract_lets p n done s₁ s₂
    have h₂ : s₂.mem.Canon :=
      canon_foldList (by simp [s₁]) (fun x v => by rw [State.canon_iff]; split <;> simp) _
    split <;> simp [h₂]) ..

@[simp] theorem canon_execNak {s : State} (hm : s.mem.Canon) (c) : OutCanon (execNak c s) :=
  canon_onFrame hm (fun f u => by
    dsimp only
    split
    · exact u.canon
    · split <;> simp) ..

@[simp] theorem canon_execSyncExchange {s : State} (hm : s.mem.Canon) (c ns) : OutCanon (execSyncExchange c ns s) := by
  simp [execSyncExchange, hm]
@[simp] theorem canon_execSyncReq {s : State} (hm : s.mem.Canon) (c ns2 ns3) : OutCanon (execSyncReq c ns2 ns3 s) := by
  simp [execSyncReq, hm]

@[simp] theorem canon_execSyncRsp {s : State} (hm : s.mem.Canon) (c ns) : OutCanon (execSyncRsp c ns s) := by
  unfold execSyncRsp
  dsimp only
  exact canon_onFrame hm (fun a u => by split <;> simp) ..

@[simp] theorem canon_landPayload {s : State} (hm : s.mem.Canon) {next : State → State} (hn : KeepsCanon next) (c f) :
    (landPayload s c f next).mem.Canon := by
  have := hn.apply (canon_daWrite hm ⟨.port c, f.tag.toNat⟩ f.addr.toNat f.payload)
  simp [landPayload, hm, this]

@[simp] theorem canon_deliverFrame {s : State} (hm : s.mem.Canon) (c f) : (deliverFrame s c f).mem.Canon := by
  simp [deliverFrame, hm]
@[simp] theorem canon_execAct {s : State} (hm : s.mem.Canon) (c) : OutCanon (execAct c s) := by
  simp [execAct, hm]
@[simp] theorem canon_execCmb {s : State} (hm : s.mem.Canon) (c) : OutCanon (execCmb c s) := by
  simp [execCmb, hm]
@[simp] theorem canon_execFlagFrame {s : State} (hm : s.mem.Canon) (c) : OutCanon (execFlagFrame c s) := by
  simp [execFlagFrame, hm]
@[simp] theorem canon_execBarArr {s : State} (hm : s.mem.Canon) (c) : OutCanon (execBarArr c s) := by
  simp [execBarArr, hm]
@[simp] theorem canon_execBarRel {s : State} (hm : s.mem.Canon) (c) : OutCanon (execBarRel c s) := by
  simp [execBarRel, hm]
@[simp] theorem canon_execBarAbt {s : State} (hm : s.mem.Canon) (c) : OutCanon (execBarAbt c s) := by
  simp [execBarAbt, hm]

/-! Scalar instructions. -/

@[simp] theorem canon_execNop {s : State} (hm : s.mem.Canon) (t p _f) : OutCanon (execNop t p _f s) := by
  simp [execNop, hm]
@[simp] theorem canon_execTrap {s : State} (hm : s.mem.Canon) (t p f) : OutCanon (execTrap t p f s) := by
  simp [execTrap, hm]
@[simp] theorem canon_execFence {s : State} (hm : s.mem.Canon) (t p f) : OutCanon (execFence t p f s) := by
  simp [execFence, hm]
@[simp] theorem canon_execTime {s : State} (hm : s.mem.Canon) (t p f) : OutCanon (execTime t p f s) := by
  simp [execTime, hm]
@[simp] theorem canon_execLdi {s : State} (hm : s.mem.Canon) (t p f) : OutCanon (execLdi t p f s) := by
  simp [execLdi, hm]
@[simp] theorem canon_execLdih {s : State} (hm : s.mem.Canon) (t p f) : OutCanon (execLdih t p f s) := by
  simp [execLdih, hm]
@[simp] theorem canon_execAdd {s : State} (hm : s.mem.Canon) (t p f) : OutCanon (execAdd t p f s) := by
  simp [execAdd, hm]
@[simp] theorem canon_execSub {s : State} (hm : s.mem.Canon) (t p f) : OutCanon (execSub t p f s) := by
  simp [execSub, hm]
@[simp] theorem canon_execAnd {s : State} (hm : s.mem.Canon) (t p f) : OutCanon (execAnd t p f s) := by
  simp [execAnd, hm]
@[simp] theorem canon_execOr {s : State} (hm : s.mem.Canon) (t p f) : OutCanon (execOr t p f s) := by
  simp [execOr, hm]
@[simp] theorem canon_execXor {s : State} (hm : s.mem.Canon) (t p f) : OutCanon (execXor t p f s) := by
  simp [execXor, hm]
@[simp] theorem canon_execShl {s : State} (hm : s.mem.Canon) (t p f) : OutCanon (execShl t p f s) := by
  simp [execShl, hm]
@[simp] theorem canon_execShr {s : State} (hm : s.mem.Canon) (t p f) : OutCanon (execShr t p f s) := by
  simp [execShr, hm]
@[simp] theorem canon_execSar {s : State} (hm : s.mem.Canon) (t p f) : OutCanon (execSar t p f s) := by
  simp [execSar, hm]
@[simp] theorem canon_execMul {s : State} (hm : s.mem.Canon) (t p f) : OutCanon (execMul t p f s) := by
  simp [execMul, hm]
@[simp] theorem canon_execSlt {s : State} (hm : s.mem.Canon) (t p f) : OutCanon (execSlt t p f s) := by
  simp [execSlt, hm]
@[simp] theorem canon_execSltu {s : State} (hm : s.mem.Canon) (t p f) : OutCanon (execSltu t p f s) := by
  simp [execSltu, hm]
@[simp] theorem canon_storeOp {s : State} (hm : s.mem.Canon) (t p f op n) : (storeOp t p f op n s).mem.Canon := by
  simp [storeOp, hm]
@[simp] theorem canon_execLd {s : State} (hm : s.mem.Canon) (t p f) : OutCanon (execLd t p f s) := by
  simp [execLd, hm]
@[simp] theorem canon_execSt {s : State} (hm : s.mem.Canon) (t p f) : OutCanon (execSt t p f s) := by
  simp [execSt, hm]
@[simp] theorem canon_execLdw {s : State} (hm : s.mem.Canon) (t p f) : OutCanon (execLdw t p f s) := by
  simp [execLdw, hm]
@[simp] theorem canon_execStw {s : State} (hm : s.mem.Canon) (t p f) : OutCanon (execStw t p f s) := by
  simp [execStw, hm]
@[simp] theorem canon_execBr {s : State} (hm : s.mem.Canon) (t p f) : OutCanon (execBr t p f s) := by
  simp [execBr, hm]
@[simp] theorem canon_execBeq {s : State} (hm : s.mem.Canon) (t p f) : OutCanon (execBeq t p f s) := by
  simp [execBeq, hm]
@[simp] theorem canon_execBne {s : State} (hm : s.mem.Canon) (t p f) : OutCanon (execBne t p f s) := by
  simp [execBne, hm]
@[simp] theorem canon_execBlt {s : State} (hm : s.mem.Canon) (t p f) : OutCanon (execBlt t p f s) := by
  simp [execBlt, hm]
@[simp] theorem canon_execBge {s : State} (hm : s.mem.Canon) (t p f) : OutCanon (execBge t p f s) := by
  simp [execBge, hm]
@[simp] theorem canon_execLoop {s : State} (hm : s.mem.Canon) (t p f) : OutCanon (execLoop t p f s) := by
  simp [execLoop, hm]
@[simp] theorem canon_execCall {s : State} (hm : s.mem.Canon) (t p f) : OutCanon (execCall t p f s) := by
  simp [execCall, hm]
@[simp] theorem canon_execJr {s : State} (hm : s.mem.Canon) (t p f) : OutCanon (execJr t p f s) := by
  simp [execJr, hm]
@[simp] theorem canon_execIllegalInstruction {s : State} (hm : s.mem.Canon) (t p w) :
    OutCanon (execIllegalInstruction t p w s) := by
  simp [execIllegalInstruction, hm]

/-! Chain plans. -/

@[simp] theorem canon_onPlanFrame {s : State} (hm : s.mem.Canon) {g : Frame → Nat → State → State}
    (hg : ∀ f i, KeepsCanon (g f i)) (c type) : OutCanon (onPlanFrame c type s g) :=
  canon_onFrame hm (fun f u => by
    rw [State.canon_iff]
    split
    · exact (hg f _).apply u.canon
    · exact u.canon) ..

@[simp] theorem canon_takeEntry {x : List StepGroup × State} (hm : x.2.mem.Canon) (k slot e) :
    (takeEntry k slot e x).2.mem.Canon := by
  simp [takeEntry, hm]

@[simp] theorem canon_execAdmitFrame {s : State} (hm : s.mem.Canon) (c) : OutCanon (execAdmitFrame c s) :=
  canon_onPlanFrame hm (fun f slot u => by
    have ht {v : State} (hv : v.mem.Canon) (k es gs) : (foldList (takeEntry k slot) es (gs, v)).2.mem.Canon :=
      canon_foldList_snd (by exact hv) (fun a b w => canon_takeEntry (x := (b, w.state)) w.canon k slot a) _
    rw [State.canon_iff]
    extract_lets k es
    split
    · exact u.canon
    · split
      · split
        next heq =>
          have hv := canon_of_eq heq (ht u.canon ..)
          split
          · exact canon_putPcb (by rw [setSched_mem]; exact hv) ..
          · rw [setSched_mem]; exact hv
      · split
        · split
          next heq => simp [canon_of_eq heq (ht u.canon ..)]
        · exact u.canon) ..

@[simp] theorem canon_execReport {s : State} (hm : s.mem.Canon) (c) : OutCanon (execReport c s) :=
  canon_onPlanFrame hm (fun f slot u => by
    rw [State.canon_iff]
    exact canon_retryCommit (by rw [setSched_mem]; exact u.canon) _) ..

@[simp] theorem canon_lateDrop {s : State} (hm : s.mem.Canon) (k e g) : (lateDrop s k e g).mem.Canon := by
  simp [lateDrop, hm]
@[simp] theorem canon_expireDecision {s : State} (hm : s.mem.Canon) (tag) : (expireDecision s tag).mem.Canon := by
  unfold expireDecision
  split <;> simp [hm]
@[simp] theorem canon_applyDecision {s : State} (hm : s.mem.Canon) (tag tc recs) : (applyDecision s tag tc recs).mem.Canon := by
  unfold applyDecision
  split <;> simp [hm]

@[simp] theorem canon_settleDecision {s : State} (hm : s.mem.Canon) (tag) : (settleDecision s tag).mem.Canon := by
  unfold settleDecision
  dsimp only
  split <;> simp [hm]

@[simp] theorem canon_execCommit {s : State} (hm : s.mem.Canon) (c) : OutCanon (execCommit c s) := by
  simp [execCommit, hm]
@[simp] theorem canon_endHold {s : State} (hm : s.mem.Canon) : (endHold s).mem.Canon :=
  canon_foldList (by simp [hm]) (fun a u => by simp) ..
@[simp] theorem canon_dropOpen {s : State} (hm : s.mem.Canon) (tag reason) : (dropOpen s tag reason).mem.Canon := by
  unfold dropOpen
  split <;> simp [hm]
@[simp] theorem canon_execDrop {s : State} (hm : s.mem.Canon) (c) : OutCanon (execDrop c s) := by
  simp [execDrop, hm]
@[simp] theorem canon_execChainLateTimeout {s : State} (hm : s.mem.Canon) (i) : OutCanon (execChainLateTimeout i s) := by
  unfold execChainLateTimeout
  split <;> simp [hm]
@[simp] theorem canon_unclaimPages {s : State} (hm : s.mem.Canon) (slot plist) : (unclaimPages s slot plist).mem.Canon := by
  simp [unclaimPages, hm]

@[simp] theorem canon_segmentOpen {s : State} (hm : s.mem.Canon) (f slot i) : (segmentOpen s f slot i).mem.Canon := by
  have hr := canon_openChecks hm slot (field f.payload 0x2C 4) (field f.payload 8 8)
  unfold segmentOpen
  split
  · simp [hm]
  · split <;> next heq => simp [canon_of_eq heq hr]

@[simp] theorem canon_segmentCancel {s : State} (hm : s.mem.Canon) (slot i) : (segmentCancel s slot i).mem.Canon := by
  simp [segmentCancel, hm]
@[simp] theorem canon_execSeqSync {s : State} (hm : s.mem.Canon) (c) : OutCanon (execSeqSync c s) := by
  simp [execSeqSync, hm]
@[simp] theorem canon_refuseOpen {s : State} (hm : s.mem.Canon) (o d) : (refuseOpen s o d).mem.Canon := by
  simp [refuseOpen, hm]

@[simp] theorem canon_resolveOpen {s : State} (hm : s.mem.Canon) (o) : (resolveOpen s o).mem.Canon := by
  unfold resolveOpen
  dsimp only
  (repeat' split) <;> simp [hm]

@[simp] theorem canon_execSeqAck {s : State} (hm : s.mem.Canon) (c) : OutCanon (execSeqAck c s) :=
  canon_onPlanFrame hm (fun f slot u => by
    rw [State.canon_iff]
    extract_lets a mine
    split
    · exact u.canon
    · split
      · simp
      · extract_lets _ s₁
        have h₁ : s₁.mem.Canon := by simp [s₁]
        split
        · exact canon_resolveOpen h₁ _
        · exact h₁) ..

@[simp] theorem canon_execSeqSyncTimeout {s : State} (hm : s.mem.Canon) (i) : OutCanon (execSeqSyncTimeout i s) := by
  unfold execSeqSyncTimeout
  (repeat' split) <;> simp [hm]

@[simp] theorem canon_execEndProgram {s : State} (hm : s.mem.Canon) (t p _f) : OutCanon (execEndProgram t p _f s) := by
  unfold execEndProgram
  dsimp only
  exact canon_issue hm (fun u => by split <;> simp) ..

@[simp] theorem canon_execRplReq {s : State} (hm : s.mem.Canon) (c) : OutCanon (execRplReq c s) := by
  simp [execRplReq, hm]
@[simp] theorem canon_execRplRes {s : State} (hm : s.mem.Canon) (c) : OutCanon (execRplRes c s) :=
  canon_onLanding hm (fun a u => by dsimp only; (repeat' split) <;> simp) ..

/-! Power. -/

@[simp] theorem canon_execBellowsEvaluation {s : State} (hm : s.mem.Canon) : OutCanon (execBellowsEvaluation s) := by
  simp [execBellowsEvaluation, hm]

@[simp] theorem canon_execSleepEntryDone {s : State} (hm : s.mem.Canon) : OutCanon (execSleepEntryDone s) := by
  unfold execSleepEntryDone
  rw [outCanon_next]
  split
  · exact hm
  · extract_lets cause latched _ s₁
    have h₁ : s₁.mem.Canon := canon_enterSleep (by rw [setPower_mem]; exact hm) _
    split
    · simp [h₁]
    · exact h₁

@[simp] theorem canon_execTimedWake {s : State} (hm : s.mem.Canon) : OutCanon (execTimedWake s) := by
  unfold execTimedWake
  split <;> simp [hm]
@[simp] theorem canon_execWake {s : State} (hm : s.mem.Canon) (cause) : OutCanon (execWake cause s) := by
  simp [execWake, hm]
@[simp] theorem canon_execWakeDone {s : State} (hm : s.mem.Canon) : OutCanon (execWakeDone s) := by
  simp [execWakeDone, hm]
@[simp] theorem canon_execPllLockTimeout {s : State} (hm : s.mem.Canon) : OutCanon (execPllLockTimeout s) := by
  unfold execPllLockTimeout
  split <;> simp [hm]
@[simp] theorem canon_pwrCmdWakeWrite {s : State} (hm : s.mem.Canon) : (pwrCmdWakeWrite s).mem.Canon := by
  simp [pwrCmdWakeWrite, hm]

@[simp] theorem canon_execBudgetEpoch {s : State} (hm : s.mem.Canon) (x) : OutCanon (execBudgetEpoch x s) := by
  rw [execBudgetEpoch, outCanon_next]
  refine canon_foldList ?_ (fun d u => by rw [State.canon_iff]; split <;> simp) _
  rw [mem_powerNodes, mem_addCycles, mem_pset, mem_pset, mem_pset, setPower_mem, mem_advanceTo]
  exact hm

@[simp] theorem canon_execBudgetReport {s : State} (hm : s.mem.Canon) (d flips) : OutCanon (execBudgetReport d flips s) := by
  unfold execBudgetReport
  extract_lets k b m
  rw [outCanon_next]
  split
  · exact hm
  · split <;> [rw [mem_budgetBad]; rw [mem_setBudget]] <;> exact hm

@[simp] theorem canon_execBudgetRequest {s : State} (hm : s.mem.Canon) (d flips) : OutCanon (execBudgetRequest d flips s) := by
  unfold execBudgetRequest
  extract_lets k b m
  rw [outCanon_next]
  split
  · exact hm
  · split <;> [rw [mem_budgetBad]; rw [mem_setBudget]] <;> exact hm

@[simp] theorem canon_execGrant {s : State} (hm : s.mem.Canon) (d flips) : OutCanon (execGrant d flips s) := by
  unfold execGrant
  extract_lets k b
  rw [outCanon_next]
  split
  · exact hm
  · extract_lets m _ s₁ v _ s₂
    have h₁ : s₁.mem.Canon := by rw [mem_setBudget]; exact hm
    split
    · rw [mem_budgetBad]; exact h₁
    · have h₂ : s₂.mem.Canon := by rw [mem_setBudget]; exact h₁
      split
      · exact h₂
      · rw [mem_setBudget, mem_divideAt, mem_setBudget]; exact h₂

@[simp] theorem canon_execGrantLapse {s : State} (hm : s.mem.Canon) (d) : OutCanon (execGrantLapse d s) := by
  unfold execGrantLapse
  extract_lets x
  rw [outCanon_next]
  split
  · exact hm
  · rw [mem_raise, mem_pset]; exact hm

@[simp] theorem canon_execArrStepChange {s : State} (hm : s.mem.Canon) (t) : OutCanon (execArrStepChange t s) := by
  simp [execArrStepChange, hm]

@[simp] theorem canon_gateTile {s : State} (hm : s.mem.Canon) (t st) : (gateTile s t st).mem.Canon := by
  unfold gateTile
  extract_lets s₁ s₂ s₃ _ s₄ s₅ s₆ s₇ m s₈ _ s₉
  have h₁ : s₁.mem.Canon := canon_tileRefresh (canon_abortRunning (canon_stopWork hm _) ..) ..
  have h₃ : s₃.mem.Canon := by rw [setCores_mem, setFree_mem]; exact h₁
  have h₄ : s₄.mem.Canon := by rw [mem_setTcc]; exact h₃
  have h₅ : s₅.mem.Canon := by simp [s₅, h₄]
  have h₆ : s₆.mem.Canon := by rw [setMcs_mem]; exact h₅
  have h₇ : s₇.mem.Canon := by rw [setMem_mem]; exact Memory.canon_loseRange h₆ ..
  have h₈ : s₈.mem.Canon := by
    unfold s₈
    split
    · rw [setMem_mem]
      exact Memory.canon_markPoison (Memory.canon_zeroRange (Memory.canon_loseRange h₇ ..) ..) ..
    · exact h₇
  rw [mem_setHalf, mem_setHalf, setStore_mem]
  exact h₈

@[simp] theorem canon_enterBlock {s : State} (hm : s.mem.Canon) (page st) : (enterBlock s page st).mem.Canon := by
  unfold enterBlock
  split <;> simp [hm]

@[simp] theorem canon_execBlockParked {s : State} (hm : s.mem.Canon) (page) : OutCanon (execBlockParked page s) := by
  unfold execBlockParked
  dsimp only
  (repeat' split) <;> simp [hm]

@[simp] theorem canon_execRefclkLoss {s : State} (hm : s.mem.Canon) : OutCanon (execRefclkLoss s) := by
  simp [execRefclkLoss, hm]
@[simp] theorem canon_execRefclkRestore {s : State} (hm : s.mem.Canon) : OutCanon (execRefclkRestore s) := by
  simp [execRefclkRestore, hm]
@[simp] theorem canon_execRefclkTick {s : State} (hm : s.mem.Canon) : OutCanon (execRefclkTick s) := by
  unfold execRefclkTick
  split <;> simp [hm]
@[simp] theorem canon_execTrimMeasure {s : State} (hm : s.mem.Canon) (err) : OutCanon (execTrimMeasure err s) := by
  simp [execTrimMeasure, hm]

/-! Temperatures. -/

@[simp] theorem canon_execQuenchEvaluation {s : State} (hm : s.mem.Canon) (l inlet outlet busy) :
    OutCanon (execQuenchEvaluation l inlet outlet busy s) := by
  simp [execQuenchEvaluation, hm]
@[simp] theorem canon_execFloorExit {s : State} (hm : s.mem.Canon) : OutCanon (execFloorExit s) := by
  simp [execFloorExit, hm]

/-! Faults. -/

@[simp] theorem canon_execFltForce {s : State} (hm : s.mem.Canon) (page bits) : OutCanon (execFltForce page bits s) := by
  simp [execFltForce, hm]
@[simp] theorem canon_writeSticky {s : State} (hm : s.mem.Canon) (page bits) : (writeSticky s page bits).mem.Canon := by
  simp [writeSticky, hm]
@[simp] theorem canon_execFltStickyClear {s : State} (hm : s.mem.Canon) (page bits) :
    OutCanon (execFltStickyClear page bits s) := by
  simp [execFltStickyClear, hm]
@[simp] theorem canon_execVexondaneClear {s : State} (hm : s.mem.Canon) (page src) :
    OutCanon (execVexondaneClear page src s) := by
  simp [execVexondaneClear, hm]
@[simp] theorem canon_ringWrite {s : State} (hm : s.mem.Canon) (r) : (ringWrite s r).mem.Canon := by
  simp [ringWrite, hm]
@[simp] theorem canon_deliverRecord {s : State} (hm : s.mem.Canon) (r) : (deliverRecord s r).mem.Canon :=
  canon_ringWrite (by rw [setSvc_mem, setFlt_mem]; exact hm) r
@[simp] theorem canon_reportStamp {s : State} (hm : s.mem.Canon) (x temp volt time) :
    (reportStamp s x temp volt time).mem.Canon := by
  simp [reportStamp, hm]

@[simp] theorem canon_execFaultReport {s : State} (hm : s.mem.Canon) (temp volt time) :
    OutCanon (execFaultReport temp volt time s) := by
  unfold execFaultReport
  split <;> simp [hm]

/-! Maintenance. -/

@[simp] theorem canon_resetTile {s : State} (hm : s.mem.Canon) (t) : (resetTile s t).mem.Canon := by
  unfold resetTile
  extract_lets svc time quar s₁ s₂ s₃ s₄ s₅ s₆ _ s₇ _ s₈ _ s₉ s₁₀ _ s₁₁
  have h₂ : s₂.mem.Canon := by rw [mem_pset, mem_pset, mem_resetPages]; exact hm
  have h₃ : s₃.mem.Canon := by simp [s₃, h₂]
  have h₇ : s₇.mem.Canon := by rw [setSync_mem, setMcs_mem, setTccs_mem, setCores_mem]; exact h₃
  have h₉ : s₉.mem.Canon := canon_foldList (by rw [setEng_mem]; exact h₇) (fun n u => by simp) _
  have h₁₁ : s₁₁.mem.Canon := by rw [setPower_mem, setTests_mem]; exact h₉
  rw [setMem_mem]
  exact Memory.canon_loseRange (Memory.canon_zeroRange h₁₁ ..) ..

@[simp] theorem canon_fenceTile {s : State} (hm : s.mem.Canon) (t reason) : (fenceTile s t reason).mem.Canon := by
  unfold fenceTile
  extract_lets a held s₁ s₂ s₃ bit s₄ _ s₅ _ s₆ s₇
  have h₁ : s₁.mem.Canon := by simp [s₁, hm]
  have h₂ : s₂.mem.Canon := canon_foldList h₁ (fun n u => by simp) _
  have h₄ : s₄.mem.Canon := by rw [mem_psetBits, mem_setSvcReason, mem_setSvc]; exact h₂
  have h₅ : s₅.mem.Canon := by rw [setSched_mem]; exact h₄
  have h₆ : s₆.mem.Canon := by
    unfold s₆
    split
    · rw [setSvc_mem]; exact h₅
    · exact h₅
  have h₇ : s₇.mem.Canon := canon_foldList h₆ (fun n u => by rw [State.canon_iff]; split <;> simp) _
  rw [mem_raiseTag]
  exact h₇

@[simp] theorem canon_execTileFence {s : State} (hm : s.mem.Canon) (t clock) : OutCanon (execTileFence t clock s) := by
  unfold execTileFence
  rw [outCanon_next]
  split
  · exact hm
  · exact canon_fenceTile hm ..

@[simp] theorem canon_execTileCycle {s : State} (hm : s.mem.Canon) (q cid tile flags) :
    OutCanon (execTileCycle q cid tile flags s) := by
  simp [execTileCycle, hm]
@[simp] theorem canon_execTileRejoin {s : State} (hm : s.mem.Canon) (q cid tile flags) :
    OutCanon (execTileRejoin q cid tile flags s) := by
  simp [execTileRejoin, hm]
@[simp] theorem canon_execTileParked {s : State} (hm : s.mem.Canon) (t) : OutCanon (execTileParked t s) := by
  simp [execTileParked, hm]
@[simp] theorem canon_initRow {s : State} (hm : s.mem.Canon) (t n layer bank row) :
    (initRow s t n layer bank row).mem.Canon :=
  canon_foldList hm (fun a u => by simp) ..
@[simp] theorem canon_initBank {s : State} (hm : s.mem.Canon) (t n layer bank) : (initBank s t n layer bank).mem.Canon := by
  simp [initBank, hm]
@[simp] theorem canon_placeSpare {s : State} (hm : s.mem.Canon) (t n e) : (placeSpare s t n e).mem.Canon := by
  simp [placeSpare, hm]

@[simp] theorem canon_spareIn {s : State} (hm : s.mem.Canon) (e) : (spareIn s e).mem.Canon := by
  unfold spareIn
  split
  · exact hm
  · extract_lets _ s₁
    have h₁ : s₁.mem.Canon := by rw [setSvc_mem]; exact hm
    split
    · exact canon_placeSpare h₁ ..
    · exact h₁

@[simp] theorem canon_applySpares {s : State} (hm : s.mem.Canon) (mine l) : (applySpares s mine l).mem.Canon := by
  simp [applySpares, hm]

@[simp] theorem canon_recode {s : State} (hm : s.mem.Canon) (i c) : (recode s i c).mem.Canon := by
  have hr := canon_recordBytes hm c.tile ((planOf s i).imageDa + c.data) c.len c.crc
  unfold recode
  extract_lets p
  split
  · simp [hm]
  · split <;> next heq => simp [canon_of_eq heq hr]

@[simp] theorem canon_recodeTile {s : State} (hm : s.mem.Canon) (t) : (recodeTile s t).mem.Canon :=
  canon_foldList hm (fun a u => by simp) ..

@[simp] theorem canon_regoldTile {s : State} (hm : s.mem.Canon) (t) : (regoldTile s t).mem.Canon := by
  unfold regoldTile
  refine canon_foldList hm (fun i u => ?_) _
  rw [State.canon_iff]
  exact canon_foldList u.canon (fun w v => by simp) _

@[simp] theorem canon_rejoinTile {s : State} (hm : s.mem.Canon) (t fenced flags bad) :
    (rejoinTile s t fenced flags bad).mem.Canon := by
  unfold rejoinTile
  extract_lets rows s₁ s₂ s₃ s₄ s₅ s₆ s₇ _ s₈ s₉ s₁₀ _
  have h₁ : s₁.mem.Canon := by simp [s₁, hm]
  have h₃ : s₃.mem.Canon := by simp [s₃, s₂, h₁]
  have h₄ : s₄.mem.Canon := by
    unfold s₄
    split
    · rw [setMem_mem]
      exact Memory.canon_markPoison (Memory.canon_zeroRange h₃ ..) ..
    · exact h₃
  have h₆ : s₆.mem.Canon := by simp [s₆, s₅, h₄]
  split
  · rw [setSvc_mem, mem_setSvcReason, mem_setSvc]
    exact h₆
  · have h₈ : s₈.mem.Canon := canon_recodeTile h₆ _
    have h₉ : s₉.mem.Canon := by rw [setUnits_mem]; exact h₈
    rw [setSvc_mem]
    exact canon_regoldTile (by rw [mem_setSvc]; exact h₉) _

@[simp] theorem canon_execTileReloadDone {s : State} (hm : s.mem.Canon) (t bad) : OutCanon (execTileReloadDone t bad s) := by
  unfold execTileReloadDone
  split <;> simp [hm]

@[simp] theorem canon_fenceBase {s : State} (hm : s.mem.Canon) (a) : (fenceBase s a).mem.Canon := by
  unfold fenceBase
  extract_lets _ s₁ s₂ s₃ s₄ s₅
  have h₁ : s₁.mem.Canon := by rw [setStore_mem]; exact hm
  have h₂ : s₂.mem.Canon := canon_foldList h₁ (fun t u => by rw [State.canon_iff]; split <;> simp) _
  have h₅ : s₅.mem.Canon := by simp [s₅, s₄, s₃, h₂]
  split
  · rw [setFlt_mem, mem_raiseTag]; exact h₅
  · exact h₅

@[simp] theorem canon_execRepairPass {s : State} (hm : s.mem.Canon) (q cid flags) :
    OutCanon (execRepairPass q cid flags s) := by
  simp [execRepairPass, hm]
@[simp] theorem canon_execSaveTraining {s : State} (hm : s.mem.Canon) (q cid) : OutCanon (execSaveTraining q cid s) := by
  simp [execSaveTraining, hm]
@[simp] theorem canon_cfgWrite {s : State} (hm : s.mem.Canon) (q cid type src len) :
    (cfgWrite s q cid type src len).mem.Canon := by
  simp [cfgWrite, hm]
@[simp] theorem canon_execCfgWrite {s : State} (hm : s.mem.Canon) (q cid type src len) :
    OutCanon (execCfgWrite q cid type src len s) := by
  simp [execCfgWrite, hm]
@[simp] theorem canon_execAcceptTopology {s : State} (hm : s.mem.Canon) (q cid) : OutCanon (execAcceptTopology q cid s) := by
  simp [execAcceptTopology, hm]

/-! Resets of blocks. -/

@[simp] theorem canon_resetTileEngine {s : State} (hm : s.mem.Canon) (t j b) : (resetTileEngine s t j b).mem.Canon := by
  unfold resetTileEngine
  split <;> simp [hm]
@[simp] theorem canon_blockReset {s : State} (hm : s.mem.Canon) (page) : (blockReset s page).mem.Canon := by
  unfold blockReset
  split <;> simp [hm]
@[simp] theorem canon_execBlockReset {s : State} (hm : s.mem.Canon) (page) : OutCanon (execBlockReset page s) := by
  simp [execBlockReset, hm]
@[simp] theorem canon_execBlockResetDone {s : State} (hm : s.mem.Canon) (page) : OutCanon (execBlockResetDone page s) := by
  simp [execBlockResetDone, hm]
@[simp] theorem canon_execTemperTest {s : State} (hm : s.mem.Canon) (t u) : OutCanon (execTemperTest t u s) := by
  simp [execTemperTest, hm]
@[simp] theorem canon_execTemperTestDone {s : State} (hm : s.mem.Canon) (t pass) : OutCanon (execTemperTestDone t pass s) := by
  unfold execTemperTestDone
  split <;> simp [hm]
@[simp] theorem canon_execTemperOverdue {s : State} (hm : s.mem.Canon) (t u) : OutCanon (execTemperOverdue t u s) := by
  simp [execTemperOverdue, hm]
@[simp] theorem canon_execTemperAbandon {s : State} (hm : s.mem.Canon) (t u) : OutCanon (execTemperAbandon t u s) := by
  simp [execTemperAbandon, hm]
@[simp] theorem canon_execTmRunNow {s : State} (hm : s.mem.Canon) (t) : OutCanon (execTmRunNow t s) := by
  simp [execTmRunNow, hm]
@[simp] theorem canon_execTmSel {s : State} (hm : s.mem.Canon) (t v) : OutCanon (execTmSel t v s) := by
  simp [execTmSel, hm]

/-! The host port. -/

@[simp] theorem canon_hostRead {s : State} (hm : s.mem.Canon) (da n) : (hostRead s da n).mem.Canon := by
  simp [hostRead, hm]

@[simp] theorem canon_execBar4Access {s : State} (hm : s.mem.Canon) (bar2 resize off len data) :
    OutCanon (execBar4Access bar2 resize off len data s) := by
  unfold execBar4Access
  dsimp only
  (repeat' split) <;> simp [hm]

@[simp] theorem canon_execBar2Atomicop {s : State} (hm : s.mem.Canon) (bar off bytes op a b) :
    OutCanon (execBar2Atomicop bar off bytes op a b s) := by
  simp [execBar2Atomicop, hm]
@[simp] theorem canon_snoopIn {s : State} (hm : s.mem.Canon) (line) : (snoopIn s line).mem.Canon := by
  unfold snoopIn
  (repeat' split) <;> simp [hm]

@[simp] theorem canon_execCxlMemRead {s : State} (hm : s.mem.Canon) (y) : OutCanon (execCxlMemRead y s) := by
  unfold execCxlMemRead
  rw [outCanon_next]
  split
  · exact hm
  · extract_lets s₁ da s₂
    have h₂ : s₂.mem.Canon := by simp [s₂, s₁, hm]
    split
    · split <;> simp [h₂]
    · exact h₂

@[simp] theorem canon_execCxlMemWrite {s : State} (hm : s.mem.Canon) (y data) : OutCanon (execCxlMemWrite y data s) := by
  unfold execCxlMemWrite
  dsimp only
  (repeat' split) <;> simp [hm]

@[simp] theorem canon_execBackInvalidate {s : State} (hm : s.mem.Canon) (da data tag answered) :
    OutCanon (execBackInvalidate da data tag answered s) := by
  unfold execBackInvalidate
  split <;> simp [hm]

@[simp] theorem canon_execBisnpTimeout {s : State} (hm : s.mem.Canon) (i) : OutCanon (execBisnpTimeout i s) := by
  unfold execBisnpTimeout
  split <;> simp [hm]
@[simp] theorem canon_abortPair {s : State} (hm : s.mem.Canon) (q) : (abortPair s q).mem.Canon := by
  simp [abortPair, hm]
@[simp] theorem canon_pairEnable {s : State} (hm : s.mem.Canon) (q en) : (pairEnable q en s).mem.Canon := by
  simp [pairEnable, hm]
@[simp] theorem canon_execQueuePairEnable {s : State} (hm : s.mem.Canon) (q en) : OutCanon (execQueuePairEnable q en s) := by
  simp [execQueuePairEnable, hm]
@[simp] theorem canon_hostReset {s : State} (hm : s.mem.Canon) : (hostReset s).mem.Canon := by
  simp [hostReset, hm]
@[simp] theorem canon_execPerstN {s : State} (hm : s.mem.Canon) (cause) : OutCanon (execPerstN cause s) := by
  simp [execPerstN, hm]
@[simp] theorem canon_execFunctionLevelReset {s : State} (hm : s.mem.Canon) : OutCanon (execFunctionLevelReset s) := by
  simp [execFunctionLevelReset, hm]
@[simp] theorem canon_execCxlReset {s : State} (hm : s.mem.Canon) : OutCanon (execCxlReset s) := by
  simp [execCxlReset, hm]
@[simp] theorem canon_execLinkTrained {s : State} (hm : s.mem.Canon) (rate width flit cxl) :
    OutCanon (execLinkTrained rate width flit cxl s) := by
  simp [execLinkTrained, hm]
@[simp] theorem canon_execPerstNRelease {s : State} (hm : s.mem.Canon) : OutCanon (execPerstNRelease s) := by
  simp [execPerstNRelease, hm]

/-! The fabric. -/

@[simp] theorem canon_execFlitParityReplay {s : State} (hm : s.mem.Canon) (t seg src tag again) :
    OutCanon (execFlitParityReplay t seg src tag again s) := by
  simp [execFlitParityReplay, hm]
@[simp] theorem canon_execArbiterGrant {s : State} (hm : s.mem.Canon) (arb inputs) :
    OutCanon (execArbiterGrant arb inputs s) := by
  simp [execArbiterGrant, hm]
@[simp] theorem canon_execHalfIdleTimeout {s : State} (hm : s.mem.Canon) (t h) : OutCanon (execHalfIdleTimeout t h s) := by
  simp [execHalfIdleTimeout, hm]
@[simp] theorem canon_execHalfDown {s : State} (hm : s.mem.Canon) (t h) : OutCanon (execHalfDown t h s) := by
  simp [execHalfDown, hm]
@[simp] theorem canon_execHalfWakeRequest {s : State} (hm : s.mem.Canon) (t h who tag) :
    OutCanon (execHalfWakeRequest t h who tag s) := by
  simp [execHalfWakeRequest, hm]
@[simp] theorem canon_execHalfAwake {s : State} (hm : s.mem.Canon) (t h) : OutCanon (execHalfAwake t h s) := by
  simp [execHalfAwake, hm]
@[simp] theorem canon_execGatedAccess {s : State} (hm : s.mem.Canon) (t h tag) : OutCanon (execGatedAccess t h tag s) := by
  simp [execGatedAccess, hm]
@[simp] theorem canon_execBridgeModuleFail {s : State} (hm : s.mem.Canon) (x m lost) :
    OutCanon (execBridgeModuleFail x m lost s) := by
  simp [execBridgeModuleFail, hm]
@[simp] theorem canon_execUcieAdapterRetry {s : State} (hm : s.mem.Canon) (x far) :
    OutCanon (execUcieAdapterRetry x far s) := by
  simp [execUcieAdapterRetry, hm]
@[simp] theorem canon_execBaseFence {s : State} (hm : s.mem.Canon) (a lost) : OutCanon (execBaseFence a lost s) := by
  simp [execBaseFence, hm]

/-! Near-bank units. -/

@[simp] theorem canon_execStream {s : State} (hm : s.mem.Canon) (t l) : OutCanon (execStream t l s) := by
  simp [execStream, hm]

@[simp] theorem canon_nbReadLine {s : State} (hm : s.mem.Canon) (t n l b j tag ups) :
    (nbReadLine s t n l b j tag ups).2.mem.Canon := by
  unfold nbReadLine
  dsimp only
  (repeat' split) <;> simp [hm]

@[simp] theorem canon_streamLine {s : State} (hm : s.mem.Canon) (t l n b p i ups) :
    (streamLine s t l n b p i ups).mem.Canon := by
  simp [streamLine, hm]
@[simp] theorem canon_writeBack {s : State} (hm : s.mem.Canon) (t l i w) : (writeBack s t l i w).mem.Canon := by
  simp [writeBack, hm]

@[simp] theorem canon_grantRow {s : State} (hm : s.mem.Canon) (t l b ups i) : (grantRow s t l b ups i).mem.Canon := by
  unfold grantRow
  extract_lets s₁ p m
  have h₁ : s₁.mem.Canon := canon_foldList hm (fun n u => by simp) _
  split
  next heq =>
    rw [mem_setLayer]
    split at heq <;> obtain ⟨rfl, rfl⟩ := Prod.mk.inj heq
    · exact canon_foldList (by rw [mem_feedFiles]; exact h₁) (fun n u => by
        rw [State.canon_iff]; exact canon_foldList (canon_sliceFlushBank u.canon ..) (fun k v => by simp) _) _
    · exact canon_foldList h₁ (fun n u => by simp) _

@[simp] theorem canon_rowGrant {s : State} (hm : s.mem.Canon) (t l ups) : (rowGrant s t l ups).mem.Canon := by
  unfold rowGrant
  extract_lets slices
  split
  extract_lets s₁ s₂
  have h₁ : s₁.mem.Canon := by rw [mem_count]; exact hm
  have h₂ : s₂.mem.Canon := canon_foldList h₁ (fun b u => by rw [State.canon_iff]; split <;> simp [canon_grantRow]) _
  split
  · rw [mem_setLayer]; exact h₂
  · exact h₂

@[simp] theorem canon_execRowGrant {s : State} (hm : s.mem.Canon) (t l upsets) : OutCanon (execRowGrant t l upsets s) := by
  simp [execRowGrant, hm]

@[simp] theorem canon_deliverSegment {s : State} (hm : s.mem.Canon) (t l n i seg banks) :
    (deliverSegment s t l n i seg banks).2.mem.Canon := by
  unfold deliverSegment
  dsimp only
  (repeat' split) <;> simp [hm]

@[simp] theorem canon_deliverAll {s : State} (hm : s.mem.Canon) (t l i) : (deliverAll s t l i).2.mem.Canon :=
  foldl_induction (P := fun x : List NbWrite × State => x.2.mem.Canon) (fun x y hx => by simp [hx]) _ hm

@[simp] theorem canon_nbuFinal {s : State} (hm : s.mem.Canon) (t l par) : (nbuFinal s t l par).mem.Canon := by
  unfold nbuFinal
  split
  · exact hm
  · refine canon_awaitHalves hm (fun u => ?_) ..
    rw [State.canon_iff]
    extract_lets k s₁ s₂
    have h₁ : s₁.mem.Canon := canon_foldList u.canon (fun n v => by
      rw [State.canon_iff]; exact canon_foldList v.canon (fun b w => by simp) _) _
    have h₂ : s₂.mem.Canon := by
      unfold s₂
      split
      · rw [mem_raiseTag]; exact h₁
      · exact h₁
    split
    next heq =>
      rw [mem_setLayer]
      exact canon_of_eq heq (canon_deliverAll h₂ ..)

@[simp] theorem canon_execNbuFinal {s : State} (hm : s.mem.Canon) (t l chainPar) : OutCanon (execNbuFinal t l chainPar s) := by
  simp [execNbuFinal, hm]
@[simp] theorem canon_execNbuDescComplete {s : State} (hm : s.mem.Canon) (t l) : OutCanon (execNbuDescComplete t l s) := by
  unfold execNbuDescComplete
  split <;> simp [hm]

@[simp] theorem canon_execNbuRefreshPreempt {s : State} (hm : s.mem.Canon) (t l b due) :
    OutCanon (execNbuRefreshPreempt t l b due s) := by
  unfold execNbuRefreshPreempt
  split <;> simp [hm]

/-! Scans. -/

@[simp] theorem canon_execScan {s : State} (hm : s.mem.Canon) (t) : OutCanon (execScan t s) := by
  simp [execScan, hm]

@[simp] theorem canon_execSliceListWrite {s : State} (hm : s.mem.Canon) (t n par) :
    OutCanon (execSliceListWrite t n par s) := by
  unfold execSliceListWrite
  split <;> simp [hm]

@[simp] theorem canon_execScanComplete {s : State} (hm : s.mem.Canon) (t) : OutCanon (execScanComplete t s) := by
  unfold execScanComplete
  split <;> simp [hm]

/-! Reads of registers. -/

@[simp] theorem canon_regRead {s : State} (hm : s.mem.Canon) (ag off) : (regRead s ag off).2.mem.Canon := by
  unfold regRead
  dsimp only
  split <;> simp [hm]

/-! Storages. -/

@[simp] theorem canon_rouse {s : State} (hm : s.mem.Canon) (who) : (rouse s who).mem.Canon := by
  unfold rouse
  split <;> simp [hm]

@[simp] theorem canon_sliceAccess {s : State} (hm : s.mem.Canon) {f : State → State} (hf : KeepsCanon f) (i q t n line) :
    (sliceAccess s i q t n line f).mem.Canon := by
  unfold sliceAccess
  split
  · exact hm
  · exact canon_awaitAccess (canon_rouse hm _) (fun u => by simp [hf.apply u.canon]) ..

@[simp] theorem canon_execBondedWholeWrite {s : State} (hm : s.mem.Canon) (t n line data who tag) :
    OutCanon (execBondedWholeWrite t n line data who tag s) := by
  simp [execBondedWholeWrite, hm]
@[simp] theorem canon_execBondedNarrowWrite {s : State} (hm : s.mem.Canon) (t n line off data who tag) :
    OutCanon (execBondedNarrowWrite t n line off data who tag s) := by
  simp [execBondedNarrowWrite, hm]

@[simp] theorem canon_execMbTimeout {s : State} (hm : s.mem.Canon) (t n i) : OutCanon (execMbTimeout t n i s) := by
  unfold execMbTimeout
  dsimp only
  split <;> simp [hm]

@[simp] theorem canon_execRmwDone {s : State} (hm : s.mem.Canon) (t n i par) : OutCanon (execRmwDone t n i par s) := by
  unfold execRmwDone
  split <;> simp [hm]
@[simp] theorem canon_execBondedLineRead {s : State} (hm : s.mem.Canon) (t n line who tag flips) :
    OutCanon (execBondedLineRead t n line who tag flips s) := by
  simp [execBondedLineRead, hm]

@[simp] theorem canon_execCrcRereadReturn {s : State} (hm : s.mem.Canon) (t n i flips) :
    OutCanon (execCrcRereadReturn t n i flips s) := by
  unfold execCrcRereadReturn
  dsimp only
  split <;> simp [hm]

@[simp] theorem canon_execGoldenFetchDone {s : State} (hm : s.mem.Canon) (t n i) : OutCanon (execGoldenFetchDone t n i s) := by
  unfold execGoldenFetchDone
  dsimp only
  split <;> simp [hm]

@[simp] theorem canon_execRefreshDue {s : State} (hm : s.mem.Canon) (t n l b postpone) :
    OutCanon (execRefreshDue t n l b postpone s) := by
  simp [execRefreshDue, hm]
@[simp] theorem canon_execRefreshMiss {s : State} (hm : s.mem.Canon) (t n l b) : OutCanon (execRefreshMiss t n l b s) := by
  simp [execRefreshMiss, hm]
@[simp] theorem canon_execLpLineRead {s : State} (hm : s.mem.Canon) (a line who tag r) :
    OutCanon (execLpLineRead a line who tag r s) := by
  simp [execLpLineRead, hm]
@[simp] theorem canon_execLpWholeWrite {s : State} (hm : s.mem.Canon) (a line data who tag) :
    OutCanon (execLpWholeWrite a line data who tag s) := by
  simp [execLpWholeWrite, hm]
@[simp] theorem canon_execLpNarrowWrite {s : State} (hm : s.mem.Canon) (a line off data who tag) :
    OutCanon (execLpNarrowWrite a line off data who tag s) := by
  simp [execLpNarrowWrite, hm]
@[simp] theorem canon_execGbTimeout {s : State} (hm : s.mem.Canon) (p i par) : OutCanon (execGbTimeout p i par s) := by
  unfold execGbTimeout
  split <;> simp [hm]
@[simp] theorem canon_execLpRefresh {s : State} (hm : s.mem.Canon) (p c) : OutCanon (execLpRefresh p c s) := by
  simp [execLpRefresh, hm]
@[simp] theorem canon_execMr4Read {s : State} (hm : s.mem.Canon) (p c mult hot) : OutCanon (execMr4Read p c mult hot s) := by
  simp [execMr4Read, hm]
@[simp] theorem canon_execLpEffWindow {s : State} (hm : s.mem.Canon) (p c) : OutCanon (execLpEffWindow p c s) := by
  simp [execLpEffWindow, hm]
@[simp] theorem canon_execLpIdlePowerDown {s : State} (hm : s.mem.Canon) (p c) : OutCanon (execLpIdlePowerDown p c s) := by
  simp [execLpIdlePowerDown, hm]
@[simp] theorem canon_execSbRead {s : State} (hm : s.mem.Canon) (a off who tag bad) :
    OutCanon (execSbRead a off who tag bad s) := by
  simp [execSbRead, hm]
@[simp] theorem canon_execSbWrite {s : State} (hm : s.mem.Canon) (a off data who tag bad) :
    OutCanon (execSbWrite a off data who tag bad s) := by
  simp [execSbWrite, hm]

/-! Registers. -/

@[simp] theorem canon_queueCfgWrite {s : State} (hm : s.mem.Canon) (q v) : (queueCfgWrite s q v).mem.Canon := by
  simp [queueCfgWrite, hm]
@[simp] theorem canon_queuePageWrite {s : State} (hm : s.mem.Canon) (o v) : (queuePageWrite s o v).mem.Canon := by
  unfold queuePageWrite
  split <;> simp [hm]
@[simp] theorem canon_spCtrlWrite {s : State} (hm : s.mem.Canon) (v) : (spCtrlWrite s v).mem.Canon := by
  simp [spCtrlWrite, hm]
@[simp] theorem canon_tongsWrite {s : State} (hm : s.mem.Canon) (a o v) : ∀ u ∈ tongsWrite s a o v, u.mem.Canon := by
  unfold tongsWrite
  (repeat' split) <;> simp [hm]
@[simp] theorem canon_tileCtlWrite {s : State} (hm : s.mem.Canon) (t o v) : ∀ u ∈ tileCtlWrite s t o v, u.mem.Canon := by
  unfold tileCtlWrite
  (repeat' split) <;> simp [hm]
@[simp] theorem canon_baseCtlWrite {s : State} (hm : s.mem.Canon) (a o v) : ∀ u ∈ baseCtlWrite s a o v, u.mem.Canon := by
  unfold baseCtlWrite
  (repeat' split) <;> simp [hm]

@[simp] theorem canon_tileWrite {s : State} (hm : s.mem.Canon) (b t i o v) : ∀ u ∈ tileWrite s b t i o v, u.mem.Canon := by
  unfold tileWrite
  dsimp only
  split
  · exact canon_tileCtlWrite hm _ _ _
  all_goals simp only [Option.mem_some_iff, forall_eq', Option.not_mem_none, false_imp_iff, implies_true]
  all_goals (repeat' split) <;> simp [hm]

@[simp] theorem canon_baseWrite {s : State} (hm : s.mem.Canon) (b a i o v) : ∀ u ∈ baseWrite s b a i o v, u.mem.Canon := by
  unfold baseWrite
  split
  · exact canon_baseCtlWrite hm _ _ _
  case _ => simp [hm]
  case _ => simp only [Option.mem_some_iff, forall_eq']; split <;> simp [hm]
  case _ => simp [hm]
  case _ => simp only [Option.mem_some_iff, forall_eq']; split <;> simp [hm]
  · exact canon_tongsWrite hm _ _ _
  · simp

@[simp] theorem canon_moduleWrite {s : State} (hm : s.mem.Canon) (b o v) : ∀ u ∈ moduleWrite s b o v, u.mem.Canon := by
  unfold moduleWrite
  split <;> simp [hm]

@[simp] theorem canon_ownWrite {s : State} (hm : s.mem.Canon) (b page o v) : ∀ u ∈ ownWrite s b page o v, u.mem.Canon := by
  unfold ownWrite
  split
  · exact canon_tileWrite hm _ _ _ _ _
  · exact canon_baseWrite hm _ _ _ _ _
  · exact canon_moduleWrite hm _ _ _
  · simp

@[simp] theorem canon_specificPut {s : State} (hm : s.mem.Canon) (b page o v) : (specificPut s b page o v).mem.Canon := by
  have hw := canon_ownWrite hm b page o v
  unfold specificPut
  split
  · exact hm
  · split
    next heq => exact hw _ heq
    next =>
      split
      · exact hm
      · extract_lets s₁
        have h₁ : s₁.mem.Canon := by unfold s₁; split <;> simp [hm]
        split <;> simp [h₁]

@[simp] theorem canon_commonPut {s : State} (hm : s.mem.Canon) (b page o v) : (commonPut s b page o v).mem.Canon := by
  unfold commonPut
  split <;> simp [hm]
@[simp] theorem canon_regPut {s : State} (hm : s.mem.Canon) (b page o v) : (regPut s b page o v).mem.Canon := by
  unfold regPut
  (repeat' split) <;> simp [hm]

@[simp] theorem canon_regWrite {s : State} (hm : s.mem.Canon) (ag off v) : (regWrite s ag off v).2.mem.Canon := by
  unfold regWrite
  dsimp only
  (repeat' split) <;> simp [hm]

@[simp] theorem canon_agentStore {s : State} (hm : s.mem.Canon) (ag off v) : (agentStore s ag off v).mem.Canon := by
  simp [agentStore, hm]
@[simp] theorem canon_execRegisterWrite {s : State} (hm : s.mem.Canon) (ag off v) :
    OutCanon (execRegisterWrite ag off v s) := by
  simp [execRegisterWrite, hm]

@[simp] theorem canon_execGuardedWrite {s : State} (hm : s.mem.Canon) (ag off v) : OutCanon (execGuardedWrite ag off v s) := by
  unfold execGuardedWrite
  dsimp only
  split <;> simp [hm]

@[simp] theorem canon_execCounterClear {s : State} (hm : s.mem.Canon) (page) : OutCanon (execCounterClear page s) := by
  simp [execCounterClear, hm]

@[simp] theorem canon_hostWords {s : State} (hm : s.mem.Canon) (off l) : (hostWords s off l).mem.Canon := by
  induction l generalizing s off with
  | nil => exact hm
  | cons w l ih =>
    have h₁ := canon_regWrite hm .host off (leNat w)
    rw [hostWords]
    split
    next heq =>
      have hu := canon_of_eq heq h₁
      exact ih (by split <;> simp [hu]) _

@[simp] theorem canon_hostReadWords {s : State} (hm : s.mem.Canon) (off n) : (hostReadWords s off n).2.mem.Canon := by
  induction n generalizing s off with
  | zero => exact hm
  | succ n ih => simp [hostReadWords, ih, hm]

@[simp] theorem canon_execBar0Access {s : State} (hm : s.mem.Canon) (off size data) :
    OutCanon (execBar0Access off size data s) := by
  unfold execBar0Access
  split <;> simp [hm]

@[simp] theorem canon_globalOp {s : State} (hm : s.mem.Canon) {g : Nat → State → State} (hg : ∀ a,
  KeepsCanon (g a)) (i t op f) :
    (globalOp s i t op f g).mem.Canon :=
  canon_issueWhen (by simp [hm]) (hg _) ..

@[simp] theorem canon_execLdg {s : State} (hm : s.mem.Canon) (t f) : OutCanon (execLdg t f s) :=
  canon_globalOp hm (fun a u => by dsimp only; (repeat' split) <;> simp) ..
@[simp] theorem canon_execStg {s : State} (hm : s.mem.Canon) (t f) : OutCanon (execStg t f s) :=
  canon_globalOp hm (fun a u => by split <;> simp) ..
@[simp] theorem canon_execSpSeqSel {s : State} (hm : s.mem.Canon) (v) : OutCanon (execSpSeqSel v s) := by
  simp [execSpSeqSel, hm]
@[simp] theorem canon_execFsHrecSel {s : State} (hm : s.mem.Canon) (v) : OutCanon (execFsHrecSel v s) := by
  simp [execFsHrecSel, hm]
@[simp] theorem canon_execFsRingTail {s : State} (hm : s.mem.Canon) (v) : OutCanon (execFsRingTail v s) := by
  simp [execFsRingTail, hm]
@[simp] theorem canon_execFsRingCfgWrite {s : State} (hm : s.mem.Canon) (da v) : OutCanon (execFsRingCfgWrite da v s) := by
  simp [execFsRingCfgWrite, hm]
@[simp] theorem canon_execToPortSel {s : State} (hm : s.mem.Canon) (v) : OutCanon (execToPortSel v s) := by
  simp [execToPortSel, hm]
@[simp] theorem canon_execToRtSel {s : State} (hm : s.mem.Canon) (v) : OutCanon (execToRtSel v s) := by
  simp [execToRtSel, hm]
@[simp] theorem canon_execTcStrikeSel {s : State} (hm : s.mem.Canon) (t v) : OutCanon (execTcStrikeSel t v s) := by
  simp [execTcStrikeSel, hm]
@[simp] theorem canon_execTfSet {s : State} (hm : s.mem.Canon) (t flag) : OutCanon (execTfSet t flag s) := by
  simp [execTfSet, hm]
@[simp] theorem canon_execTfClr {s : State} (hm : s.mem.Canon) (t flag) : OutCanon (execTfClr t flag s) := by
  simp [execTfClr, hm]
@[simp] theorem canon_execMfSet {s : State} (hm : s.mem.Canon) (flag) : OutCanon (execMfSet flag s) := by
  simp [execMfSet, hm]
@[simp] theorem canon_execMfClr {s : State} (hm : s.mem.Canon) (flag) : OutCanon (execMfClr flag s) := by
  simp [execMfClr, hm]
@[simp] theorem canon_execTbMembersWrite {s : State} (hm : s.mem.Canon) (t g high v) :
    OutCanon (execTbMembersWrite t g high v s) := by
  simp [execTbMembersWrite, hm]
@[simp] theorem canon_execMbMembersWrite {s : State} (hm : s.mem.Canon) (g v) : OutCanon (execMbMembersWrite g v s) := by
  simp [execMbMembersWrite, hm]
@[simp] theorem canon_execTbAbort {s : State} (hm : s.mem.Canon) (t g) : OutCanon (execTbAbort t g s) := by
  simp [execTbAbort, hm]
@[simp] theorem canon_execMbAbort {s : State} (hm : s.mem.Canon) (g) : OutCanon (execMbAbort g s) := by
  simp [execMbAbort, hm]
@[simp] theorem canon_execTccHaltWrite {s : State} (hm : s.mem.Canon) (t halt) : OutCanon (execTccHaltWrite t halt s) := by
  simp [execTccHaltWrite, hm]
@[simp] theorem canon_execTccRestart {s : State} (hm : s.mem.Canon) (t) : OutCanon (execTccRestart t s) := by
  simp [execTccRestart, hm]
@[simp] theorem canon_execMcWringWrite {s : State} (hm : s.mem.Canon) (t n size v) :
    OutCanon (execMcWringWrite t n size v s) := by
  simp [execMcWringWrite, hm]
@[simp] theorem canon_execTgWpost {s : State} (hm : s.mem.Canon) (t v) : OutCanon (execTgWpost t v s) := by
  simp [execTgWpost, hm]
@[simp] theorem canon_execTgMpost {s : State} (hm : s.mem.Canon) (t v) : OutCanon (execTgMpost t v s) := by
  simp [execTgMpost, hm]
@[simp] theorem canon_execNlPost {s : State} (hm : s.mem.Canon) (t l v) : OutCanon (execNlPost t l v s) := by
  simp [execNlPost, hm]
@[simp] theorem canon_execTcSpost {s : State} (hm : s.mem.Canon) (t v) : OutCanon (execTcSpost t v s) := by
  simp [execTcSpost, hm]
@[simp] theorem canon_execFill {s : State} (hm : s.mem.Canon) (a) : OutCanon (execFill a s) := by
  simp [execFill, hm]
@[simp] theorem canon_execLpMapout {s : State} (hm : s.mem.Canon) (p mask) : OutCanon (execLpMapout p mask s) := by
  simp [execLpMapout, hm]
@[simp] theorem canon_execLpUncClear {s : State} (hm : s.mem.Canon) (p c) : OutCanon (execLpUncClear p c s) := by
  simp [execLpUncClear, hm]
@[simp] theorem canon_execFbHalfCtlWrite {s : State} (hm : s.mem.Canon) (t v) : OutCanon (execFbHalfCtlWrite t v s) := by
  simp [execFbHalfCtlWrite, hm]
@[simp] theorem canon_execCpRetrain {s : State} (hm : s.mem.Canon) (c) : OutCanon (execCpRetrain c s) := by
  simp [execCpRetrain, hm]
@[simp] theorem canon_execCbCfgWrite {s : State} (hm : s.mem.Canon) (g v) : OutCanon (execCbCfgWrite g v s) := by
  simp [execCbCfgWrite, hm]
@[simp] theorem canon_execPwrCmdWake {s : State} (hm : s.mem.Canon) : OutCanon (execPwrCmdWake s) := by
  simp [execPwrCmdWake, hm]
@[simp] theorem canon_execBlockPowerRequest {s : State} (hm : s.mem.Canon) (page req) :
    OutCanon (execBlockPowerRequest page req s) := by
  simp [execBlockPowerRequest, hm]
@[simp] theorem canon_execTimeLoad {s : State} (hm : s.mem.Canon) : OutCanon (execTimeLoad s) := by
  simp [execTimeLoad, hm]
@[simp] theorem canon_execTtHsSel {s : State} (hm : s.mem.Canon) (d hs) : OutCanon (execTtHsSel d hs s) := by
  simp [execTtHsSel, hm]
@[simp] theorem canon_execTtSensClr {s : State} (hm : s.mem.Canon) (d) : OutCanon (execTtSensClr d s) := by
  simp [execTtSensClr, hm]

/-! Bring-up. -/

@[simp] theorem canon_bringUpStart {s : State} (hm : s.mem.Canon) (i pages) : (bringUpStart s i pages).mem.Canon := by
  simp [bringUpStart, hm]
@[simp] theorem canon_initMemory (s) : (initMemory s).mem.Canon := by
  unfold initMemory
  exact canon_foldList (canon_loseStores (by rw [setMem_mem]; exact Memory.canon_reset _)) (fun a u => by simp) _

@[simp] theorem canon_bringUp {s : State} (hm : s.mem.Canon) (r pages) : (bringUp s r pages).mem.Canon := by
  unfold bringUp
  split
  · exact hm
  · simp [canon_initMemory]

@[simp] theorem canon_unpowered (s) : (unpowered s).mem.Canon := Memory.canon_reset _

@[simp] theorem canon_execColdPowerOn (factory test pwrEn strap r clocks s) :
    OutCanon (execColdPowerOn factory test pwrEn strap r clocks s) := by
  unfold execColdPowerOn
  dsimp only
  split <;> simp

@[simp] theorem canon_execHearthPowerLoss (s) : OutCanon (execHearthPowerLoss s) := by
  simp [execHearthPowerLoss]

@[simp] theorem canon_mainsOff (s) : (mainsOff s).mem.Canon := by
  unfold mainsOff
  extract_lets _ p _ c _ _ _ _ t fw s₁
  have ht : t.mem.Canon := Memory.canon_reset _
  have h₁ : s₁.mem.Canon := by simp [s₁, ht]
  simp [h₁]

@[simp] theorem canon_powerUp {s : State} (hm : s.mem.Canon) (r) : (powerUp s r).mem.Canon := by
  unfold powerUp
  split
  · exact hm
  · split
    · exact hm
    · split
      · rw [mem_setCf]; exact canon_bringUpStart hm ..
      · exact canon_bringUp hm ..

@[simp] theorem canon_execPwrEnFall {s : State} (hm : s.mem.Canon) : OutCanon (execPwrEnFall s) := by
  unfold execPwrEnFall
  rw [outCanon_next]
  split
  · exact hm
  · extract_lets _ s₁
    split
    · exact canon_mainsOff _
    · rw [setSvc_mem]; exact hm

@[simp] theorem canon_execPwrEnRise {s : State} (hm : s.mem.Canon) (r) : OutCanon (execPwrEnRise r s) := by
  unfold execPwrEnRise
  rw [outCanon_next]
  split
  · exact hm
  · extract_lets _ s₁
    have h₁ : s₁.mem.Canon := by rw [setSvc_mem]; exact hm
    split
    · exact h₁
    · split
      · rw [setSvc_mem]; exact h₁
      · exact canon_powerUp h₁ r

@[simp] theorem canon_execPwrEnLowHoldoffEnd {s : State} (hm : s.mem.Canon) (r) : OutCanon (execPwrEnLowHoldoffEnd r s) := by
  rw [execPwrEnLowHoldoffEnd, outCanon_next, ← State.canon_iff]
  split
  · extract_lets s₁
    have h₁ : s₁.Canon := by simp [s₁, hm]
    rw [State.canon_iff]
    exact canon_powerUp (by rw [setSvc_mem]; exact h₁) r
  · exact hm

@[simp] theorem canon_execInputUvWarn {s : State} (hm : s.mem.Canon) : OutCanon (execInputUvWarn s) := by
  simp [execInputUvWarn, hm]
@[simp] theorem canon_execInputOvWarn {s : State} (hm : s.mem.Canon) : OutCanon (execInputOvWarn s) := by
  simp [execInputOvWarn, hm]

@[simp] theorem canon_inputShutdown {s : State} (hm : s.mem.Canon) (src) : (inputShutdown s src).mem.Canon := by
  unfold inputShutdown
  extract_lets s₁
  have h₁ : s₁.mem.Canon := by rw [mem_raiseLive]; exact hm
  split
  · exact canon_mainsOff _
  · exact h₁

@[simp] theorem canon_execInputUv {s : State} (hm : s.mem.Canon) : OutCanon (execInputUv s) := by
  simp [execInputUv, hm]
@[simp] theorem canon_execInputOv {s : State} (hm : s.mem.Canon) : OutCanon (execInputOv s) := by
  simp [execInputOv, hm]
@[simp] theorem canon_execInputWarningClear {s : State} (hm : s.mem.Canon) (high) :
    OutCanon (execInputWarningClear high s) := by
  simp [execInputWarningClear, hm]

@[simp] theorem canon_execHwTrip {s : State} (hm : s.mem.Canon) (d i c0 c1) : OutCanon (execHwTrip d i c0 c1 s) := by
  unfold execHwTrip
  dsimp only
  (repeat' split) <;> simp [hm]

@[simp] theorem canon_execThermTripRelease {s : State} (hm : s.mem.Canon) : OutCanon (execThermTripRelease s) := by
  rw [execThermTripRelease, outCanon_next]
  split
  · split
    · rw [setQuench_mem, mem_advanceTo]; exact hm
    · exact hm
  · exact hm

@[simp] theorem canon_execHeldReevaluate {s : State} (hm : s.mem.Canon) : OutCanon (execHeldReevaluate s) := by
  unfold execHeldReevaluate
  split <;> simp [hm]
@[simp] theorem canon_run {s : State} (hm : s.mem.Canon) (x : HeldAccess) : OutCanon (x.run s) := by
  cases x <;> simp [HeldAccess.run, hm]

/-! Releases. -/

@[simp] theorem canon_resumeAccesses {s : State} (hm : s.mem.Canon) (l) : OutCanon (resumeAccesses s l) := by
  induction l generalizing s with
  | nil => exact hm
  | cons x l ih =>
    have := canon_run hm x
    unfold resumeAccesses
    split <;> simp_all

@[simp] theorem canon_execThermalStopExit {s : State} (hm : s.mem.Canon) : OutCanon (execThermalStopExit s) := by
  rw [execThermalStopExit]
  split
  · split
    · exact canon_resumeAccesses (by rw [setStore_mem, setQuench_mem, mem_setMode, mem_advanceTo]; exact hm) _
    · exact hm
  · exact hm

/-! Restarts. -/

@[simp] theorem canon_execConfigImageWrite {s : State} (hm : s.mem.Canon) (sec ok1 ok2) :
    OutCanon (execConfigImageWrite sec ok1 ok2 s) := by
  unfold execConfigImageWrite
  split <;> simp [hm]

@[simp] theorem canon_execRestart {s : State} (hm : s.mem.Canon) (q cid flags) : OutCanon (execRestart q cid flags s) := by
  simp [execRestart, hm]
@[simp] theorem canon_dropAllGroups {s : State} (hm : s.mem.Canon) : (dropAllGroups s).mem.Canon :=
  canon_foldList (by simp [hm]) (fun a u => by simp) ..
@[simp] theorem canon_resetEngines {s : State} (hm : s.mem.Canon) : (resetEngines s).mem.Canon := by
  simp [resetEngines, hm]

@[simp] theorem canon_initFenced {s : State} (hm : s.mem.Canon) (ts as) : (initFenced s ts as).mem.Canon := by
  unfold initFenced
  dsimp only
  rw [setMem_mem]
  exact Memory.canon_foldl (Memory.canon_foldl hm
      (fun m t h => Memory.canon_markPoison (Memory.canon_zeroRange h ..) ..) _)
    (fun m a h => Memory.canon_setParity (Memory.canon_zeroRange
      (Memory.canon_markPoison (Memory.canon_zeroRange h ..) ..) ..) ..) _

@[simp] theorem canon_warmStop {s : State} (hm : s.mem.Canon) : (warmStop s).mem.Canon := by
  unfold warmStop
  extract_lets s₁ s₂ s₃ _ s₄ ts as s₅ s₆
  have h₁ : s₁.mem.Canon := canon_flushLp (canon_flushSlices (by rw [mem_endSlotCommands]; exact canon_dropAllGroups hm))
  have h₂ : s₂.mem.Canon := canon_foldList h₁ (fun w u => by simp) _
  have h₃ : s₃.mem.Canon := by rw [mem_committedTable]; exact canon_hostReset h₂
  have h₄ : s₄.mem.Canon := by rw [setHost_mem]; exact h₃
  have h₅ : s₅.mem.Canon := canon_resetEngines (by rw [mem_resetMostPages]; exact h₄)
  have h₆ : s₆.mem.Canon := by rw [setFlt_mem]; exact canon_initFenced h₅ ..
  rw [mem_setCf, setSvc_mem]
  exact h₆

@[simp] theorem canon_replacePlan {s : State} (hm : s.mem.Canon) (i) : (replacePlan s i).mem.Canon := by
  simp [replacePlan, hm]
@[simp] theorem canon_diagReports {s : State} (hm : s.mem.Canon) (l) : (diagReports s l).mem.Canon := by
  simp [diagReports, hm]

@[simp] theorem canon_repairReset {s : State} (hm : s.mem.Canon) : (repairReset s).mem.Canon := by
  unfold repairReset
  extract_lets s₁ s₂ s₃ s₄ s₅
  have h₁ : s₁.Canon := canon_initFenced hm ..
  have h₂ : s₂.mem.Canon := by rw [setUnits_mem, setSeqs_mem]; exact h₁
  have h₃ : s₃.mem.Canon := by simp [s₃, h₂]
  have h₅ : s₅.mem.Canon := by simp [s₅, s₄, h₃]
  rw [setSvc_mem, setQuench_mem]
  exact h₅

@[simp] theorem canon_warmBringUp {s : State} (hm : s.mem.Canon) (r i flags repair) :
    (warmBringUp s r i flags repair).mem.Canon := by
  unfold warmBringUp
  extract_lets full s₁ s₂ s₃ s₄ s₅ s₆ s₇
  have h₁ : s₁.mem.Canon := by
    unfold s₁
    split
    · rw [mem_mapRepairs]; exact canon_repairReset hm
    · exact hm
  have h₂ : s₂.mem.Canon := by rw [mem_loadTopology]; exact canon_bringUpStart h₁ ..
  have h₃ : s₃.mem.Canon := by rw [mem_trainAll]; exact h₂
  have h₄ : s₄.mem.Canon := canon_foldList h₃ (fun k u => by simp) _
  have h₅ : s₅.mem.Canon := by rw [mem_keepOut, mem_holdHalves]; exact canon_loseStores (canon_loseSram h₄)
  have h₆ : s₆.mem.Canon := by rw [mem_testAll, mem_lpEpoch, mem_advanceTo]; exact h₅
  have h₇ : s₇.mem.Canon := canon_foldList (by rw [mem_failUnheld]; exact h₆)
    (fun k u => by rw [State.canon_iff]; exact canon_replacePlan u.canon k) _
  rw [mem_checkTopology]
  split
  · exact canon_diagReports h₇ _
  · exact h₇

@[simp] theorem canon_warmRest {s : State} (hm : s.mem.Canon) (r) : (warmRest s r).mem.Canon := by
  unfold warmRest
  dsimp only
  split <;> simp [hm]

@[simp] theorem canon_execWarmRestart {s : State} (hm : s.mem.Canon) (r) : OutCanon (execWarmRestart r s) := by
  simp [execWarmRestart, hm]

theorem restartTrigger_canon {s : State} (hm : s.mem.Canon) (low) : (execModRstN.trigger s low).mem.Canon := by
  unfold execModRstN.trigger
  rw [setSvc_mem, setHost_mem]
  exact canon_hostReset hm

@[simp] theorem canon_execModRstN {s : State} (hm : s.mem.Canon) (ns) : OutCanon (execModRstN ns s) := by
  unfold execModRstN
  rw [outCanon_next]
  split
  · exact hm
  · split
    · split
      next heq =>
        have hu := canon_of_eq heq (by rw [mem_drawBool]; exact hm)
        split
        · exact restartTrigger_canon hu _
        · exact hu
    · exact restartTrigger_canon hm _

@[simp] theorem canon_execModRstNRelease {s : State} (hm : s.mem.Canon) (r) : OutCanon (execModRstNRelease r s) := by
  unfold execModRstNRelease
  extract_lets _ t
  have ht : t.mem.Canon := by rw [setSvc_mem]; exact hm
  rw [outCanon_next]
  split
  · exact canon_warmRest ht r
  · exact ht

@[simp] theorem canon_execSidebandMessage {s : State} (hm : s.mem.Canon) (m) : OutCanon (execSidebandMessage m s) := by
  unfold execSidebandMessage
  split <;> simp [hm]
@[simp] theorem canon_execPldmSensorUpdate {s : State} (hm : s.mem.Canon) : OutCanon (execPldmSensorUpdate s) := by
  simp [execPldmSensorUpdate, hm]

/-! Dispatch. -/

@[simp] theorem canon_exec {s : State} (hm : s.mem.Canon) (i) : OutCanon (exec i s) := by
  unfold exec
  split <;> simp [hm]

/-! Steps. -/

@[simp] theorem canon_step {s : State} (hm : s.mem.Canon) : OutCanon (step s) := by
  unfold step
  split
  · exact hm
  · exact canon_exec (by rw [setPending_mem]; exact hm) _

/-- Settles O59: a step idles or executes one command, and every command keeps the form. -/
theorem memoryFormKept : Obligations.Memory_form_kept := by
  intro s u hwf hstep
  have hout : OutCanon (step s) := canon_step hwf
  rwa [hstep] at hout

end Sys2Proof.Machine
end

section
/-!
LPDDR5X lines and shared-buffer words (R27, R288, R289, R297, R298): the statement Lpddr_lines_and_shared_buffer, a lemma for each of its
commands and cases. What a source raised on the way sets stays set: no later part of the access clears a sticky bit.
-/

namespace Sys2Proof.Machine

open Sys2Proof

/-! Sticky bits. -/

/-- What an operation keeps of FLT_STICKY: every bit that is set. -/
def keepsSticky (s u : State) : Prop := ∀ page src, src < 32 → sticky s page src = true → sticky u page src = true

theorem keepsSticky_trans {s u v : State} (h : keepsSticky s u) (h' : keepsSticky u v) : keepsSticky s v :=
  fun page src hx hs => h' page src hx (h page src hx hs)

theorem keepsSticky_of_onlyFaults {s u : State} (h : onlyFaults s u) : keepsSticky s u := h.2.2.2.2

theorem keepsSticky_of_regs {s u : State} (h : ∀ o, regGet u o = regGet s o) : keepsSticky s u := by
  intro page src _ hs
  rwa [sticky, pget, h]

theorem keepsSticky_of_lpTraffic {s u : State} (h : lpTraffic s u) : keepsSticky s u := keepsSticky_of_regs h.regGet_eq

theorem keepsSticky_pset (s : State) (p o v : Nat) (ho : o < 0x1000) (h : o ≠ 0x020) : keepsSticky s (pset s p o v) :=
  keepsSticky_of_onlyFaults (onlyFaults_pset s p o v ho h)

theorem curopOffs_spec (b : Block) : ∀ o ∈ curopOffs b, o < 0x1000 ∧ o ≠ 0x020 := by
  cases b <;> decide

theorem keepsSticky_setCurop (s : State) (page : Nat) (ws : List Nat) : keepsSticky s (setCurop s page ws) := by
  unfold setCurop
  split
  next b _ =>
    have hmem : ∀ x ∈ (curopOffs b).zip ws, x.1 < 0x1000 ∧ x.1 ≠ 0x020 :=
      fun x hx => curopOffs_spec b _ (List.of_mem_zip hx).1
    generalize (curopOffs b).zip ws = l at hmem
    induction l generalizing s with
    | nil => exact fun _ _ _ h => h
    | cons x l ih =>
      obtain ⟨ho, hne⟩ := hmem x (.head _)
      exact keepsSticky_trans (keepsSticky_pset s page x.1 x.2 ho hne) (ih _ fun y hy => hmem y (.tail _ hy))
  · exact fun _ _ _ h => h

/-- A source raised with its operation keeps every sticky bit, and sets its own where the block has it. -/
theorem raiseOp_spec (s : State) (page src : Nat) (ws : List Nat) :
    keepsSticky s (raiseOp s page src ws) ∧
      ∀ b, pageBlock page = some b → sourceDefined b src = true → src < 32 → sticky (raiseOp s page src ws) page src = true := by
  obtain ⟨hfaults, hset⟩ := raiseTag_spec (setCurop s page ws) page src ((ws.getLast?).getD 0)
  have hlast := keepsSticky_setCurop (raiseTag (setCurop s page ws) page src ((ws.getLast?).getD 0)) page (ws.map fun _ => 0)
  exact ⟨keepsSticky_trans (keepsSticky_trans (keepsSticky_setCurop _ _ _) (keepsSticky_of_onlyFaults hfaults)) hlast,
    fun b hb hd hx => hlast _ _ hx (hset b hb hd hx)⟩

theorem keepsSticky_count (s : State) (p o n : Nat) : keepsSticky s (count s p o n) :=
  keepsSticky_of_onlyFaults (onlyFaults_count ..)

/-! A line read with its check (R289). -/

theorem lpChannel_lt {s : State} {a q : Nat} (ha : a < 4) : (regionChan s a q).1 < 64 := by
  have hall : ∀ c ∈ regionChans s a, c < 64 := fun c hc => by
    obtain ⟨i, hi, rfl⟩ := List.mem_map.1 (List.mem_filter.1 hc).1
    have := List.mem_range.1 hi
    omega
  unfold regionChan
  dsimp only
  rw [List.getD_eq_getElem?_getD]
  cases h : (regionChans s a)[q / 4096 % (regionChans s a).length]? with
  | none => decide
  | some c => exact hall c (List.mem_of_getElem? h)

theorem pageBlock_lpPage {p : Nat} (h : p < 16) : pageBlock (lpPage p) = some .lpddr := by
  interval_cases p <;> rfl

theorem pageBlock_lpPage_channel {s : State} {a q : Nat} (ha : a < 4) :
    pageBlock (lpPage ((regionChan s a q).1 / 4)) = some .lpddr :=
  pageBlock_lpPage (by have := lpChannel_lt (s := s) (q := q) ha; omega)

section
variable (s : State) (op tag da ch cda : Nat)

theorem keepsSticky_lpCheckPar (par : Bool) : keepsSticky s (lpCheckPar s op tag da ch cda par) := by
  unfold lpCheckPar
  split
  · exact keepsSticky_trans (u := s.setMem (s.mem.markPoison da 128)) (keepsSticky_of_regs fun _ => rfl) (raiseOp_spec ..).1
  · exact fun _ _ _ h => h

theorem keepsSticky_lpUncCount : keepsSticky s (lpUncCount s ch op cda tag) := by
  unfold lpUncCount
  extract_lets p c v n s₁ thr
  have h₁ : keepsSticky s s₁ := keepsSticky_pset s (lpPage p) 0x090 _ (by omega) (by omega)
  clear_value s₁ n
  split
  · exact keepsSticky_trans h₁ (raiseOp_spec ..).1
  · exact h₁

end

/-- What a line's check leaves in memory: the check word of a line that reads it with bad parity becomes a poison one (R307). -/
@[simp] theorem mem_lpCheckedLine (s : State) (op tag a q : Nat) (r : LpRead) :
    (lpCheckedLine s op tag a q r).2.mem =
      if r.par then s.mem.markPoison (regionBase a + q / 128 * 128) 128 else s.mem := by
  simp [lpCheckedLine, lpCheckPar, lpLineLost]

section
variable (s : State) (op tag a q : Nat) (r : LpRead) (ha : a < 4)

/-- A line that matches its check word is delivered. -/
theorem lpCheckedLine_first (hpar : r.par = false)
    (h : (s.mem.readLine (regionBase a + q / 128 * 128) (r.flips.map Fin.val)).2 = true) :
    (lpCheckedLine s op tag a q r).1 = ((s.mem.readLine (regionBase a + q / 128 * 128) (r.flips.map Fin.val)).1, .ok) := by
  simp [lpCheckedLine, lpCheckPar, hpar, h]

include ha

/-- A line that fails once and then matches is delivered, and raised. -/
theorem lpCheckedLine_again (hpar : r.par = false)
    (h : (s.mem.readLine (regionBase a + q / 128 * 128) (r.flips.map Fin.val)).2 = false)
    (h' : (s.mem.readLine (regionBase a + q / 128 * 128) (r.again.map Fin.val)).2 = true) :
    (lpCheckedLine s op tag a q r).1 = ((s.mem.readLine (regionBase a + q / 128 * 128) (r.again.map Fin.val)).1, .ok) ∧
      sticky (lpCheckedLine s op tag a q r).2 (lpPage ((regionChan s a q).1 / 4)) 0 = true := by
  have hset (u ws) := (raiseOp_spec u (lpPage ((regionChan s a q).1 / 4)) 0 ws).2 .lpddr (pageBlock_lpPage_channel ha)
    (by decide) (by decide)
  simp [lpCheckedLine, lpCheckPar, hpar, h, h', hset]

/-- A line that fails twice reads as poisoned zeros, and is raised. -/
theorem lpCheckedLine_lost (hpar : r.par = false)
    (h : (s.mem.readLine (regionBase a + q / 128 * 128) (r.flips.map Fin.val)).2 = false)
    (h' : (s.mem.readLine (regionBase a + q / 128 * 128) (r.again.map Fin.val)).2 = false) :
    (lpCheckedLine s op tag a q r).1 = (zeroLine, .poison) ∧
      sticky (lpCheckedLine s op tag a q r).2 (lpPage ((regionChan s a q).1 / 4)) 1 = true := by
  have hset (u op tag cda) : sticky (lpLineLost u op tag (regionChan s a q).1 cda) (lpPage ((regionChan s a q).1 / 4)) 1 = true :=
    keepsSticky_lpUncCount _ _ _ _ _ _ _ (by decide)
      ((raiseOp_spec ..).2 .lpddr (pageBlock_lpPage_channel ha) (by decide) (by decide))
  simp [lpCheckedLine, lpCheckPar, hpar, h, h', hset]

/-- A parity error of the check word in the cache is raised (R307). -/
theorem lpCheckedLine_par (hpar : r.par = true) :
    sticky (lpCheckedLine s op tag a q r).2 (lpPage ((regionChan s a q).1 / 4)) 3 = true := by
  have hblock := pageBlock_lpPage_channel (s := s) (q := q) ha
  unfold lpCheckedLine
  extract_lets da
  generalize regionChan s a q = c at hblock
  obtain ⟨ch, cda⟩ := c
  dsimp only at hblock ⊢
  set s₁ := lpCheckPar (lpCharge s ch cda false) op tag da ch cda r.par with hs₁
  have h₁ : sticky s₁ (lpPage (ch / 4)) 3 = true := by
    rw [hs₁, lpCheckPar, hpar, if_pos rfl]
    exact (raiseOp_spec ..).2 .lpddr hblock (by decide) (by decide)
  set s₂ := if r.lecc = 0#8 then s₁ else count s₁ (lpPage (ch / 4)) (lpCnt (ch % 4) 6) r.lecc.toNat with hs₂
  have h₂ : sticky s₂ (lpPage (ch / 4)) 3 = true := by
    rw [hs₂]
    split
    · exact h₁
    · exact keepsSticky_count _ _ _ _ _ _ (by decide) h₁
  have h₃ : sticky (lpCharge s₂ ch cda false) (lpPage (ch / 4)) 3 = true :=
    keepsSticky_of_lpTraffic (lpTraffic_lpCharge ..) _ _ (by decide) h₂
  split
  · exact h₂
  · split
    · exact (raiseOp_spec ..).1 _ _ (by decide) (keepsSticky_count _ _ _ _ _ _ (by decide) h₃)
    · exact keepsSticky_lpUncCount _ _ _ _ _ _ _ (by decide) ((raiseOp_spec ..).1 _ _ (by decide) h₃)

end

/-! Reads of a line by a requester (R32, R289). -/

/-- Every leaf of the module lies on a base die. -/
theorem leafLoc_die_lt {who : Leaf} (h : leafOk who = true) : (leafLoc who).die < 4 := by
  cases who <;> simp only [leafOk, Bool.and_eq_true, decide_eq_true_eq] at h <;> simp only [leafLoc, tileDie, portDie] <;> omega

theorem rouse_awake {s : State} (h : awake s) (who : Leaf) : rouse s who = s := by
  cases who <;> exact wakeFor_awake h _

/-- A read of a line of which nothing is gathered, where the fabric carries it: the line's check answers. -/
theorem execLpLineRead_reaches {s : State} {a : Fin 4} {line : BitVec 31} {who : Leaf} (tag : BitVec 32) (r : LpRead)
    (hr : reaches s who) (hf : regionFenced s a = false) (htop : 128 * line.toNat < regionTop s a)
    (hgb : ∀ e ∈ (lpOf s ((regionChan s a (128 * line.toNat)).1 / 4)).gb, e.line ≠ (regionBase a + 128 * line.toNat) / 128) :
    ∃ w, lpTraffic s w ∧ execLpLineRead a line who tag r s =
      .next (lpDeliver (lpCheckedLine w 1 tag.toNat a (128 * line.toNat) r).2 ((regionChan s a (128 * line.toNat)).1 / 4) line.toNat
        (lpCheckedLine w 1 tag.toNat a (128 * line.toNat) r).1.1 (lpCheckedLine w 1 tag.toNat a (128 * line.toNat) r).1.2) := by
  obtain ⟨hawake, hleaf, hpaths⟩ := hr
  obtain ⟨hup, hcnt⟩ := carry_good s ⟨who, tag.toNat⟩ ⟨a, none, none⟩ 1 hpaths (leafLoc_die_lt hleaf)
  have hw := lpTraffic_of_counters hcnt
  generalize hwdef : (carry s ⟨who, tag.toNat⟩ ⟨a, none, none⟩ 1).2 = w at hw
  have hflush : lpFlush w ((regionChan w a (128 * line.toNat)).1 / 4) ((regionBase a + 128 * line.toNat) / 128) = w :=
    lpFlush_none _ _ _ (by rw [hw.2, hw.regionChan_eq]; exact hgb)
  refine ⟨w, hw, ?_⟩
  simp only [execLpLineRead, rouse_awake hawake, hf, Nat.not_le.2 htop, hup, hwdef, lpReadLine, hflush, if_false, Bool.not_true,
    Bool.false_eq_true]

theorem delivered_lpDeliver (s : State) (p line : Nat) (data : List Byte) (st : ASt) :
    (lpOf (lpDeliver s p line data st) p).delivered = some ⟨line, data, st⟩ := by
  rw [lpDeliver, lpOf_setLp, if_pos rfl]

theorem keepsSticky_lpDeliver (s : State) (p line : Nat) (data : List Byte) (st : ASt) :
    keepsSticky s (lpDeliver s p line data st) := keepsSticky_of_regs fun _ => rfl

theorem keepsSticky_reqAddrErr_read (s : State) (who : Leaf) : keepsSticky s (reqAddrErr s who false) := by
  cases who with
  | part t p => exact keepsSticky_of_onlyFaults (raiseTag_spec ..).1
  | host => exact keepsSticky_of_onlyFaults (raiseTag_spec s (modPage 1) 1 0).1
  | slice t n => exact fun _ _ _ h => h
  | tongs t => exact fun _ _ _ h => h
  | port c => exact fun _ _ _ h => h
  | vexondane => exact fun _ _ _ h => h

/-- A line of a fenced region reads as poisoned zeros. -/
theorem execLpLineRead_fenced {s : State} {a : Fin 4} (line : BitVec 31) (who : Leaf) (tag : BitVec 32) (r : LpRead)
    (hawake : awake s) (hf : regionFenced s a = true) :
    execLpLineRead a line who tag r s = .next (lpDeliver s (4 * a) line.toNat zeroLine .poison) := by
  simp [execLpLineRead, rouse_awake hawake, hf]

/-- A line above the addressable part reads as zeros with error status. -/
theorem execLpLineRead_tail {s : State} {a : Fin 4} {line : BitVec 31} (who : Leaf) (tag : BitVec 32) (r : LpRead)
    (hawake : awake s) (hf : regionFenced s a = false) (htop : regionTop s a ≤ 128 * line.toNat) :
    execLpLineRead a line who tag r s =
      .next (lpDeliver (reqAddrErr (lpTail s a tag.toNat) who false) (4 * a) line.toNat zeroLine .error) := by
  simp [execLpLineRead, rouse_awake hawake, hf, htop]

/-! Writes of a first run (R288, R313). -/

/-- A line of a work group is noted, and a first run withholds nothing. -/
theorem noteLine_firstRun (s : State) (q : Req) (differs : Bool) (h : firstRun q.tag) :
    ∃ d, noteLine s q differs = (false, s.setSched d) := by
  unfold noteLine
  split
  · exact ⟨s.sched, rfl⟩
  · rw [if_neg (by rw [h]; decide)]
    split
    · exact ⟨_, rfl⟩
    · exact ⟨s.sched, rfl⟩

/-- The result of a first run lands where it goes. -/
theorem putResult_firstRun (s : State) (q : Req) (da : Nat) (data : List Byte) (f : State → State) (h : firstRun q.tag) :
    ∃ d, putResult s q da data f = (.ok, f (s.setSched d)) := by
  obtain ⟨d, hd⟩ := noteLine_firstRun s q (inPlace s da data.length != data) h
  have hpeer : peerPiece s q = none := by
    unfold peerPiece
    split
    · rw [if_neg (by rw [h]; decide)]
    · rfl
  exact ⟨d, by simp [putResult, hpeer, hd]⟩

/-- A write to a line of LPDDR5X that the fabric carries: the controller takes its bytes. -/
theorem chunkWrite_lpddr (s : State) (q : Req) {da a o : Nat} (data : List Byte) (hk : daKind da = .lpddr a o)
    (htag : firstRun q.tag)
    (hp : pathsGood s) (hdie : (leafLoc q.who).die < 4) (hf : regionFenced s a = false) (htop : o < regionTop s a)
    (hheld : s.store.held = []) (hs : da / 128 ∉ s.host.snoop) (hw : ¬ ∃ w ∈ s.host.bisnps, w.line = da / 128) :
    ∃ w d, lpTraffic s w ∧ chunkWrite s q da data = (.ok, lpPut (w.setSched d) q.tag a o data) := by
  obtain ⟨hup, hcnt⟩ := carry_good s q (daLoc da) 1 hp hdie
  have hv := lpTraffic_of_counters hcnt
  generalize hvdef : (carry s q (daLoc da) 1).2 = v at hv
  obtain ⟨d, hput⟩ := putResult_firstRun v q da data (fun s => lpDeviceWrite s q.tag a o data) htag
  have hsnoop : snoopOut (v.setSched d) (da / 128) = v.setSched d :=
    snoopOut_unheld (by rw [setSched_host, hv.host_eq]; exact hs) (by rw [setSched_host, hv.host_eq]; exact hw)
  refine ⟨v, d, hv, ?_⟩
  rw [lpDeviceWrite, ← (daKind_eq_lpddr hk).1, hsnoop] at hput
  simp [chunkWrite, inRanges, hheld, chunkPut, hk, hf, Nat.not_le.2 htop, hup, hvdef, hput]

/-- A whole line written: its bytes with a right check word. -/
theorem execLpWholeWrite_reaches {s : State} {a : Fin 4} {line : BitVec 31} {data : List Byte} {who : Leaf} {tag : BitVec 32}
    (hr : reaches s who) (htag : firstRun tag.toNat) (hq : 128 * line.toNat < 0x4000000000) (hf : regionFenced s a = false)
    (htop : 128 * line.toNat < regionTop s a) (hheld : s.store.held = [])
    (hs : (regionBase a + 128 * line.toNat) / 128 ∉ s.host.snoop)
    (hw : ∀ w ∈ s.host.bisnps, w.line ≠ (regionBase a + 128 * line.toNat) / 128) (hlen : data.length = 128) :
    ∃ u, execLpWholeWrite a line data who tag s = .next u ∧
      u.mem = (s.mem.writeBytes (regionBase a + 128 * line.toNat) data).markGood (regionBase a + 128 * line.toNat) 128 := by
  obtain ⟨hawake, hleaf, hpaths⟩ := hr
  obtain ⟨w, d, hv, hwrite⟩ := chunkWrite_lpddr s ⟨who, tag.toNat⟩ data (daKind_regionBase a.isLt hq) htag hpaths
    (leafLoc_die_lt hleaf) hf htop hheld hs (by simpa using hw)
  refine ⟨lpPut (w.setSched d) tag.toNat a (128 * line.toNat) data, ?_, ?_⟩
  · have hfit : fitBytes 128 data = data := by simp [fitBytes, ← hlen]
    simp [execLpWholeWrite, rouse_awake hawake, hfit, hwrite, reqWrite]
  · have hline : 128 * line.toNat / 128 * 128 = 128 * line.toNat := by omega
    rw [lpPut, if_pos hlen, mem_lpWriteLine, hline, setSched_mem, hv.mem_eq]

/-- A narrow write to a line of which nothing is gathered enters the buffer. -/
theorem execLpNarrowWrite_reaches {s : State} {a : Fin 4} {line : BitVec 31} {off : Fin 128} {data : List Byte} {who : Leaf}
    {tag : BitVec 32} {q da p : Nat} (hqdef : q = 128 * line.toNat) (hda : da = regionBase a + q)
    (hpdef : p = (regionChan s a q).1 / 4)
    (hr : reaches s who) (htag : firstRun tag.toNat) (hf : regionFenced s a = false)
    (htop : q < regionTop s a) (hgb : ∀ e ∈ (lpOf s p).gb, e.line ≠ da / 128) (hheld : s.store.held = [])
    (hs : da / 128 ∉ s.host.snoop) (hw : ∀ w ∈ s.host.bisnps, w.line ≠ da / 128) (hne : data ≠ [])
    (hin : off.val + data.length ≤ 128) (hlen : data.length < 128) (hroom : (lpOf s p).gb.length < 64) :
    ∃ u, execLpNarrowWrite a line off data who tag s = .next u ∧ u.mem = s.mem ∧
      (lpOf u p).gb = (lpOf s p).gb ++ [freshEntry s tag.toNat (da + off) data] := by
  obtain ⟨hawake, hleaf, hpaths⟩ := hr
  have hoff := off.isLt
  have hsum : da + off = regionBase a + (q + off) := by omega
  have hline : (da + off) / 128 = da / 128 := by
    have := regionBase_eq a
    omega
  have htop' : q + off < regionTop s a := by
    unfold regionTop chBytes at htop ⊢
    omega
  have hchan : (regionChan s a (q + off)).1 / 4 = p := by
    have : (q + off) / 4096 = q / 4096 := by omega
    rw [hpdef, regionChan, regionChan, this]
  obtain ⟨w, d, hv, hwrite⟩ := chunkWrite_lpddr s ⟨who, tag.toNat⟩ data (da := da + off) (o := q + off)
    (by rw [hsum]; exact daKind_regionBase a.isLt (by omega)) htag hpaths (leafLoc_die_lt hleaf) hf htop' hheld
    (by rw [hline]; exact hs) (by rw [hline]; simpa using hw)
  have hchan' : (regionChan (w.setSched d) a (q + off)).1 / 4 = p :=
    (congrArg (·.1 / 4) (hv.regionChan_eq a (q + off))).trans hchan
  have hgb' : (lpOf (w.setSched d) p).gb = (lpOf s p).gb := hv.2 p
  have hfresh := lpWriteNarrow_fresh (w.setSched d) tag.toNat a (q + off) data
    (by rw [hchan', hgb', ← hsum, hline]; exact hgb) (by rw [hchan', hgb']; exact hroom) hlen
  have hentry : freshEntry (w.setSched d) tag.toNat (da + off) data = freshEntry s tag.toNat (da + off) data := by
    simp only [freshEntry, setSched_clock, hv.clock_eq]
  rw [hchan', hgb', ← hsum, hentry] at hfresh
  have hput : lpPut (w.setSched d) tag.toNat a (q + off) data = lpWriteNarrow (w.setSched d) tag.toNat a (q + off) data :=
    if_neg hlen.ne
  have hdata : narrowData off data = data := List.take_of_length_le (by omega)
  refine ⟨lpPut (w.setSched d) tag.toNat a (q + off) data, ?_, ?_, ?_⟩
  · rw [execLpNarrowWrite, if_neg (by simpa using hne), rouse_awake hawake, hdata, ← hqdef, ← hda, hwrite]
    rfl
  · rw [hput, hfresh, mem_setLp, setSched_mem, hv.mem_eq]
  · rw [hput, hfresh, lpOf_setLp, if_pos rfl]

/-! Words of a shared buffer (R297, R298). -/

theorem pageBlock_sbPage (a : Fin 4) : pageBlock (sbPage a) = some .sharedBuffer := by
  fin_cases a <;> rfl

/-- A parity bit is that of its word. -/
theorem Memory.parityBad_word (m : Memory) {da i : Nat} (hda : da % 4 = 0) (hi : i < 4) :
    m.parityBad (da + i) 1 = m.parityBad da 4 := by
  have h₁ : (da + i) / 4 = da / 4 := by omega
  have h₂ : divUp (da + i + 1) 4 = divUp (da + 4) 4 := by unfold divUp; omega
  rw [Memory.parityBad, Memory.parityBad, h₁, h₂]

/-- A range set meets one place where that place is in it. -/
theorem rmeets_succ (r : RangeSet) (a : Nat) : rmeets r a (a + 1) = rmem r a := by
  induction r with
  | nil => rfl
  | cons p r ih =>
    have hhead : max p.1 a < min p.2 (a + 1) ↔ p.1 ≤ a ∧ a < p.2 := by omega
    rw [rmeets, rinter, List.filterMap_cons]
    by_cases h : p.1 ≤ a ∧ a < p.2
    · rw [if_pos (hhead.2 h)]
      simp [rmem, h]
    · rw [if_neg (mt hhead.1 h)]
      exact ih.trans (by simp only [rmem, List.any_cons, ← Bool.decide_and, h, decide_false, Bool.false_or])

theorem Memory.parityBad_setParity (m : Memory) {da : Nat} (hda : da % 4 = 0) : (m.setParity da 4 true).parityBad da 4 = true := by
  have h : divUp (da + 4) 4 = da / 4 + 1 := by unfold divUp; omega
  simp [Memory.parityBad, Memory.setParity, h, rmeets_succ]

section
variable (s : State) (op tag a o : Nat)

/-- A good word is read as it is stored. -/
theorem sbRead_good (n : Nat) (h : s.mem.parityBad (sbBase a + o) n = false) :
    sbRead s op tag a o n = ((readBytes (count s (sbPage a) 0x800 1) (sbBase a + o) n, .ok), count s (sbPage a) 0x800 1) := by
  simp [sbRead, h]

/-- A bad word is read as zeros with poison, and raised. -/
theorem sbRead_bad (ho : o % 4 = 0) (h : s.mem.parityBad (sbBase a + o) 4 = true) :
    (sbRead s op tag a o 4).1 = (List.replicate 4 0#8, .poison) := by
  have hda : (sbBase a + o) % 4 = 0 := by unfold sbBase; omega
  have hword (i : Nat) (hi : i < 4) : s.mem.parityBad (sbBase a + o + i) 1 = true := by
    rw [Memory.parityBad_word _ hda hi, h]
  have hfirst : s.mem.parityBad (sbBase a + o) 1 = true := hword 0 (by decide)
  simp [sbRead, h, List.range, List.range.loop, hword, hfirst]

end

theorem sticky_sbRead_bad (s : State) (op tag : Nat) (a : Fin 4) (o n : Nat) (h : s.mem.parityBad (sbBase a + o) n = true) :
    sticky (sbRead s op tag a o n).2 (sbPage a) 1 = true := by
  have hset (u ws) : sticky (raiseOp u (sbPage a) 1 ws) (sbPage a) 1 = true :=
    (raiseOp_spec ..).2 .sharedBuffer (pageBlock_sbPage a) (by decide) (by decide)
  simp [sbRead, h, sbBad, hset]

theorem Memory.readByte_setParity (m : Memory) (a n : Nat) (bad : Bool) (c : Nat) :
    (m.setParity a n bad).readByte c = m.readByte c := rfl

/-- A write of bytes changes those, and the parity of their words. -/
theorem readByte_sbWrite (s : State) (tag a o : Nat) (data : List Byte) (c : Nat) :
    (sbWrite s tag a o data).mem.readByte c = (s.mem.writeBytes (sbBase a + o) data).readByte c := by
  have hpar (b : Prop) [Decidable b] (m : Memory) (x n : Nat) :
      (if b then m.setParity x n false else m).readByte c = m.readByte c := by split <;> rfl
  simp [sbWrite, hpar]

/-- A shared buffer delivers. -/
def sbDeliver (s : State) (a : Nat) (x : Delivery) : State := s.setStore { s.store with sbOut := kinsert s.store.sbOut a x }

theorem mem_sbDeliver (s : State) (a : Nat) (x : Delivery) : (sbDeliver s a x).mem = s.mem := setStore_mem ..

theorem sbOut_sbDeliver (s : State) (a : Nat) (x : Delivery) : kfind (sbDeliver s a x).store.sbOut a = some x := by
  rw [sbDeliver, setStore_store, kfind_kinsert, if_pos rfl]

theorem keepsSticky_sbDeliver (s : State) (a : Nat) (x : Delivery) : keepsSticky s (sbDeliver s a x) :=
  keepsSticky_of_regs fun _ => rfl

section
variable {s : State} {a : Fin 4} {off : BitVec 26} {who : Leaf} {bad : Fin 3} {o : Nat} (tag : BitVec 32)
  (ho : o = off.toNat / 4 * 4)
include ho

/-- A good word is delivered; bad parity of its first read alone is raised. -/
theorem execSbRead_good (hr : reaches s who) (hup : baseUp s a = true) (hbad : bad.val < 2)
    (hpar : s.mem.parityBad (sbBase a + o) 4 = false) :
    ∃ u, execSbRead a off who tag bad s = .next u ∧ u.mem = s.mem ∧
      kfind u.store.sbOut a.val = some ⟨o, s.mem.readBytes (sbBase a + o) 4, .ok⟩ ∧
      (bad.val = 1 → sticky u (sbPage a) 0 = true) := by
  obtain ⟨hawake, hleaf, hpaths⟩ := hr
  obtain ⟨hcarry, k, hw⟩ := carry_good s ⟨who, tag.toNat⟩ ⟨a, none, none⟩ 1 hpaths (leafLoc_die_lt hleaf)
  generalize s.setRegs { s.regs with counters := k } = w at hw
  have hmem : w.mem = s.mem := by rw [← hw, mem_carry]
  set v := count w (sbPage a) 0x800 1 with hv
  have hread := sbRead_good w 1 tag.toNat a o 4 (by rw [hmem]; exact hpar)
  have hvmem : v.mem = s.mem := by rw [hv, mem_count, hmem]
  rw [← hv, readBytes, hvmem] at hread
  set x := if bad.val = 1 then raiseOp (count v (sbPage a) 0x820 1) (sbPage a) 0 [1, o, tag.toNat] else v with hx
  refine ⟨sbDeliver x a ⟨o, s.mem.readBytes (sbBase a + o) 4, .ok⟩, ?_, ?_, sbOut_sbDeliver .., fun h => ?_⟩
  · simp [execSbRead, sbDeliver, rouse_awake hawake, hup, hcarry, hw, ← ho, hbad.ne, hread, hx]
  · rw [mem_sbDeliver, hx]
    split <;> simp [hvmem]
  · rw [hx, if_pos h]
    exact keepsSticky_sbDeliver _ _ _ _ _ (by decide)
      ((raiseOp_spec ..).2 .sharedBuffer (pageBlock_sbPage a) (by decide) (by decide))

/-- A bad word, or one that is found bad twice and is bad from then on, is delivered as zeros with poison, and raised. -/
theorem execSbRead_bad (hr : reaches s who) (hup : baseUp s a = true)
    (hpar : s.mem.parityBad (sbBase a + o) 4 = true ∨ bad.val = 2) :
    ∃ u, execSbRead a off who tag bad s = .next u ∧
      u.mem = (if bad.val = 2 then s.mem.setParity (sbBase a + o) 4 true else s.mem) ∧ sticky u (sbPage a) 1 = true ∧
      kfind u.store.sbOut a.val = some ⟨o, List.replicate 4 0, .poison⟩ := by
  obtain ⟨hawake, hleaf, hpaths⟩ := hr
  obtain ⟨hcarry, k, hw⟩ := carry_good s ⟨who, tag.toNat⟩ ⟨a, none, none⟩ 1 hpaths (leafLoc_die_lt hleaf)
  generalize s.setRegs { s.regs with counters := k } = w at hw
  have hmem : w.mem = s.mem := by rw [← hw, mem_carry]
  have hda : (sbBase a + o) % 4 = 0 := by rw [ho]; unfold sbBase; omega
  set v := if bad.val = 2 then w.setMem (w.mem.setParity (sbBase a + o) 4 true) else w with hv
  have hvmem : v.mem = if bad.val = 2 then s.mem.setParity (sbBase a + o) 4 true else s.mem := by
    rw [hv]
    split <;> simp [hmem]
  have hvpar : v.mem.parityBad (sbBase a + o) 4 = true := by
    rw [hvmem]
    split
    · exact Memory.parityBad_setParity _ hda
    next h => exact hpar.resolve_right h
  have hread := sbRead_bad v 1 tag.toNat a o (by omega) hvpar
  refine ⟨sbDeliver (sbRead v 1 tag.toNat a o 4).2 a ⟨o, List.replicate 4 0, .poison⟩, ?_, ?_, ?_, sbOut_sbDeliver ..⟩
  · simp [execSbRead, sbDeliver, rouse_awake hawake, hup, hcarry, hw, ← ho, ← hv, hread]
  · rw [mem_sbDeliver, mem_sbRead, hvmem]
  · exact keepsSticky_sbDeliver _ _ _ _ _ (by decide) (sticky_sbRead_bad _ _ _ _ _ _ hvpar)

/-- A base die that does not serve answers zeros with poison. -/
theorem execSbRead_down (hawake : awake s) (hup : baseUp s a = false) :
    ∃ u, execSbRead a off who tag bad s = .next u ∧ u.mem = s.mem ∧
      kfind u.store.sbOut a.val = some ⟨o, List.replicate 4 0, .poison⟩ := by
  refine ⟨sbDeliver s a ⟨o, List.replicate 4 0, .poison⟩, ?_, mem_sbDeliver .., sbOut_sbDeliver ..⟩
  simp [execSbRead, sbDeliver, rouse_awake hawake, hup, ← ho]

end

theorem daKind_sbBase {a o : Nat} (ha : a < 4) (ho : o < 0x4000000) : daKind (sbBase a + o) = .shared a o := by
  have hdiv : (sbBase a + o - 0x20000000000) / 0x4000000 = a := by unfold sbBase; omega
  have hmod : (sbBase a + o - 0x20000000000) % 0x4000000 = o := by unfold sbBase; omega
  have h₁ : ¬ sbBase a + o < 0x9000000000 := by unfold sbBase; omega
  have h₂ : ¬ (0x10000000000 ≤ sbBase a + o ∧ sbBase a + o < 0x20000000000) := by unfold sbBase; omega
  have h₃ : 0x20000000000 ≤ sbBase a + o ∧ sbBase a + o < 0x20010000000 := by unfold sbBase; omega
  rw [daKind, if_neg h₁, if_neg (by rwa [Bool.and_eq_true, decide_eq_true_eq, decide_eq_true_eq]),
    if_pos (by rwa [Bool.and_eq_true, decide_eq_true_eq, decide_eq_true_eq]), hdiv, hmod]

/-- Ranges of memories that read the same. -/
theorem Memory.readBytes_congr {m m' : Memory} (h : ∀ c, m.readByte c = m'.readByte c) (a n : Nat) :
    m.readBytes a n = m'.readBytes a n := by
  induction n generalizing a with
  | zero => rfl
  | succ n ih => rw [Memory.readBytes, Memory.readBytes, h, ih]

/-- A write to a shared buffer of a base die that serves, which the fabric carries: the buffer takes its bytes. -/
theorem chunkWrite_shared (s : State) (q : Req) {da a o : Nat} (data : List Byte) (hk : daKind da = .shared a o)
    (htag : firstRun q.tag)
    (hp : pathsGood s) (hdie : (leafLoc q.who).die < 4) (hup : baseUp s a = true) (hheld : s.store.held = []) :
    ∃ (w : State) (d : Sched), w.mem = s.mem ∧ chunkWrite s q da data = (.ok, sbWrite (w.setSched d) q.tag a o data) := by
  obtain ⟨hcarry, -⟩ := carry_good s q (daLoc da) 1 hp hdie
  have hmem := mem_carry s q (daLoc da) 1
  generalize hw : (carry s q (daLoc da) 1).2 = w at hmem
  obtain ⟨d, hput⟩ := putResult_firstRun w q da data (fun s => sbWrite s q.tag a o data) htag
  exact ⟨w, d, hmem, by simp [chunkWrite, inRanges, hheld, chunkPut, hk, hup, hcarry, hw, hput]⟩

/-- A write that arrives good at first or at its replay stores its bytes and nothing else. -/
theorem execSbWrite_good {s : State} {a : Fin 4} {off : BitVec 26} {data : List Byte} {who : Leaf} {tag : BitVec 32} {bad : Fin 3}
    (hr : reaches s who) (hup : baseUp s a = true) (htag : firstRun tag.toNat) (hne : data ≠ [])
    (hin : off.toNat % 128 + data.length ≤ 128) (hbad : bad.val < 2) (hheld : s.store.held = []) :
    ∃ u, execSbWrite a off data who tag bad s = .next u ∧ u.mem.readBytes (sbBase a + off.toNat) data.length = data ∧
      memSameOutside s u (sbBase a + off.toNat) (sbBase a + off.toNat + data.length) := by
  obtain ⟨hawake, hleaf, hpaths⟩ := hr
  have ho := off.isLt
  obtain ⟨w, d, hmem, hwrite⟩ := chunkWrite_shared s ⟨who, tag.toNat⟩ data (daKind_sbBase a.isLt (by omega)) htag hpaths
    (leafLoc_die_lt hleaf) hup hheld
  have hdata : narrowData (off.toNat % 128) data = data := List.take_of_length_le (by omega)
  have hbyte (c : Nat) : (sbWrite (w.setSched d) tag.toNat a off.toNat data).mem.readByte c =
      (s.mem.writeBytes (sbBase a + off.toNat) data).readByte c := by
    rw [readByte_sbWrite, setSched_mem, hmem]
  refine ⟨sbWrite (w.setSched d) tag.toNat a off.toNat data, ?_, ?_, fun c hc => ?_⟩
  · simp [execSbWrite, rouse_awake hawake, hne, hbad.ne, hdata, hwrite, reqWrite]
  · rw [Memory.readBytes_congr hbyte, Memory.readBytes_writeBytes]
  · rw [hbyte, Memory.readByte_writeBytes_outside _ _ _ _ (by omega)]

/-- A write whose two arrivals are bad is not written, and raised. -/
theorem execSbWrite_lost {s : State} (a : Fin 4) (off : BitVec 26) {data : List Byte} (who : Leaf) (tag : BitVec 32)
    (hawake : awake s) (hne : data ≠ []) :
    ∃ u, execSbWrite a off data who tag 2 s = .next u ∧ u.mem = s.mem ∧ sticky u (sbPage a) 2 = true := by
  refine ⟨raiseOp s (sbPage a) 2 [2, off.toNat, tag.toNat], ?_, mem_raiseOp ..,
    (raiseOp_spec ..).2 .sharedBuffer (pageBlock_sbPage a) (by decide) (by decide)⟩
  simp [execSbWrite, rouse_awake hawake, hne]

/-! The statement. -/

theorem Memory.lineGood_markGood (m : Memory) (a : Nat) : (m.markGood a 128).lineGood a = true := by
  have h : a / 128 < divUp (a + 128) 128 := by unfold divUp; omega
  simp [Memory.lineGood, Memory.markGood, h]

/-- What a read of a line of which nothing is gathered delivers and raises, by what its two reads find (R289, R307). -/
theorem execLpLineRead_delivers {s : State} {a : Fin 4} {line : BitVec 31} {who : Leaf} (tag : BitVec 32) (r : LpRead)
    (hr : reaches s who) (hf : regionFenced s a = false) (htop : 128 * line.toNat < regionTop s a)
    (hgb : ∀ e ∈ (lpOf s ((regionChan s a (128 * line.toNat)).1 / 4)).gb, e.line ≠ (regionBase a + 128 * line.toNat) / 128) :
    let q := 128 * line.toNat
    let da := regionBase a + q
    let p := (regionChan s a q).1 / 4
    let first := s.mem.readLine da (r.flips.map Fin.val)
    let second := s.mem.readLine da (r.again.map Fin.val)
    ∃ u, execLpLineRead a line who tag r s = .next u ∧
      u.mem = (if r.par then s.mem.markPoison da 128 else s.mem) ∧
      (r.par = true → sticky u (lpPage p) 3 = true) ∧
      (r.par = false → first.2 = true → (lpOf u p).delivered = some ⟨line.toNat, first.1, .ok⟩) ∧
      (r.par = false → first.2 = false → second.2 = true →
        (lpOf u p).delivered = some ⟨line.toNat, second.1, .ok⟩ ∧ sticky u (lpPage p) 0 = true) ∧
      (r.par = false → first.2 = false → second.2 = false →
        (lpOf u p).delivered = some ⟨line.toNat, zeroLine, .poison⟩ ∧ sticky u (lpPage p) 1 = true) := by
  intro q da p first second
  obtain ⟨w, hw, hexec⟩ := execLpLineRead_reaches tag r hr hf htop hgb
  have hda : regionBase a + q / 128 * 128 = da := by omega
  have hp : (regionChan w a q).1 / 4 = p := by rw [hw.regionChan_eq]
  have hkeep := keepsSticky_lpDeliver (lpCheckedLine w 1 tag.toNat a q r).2 p line.toNat (lpCheckedLine w 1 tag.toNat a q r).1.1
    (lpCheckedLine w 1 tag.toNat a q r).1.2
  have hdel := delivered_lpDeliver (lpCheckedLine w 1 tag.toNat a q r).2 p line.toNat (lpCheckedLine w 1 tag.toNat a q r).1.1
    (lpCheckedLine w 1 tag.toNat a q r).1.2
  refine ⟨_, hexec, ?_, fun hpar => ?_, fun hpar h₁ => ?_, fun hpar h₁ h₂ => ?_, fun hpar h₁ h₂ => ?_⟩
  · rw [mem_lpDeliver, mem_lpCheckedLine, hda, hw.mem_eq]
  · have hset := lpCheckedLine_par w 1 tag.toNat a q r a.isLt hpar
    rw [hp] at hset
    exact hkeep _ _ (by decide) hset
  · have hres := lpCheckedLine_first w 1 tag.toNat a q r hpar (by rw [hda, hw.mem_eq]; exact h₁)
    rw [hda, hw.mem_eq] at hres
    rw [hdel, hres]
  · obtain ⟨hres, hset⟩ := lpCheckedLine_again w 1 tag.toNat a q r a.isLt hpar (by rw [hda, hw.mem_eq]; exact h₁)
      (by rw [hda, hw.mem_eq]; exact h₂)
    rw [hda, hw.mem_eq] at hres
    rw [hp] at hset
    exact ⟨by rw [hdel, hres], hkeep _ _ (by decide) hset⟩
  · obtain ⟨hres, hset⟩ := lpCheckedLine_lost w 1 tag.toNat a q r a.isLt hpar (by rw [hda, hw.mem_eq]; exact h₁)
      (by rw [hda, hw.mem_eq]; exact h₂)
    rw [hp] at hset
    exact ⟨by rw [hdel, hres], hkeep _ _ (by decide) hset⟩

/-- Settles O20: a line that the fabric reaches is written, gathered or delivered by its check; a word of a shared buffer is delivered or
written by its parity. -/
theorem lpddrLinesAndSharedBuffer : Obligations.Lpddr_lines_and_shared_buffer := by
  refine ⟨fun a line data who tag r s => ?_, fun a off data who tag bad s => ?_⟩
  · dsimp only
    refine ⟨?_, fun hawake hf => ?_, fun hawake hf htop => ?_⟩
    · rintro ⟨hr, htag, hq, hf, htop, hgb, hheld, hs, hw⟩
      obtain ⟨u, hu, hmem, hpar, hfirst, hagain, hlost⟩ := execLpLineRead_delivers tag r hr hf htop hgb
      refine ⟨fun hlen => ?_, fun off hne hin hlen hroom => ?_, fun h => ⟨u, hu, ?_, hpar h⟩, fun h h₁ => ⟨u, hu, ?_, hfirst h h₁⟩,
        fun h h₁ h₂ => ⟨u, hu, ⟨?_, (hagain h h₁ h₂).1⟩, (hagain h h₁ h₂).2⟩,
        fun h h₁ h₂ => ⟨u, hu, ⟨?_, (hlost h h₁ h₂).1⟩, (hlost h h₁ h₂).2⟩⟩
      · obtain ⟨v, hv, hvmem⟩ := execLpWholeWrite_reaches hr htag hq hf htop hheld hs hw hlen
        refine ⟨v, hv, ?_, ?_, fun c hc => ?_⟩
        · rw [hvmem, Memory.readBytes_markGood, ← hlen, Memory.readBytes_writeBytes]
        · rw [hvmem, Memory.lineGood_markGood]
        · rw [hvmem, Memory.readByte_markGood, Memory.readByte_writeBytes_outside _ _ _ _ (by omega)]
      · obtain ⟨v, hv, hvmem, hgather⟩ :=
          execLpNarrowWrite_reaches rfl rfl rfl hr htag hf htop hgb hheld hs hw hne hin hlen hroom
        have hx : (regionBase a + 128 * line.toNat + off.val) / 128 = (regionBase a + 128 * line.toNat) / 128 ∧
            (regionBase a + 128 * line.toNat + off.val) % 128 = off.val := by
          have := off.isLt
          have := regionBase_eq a
          omega
        refine ⟨v, hv, hvmem, _, hgather, hx.1, rfl, fun k hk => ?_⟩
        rw [← kfind_freshEntry s tag.toNat (regionBase a + 128 * line.toNat + off.val) data hk, hx.2]
      all_goals rw [hmem, h]; rfl
    · exact ⟨_, execLpLineRead_fenced line who tag r hawake hf, mem_lpDeliver .., delivered_lpDeliver ..⟩
    · refine ⟨_, execLpLineRead_tail who tag r hawake hf htop, ⟨?_, delivered_lpDeliver ..⟩, ?_⟩
      · rw [mem_lpDeliver, mem_reqAddrErr, mem_lpTail]
      · exact keepsSticky_lpDeliver _ _ _ _ _ _ _ (by decide) (keepsSticky_reqAddrErr_read _ _ _ _ (by decide)
          ((raiseTag_spec s (lpPage (4 * a)) 9 tag.toNat).2 .lpddr (pageBlock_lpPage (by omega)) (by decide) (by decide)))
  · dsimp only
    refine ⟨fun hr hup => ⟨fun hpar hbad => execSbRead_good tag rfl hr hup hbad hpar, fun h => execSbRead_bad tag rfl hr hup h,
      fun htag hne hin hbad hheld => execSbWrite_good hr hup htag hne hin hbad hheld⟩,
      fun hawake hup => execSbRead_down tag rfl hawake hup, fun hawake hne => execSbWrite_lost a off who tag hawake hne⟩

end Sys2Proof.Machine
end

section
/-!
SUPPORT. The vector registers after each shared operation of the cores, what a vector instruction does that issues (R95, R107), and the
order of candidates (R113).
-/

namespace Sys2Proof.Machine

open Sys2Proof

/-! Lists of 64 lanes. -/

theorem map_eq_map_range {α β : Type} {n : Nat} (d : α) {l : List α} (h : l.length = n) (f : α → β) :
    l.map f = (List.range n).map fun i => f (l.getD i d) := by
  subst h
  exact List.ext_getElem (by simp) fun i hi _ => by simp [List.length_map (f := f) ▸ hi]

theorem zip_eq_map_range {α β : Type} {n : Nat} (d : α) (e : β) {l : List α} {m : List β} (h : l.length = n)
    (h' : m.length = n) : l.zip m = (List.range n).map fun i => (l.getD i d, m.getD i e) := by
  rw [← List.zip_map', ← map_eq_map_range d h fun x => x, ← map_eq_map_range e h' fun x => x, List.map_id', List.map_id']

/-- Pairs laid out one after another, read by place. -/
theorem flatMap_pair_eq_map_range {α : Type} (f g : Nat → α) (n : Nat) :
    ((List.range n).flatMap fun i => [f i, g i]) =
      (List.range (2 * n)).map fun i => if i % 2 = 0 then f (i / 2) else g (i / 2) := by
  induction n with
  | zero => rfl
  | succ n ih =>
    have hodd : (2 * n + 1) / 2 = n := by omega
    rw [List.range_succ, List.flatMap_append, ih, show 2 * (n + 1) = 2 * n + 1 + 1 from rfl, List.range_succ, List.range_succ]
    simp [hodd]

/-! Reads of a vector register. -/

@[simp] theorem length_getY (s : State) (t p r : Nat) : (getY s t p r).length = 64 := by simp [getY]

/-- A vector register depends on its core's lanes and epoch only. -/
theorem getY_congr {s u : State} {t p : Nat} (hy : (coreOf u (coreId t p)).y = (coreOf s (coreId t p)).y)
    (he : (coreOf u (coreId t p)).epoch = (coreOf s (coreId t p)).epoch) (r : Nat) : getY u t p r = getY s t p r := by
  simp only [getY, hy, he]

/-- A scalar register depends on its core's registers and epoch, and on the TCC's second bank. -/
theorem getG_congr {s u : State} {t p : Nat} (hg : (coreOf u (coreId t p)).g = (coreOf s (coreId t p)).g)
    (he : (coreOf u (coreId t p)).epoch = (coreOf s (coreId t p)).epoch) (ht : (tccOf u t).inTrap = (tccOf s t).inTrap)
    (hb : (tccOf u t).bank2 = (tccOf s t).bank2) (j : Nat) : getG u t p j = getG s t p j := by
  have hbank : bankTwo u t p j = bankTwo s t p j := by simp [bankTwo, ht]
  simp only [getG, hbank, hg, he, hb]

@[simp] theorem getY_noteIssue (s : State) (t p op md r : Nat) : getY (noteIssue s t p op md) t p r = getY s t p r :=
  getY_congr (by simp [coreOf_noteIssue]) (by simp [coreOf_noteIssue]) r

/-- Lanes written one by one: those of the written register hold the list, every other one what it held. -/
theorem kget_foldl_putReg (e b j : Nat) (d dflt : Word32) (h : e = 0 → dflt = d) (l : List Word32) (m : KMap Word32) (n : Nat) :
    kget dflt ((List.range n).foldl (fun y i => putReg e d y (b + i) (l.getD i d)) m) j =
      if b ≤ j ∧ j < b + n then l.getD (j - b) d else kget dflt m j := by
  induction n with
  | zero => rw [if_neg (by omega)]; rfl
  | succ n ih =>
    rw [List.range_succ, List.foldl_append, List.foldl_cons, List.foldl_nil, kget_putReg _ _ _ _ _ _ _ h, ih]
    by_cases hj : j = b + n
    · rw [if_pos hj, if_pos (by omega), hj, Nat.add_sub_cancel_left]
    · rw [if_neg hj]
      exact if_congr (by omega) rfl rfl

/-- A vector register after Y[r] is written with 64 lanes. -/
theorem getY_setY (s : State) (t p r r' : Nat) {l : List Word32} (hl : l.length = 64) :
    getY (setY s t p r l) t p r' = if r' = r then l else getY s t p r' := by
  have lane (i : Nat) (hi : i < 64) : r * 64 ≤ r' * 64 + i ∧ r' * 64 + i < r * 64 + 64 ↔ r' = r := by omega
  have hread : getY (setY s t p r l) t p r' =
      (List.range 64).map fun i => if r' = r then l.getD i 0#32 else (getY s t p r').getD i 0#32 := by
    unfold getY setY
    refine List.map_congr_left fun i hi => ?_
    have hi : i < 64 := List.mem_range.1 hi
    simp only [coreOf_setCore, if_true]
    rw [kget_foldl_putReg _ _ _ _ _ fun h => if_pos h]
    simp only [lane i hi]
    split
    case isTrue h => rw [h, Nat.add_sub_cancel_left]
    case isFalse => simp [hi]
  rw [hread]
  split
  · exact (map_eq_map_range 0#32 hl id).symm.trans l.map_id
  · exact (map_eq_map_range 0#32 (length_getY ..) id).symm.trans (List.map_id _)

/-! The relation `onlyVecs`. -/

/-- What the work of a vector instruction leaves unchanged that writes at most the vector registers `ds`: all else but counters. -/
def onlyVecs (s u : State) (t p : Nat) (ds : List Nat) : Prop :=
  u = { s with cores := u.cores, regs := u.regs } ∧
  u.regs = { s.regs with counters := u.regs.counters } ∧
  (∀ r, r ∉ ds → getY u t p r = getY s t p r) ∧
  (∀ c, c ≠ coreId t p → coreOf u c = coreOf s c) ∧
  coreOf u (coreId t p) = { coreOf s (coreId t p) with y := (coreOf u (coreId t p)).y }

theorem onlyVecs_trans {s u v : State} {t p : Nat} {ds es : List Nat} (h : onlyVecs s u t p ds) (h' : onlyVecs u v t p es) :
    onlyVecs s v t p (ds ++ es) := by
  obtain ⟨hs, hr, hy, hc, hp⟩ := h
  obtain ⟨hs', hr', hy', hc', hp'⟩ := h'
  refine ⟨?_, ?_, fun r hn => ?_, fun c hn => (hc' c hn).trans (hc c hn), ?_⟩
  · calc v = { u with cores := v.cores, regs := v.regs } := hs'
      _ = { s with cores := v.cores, regs := v.regs } := by rw [hs]
  · calc v.regs = { u.regs with counters := v.regs.counters } := hr'
      _ = { s.regs with counters := v.regs.counters } := by rw [hr]
  · rw [List.mem_append, not_or] at hn
    exact (hy' r hn.2).trans (hy r hn.1)
  · rw [hp', hp]

theorem onlyVecs_setY (s : State) (t p r : Nat) {l : List Word32} (hl : l.length = 64) : onlyVecs s (setY s t p r l) t p [r] :=
  ⟨rfl, rfl, fun r' hr => by rw [getY_setY _ _ _ _ _ hl, if_neg (by simpa using hr)], fun c hc => by simp [setY, hc],
    by simp [setY]⟩

theorem onlyVecs_count (s : State) (t p page off n : Nat) : onlyVecs s (count s page off n) t p [] := by
  obtain ⟨k, e, -⟩ := count_spec s page off n
  rw [e]
  exact ⟨rfl, rfl, fun _ _ => rfl, fun _ _ => rfl, rfl⟩

theorem getY_count (s : State) (t p page off n r : Nat) : getY (count s page off n) t p r = getY s t p r :=
  (onlyVecs_count s t p page off n).2.2.1 r List.not_mem_nil

/-- The registers of a pair after both are written. -/
theorem getY_setY_pair (s : State) (t p r : Nat) {l m : List Word32} (hl : l.length = 64) (hm : m.length = 64) :
    getY (setY (setY s t p r l) t p (r + 1) m) t p r = l ∧ getY (setY (setY s t p r l) t p (r + 1) m) t p (r + 1) = m := by
  rw [getY_setY _ _ _ _ _ hm, getY_setY _ _ _ _ _ hl, getY_setY _ _ _ _ _ hm, if_neg (by omega), if_pos rfl, if_pos rfl]
  exact ⟨rfl, rfl⟩

/-! An instruction that issues. -/

theorem wait_of_canIssue {s : State} {t p : Nat} (h : canIssue s t p = true) : (coreOf s (coreId t p)).wait = none := by
  simp only [canIssue, ready, Bool.and_eq_true, decide_eq_true_eq] at h
  exact h.1.1.1.1.1.2

/-- Going on and ending: only the core's PC moves, and no operation is in progress after it (R92, R134). -/
theorem noteEnd_nextPc (s : State) (t p : Nat) (hw : (coreOf s (coreId t p)).wait = none) :
    noteEnd (nextPc s t p) t p = setCore (nextPc s t p) (coreId t p)
      { coreOf s (coreId t p) with pc := (pcOf s t p + 8) % 2 ^ 64, opcode := 0, opmod := 0 } := by
  have hpc : coreOf (nextPc s t p) (coreId t p) = { coreOf s (coreId t p) with pc := (pcOf s t p + 8) % 2 ^ 64 } := by
    rw [nextPc, coreOf_setPc, if_pos rfl]; rfl
  rw [noteEnd_eq _ _ _ (by rw [hpc]; exact hw), hpc]

/-- A vector instruction that is noted, does work that writes `ds`, goes on and ends. -/
theorem wroteVecs_of_onlyVecs {s w : State} {t p op md : Nat} {ds : List Nat} (hw : (coreOf s (coreId t p)).wait = none)
    (h : onlyVecs (noteIssue s t p op md) w t p ds) :
    wroteVecs s (noteEnd (nextPc w t p) t p) t p ds ∧ ∀ r, getY (noteEnd (nextPc w t p) t p) t p r = getY w t p r := by
  obtain ⟨hs, hr, hy, hc, hp⟩ := h
  obtain ⟨k, hnote, -⟩ := noteIssue_spec s t p op md
  have hcore : coreOf w (coreId t p) = { coreOf s (coreId t p) with
      y := (coreOf w (coreId t p)).y, opcode := op, opmod := md, held := none } := by
    rw [hp, coreOf_noteIssue, if_pos rfl]
  have hend := noteEnd_nextPc w t p (by rw [hcore]; exact hw)
  set u := noteEnd (nextPc w t p) t p
  have hcore' : coreOf u (coreId t p) = { coreOf s (coreId t p) with
      y := (coreOf w (coreId t p)).y, pc := (pcOf s t p + 8) % 2 ^ 64, opcode := 0, opmod := 0, held := none } := by
    rw [hend, coreOf_setCore, if_pos rfl, pcOf, hcore]; rfl
  have hvec (r : Nat) : getY u t p r = getY w t p r := getY_congr (by rw [hcore']) (by rw [hcore', hcore]) r
  have htcc : tccOf u t = tccOf s t := by
    rw [hend, hs, hnote]; rfl
  refine ⟨⟨?_, ?_, fun r hn => by rw [hvec, hy r hn, getY_noteIssue], getG_congr ?_ ?_ ?_ ?_, fun c hn => ?_, ?_⟩, hvec⟩
  · rw [hend, hs, hnote]; rfl
  · rw [show u.regs = w.regs by rw [hend]; rfl, hr, hnote]; rfl
  · rw [hcore']
  · rw [hcore']
  · rw [htcc]
  · rw [htcc]
  · rw [hend, coreOf_setCore, if_neg hn, nextPc, coreOf_setPc, if_neg hn, hc c hn, coreOf_noteIssue, if_neg hn]
  · rw [hcore']

theorem pageBlock_vcPart : ∀ (t : Fin 12) (v : Fin 8), pageBlock (ptPage t (vcPart v)) = some .vectorCore := by decide

/-- A vector instruction that is noted, is illegal and ends. -/
theorem wasIllegal_of_illegal {s : State} (t : Fin 12) (v : Fin 8) {op md : Nat}
    (hw : (coreOf s (coreId t (vcPart v))).wait = none) :
    wasIllegal s (noteEnd (illegal (noteIssue s t (vcPart v) op md) t (vcPart v)) t (vcPart v)) t (vcPart v) := by
  set p := vcPart v with hvp
  have hp : progErrSource p = 0 := by simp [progErrSource, hvp]
  obtain ⟨⟨hs, -, hc, ht, -⟩, hset⟩ := raiseTag_spec (noteIssue s t p op md) (ptPage t p) 0 (ptTag (noteIssue s t p op md) t p)
  have hset := hset .vectorCore (pageBlock_vcPart t v) (by decide) (by decide)
  obtain ⟨pend, halted, locked, nested, ht⟩ := ht t
  have hc := hc (coreId t p)
  rw [illegal, progErr, hp]
  set w := raiseTag (noteIssue s t p op md) (ptPage t p) 0 (ptTag (noteIssue s t p op md) t p)
  rw [coreOf_noteIssue, if_pos rfl] at hc
  rw [tccOf_noteIssue] at ht
  have hend := noteEnd_nextPc w t p (by rw [hc]; exact hw)
  set u := noteEnd (nextPc w t p) t p
  have hcore : coreOf u (coreId t p) = { coreOf s (coreId t p) with
      pc := (pcOf s t p + 8) % 2 ^ 64, opcode := 0, opmod := 0, held := none, stopReq := (coreOf w (coreId t p)).stopReq } := by
    rw [hend, coreOf_setCore, if_pos rfl, pcOf, hc]; rfl
  have htcc : tccOf u t = tccOf w t := by rw [hend]; rfl
  refine ⟨?_, ?_, ?_, ?_, getG_congr ?_ ?_ ?_ ?_, getY_congr ?_ ?_⟩
  · rw [hp, hend]; exact hset
  · rw [pcOf, hcore]
  · rw [hend, ← mem_noteIssue s t p op md, hs]; rfl
  · rw [hend, ← sync_noteIssue s t p op md, hs]; rfl
  · rw [hcore]
  · rw [hcore]
  · rw [htcc, ht]
  · rw [htcc, ht]
  · rw [hcore]
  · rw [hcore]

/-! Vector instructions by the shape of their work. -/

section
variable {t : Fin 12} {v : Fin 8} {f : VFields} {s : State} {i : Instr} {op : Nat} {ok : State → Bool}

/-- The command writes a list of lanes to YD and no other vector register where P holds, else it is illegal. -/
def givesLanes (i : Instr) (s : State) (t p d : Nat) (P : Prop) (l : List Word32) : Prop :=
  (P → answers i s fun u => wroteVecs s u t p [d] ∧ getY u t p d = l) ∧ (¬ P → answers i s fun u => wasIllegal s u t p)

variable (h : canIssue s t (vcPart v) = true)
include h

theorem exec_vop_of_ok {g : State → State} {ds : List Nat} (hi : exec i s = .next (vop t v f op ok g s))
    (hok : ok (noteIssue s t (vcPart v) op f.md.toNat) = true)
    (hg : onlyVecs (noteIssue s t (vcPart v) op f.md.toNat) (g (noteIssue s t (vcPart v) op f.md.toNat)) t (vcPart v) ds) :
    answers i s fun u => wroteVecs s u t (vcPart v) ds ∧
      ∀ r, getY u t (vcPart v) r = getY (g (noteIssue s t (vcPart v) op f.md.toNat)) t (vcPart v) r := by
  refine ⟨_, hi, ?_⟩
  rw [vop, issue, if_pos h, if_pos hok]
  exact wroteVecs_of_onlyVecs (wait_of_canIssue h) hg

theorem exec_vop_of_not_ok {g : State → State} (hi : exec i s = .next (vop t v f op ok g s))
    (hok : ok (noteIssue s t (vcPart v) op f.md.toNat) = false) : answers i s fun u => wasIllegal s u t (vcPart v) := by
  refine ⟨_, hi, ?_⟩
  rw [vop, issue, if_pos h, if_neg (by simp [hok])]
  exact wasIllegal_of_illegal t v (wait_of_canIssue h)

/-- An instruction whose work writes 64 lanes to YD. -/
theorem givesLanes_vop {g : State → State} {P : Prop} {l : List Word32} (hi : exec i s = .next (vop t v f op ok g s))
    (hok : ok (noteIssue s t (vcPart v) op f.md.toNat) = true ↔ P)
    (hg : onlyVecs (noteIssue s t (vcPart v) op f.md.toNat) (g (noteIssue s t (vcPart v) op f.md.toNat)) t (vcPart v) [f.yd.toNat])
    (hl : getY (g (noteIssue s t (vcPart v) op f.md.toNat)) t (vcPart v) f.yd.toNat = l) :
    givesLanes i s t (vcPart v) f.yd.toNat P l := by
  refine ⟨fun hP => ?_, fun hP => exec_vop_of_not_ok h hi (Bool.eq_false_iff.2 (mt hok.1 hP))⟩
  obtain ⟨u, hu, hw, hy⟩ := exec_vop_of_ok h hi (hok.2 hP) hg
  exact ⟨u, hu, hw, (hy _).trans hl⟩

theorem givesLanes_vop_setY {P : Prop} {l : List Word32} {lanes : State → List Word32}
    (hi : exec i s = .next (vop t v f op ok (fun u => setY u t (vcPart v) f.yd.toNat (lanes u)) s))
    (hok : ok (noteIssue s t (vcPart v) op f.md.toNat) = true ↔ P)
    (hl : lanes (noteIssue s t (vcPart v) op f.md.toNat) = l) (hlen : l.length = 64) :
    givesLanes i s t (vcPart v) f.yd.toNat P l := by
  subst hl
  exact givesLanes_vop h hi hok (onlyVecs_setY _ _ _ _ hlen) (by rw [getY_setY _ _ _ _ _ hlen, if_pos rfl])

theorem givesLanes_laneOp {g : Word32 → Word32 → Word32 → Word32} (hi : exec i s = .next (laneOp t v f op g s)) :
    givesLanes i s t (vcPart v) f.yd.toNat (f.md = 0) ((List.range 64).map fun i =>
      g ((getY s t (vcPart v) f.ya.toNat).getD i 0) ((getY s t (vcPart v) f.yb.toNat).getD i 0)
        ((getY s t (vcPart v) f.yc.toNat).getD i 0)) := by
  refine givesLanes_vop_setY h hi decide_eq_true_iff ?_ (by simp)
  simp only [getY_noteIssue]
  refine List.ext_getElem (by simp) fun i hi _ => ?_
  have hlane : i < 64 := by simpa using hi
  simp [hlane]

theorem givesLanes_crossOp {g : List Word32 → List Word32 → List Word32} {l : List Word32}
    (hi : exec i s = .next (crossOp t v f op g s))
    (hl : g (getY s t (vcPart v) f.ya.toNat) (getY s t (vcPart v) f.yb.toNat) = l) (hlen : l.length = 64) :
    givesLanes i s t (vcPart v) f.yd.toNat (f.md = 0) l :=
  givesLanes_vop_setY h hi decide_eq_true_iff (by simpa only [getY_noteIssue] using hl) hlen

theorem givesLanes_tuOp {g : Word32 → Word32} (hi : exec i s = .next (tuOp t v f op g s)) :
    givesLanes i s t (vcPart v) f.yd.toNat (f.md = 0)
      ((List.range 64).map fun i => g ((getY s t (vcPart v) f.ya.toNat).getD i 0)) := by
  have hlen : ((getY s t (vcPart v) f.ya.toNat).map g).length = 64 := by simp
  refine givesLanes_vop h hi decide_eq_true_iff ?_ ?_
  · exact onlyVecs_trans (onlyVecs_setY _ _ _ _ (by simp)) (onlyVecs_count ..)
  · rw [getY_count, getY_noteIssue, getY_setY _ _ _ _ _ hlen, if_pos rfl]
    exact map_eq_map_range 0#32 (length_getY ..) g

/-- An instruction whose work writes a pair of registers. -/
theorem exec_vop_setY_pair {a b : State → List Word32} {d : Nat} {la lb : List Word32}
    (hi : exec i s = .next (vop t v f op ok (fun u => setY (setY u t (vcPart v) d (a u)) t (vcPart v) (d + 1) (b u)) s))
    (hok : ok (noteIssue s t (vcPart v) op f.md.toNat) = true)
    (ha : a (noteIssue s t (vcPart v) op f.md.toNat) = la) (hb : b (noteIssue s t (vcPart v) op f.md.toNat) = lb)
    (hla : la.length = 64) (hlb : lb.length = 64) :
    answers i s fun u => wroteVecs s u t (vcPart v) [d, d + 1] ∧ getY u t (vcPart v) d = la ∧ getY u t (vcPart v) (d + 1) = lb := by
  subst ha hb
  obtain ⟨u, hu, hw, hy⟩ := exec_vop_of_ok h hi hok (onlyVecs_trans (onlyVecs_setY _ _ _ d hla) (onlyVecs_setY _ _ _ (d + 1) hlb))
  obtain ⟨hya, hyb⟩ := getY_setY_pair (noteIssue s t (vcPart v) op f.md.toNat) t (vcPart v) d hla hlb
  exact ⟨u, hu, hw, (hy d).trans hya, (hy (d + 1)).trans hyb⟩

/-- An instruction whose work writes 64 candidates to a pair (R113). -/
theorem exec_vop_setPair {c : State → List (Word32 × Nat)} {d : Nat} {l : List (Word32 × Nat)}
    (hi : exec i s = .next (vop t v f op ok (fun u => setPair u t (vcPart v) d (c u)) s))
    (hok : ok (noteIssue s t (vcPart v) op f.md.toNat) = true)
    (hc : c (noteIssue s t (vcPart v) op f.md.toNat) = l) (hl : l.length = 64) :
    answers i s fun u => wroteVecs s u t (vcPart v) [d, d + 1] ∧
      getY u t (vcPart v) d = l.map Prod.fst ∧ getY u t (vcPart v) (d + 1) = l.map fun x => BitVec.ofNat 32 x.2 := by
  have hfst : (l.map Prod.fst).length = 64 := by simpa using hl
  have hsnd : (l.map fun x => BitVec.ofNat 32 x.2).length = 64 := by simpa using hl
  simp only [setPair] at hi
  exact exec_vop_setY_pair h hi hok (by rw [hc]) (by rw [hc]) hfst hsnd

end

/-! What the operands allow. -/

theorem pairOk_iff (r : BitVec 5) : pairOk r = true ↔ r.toNat % 2 = 0 := by
  rw [pairOk, Bool.not_eq_true', BitVec.getLsbD, Nat.testBit_zero, decide_eq_false_iff_not]
  omega

/-- The features of a vector core depend on no state: no revision takes one away (R137). -/
theorem blkCap_vcPart (s u : State) (t : Fin 12) (v : Fin 8) (n : Nat) :
    blkCap u (ptPage t (vcPart v)) n = blkCap s (ptPage t (vcPart v)) n := by
  simp only [blkCap, capWord, pageBlock_vcPart t v]

@[simp] theorem length_pairCands (s : State) (t p r : Nat) : (pairCands s t p r).length = 64 := by simp [pairCands]

@[simp] theorem pairCands_noteIssue (s : State) (t p op md r : Nat) :
    pairCands (noteIssue s t p op md) t p r = pairCands s t p r := by simp [pairCands]

/-! The order of candidates (R113). -/

/-- A candidate's place in the order: higher values first, then lower indices, then lower bits (log 85). -/
def candKey (x : Word32 × Nat) : ℤ ×ₗ ℕ ×ₗ ℕ := toLex (-f32Rank x.1, toLex (x.2, x.1.toNat))

abbrev candLe (x y : Word32 × Nat) : Prop := candKey x ≤ candKey y

theorem candKey_injective : Function.Injective candKey := by
  rintro ⟨v, i⟩ ⟨w, j⟩ h
  simp only [candKey, toLex_inj, Prod.mk.injEq] at h
  obtain ⟨-, hij, hvw⟩ := h
  rw [hij, BitVec.eq_of_toNat_eq hvw]

theorem candBefore_iff (v w : Word32) (i j : Nat) : candBefore v i w j = true ↔ candKey (v, i) < candKey (w, j) := by
  simp [candBefore, candKey, Prod.Lex.toLex_lt_toLex]

theorem candInsert_eq_orderedInsert (v : Word32) (i : Nat) (l : List (Word32 × Nat)) :
    candInsert v i l = l.orderedInsert candLe (v, i) := by
  induction l with
  | nil => rfl
  | cons x l ih =>
    obtain ⟨w, j⟩ := x
    rw [candInsert, List.orderedInsert_cons, ih]
    by_cases hlt : candKey (w, j) < candKey (v, i)
    · rw [if_pos ((candBefore_iff ..).2 hlt), if_neg (not_le.2 hlt)]
    · rw [if_neg (mt (candBefore_iff ..).1 hlt), if_pos (not_lt.1 hlt)]

theorem candSort_eq_insertionSort (l : List (Word32 × Nat)) : candSort l = l.insertionSort candLe := by
  induction l with
  | nil => rfl
  | cons x l ih => rw [candSort, candInsert_eq_orderedInsert, ih, List.insertionSort_cons]

@[simp] theorem length_candSort (l : List (Word32 × Nat)) : (candSort l).length = l.length := by
  rw [candSort_eq_insertionSort, List.length_insertionSort]

theorem pairwise_candSort (l : List (Word32 × Nat)) : (candSort l).Pairwise candLe := by
  have : Std.Total candLe := ⟨fun _ _ => le_total _ _⟩
  have : IsTrans _ candLe := ⟨fun _ _ _ => le_trans⟩
  rw [candSort_eq_insertionSort]
  exact List.pairwise_insertionSort candLe l

theorem perm_candSort (l : List (Word32 × Nat)) : (candSort l).Perm l := by
  rw [candSort_eq_insertionSort]
  exact List.perm_insertionSort candLe l

/-- Two sorted lists of the same candidates are equal, as no two candidates share a place. -/
theorem candSort_eq_of_perm {l l' : List (Word32 × Nat)} (h : l.Perm l') : candSort l = candSort l' :=
  ((perm_candSort l).trans (h.trans (perm_candSort l').symm)).eq_of_pairwise
    (fun _ _ _ _ hab hba => candKey_injective (le_antisymm hab hba)) (pairwise_candSort l) (pairwise_candSort l')

end Sys2Proof.Machine
end

section
/-!
The vector instructions (R46, R47, R107, R108, R111 to R113): the statement Lane_operations, a lemma for each instruction that is more
than its lanes.
-/

namespace Sys2Proof.Machine

open Sys2Proof

/-! Lanes. -/

/-- VSEL tests YC for zero bits; the model tests for others. -/
theorem vsel_lane (a b c : Word32) : (if c != 0#32 then a else b) = if c = 0 then b else a := by
  by_cases hc : c = 0#32 <;> simp [hc]

/-- The index of a lane added in the low 32 bits. -/
theorem viota_lane (g : Word64) (i : Nat) : BitVec.ofNat 32 (g.toNat + i) = g.setWidth 32 + BitVec.ofNat 32 i := by
  rw [BitVec.ofNat_add]; rfl

/-- Lane i of an interleaved rotation (R112). -/
theorem ropeInterleaved_eq (a b c : List Word32) :
    ((List.range 32).flatMap fun i =>
      [(ropePair (a.getD (2 * i) 0#32) (a.getD (2 * i + 1) 0#32) (b.getD (2 * i) 0#32) (c.getD (2 * i) 0#32)).1,
        (ropePair (a.getD (2 * i) 0#32) (a.getD (2 * i + 1) 0#32) (b.getD (2 * i) 0#32) (c.getD (2 * i) 0#32)).2]) =
      (List.range 64).map fun i =>
        let r := ropePair (a.getD (i / 2 * 2) 0) (a.getD (i / 2 * 2 + 1) 0) (b.getD (i / 2 * 2) 0) (c.getD (i / 2 * 2) 0)
        if i % 2 = 0 then r.1 else r.2 := by
  rw [flatMap_pair_eq_map_range]
  simp only [Nat.mul_comm 2]
  rfl

section
variable {t : Fin 12} {v : Fin 8} {f : VFields} {s : State} (h : canIssue s t (vcPart v) = true)
include h

theorem givesLanes_vbc : givesLanes (.vbc t v f) s t (vcPart v) f.yd.toNat (f.md = 0)
    (List.replicate 64 ((getG s t (vcPart v) f.ga.toNat).setWidth 32)) :=
  givesLanes_vop_setY (lanes := fun u => List.replicate 64 ((getG u t (vcPart v) f.ga.toNat).setWidth 32)) h rfl
    decide_eq_true_iff (by rw [getG_noteIssue]) (by simp)

theorem givesLanes_viota : givesLanes (.viota t v f) s t (vcPart v) f.yd.toNat (f.md = 0)
    ((List.range 64).map fun i => (getG s t (vcPart v) f.ga.toNat).setWidth 32 + BitVec.ofNat 32 i) :=
  givesLanes_vop_setY
    (lanes := fun u => (List.range 64).map fun i => BitVec.ofNat 32 ((getG u t (vcPart v) f.ga.toNat).toNat + i)) h rfl
    decide_eq_true_iff (by simp only [getG_noteIssue, viota_lane]) (by simp)

theorem givesLanes_vcmp : givesLanes (.vcmp t v f) s t (vcPart v) f.yd.toNat (f.md.toNat ≤ 3)
    ((List.range 64).map fun i => if vcmpHolds f.md.toNat ((getY s t (vcPart v) f.ya.toNat).getD i 0)
      ((getY s t (vcPart v) f.yb.toNat).getD i 0) then 0xFFFFFFFF else 0) := by
  refine givesLanes_vop_setY h rfl decide_eq_true_iff ?_ (by simp)
  rw [getY_noteIssue, getY_noteIssue, zip_eq_map_range 0#32 0#32 (length_getY ..) (length_getY ..), List.map_map]
  rfl

theorem givesLanes_vperm : givesLanes (.vperm t v f) s t (vcPart v) f.yd.toNat (f.md = 0)
    ((List.range 64).map fun i =>
      (getY s t (vcPart v) f.ya.toNat).getD (((getY s t (vcPart v) f.yb.toNat).getD i 0).toNat % 64) 0) :=
  givesLanes_crossOp h rfl (map_eq_map_range 0#32 (length_getY ..) _) (by simp)

end

/-! Rotations and sorts. -/

section
variable (t : Fin 12) (v : Fin 8) (f : VFields)

/-- Whether VROPE's fields are allowed (R107, R112). -/
def ropeOk (u : State) : Bool :=
  blkCap u (ptPage t (vcPart v)) 0 && f.md.toNat ≤ 1 && (f.md = 0#4 || (pairOk f.ya && pairOk f.yd))

theorem ropeOk_iff (s u : State) : ropeOk t v f u = true ↔ blkCap s (ptPage t (vcPart v)) 0 = true ∧ f.md.toNat ≤ 1 ∧
    (f.md = 0 ∨ f.ya.toNat % 2 = 0 ∧ f.yd.toNat % 2 = 0) := by
  simp only [ropeOk, blkCap_vcPart s, Bool.and_eq_true, Bool.or_eq_true, decide_eq_true_eq, pairOk_iff, and_assoc]
  rfl

/-- Whether VSORT's fields are allowed (R107, R113). -/
def sortOk (u : State) : Bool := blkCap u (ptPage t (vcPart v)) 1 && f.md = 0#4 && pairOk f.ya && pairOk f.yd

theorem sortOk_iff (s u : State) : sortOk t v f u = true ↔
    blkCap s (ptPage t (vcPart v)) 1 = true ∧ f.md = 0 ∧ f.ya.toNat % 2 = 0 ∧ f.yd.toNat % 2 = 0 := by
  simp only [sortOk, blkCap_vcPart s, Bool.and_eq_true, decide_eq_true_eq, pairOk_iff, and_assoc]
  rfl

/-- Whether VTKM's fields are allowed (R107, R113). -/
def mergeOk (u : State) : Bool :=
  blkCap u (ptPage t (vcPart v)) 1 && f.md = 0#4 && pairOk f.ya && pairOk f.yb && pairOk f.yd

theorem mergeOk_iff (s u : State) : mergeOk t v f u = true ↔ blkCap s (ptPage t (vcPart v)) 1 = true ∧ f.md = 0 ∧
    f.ya.toNat % 2 = 0 ∧ f.yb.toNat % 2 = 0 ∧ f.yd.toNat % 2 = 0 := by
  simp only [mergeOk, blkCap_vcPart s, Bool.and_eq_true, decide_eq_true_eq, pairOk_iff, and_assoc]
  rfl

/-- The rotation that lane i of a split VROPE takes (R112). -/
def ropeSplit (u : State) (i : Nat) : Word32 × Word32 :=
  ropePair ((getY u t (vcPart v) f.ya.toNat).getD i 0) ((getY u t (vcPart v) (f.ya.toNat + 1)).getD i 0)
    ((getY u t (vcPart v) f.yb.toNat).getD i 0) ((getY u t (vcPart v) f.yc.toNat).getD i 0)

/-- The lanes that an interleaved VROPE writes (R112). -/
def ropeInterleaved (u : State) : List Word32 :=
  (List.range 64).map fun i =>
    let j := i / 2 * 2
    let a := getY u t (vcPart v) f.ya.toNat
    let r := ropePair (a.getD j 0) (a.getD (j + 1) 0) ((getY u t (vcPart v) f.yb.toNat).getD j 0)
      ((getY u t (vcPart v) f.yc.toNat).getD j 0)
    if i % 2 = 0 then r.1 else r.2

variable {t v f} {s : State}

theorem exec_vrope_interleaved (hmd : f.md = 0#4) : exec (.vrope t v f) s =
    .next (vop t v f 0x84 (ropeOk t v f) (fun u => setY u t (vcPart v) f.yd.toNat (ropeInterleaved t v f u)) s) := by
  have hlanes (u : State) := ropeInterleaved_eq (getY u t (vcPart v) f.ya.toNat) (getY u t (vcPart v) f.yb.toNat)
    (getY u t (vcPart v) f.yc.toNat)
  simp only [ropeInterleaved, ← hlanes]
  change execVrope t v f s = _
  simp only [execVrope, if_pos hmd]
  rfl

theorem exec_vrope_split (hmd : f.md ≠ 0#4) : exec (.vrope t v f) s =
    .next (vop t v f 0x84 (ropeOk t v f) (fun u => setY (setY u t (vcPart v) f.yd.toNat
      ((List.range 64).map fun i => (ropeSplit t v f u i).1)) t (vcPart v) (f.yd.toNat + 1)
      ((List.range 64).map fun i => (ropeSplit t v f u i).2)) s) := by
  change execVrope t v f s = _
  simp only [execVrope, if_neg hmd, List.map_map]
  rfl

@[simp] theorem ropeSplit_noteIssue (op md : Nat) :
    ropeSplit t v f (noteIssue s t (vcPart v) op md) = ropeSplit t v f s := by
  funext i
  simp only [ropeSplit, getY_noteIssue]

@[simp] theorem ropeInterleaved_noteIssue (op md : Nat) :
    ropeInterleaved t v f (noteIssue s t (vcPart v) op md) = ropeInterleaved t v f s := by
  simp only [ropeInterleaved, getY_noteIssue]

variable (h : canIssue s t (vcPart v) = true)
include h

theorem vrope_interleaved (hmd : f.md = 0) (hcap : blkCap s (ptPage t (vcPart v)) 0 = true) :
    answers (.vrope t v f) s fun u => wroteVecs s u t (vcPart v) [f.yd.toNat] ∧
      getY u t (vcPart v) f.yd.toNat = ropeInterleaved t v f s := by
  have hok : blkCap s (ptPage t (vcPart v)) 0 = true ∧ f.md.toNat ≤ 1 ∧
      (f.md = 0 ∨ f.ya.toNat % 2 = 0 ∧ f.yd.toNat % 2 = 0) := ⟨hcap, by simp [hmd], .inl hmd⟩
  exact (givesLanes_vop_setY h (exec_vrope_interleaved hmd) (ropeOk_iff t v f s _) (ropeInterleaved_noteIssue ..)
    (by simp [ropeInterleaved])).1 hok

theorem vrope_split (hmd : f.md = 1) (hcap : blkCap s (ptPage t (vcPart v)) 0 = true) (hya : f.ya.toNat % 2 = 0)
    (hyd : f.yd.toNat % 2 = 0) :
    answers (.vrope t v f) s fun u => wroteVecs s u t (vcPart v) [f.yd.toNat, f.yd.toNat + 1] ∧
      getY u t (vcPart v) f.yd.toNat = ((List.range 64).map fun i => (ropeSplit t v f s i).1) ∧
      getY u t (vcPart v) (f.yd.toNat + 1) = (List.range 64).map fun i => (ropeSplit t v f s i).2 := by
  refine exec_vop_setY_pair h (exec_vrope_split (by rw [hmd]; decide))
    ((ropeOk_iff t v f s _).2 ⟨hcap, by rw [hmd]; decide, .inr ⟨hya, hyd⟩⟩) ?_ ?_ (by simp) (by simp)
  · rw [ropeSplit_noteIssue]
  · rw [ropeSplit_noteIssue]

theorem vrope_illegal (hbad : 2 ≤ f.md.toNat ∨ ¬ blkCap s (ptPage t (vcPart v)) 0 = true ∨
    (f.md = 1 ∧ (¬ f.ya.toNat % 2 = 0 ∨ ¬ f.yd.toNat % 2 = 0))) :
    answers (.vrope t v f) s fun u => wasIllegal s u t (vcPart v) := by
  refine exec_vop_of_not_ok (ok := ropeOk t v f) h rfl (Bool.eq_false_iff.2 fun hok => ?_)
  obtain ⟨hcap, hmd, hpair⟩ := (ropeOk_iff t v f s _).1 hok
  obtain hmd2 | hcap' | ⟨hmd1, hodd⟩ := hbad
  · omega
  · exact hcap' hcap
  · obtain h0 | ⟨hya, hyd⟩ := hpair
    · rw [hmd1] at h0
      exact absurd h0 (by decide)
    · exact hodd.elim (· hya) (· hyd)

theorem vsort_sorts (hmd : f.md = 0) (hcap : blkCap s (ptPage t (vcPart v)) 1 = true) (hya : f.ya.toNat % 2 = 0)
    (hyd : f.yd.toNat % 2 = 0) :
    answers (.vsort t v f) s fun u => wroteVecs s u t (vcPart v) [f.yd.toNat, f.yd.toNat + 1] ∧
      getY u t (vcPart v) f.yd.toNat = (candSort (pairCands s t (vcPart v) f.ya.toNat)).map Prod.fst ∧
      getY u t (vcPart v) (f.yd.toNat + 1) =
        (candSort (pairCands s t (vcPart v) f.ya.toNat)).map fun x => BitVec.ofNat 32 x.2 :=
  exec_vop_setPair (ok := sortOk t v f) (c := fun u => candSort (pairCands u t (vcPart v) f.ya.toNat)) h rfl
    ((sortOk_iff t v f s _).2 ⟨hcap, hmd, hya, hyd⟩) (by rw [pairCands_noteIssue]) (by simp)

theorem vtkm_merges (hmd : f.md = 0) (hcap : blkCap s (ptPage t (vcPart v)) 1 = true) (hya : f.ya.toNat % 2 = 0)
    (hyb : f.yb.toNat % 2 = 0) (hyd : f.yd.toNat % 2 = 0) :
    let l := (candSort (pairCands s t (vcPart v) f.ya.toNat ++ pairCands s t (vcPart v) f.yb.toNat)).take 64
    answers (.vtkm t v f) s fun u => wroteVecs s u t (vcPart v) [f.yd.toNat, f.yd.toNat + 1] ∧
      getY u t (vcPart v) f.yd.toNat = l.map Prod.fst ∧
      getY u t (vcPart v) (f.yd.toNat + 1) = l.map fun x => BitVec.ofNat 32 x.2 :=
  exec_vop_setPair (ok := mergeOk t v f)
    (c := fun u => (candSort (pairCands u t (vcPart v) f.ya.toNat ++ pairCands u t (vcPart v) f.yb.toNat)).take 64) h rfl
    ((mergeOk_iff t v f s _).2 ⟨hcap, hmd, hya, hyb, hyd⟩) (by simp only [pairCands_noteIssue]) (by simp)

theorem vsort_illegal (hbad : ¬ (blkCap s (ptPage t (vcPart v)) 1 = true ∧ f.md = 0 ∧ f.ya.toNat % 2 = 0 ∧ f.yd.toNat % 2 = 0)) :
    answers (.vsort t v f) s fun u => wasIllegal s u t (vcPart v) :=
  exec_vop_of_not_ok (ok := sortOk t v f) h rfl (Bool.eq_false_iff.2 (mt (sortOk_iff t v f s _).1 hbad))

theorem vtkm_illegal (hbad : ¬ (blkCap s (ptPage t (vcPart v)) 1 = true ∧ f.md = 0 ∧ f.ya.toNat % 2 = 0 ∧
    f.yb.toNat % 2 = 0 ∧ f.yd.toNat % 2 = 0)) :
    answers (.vtkm t v f) s fun u => wasIllegal s u t (vcPart v) :=
  exec_vop_of_not_ok (ok := mergeOk t v f) h rfl (Bool.eq_false_iff.2 (mt (mergeOk_iff t v f s _).1 hbad))

end

/-! The statement. -/

/-- Settles O12: each instruction by the shape of its work and by the fields that it allows; a sort by the place of each candidate. -/
theorem laneOperations : Obligations.Lane_operations := by
  refine ⟨fun t v f s h => ?_, fun t v f s h => ?_, fun _ _ => candSort_eq_of_perm⟩
  · intro p lane gives
    have lanes {i : Instr} {op : Nat} {g : Word32 → Word32 → Word32 → Word32} (hi : exec i s = .next (laneOp t v f op g s)) :
        gives i g := givesLanes_laneOp h hi
    have transcendental {i : Instr} {op : Nat} {g : Word32 → Word32} (hi : exec i s = .next (tuOp t v f op g s)) :
        gives i fun a _ _ => g a := givesLanes_tuOp h hi
    clear_value gives
    have hsel := lanes (i := .vsel t v f) rfl
    simp only [vsel_lane] at hsel
    exact ⟨lanes rfl, lanes rfl, lanes rfl, lanes rfl, lanes rfl, lanes rfl, lanes rfl, lanes rfl, transcendental rfl,
      transcendental rfl, transcendental rfl, hsel, lanes rfl, lanes rfl, lanes rfl⟩
  · exact ⟨givesLanes_vbc h, givesLanes_viota h, givesLanes_vcmp h, givesLanes_crossOp h rfl rfl (by simp),
      givesLanes_crossOp h rfl rfl (by simp), givesLanes_vperm h, vrope_interleaved h, vrope_split h, vrope_illegal h,
      vsort_sorts h, vtkm_merges h, fun hbad => ⟨vsort_illegal h (by tauto), vtkm_illegal h (by tauto)⟩,
      fun hyb => vtkm_illegal h (by tauto)⟩

end Sys2Proof.Machine
end

section
/-!
SUPPORT. Instructions of a matrix core: what is left unchanged by noting one, by going past it and by a source that its array raises
(R89, R94), and the bytes of a core store as an MXA takes them and an MXR leaves them (R67, R100, R103).
-/

namespace Sys2Proof.Machine

open Sys2Proof

/-! What raising sources leaves. -/

section
variable {s u : State} (h : onlyFaults s u)
include h

theorem onlyFaults.mem_eq : u.mem = s.mem := by rw [h.1]
theorem onlyFaults.mcs_eq : u.mcs = s.mcs := by rw [h.1]
theorem onlyFaults.power_eq : u.power = s.power := by rw [h.1]
theorem onlyFaults.clock_eq : u.clock = s.clock := by rw [h.1]
theorem onlyFaults.store_eq : u.store = s.store := by rw [h.1]

theorem onlyFaults.mcOf_eq (t n : Nat) : mcOf u t n = mcOf s t n := by rw [mcOf, h.mcs_eq]; rfl

theorem onlyFaults.core_eq (c : Nat) : coreOf u c = { coreOf s c with stopReq := (coreOf u c).stopReq } := h.2.2.1 c

theorem onlyFaults.pcOf_eq (t p : Nat) : pcOf u t p = pcOf s t p := by rw [pcOf, h.core_eq]; rfl

end

/-! A matrix array in the state. -/

@[simp] theorem mcOf_setMc_same (s : State) (t n : Nat) (x : MatrixCore) : mcOf (setMc s t n x) t n = x := by
  simp [mcOf, setMc]

@[simp] theorem mcOf_nextPc (s : State) (t p t' n : Nat) : mcOf (nextPc s t p) t' n = mcOf s t' n := rfl

@[simp] theorem mcOf_count (s : State) (page off k t n : Nat) : mcOf (count s page off k) t n = mcOf s t n :=
  (onlyFaults_count s page off k).mcOf_eq t n

@[simp] theorem mcOf_noteIssue (s : State) (t p op md t' n : Nat) : mcOf (noteIssue s t p op md) t' n = mcOf s t' n := by
  obtain ⟨k, e, -⟩ := noteIssue_spec s t p op md
  rw [e]; rfl

theorem noteEnd_eq_or (s : State) (t p : Nat) : noteEnd s t p = s ∨ ∃ x, noteEnd s t p = setCore s (coreId t p) x := by
  unfold noteEnd
  dsimp only
  split
  · exact .inl rfl
  · exact .inr ⟨_, rfl⟩

@[simp] theorem mcOf_noteEnd (s : State) (t p t' n : Nat) : mcOf (noteEnd s t p) t' n = mcOf s t' n := by
  obtain e | ⟨x, e⟩ := noteEnd_eq_or s t p <;> rw [e]; rfl

@[simp] theorem sticky_noteEnd (s : State) (t p page src : Nat) : sticky (noteEnd s t p) page src = sticky s page src := by
  obtain e | ⟨x, e⟩ := noteEnd_eq_or s t p <;> rw [e]; rfl

@[simp] theorem pcOf_noteEnd (s : State) (t p : Nat) : pcOf (noteEnd s t p) t p = pcOf s t p := by
  unfold noteEnd pcOf
  dsimp only
  split
  · rfl
  · rw [coreOf_setCore, if_pos rfl]

theorem pcOf_nextPc (s : State) (t p : Nat) : pcOf (nextPc s t p) t p = (pcOf s t p + 8) % 2 ^ 64 := by
  rw [pcOf, nextPc, coreOf_setPc, if_pos rfl]; rfl

@[simp] theorem pcOf_noteIssue (s : State) (t p op md : Nat) : pcOf (noteIssue s t p op md) t p = pcOf s t p := by
  rw [pcOf, coreOf_noteIssue, if_pos rfl]; rfl

@[simp] theorem pcOf_setMc (s : State) (t n t' p : Nat) (x : MatrixCore) : pcOf (setMc s t n x) t' p = pcOf s t' p := rfl

/-! Sources of an array (R89). -/

theorem pageBlock_mcPage : ∀ (t : Fin 12) (n : Fin 32), pageBlock (mcPage t n) = some .matrixCore := by decide

theorem ptPage_mcPart (t : Fin 12) (n : Fin 32) : ptPage t n = mcPage t n := if_neg (by omega)

theorem onlyFaults_mcRaise (s : State) (t n src : Nat) (tag : Word32) : onlyFaults s (mcRaise s t n src tag) :=
  (raiseTag_spec ..).1

theorem sticky_mcRaise (s : State) (t : Fin 12) (n : Fin 32) {src : Nat} (tag : Word32) (h : src < 9) :
    sticky (mcRaise s t n src tag) (mcPage t n) src = true :=
  (raiseTag_spec ..).2 _ (pageBlock_mcPage t n) (by revert src; decide) (by omega)

@[simp] theorem mcOf_mcRaise (s : State) (t n src : Nat) (tag : Word32) (t' n' : Nat) :
    mcOf (mcRaise s t n src tag) t' n' = mcOf s t' n' := (onlyFaults_mcRaise ..).mcOf_eq t' n'

/-! An instruction that issues (R94). -/

/-- A matrix core counts no instructions (R139): noting one shows it and nothing else. -/
theorem noteIssue_mcPart (s : State) (t op md : Nat) (n : Fin 32) : noteIssue s t n op md = setCore s (coreId t n)
    { coreOf s (coreId t n) with opcode := op, opmod := md, held := none } := by
  rw [noteIssue, if_neg (by omega), if_neg (by omega)]

theorem canIssue_iff (s : State) (t p : Nat) :
    canIssue s t p = true ↔ ready s t p = true ∧ (coreOf s (coreId t p)).held = none := by
  rw [canIssue, Bool.and_eq_true, decide_eq_true_iff]

theorem issueWhen_free {s : State} {t p : Nat} (h : canIssue s t p = true) (i : Instr) (op : Nat) (f : State → State) :
    issueWhen s i t p op true f = noteEnd (f (noteIssue s t p op 0)) t p := by
  obtain ⟨hready, hheld⟩ := (canIssue_iff s t p).1 h
  simp [issueWhen, hready, hheld]

theorem issueWhen_busy {s : State} {t p : Nat} {i : Instr} (h : canGo i s t p) (op : Nat) (f : State → State) :
    issueWhen s i t p op false f = setCore s (coreId t p) { coreOf s (coreId t p) with held := some i } := by
  obtain ⟨hready, hheld⟩ := h
  have hother : ((coreOf s (coreId t p)).held != none && (coreOf s (coreId t p)).held != some i) = false := by
    obtain hheld | hheld := hheld <;> simp [hheld]
  simp [issueWhen, hready, hother]

/-- The core of an instruction that issued, went on, raised at most sources, and ended (R92, R134). -/
theorem coreOf_noteEnd_nextPc {s w : State} {t p op md : Nat} (h : canIssue s t p = true)
    (hw : coreOf w (coreId t p) = coreOf (nextPc (noteIssue s t p op md) t p) (coreId t p)) :
    coreOf (noteEnd w t p) (coreId t p) =
      { coreOf s (coreId t p) with opcode := 0, opmod := 0, pc := (pcOf s t p + 8) % 2 ^ 64 } := by
  have hheld := ((canIssue_iff s t p).1 h).2
  have hcore : coreOf w (coreId t p) =
      { coreOf s (coreId t p) with opcode := op, opmod := md, pc := (pcOf s t p + 8) % 2 ^ 64 } := by
    rw [hw, nextPc, coreOf_setPc, if_pos rfl, coreOf_noteIssue, if_pos rfl, pcOf, ← hheld]
  rw [noteEnd_eq _ _ _ (by rw [hcore]; exact wait_of_canIssue h), coreOf_setCore, if_pos rfl, hcore]

/-! Bytes of the own store that no transfer writes (R100). -/

/-- Where no transfer of the tile writes a range, none writes a part of it. -/
theorem tlaWriters_part {s : State} {t a n a' n' : Nat} (h : tlaWriters s t a n = []) (hlo : a ≤ a') (hhi : a' + n' ≤ a + n) :
    tlaWriters s t a' n' = [] := by
  simp only [tlaWriters, List.flatMap_eq_nil_iff, List.filterMap_eq_nil_iff] at h ⊢
  intro c hc x hx
  have hout := h c hc x hx
  simp only [ite_eq_right_iff, reduceCtorEq, imp_false, Bool.and_eq_true, decide_eq_true_eq, not_and] at hout ⊢
  rintro ⟨hwrites, hend⟩ hstart
  have := hout ⟨hwrites, by omega⟩
  omega

theorem mem_kput {α : Type} [DecidableEq α] {d v : α} {m : KMap α} {k : Nat} {c : Nat × α} (h : c ∈ kput d m k v) :
    c = (k, v) ∨ c ∈ m := by
  unfold kput at h
  split at h
  · exact .inr (List.mem_filter.1 h).1
  · exact mem_kinsert h

theorem kfind_mem {α : Type} {m : KMap α} {k : Nat} {v : α} (h : kfind m k = some v) : (k, v) ∈ m := by
  induction m with
  | nil => cases h
  | cons p m ih =>
    obtain ⟨k', v'⟩ := p
    unfold kfind at h
    split at h
    · next hk => cases h; exact hk ▸ .head _
    · exact .tail _ (ih h)

/-- A core whose transfers stay leaves the writers of its tile as they are. -/
theorem tlaWriters_setCore {s : State} {t a n c : Nat} {x : Core} (hx : x.xfers = (coreOf s c).xfers)
    (h : tlaWriters s t a n = []) : tlaWriters (setCore s c x) t a n = [] := by
  simp only [tlaWriters, List.flatMap_eq_nil_iff, kslice, List.mem_filter] at h ⊢
  rintro ⟨k, y⟩ ⟨hmem, hin⟩
  obtain he | hold := mem_kput hmem
  · cases he
    cases hfind : kfind s.cores c with
    | none => rw [hx, coreOf, kget, hfind]; rfl
    | some z =>
      have := h (c, z) ⟨kfind_mem hfind, hin⟩
      rwa [hx, coreOf, kget, hfind]
  · exact h (k, y) ⟨hold, hin⟩

theorem storeQuiet_noteIssue {s : State} {t op md : Nat} {n : Fin 32} (h : storeQuiet s t n) :
    storeQuiet (noteIssue s t n op md) t n := by
  rw [noteIssue_mcPart]
  exact tlaWriters_setCore rfl h

theorem eight_dvd_storeSize (p : Nat) : 8 ∣ storeSize p := by
  unfold storeSize
  split_ifs <;> decide

/-- A line's range of a store that no transfer writes is loaded as it stands. -/
theorem loadRange_quiet {s : State} {t p a n : Nat} (h : storeQuiet s t p) (ha : a % 8 = 0) (hin : a + n ≤ storeSize p) :
    loadRange s t p a n = (s.mem.readBytes (storeKey t p a) n, s) := by
  have hsize := eight_dvd_storeSize p
  refine if_pos (tlaWriters_part h (by omega) ?_)
  rw [ha, divUp]
  omega

/-! Bytes written to the own store that no MXA reads (R67). -/

theorem Memory.writeBytes_append (m : Memory) (a : Nat) (l l' : List Byte) :
    m.writeBytes a (l ++ l') = (m.writeBytes a l).writeBytes (a + l.length) l' := by
  induction l generalizing m a with
  | nil => rfl
  | cons b l ih => rw [List.cons_append, Memory.writeBytes, ih, Memory.writeBytes, List.length_cons, Nat.add_right_comm, Nat.add_assoc]

/-- The pieces of a range, one after another, write what the range holds; `k` lines are enough for it. -/
theorem foldList_storePut {t p off : Nat} {data : List Byte} {own : Bool} (k : Nat) :
    ∀ (s : State) (a n : Nat), (∀ line, (mcOf s t p).reads line = false) → off ≤ a → a - off + n = data.length →
      (n = 0 ∨ n + a % 128 ≤ 128 * k) →
      foldList (fun x st => storePut st t p x.1 ((data.drop (x.1 - off)).take x.2) own) (linePieces k a n) s =
        s.setMem (s.mem.writeBytes (storeKey t p a) (data.drop (a - off))) := by
  induction k with
  | zero =>
    intro s a n _ _ hlen hk
    obtain rfl : n = 0 := by omega
    rw [List.drop_eq_nil_of_le (by omega)]
    rfl
  | succ k ih =>
    intro s a n hfree hoff hlen hk
    unfold linePieces
    split
    · next hn => rw [List.drop_eq_nil_of_le (by omega)]; rfl
    · next hn =>
      set m := min n (128 - a % 128) with hm
      have hput : storePut s t p a ((data.drop (a - off)).take m) own =
          s.setMem (s.mem.writeBytes (storeKey t p a) ((data.drop (a - off)).take m)) := by
        rw [storePut, hfree, Bool.and_false]; rfl
      have hlen' : ((data.drop (a - off)).take m).length = m := by
        rw [List.length_take, List.length_drop]; omega
      have hkey : storeKey t p (a + m) = storeKey t p a + m := by
        simp only [storeKey, tlaKey]; omega
      rw [foldList, hput, ih (s.setMem (s.mem.writeBytes (storeKey t p a) ((data.drop (a - off)).take m))) (a + m) (n - m) hfree
        (by omega) (by omega) (by omega), setMem_twice, setMem_mem]
      have hdrop : data.drop (a + m - off) = (data.drop (a - off)).drop m := by
        rw [List.drop_drop]; congr 1; omega
      conv_rhs => rw [← List.take_append_drop m (data.drop (a - off)), Memory.writeBytes_append, hlen', ← hkey]
      rw [hdrop]

theorem storeWrite_free {s : State} {t p off : Nat} (data : List Byte) (own : Bool) (h : ∀ line, (mcOf s t p).reads line = false) :
    storeWrite s t p off data own = s.setMem (s.mem.writeBytes (storeKey t p off) data) := by
  have hrun := foldList_storePut (data := data) (own := own) (data.length / 128 + 2) s off data.length h le_rfl (by omega)
    (.inr (by omega))
  rwa [Nat.sub_self, List.drop_zero] at hrun

end Sys2Proof.Machine
end

section
/-!
The issue of an MXA (R64, R65, R101, R102): the statement Matrix_issue. An MXA that issues goes past itself before its array changes,
so the array is the one thing in which its cases differ.
-/

namespace Sys2Proof.Machine

open Sys2Proof

/-! The operation that an MXA issues. -/

/-- What R69, R90 and R102 ask of an MXA. -/
def mxaLegal (s : State) (t n : Nat) (f : MxaFields) : Prop :=
  (fmtGroup f.wfmt.toNat).isSome = true ∧ fmtGroup f.wfmt.toNat = fmtGroup f.afmt.toNat ∧ mxaFeatures s t n f = true ∧
    opAddr s t n f.areg.toNat f.aaddr.toNat + actBytes f.afmt.toNat (mxaK f.wfmt.toNat f.sparse) ≤ storeSize n ∧
    (f.ring = false → opAddr s t n f.wreg.toNat f.waddr.toNat + (tileShape f.wfmt.toNat f.sparse).total ≤ storeSize n) ∧
    (f.ring = true → ringBytes s t n ≠ 0)

/-- The operation of a legal MXA, with its weights: its operands are those that stand in the store. -/
def mxaTaken (s : State) (t n : Nat) (f : MxaFields) (wgt : List Byte) : MxaOp :=
  ⟨f.bank, f.opening, f.wfmt.toNat, f.afmt.toNat, f.sparse, f.ring, f.hold, false, false, opAddr s t n f.areg.toNat f.aaddr.toNat,
    opAddr s t n f.wreg.toNat f.waddr.toNat,
    s.mem.readBytes (tlaKey t (storeTla n + opAddr s t n f.areg.toNat f.aaddr.toNat))
      (actBytes f.afmt.toNat (mxaK f.wfmt.toNat f.sparse)), wgt, (coreOf s (coreId t n)).tag⟩

/-- The weights that an MXA takes from the store. -/
def mxaWeights (s : State) (t n : Nat) (f : MxaFields) : List Byte :=
  s.mem.readBytes (tlaKey t (storeTla n + opAddr s t n f.wreg.toNat f.waddr.toNat)) (tileShape f.wfmt.toNat f.sparse).total

/-- The test by which an MXA is illegal. -/
def mxaBad (s : State) (t n : Nat) (f : MxaFields) : Bool :=
  !((fmtGroup f.wfmt.toNat).isSome && fmtGroup f.wfmt.toNat = fmtGroup f.afmt.toNat) || !mxaFeatures s t n f ||
    !inStore n (opAddr s t n f.areg.toNat f.aaddr.toNat) (actBytes f.afmt.toNat (mxaK f.wfmt.toNat f.sparse)) ||
    (!f.ring && !inStore n (opAddr s t n f.wreg.toNat f.waddr.toNat) (tileShape f.wfmt.toNat f.sparse).total) ||
    (f.ring && ringBytes s t n = 0)

theorem mxaBad_eq_false_iff (s : State) (t n : Nat) (f : MxaFields) : mxaBad s t n f = false ↔ mxaLegal s t n f := by
  cases hring : f.ring <;> simp [mxaBad, mxaLegal, inStore, hring, and_assoc]

theorem opAddr_mod_eight (s : State) (t n reg addr : Nat) : opAddr s t n reg addr % 8 = 0 := by
  unfold opAddr; omega

theorem mxaOp_of_legal {s : State} {t n : Nat} {f : MxaFields} (h : mxaLegal s t n f) (hq : storeQuiet s t n) :
    mxaOp s t n f = (mxaTaken s t n f (if f.ring then [] else mxaWeights s t n f), s) := by
  have hbad : mxaBad s t n f = false := (mxaBad_eq_false_iff s t n f).2 h
  obtain ⟨-, -, -, hact, hwgt, -⟩ := h
  have hload := loadRange_quiet hq (opAddr_mod_eight ..) hact
  unfold mxaOp
  extract_lets w a pair aa wa al wl bad
  have hbad : bad = false := hbad
  clear_value bad
  subst hbad
  cases hring : f.ring with
  | true => simp [aa, al, a, w, wa, hload, mxaTaken, hring]; rfl
  | false =>
    have hload' := loadRange_quiet hq (opAddr_mod_eight ..) (hwgt hring)
    simp [aa, al, a, w, wa, wl, hload, hload', mxaTaken, mxaWeights, hring]; exact ⟨rfl, rfl⟩

theorem mxaOp_of_not_legal {s : State} {t n : Nat} {f : MxaFields} (h : ¬ mxaLegal s t n f) :
    (mxaOp s t n f).1.illegal = true ∧ (mxaOp s t n f).2 = s := by
  have hbad : mxaBad s t n f = true := by
    rw [← Bool.not_eq_false, mxaBad_eq_false_iff]; exact h
  unfold mxaOp
  extract_lets w a pair aa wa al wl bad
  have hbad : bad = true := hbad
  clear_value bad
  subst hbad
  exact ⟨rfl, rfl⟩

/-! Noting an instruction leaves what an MXA takes. -/

section
variable (s : State) (t op md : Nat) (n : Fin 32) (f : MxaFields)

theorem opAddr_noteIssue (reg addr : Nat) : opAddr (noteIssue s t n op md) t n reg addr = opAddr s t n reg addr := by
  rw [opAddr, getG_noteIssue]; rfl

theorem mxaLegal_noteIssue : mxaLegal (noteIssue s t n op md) t n f ↔ mxaLegal s t n f := by
  have hfeatures : mxaFeatures (noteIssue s t n op md) t n f = mxaFeatures s t n f := by rw [noteIssue_mcPart]; rfl
  have hbytes : ringBytes (noteIssue s t n op md) t n = ringBytes s t n := by rw [noteIssue_mcPart]; rfl
  simp only [mxaLegal, opAddr_noteIssue, hfeatures, hbytes]

theorem mxaWeights_noteIssue : mxaWeights (noteIssue s t n op md) t n f = mxaWeights s t n f := by
  simp only [mxaWeights, opAddr_noteIssue, mem_noteIssue]

theorem mxaTaken_noteIssue (wgt : List Byte) : mxaTaken (noteIssue s t n op md) t n f wgt = mxaTaken s t n f wgt := by
  simp only [mxaTaken, opAddr_noteIssue, mem_noteIssue, coreOf_noteIssue, if_true]

end

theorem ringStart_empty {s : State} {t n : Nat} {o : MxaOp} (h : (mcOf s t n).ring = []) :
    ringStart s t n o = setMc s t n { mcOf s t n with waiting := some o } := by
  simp [ringStart, h]

/-! The array after an MXA has issued. -/

section
variable {t : Fin 12} {n : Fin 32} {f : MxaFields} {s : State}

/-- An instruction that is ready goes past itself, and its array is replaced: memory stays. -/
theorem wentPast_setMc (h : canIssue s t n = true) (op : Nat) (x : MatrixCore) :
    let u := noteEnd (setMc (nextPc (noteIssue s t n op 0) t n) t n x) t n
    u.mem = s.mem ∧
      coreOf u (coreId t n) = { coreOf s (coreId t n) with opcode := 0, opmod := 0, pc := (pcOf s t n + 8) % 2 ^ 64 } ∧
      mcOf u t n = x :=
  ⟨by simp [mem_noteIssue], coreOf_noteEnd_nextPc (op := op) (md := 0) h rfl, by simp⟩

theorem execMxa_busy (hbusy : (mcOf s t n).cur.isSome = true ∨ (mcOf s t n).waiting.isSome = true) (h : canGo (.mxa t n f) s t n) :
    heldBack (.mxa t n f) s t n := by
  have hfree : ((mcOf s t n).cur.isNone && (mcOf s t n).waiting.isNone) = false := by
    rw [Bool.and_eq_false_iff, Option.isNone_eq_false_iff, Option.isNone_eq_false_iff]
    exact hbusy
  refine ⟨_, rfl, ?_⟩
  rw [hfree]
  exact issueWhen_busy h _ _

variable (hidle : ¬ ((mcOf s t n).cur.isSome = true ∨ (mcOf s t n).waiting.isSome = true)) (h : canIssue s t n = true)
include hidle h

/-- An MXA with none before it issues, with the operation that it takes from the state in which it is noted. -/
theorem execMxa_free {o : MxaOp} (ho : mxaOp (noteIssue s t n 0x40 0) t n f = (o, noteIssue s t n 0x40 0)) :
    let s₁ := nextPc (noteIssue s t n 0x40 0) t n
    exec (.mxa t n f) s = .next (noteEnd (
      if o.illegal then mcRaise (setMc s₁ t n { mcOf s t n with cur := some o }) t n 3 o.tag
      else if o.ring then ringStart s₁ t n o
      else setMc s₁ t n { mcOf s t n with cur := some o }) t n) := by
  have hfree : ((mcOf s t n).cur.isNone && (mcOf s t n).waiting.isNone) = true := by
    simpa [not_or] using hidle
  refine congrArg Host.Outcome.next ?_
  rw [hfree, issueWhen_free h]
  dsimp only
  rw [ho]
  simp only [mcOf_nextPc, mcOf_noteIssue]

/-- A legal MXA of the store enters the array with its operands. -/
theorem execMxa_store (hq : storeQuiet s t n) (hlegal : mxaLegal s t n f) (hring : f.ring = false) :
    answers (.mxa t n f) s fun u =>
      (u.mem = s.mem ∧
        coreOf u (coreId t n) = { coreOf s (coreId t n) with opcode := 0, opmod := 0, pc := (pcOf s t n + 8) % 2 ^ 64 }) ∧
      mcOf u t n = { mcOf s t n with cur := some (mxaTaken s t n f (mxaWeights s t n f)) } := by
  have ho := mxaOp_of_legal ((mxaLegal_noteIssue s t 0x40 0 n f).2 hlegal) (storeQuiet_noteIssue hq)
  rw [mxaTaken_noteIssue, mxaWeights_noteIssue, if_neg (by simp [hring])] at ho
  refine ⟨_, execMxa_free hidle h ho, ?_⟩
  rw [if_neg (by simp [mxaTaken]), if_neg (by simp [mxaTaken, hring])]
  obtain ⟨hmem, hcore, hmc⟩ := wentPast_setMc h 0x40 { mcOf s t n with cur := some (mxaTaken s t n f (mxaWeights s t n f)) }
  exact ⟨⟨hmem, hcore⟩, hmc⟩

/-- A legal MXA of an empty ring waits for its tile. -/
theorem execMxa_ring (hq : storeQuiet s t n) (hlegal : mxaLegal s t n f) (hring : f.ring = true) (hempty : (mcOf s t n).ring = []) :
    answers (.mxa t n f) s fun u =>
      (u.mem = s.mem ∧
        coreOf u (coreId t n) = { coreOf s (coreId t n) with opcode := 0, opmod := 0, pc := (pcOf s t n + 8) % 2 ^ 64 }) ∧
      mcOf u t n = { mcOf s t n with waiting := some (mxaTaken s t n f []) } := by
  have ho := mxaOp_of_legal ((mxaLegal_noteIssue s t 0x40 0 n f).2 hlegal) (storeQuiet_noteIssue hq)
  rw [mxaTaken_noteIssue, if_pos hring] at ho
  refine ⟨_, execMxa_free hidle h ho, ?_⟩
  rw [if_neg (by simp [mxaTaken]), if_pos (by simp [mxaTaken, hring])]
  rw [ringStart_empty (by simpa using hempty), mcOf_nextPc, mcOf_noteIssue]
  obtain ⟨hmem, hcore, hmc⟩ := wentPast_setMc h 0x40 { mcOf s t n with waiting := some (mxaTaken s t n f []) }
  exact ⟨⟨hmem, hcore⟩, hmc⟩

/-- An illegal MXA raises PROG_ERR and goes on; the banks stay. -/
theorem execMxa_illegal (hbad : ¬ mxaLegal s t n f) :
    answers (.mxa t n f) s fun u =>
      sticky u (mcPage t n) 3 = true ∧ u.mem = s.mem ∧ pcOf u t n = (pcOf s t n + 8) % 2 ^ 64 ∧
      (mcOf u t n).bankA = (mcOf s t n).bankA ∧ (mcOf u t n).bankB = (mcOf s t n).bankB := by
  obtain ⟨hillegal, hstate⟩ := mxaOp_of_not_legal (mt (mxaLegal_noteIssue s t 0x40 0 n f).1 hbad)
  refine ⟨_, execMxa_free hidle h (Prod.ext rfl hstate), ?_⟩
  rw [if_pos hillegal]
  have hpc := (onlyFaults_mcRaise (setMc (nextPc (noteIssue s t n 0x40 0) t n) t n
    { mcOf s t n with cur := some (mxaOp (noteIssue s t n 0x40 0) t n f).1 }) t n 3 (mxaOp (noteIssue s t n 0x40 0) t n f).1.tag).pcOf_eq t n
  refine ⟨?_, ?_, ?_, ?_, ?_⟩
  · rw [sticky_noteEnd]
    exact sticky_mcRaise _ t n _ (by decide)
  · simp [mcRaise, mem_noteIssue]
  · rw [pcOf_noteEnd, hpc, pcOf_setMc, pcOf_nextPc, pcOf_noteIssue]
  · simp
  · simp

end

/-! The start of an MXA that waits for its tile (R65). -/

section
variable {t : Fin 12} {n : Fin 32} {s : State} {o : MxaOp} {tile : RingTile} {rest : List RingTile}
  (hw : (mcOf s t n).waiting = some o) (hr : (mcOf s t n).ring = tile :: rest)
include hw hr

theorem execMxaStart_eq : exec (.mxaStart t n) s = .next (if ptAwake s t n then ringStart s t n o else s) := by
  refine congrArg Host.Outcome.next ?_
  simp only [hw, hr]

theorem execMxaStart_fits (hawake : ptAwake s t n = true) (hsize : tile.units * 128 = (tileShape o.wfmt o.sparse).total) :
    answers (.mxaStart t n) s fun u => u = s.setMcs u.mcs ∧
      mcOf u t n = { mcOf s t n with cur := some { o with wgt := tile.data, poisoned := tile.poisoned }, waiting := none } := by
  refine ⟨_, execMxaStart_eq hw hr, ?_⟩
  simp only [hawake, if_true, ringStart, hr, hsize]
  exact ⟨rfl, mcOf_setMc_same ..⟩

theorem execMxaStart_misfits (hawake : ptAwake s t n = true) (hsize : tile.units * 128 ≠ (tileShape o.wfmt o.sparse).total) :
    answers (.mxaStart t n) s fun u => sticky u (mcPage t n) 3 = true ∧
      mcOf u t n = { mcOf s t n with cur := some { o with illegal := true }, waiting := none, ring := rest } := by
  refine ⟨_, execMxaStart_eq hw hr, ?_⟩
  simp only [hawake, if_true, ringStart, hr, hsize, if_false]
  exact ⟨sticky_mcRaise _ t n _ (by decide), by simp⟩

end

/-- Settles O9: an MXA by what stands in the array and by what its fields allow, a waiting one by the size of the head tile. -/
theorem matrixIssue : Obligations.Matrix_issue := by
  intro t n f s
  refine ⟨execMxa_busy, fun hidle h hq => ⟨execMxa_store hidle h hq, execMxa_ring hidle h hq, execMxa_illegal hidle h⟩, ?_⟩
  intro o tile rest hw hr
  exact ⟨fun hasleep => (execMxaStart_eq hw hr).trans (by rw [hasleep]; rfl), execMxaStart_fits hw hr, execMxaStart_misfits hw hr⟩

end Sys2Proof.Machine
end

section
/-!
The end of an MXA and the readout (R66 to R70, R103): the statement Matrix_results. Counters and sources that an end or a readout adds
leave the arrays, so what a bank holds is read off the one replacement of its array.
-/

namespace Sys2Proof.Machine

open Sys2Proof

/-! The parts of an end (R66, R67). -/

/-- The head tile that was read without HOLD is released (R65). -/
theorem ringAfter_release (s : State) (t n : Nat) (ring : List RingTile) : ringAfter s t n false ring = ring.drop 1 := by
  cases ring <;> simp [ringAfter]

/-- The array after a legal MXA without HOLD (R66, R68): its sums in its bank, and the ring without the tile that it read. -/
def MatrixCore.ended (m : MatrixCore) (o : MxaOp) : MatrixCore :=
  { (m.setBank o.bank (bankAfter (m.bankOf o.bank) o)) with
    cur := none, ring := if o.ring then m.ring.drop 1 else m.ring }

@[simp] theorem MatrixCore.heldW_setBank (m : MatrixCore) (b : Bool) (x : Bank) : (m.setBank b x).heldW = m.heldW := by
  cases b <;> rfl

@[simp] theorem MatrixCore.mxrs_setBank (m : MatrixCore) (b : Bool) (x : Bank) : (m.setBank b x).mxrs = m.mxrs := by
  cases b <;> rfl

section
variable {s : State} {t n : Nat} {o : MxaOp} (hcur : (mcOf s t n).cur = some o)
include hcur

theorem mxaDone_illegal (hill : o.illegal = true) :
    ∃ w, onlyFaults s w ∧ mxaDone s t n = setMc w t n { mcOf s t n with cur := none } := by
  refine ⟨count (count s (mcPage t n) 0x800 1) (mcPage t n) 0x810 32, onlyFaults_trans (onlyFaults_count ..) (onlyFaults_count ..), ?_⟩
  simp only [mxaDone, hcur, hill, if_true, mcOf_count]

theorem mxaDone_legal (hill : o.illegal = false) (hhold : o.ring = true → o.hold = false) :
    ∃ w, onlyFaults s w ∧ mxaDone s t n = setMc w t n ((mcOf s t n).ended o) := by
  have raised (u : State) (p : Prop) [Decidable p] (src : Nat) : onlyFaults u (if p then mcRaise u t n src o.tag else u) :=
    onlyFaults_ite _ _ _ _ (onlyFaults_mcRaise ..) (onlyFaults_refl _)
  unfold mxaDone
  extract_lets m pg s₁
  split
  · next h => exact absurd (hcur.symm.trans h) (by simp)
  next o' h =>
  obtain rfl : o = o' := Option.some.inj (hcur.symm.trans h)
  extract_lets b clash k s₈ s₂ bad s₃ s₄ s₅ s₆ m₆ ring
  rw [if_neg (by simp [hill])]
  have h₁ : onlyFaults s s₁ := onlyFaults_trans (onlyFaults_count ..) (onlyFaults_count ..)
  have counted (u : State) (x y z : Nat) : onlyFaults u (count (count (count u pg 0x820 x) pg 0x828 y) pg 0x830 z) :=
    onlyFaults_trans (onlyFaults_trans (onlyFaults_count ..) (onlyFaults_count ..)) (onlyFaults_count ..)
  have h₂ : onlyFaults s₁ s₂ := onlyFaults_ite _ _ _ _ (onlyFaults_refl _)
    (onlyFaults_ite _ _ _ _ (onlyFaults_trans (counted ..) (onlyFaults_count ..)) (counted ..))
  have h₆ : onlyFaults s s₆ := onlyFaults_trans (onlyFaults_trans (onlyFaults_trans (onlyFaults_trans (onlyFaults_trans h₁ h₂)
    (onlyFaults_count ..)) (raised ..)) (raised ..)) (raised ..)
  refine ⟨s₆, h₆, congrArg _ ?_⟩
  have hm₆ : m₆ = mcOf s t n := h₆.mcOf_eq t n
  clear_value s₆ m₆
  subst hm₆
  have hring : ring = if o.ring then (mcOf s t n).ring.drop 1 else (mcOf s t n).ring := by
    simp only [ring]
    split
    · next h => rw [hhold h, ringAfter_release]
    · rfl
  clear_value ring
  subst hring
  rfl

end

/-- The writes that the core store held land: at most memory and the list of them change (R67). -/
theorem landHeld_eq (s : State) (t n : Nat) :
    landHeld s t n = (setMc s t n { mcOf s t n with heldW := [] }).setMem (landHeld s t n).mem := by
  have hfold (l : List HeldWrite) (u : State) : foldList (fun w st => writeBytes st (storeKey t n w.off) w.data) l u =
      u.setMem (foldList (fun w st => writeBytes st (storeKey t n w.off) w.data) l u).mem := by
    induction l generalizing u with
    | nil => rfl
    | cons w l ih => rw [foldList, ih]; rfl
  exact hfold _ _

@[simp] theorem mcOf_landHeld (s : State) (t n : Nat) : mcOf (landHeld s t n) t n = { mcOf s t n with heldW := [] } := by
  rw [landHeld_eq]
  exact mcOf_setMc_same ..

/-- Where no MXR waits, none is carried out. -/
theorem mxrDrain_none {s : State} {t n : Nat} (bank : Bool) (h : (mcOf s t n).mxrs = []) :
    mxrDrain s t n bank = setMc s t n (mcOf s t n) := by
  have hm : { mcOf s t n with mxrs := [] } = mcOf s t n := by rw [← h]
  simp only [mxrDrain, h, List.filter_nil, foldList, hm]

/-- What memory holds once a store has let go the writes that it held, where there is at most one (R67). -/
def heldLands (s u : State) (t n : Nat) : Prop :=
  ((mcOf s t n).heldW = [] → u.mem = s.mem) ∧
  ∀ w, (mcOf s t n).heldW = [w] → u.mem = s.mem.writeBytes (tlaKey t (storeTla n + w.off)) w.data

/-- The end of an MXA for which no MXR waits: the array that it leaves, and the writes that land. -/
theorem answers_mxaEnd {t : Fin 12} {n : Fin 32} {s w : State} {o : MxaOp} {x : MatrixCore} (hawake : ptAwake s t n = true)
    (hcur : (mcOf s t n).cur = some o) (hw : onlyFaults s w) (hdone : mxaDone s t n = setMc w t n x) (hmxrs : x.mxrs = [])
    (hheld : x.heldW = (mcOf s t n).heldW) :
    answers (.mxaEnd t n none) s fun u => heldLands s u t n ∧ mcOf u t n = { x with heldW := [] } := by
  have hrun : exec (.mxaEnd t n none) s = .next (mxrDrain (landHeld (setMc w t n x) t n) t n o.bank) := by
    refine congrArg Host.Outcome.next ?_
    rw [hawake, if_pos rfl, mxaFinish, hcur]
    exact congrArg (fun y => mxrDrain (landHeld y t n) t n o.bank) hdone
  refine ⟨_, hrun, ?_⟩
  rw [mxrDrain_none _ (by simpa using hmxrs)]
  refine ⟨⟨fun hnone => ?_, fun e hone => ?_⟩, by simp⟩
  · rw [mem_setMc, landHeld, mcOf_setMc_same, hheld, hnone]
    exact hw.mem_eq
  · rw [mem_setMc, landHeld, mcOf_setMc_same, hheld, hone, ← hw.mem_eq]
    rfl

/-! The parts of a readout (R66, R70). -/

/-- The comparison of a bank adds counters, sources and what it shows of a failure (R77). -/
theorem onlyFaults_compareBank (s : State) (t n : Nat) (b : Bank) (r : MxrOp) : onlyFaults s (compareBank s t n b r) := by
  have hcount (c : ColCheck) (u : State) : onlyFaults u (countCheck u t n c) := by
    cases c <;> exact onlyFaults_count ..
  have hcounts : onlyFaults s (foldList (fun c st => countCheck st t n c) ((List.range 16).map (colCheck b r.tol)) s) :=
    foldList_induction (P := onlyFaults s) (fun c u hu => onlyFaults_trans hu (hcount c u)) _ (onlyFaults_refl s)
  have hraise (u : State) (p : Prop) [Decidable p] : onlyFaults u (if p then mcRaise u t n 1 r.tag else u) :=
    onlyFaults_ite _ _ _ _ (onlyFaults_mcRaise ..) (onlyFaults_refl _)
  have hshow (u : State) (off v : Nat) (hoff : off = 0x0A0 ∨ off = 0x0A4 ∨ off = 0x0A8) : onlyFaults u (pset u (mcPage t n) off v) :=
    onlyFaults_pset _ _ _ _ (by omega) (by omega)
  unfold compareBank
  extract_lets pg cs s₁ s₂
  have h₂ : onlyFaults s s₂ := onlyFaults_trans hcounts (hraise ..)
  clear_value s₂ cs
  split
  · exact h₂
  · split
    · refine onlyFaults_trans h₂ (onlyFaults_trans (onlyFaults_trans (onlyFaults_trans (hshow _ _ _ (.inl rfl))
        (hshow _ _ _ (.inr (.inl rfl)))) (hshow _ _ _ (.inr (.inr rfl)))) (onlyFaults_mcRaise ..))
    · exact h₂

/-- An array with no MXA reads no line. -/
theorem MatrixCore.reads_idle {m : MatrixCore} (hcur : m.cur = none) (hwait : m.waiting = none) (line : Nat) :
    m.reads line = false := by
  simp [MatrixCore.reads, hcur, hwait]

/-- A legal MXR of an idle array: its output in the store, its bank as R66 leaves it, and a poisoned bank raised (R70). -/
theorem mxrLegal_spec {s : State} {t : Fin 12} {n : Fin 32} (r : MxrOp) (code : Nat) (hcur : (mcOf s t n).cur = none)
    (hwait : (mcOf s t n).waiting = none) :
    let b := (mcOf s t n).bankOf r.bank
    let u := mxrLegal s t n r code
    u.mem = s.mem.writeBytes (storeKey t n r.oaddr) (mxrOut b code) ∧
      mcOf u t n = (if r.keep then mcOf s t n else (mcOf s t n).setBank r.bank { Bank.empty with poison := b.poison }) ∧
      (b.poison = true → sticky u (mcPage t n) 4 = true) ∧ pcOf u t n = pcOf s t n := by
  intro b
  generalize hu : mxrLegal s t n r code = u
  unfold mxrLegal at hu
  extract_lets pg m b' s₁ s₂ s₃ s₄ s₅ m₅ m₆ at hu
  have h₂ : onlyFaults s₁ s₂ ∧ (b.poison = true → sticky s₂ (mcPage t n) 4 = true) := by
    refine ⟨onlyFaults_ite _ _ _ _ (onlyFaults_mcRaise ..) (onlyFaults_refl _), fun hpoison => ?_⟩
    rw [show s₂ = mcRaise s₁ t n 4 r.tag from if_pos hpoison]
    exact sticky_mcRaise _ _ _ _ (by decide)
  have h₃ : onlyFaults s₂ s₃ := onlyFaults_ite _ _ _ _ (onlyFaults_compareBank ..) (onlyFaults_count ..)
  have hmc₃ : mcOf s₃ t n = { mcOf s t n with mxrs := r :: (mcOf s t n).mxrs } := by
    rw [h₃.mcOf_eq, h₂.1.mcOf_eq]; exact mcOf_setMc_same ..
  have h₄ : s₄ = s₃.setMem (s₃.mem.writeBytes (storeKey t n r.oaddr) (mxrOut b code)) :=
    storeWrite_free _ _ fun line => by rw [hmc₃]; exact MatrixCore.reads_idle hcur hwait line
  have h₅ : onlyFaults s₄ s₅ := onlyFaults_count ..
  have hmc : m₆ = mcOf s t n := by
    have hm₅ : m₅ = { mcOf s t n with mxrs := r :: (mcOf s t n).mxrs } := by
      rw [← hmc₃, show m₅ = mcOf s₅ t n from rfl, h₅.mcOf_eq, h₄]; rfl
    simp only [m₆, hm₅, List.drop_succ_cons, List.drop_zero]
  refine ⟨?_, ?_, fun hpoison => ?_, ?_⟩
  · rw [← hu, mem_setMc, h₅.mem_eq, h₄, setMem_mem, h₃.mem_eq, h₂.1.mem_eq]; rfl
  · rw [← hu, mcOf_setMc_same, hmc]
  · rw [← hu]
    exact h₅.2.2.2.2 _ _ (by decide) (by rw [h₄]; exact h₃.2.2.2.2 _ _ (by decide) (h₂.2 hpoison))
  · rw [← hu, pcOf_setMc, h₅.pcOf_eq, h₄]
    exact (h₃.pcOf_eq t n).trans (h₂.1.pcOf_eq t n)

theorem mxrBytes_le (code : Nat) : mxrBytes code ≤ 16384 := by
  have hwidth : fmtWidth code ≤ 32 := by
    unfold fmtWidth
    split <;> decide
  unfold mxrBytes
  omega

/-! A readout that issues (R103). -/

/-- The readout that an MXR commands. -/
def mxrTaken (s : State) (t n : Nat) (f : MxrFields) : MxrOp :=
  ⟨f.bank, f.keep, f.ofmt.toNat, opAddr s t n f.oreg.toNat f.oaddr.toNat, (coreOf s (coreId t n)).tag,
    bitOf (pget s (mcPage t n) 0x080) 8, fld (pget s (mcPage t n) 0x080) 4 0⟩

/-- The output code of an MXR that finds its bank as it stands. -/
def mxrCodeNow (s : State) (t n : Nat) (f : MxrFields) : Nat := mxrCode ((mcOf s t n).bankOf f.bank) f.ofmt.toNat

theorem pget_noteIssue_mcPart (s : State) (t op md page off : Nat) (n : Fin 32) :
    pget (noteIssue s t n op md) page off = pget s page off := by
  rw [noteIssue_mcPart]; rfl

theorem tag_noteIssue (s : State) (t p op md : Nat) :
    (coreOf (noteIssue s t p op md) (coreId t p)).tag = (coreOf s (coreId t p)).tag := by
  rw [coreOf_noteIssue, if_pos rfl]

section
variable {t : Fin 12} {n : Fin 32} {f : MxrFields} {s : State} (h : canIssue s t n = true)
include h

section
variable (hcur : (mcOf s t n).cur = none) (hwait : (mcOf s t n).waiting = none) (hmxrs : (mcOf s t n).mxrs = [])
include hcur hwait hmxrs

theorem execMxr_fits (hfits : opAddr s t n f.oreg.toNat f.oaddr.toNat + mxrBytes (mxrCodeNow s t n f) ≤ storeSize n) :
    exec (.mxr t n f) s =
      .next (noteEnd (mxrLegal (nextPc (noteIssue s t n 0x41 0) t n) t n (mxrTaken s t n f) (mxrCodeNow s t n f)) t n) := by
  refine congrArg Host.Outcome.next ?_
  unfold mxrCodeNow at hfits
  rw [issue, if_pos h]
  simp [hcur, hwait, hmxrs, opAddr_noteIssue, mxrRun, inStore, mxrTaken, mxrCodeNow, hfits, tag_noteIssue,
    pget_noteIssue_mcPart]

theorem execMxr_outside (hout : storeSize n < opAddr s t n f.oreg.toNat f.oaddr.toNat + mxrBytes (mxrCodeNow s t n f)) :
    exec (.mxr t n f) s = .next (noteEnd (illegal (noteIssue s t n 0x41 0) t n) t n) := by
  refine congrArg Host.Outcome.next ?_
  unfold mxrCodeNow at hout
  rw [issue, if_pos h]
  simp [hcur, hwait, hmxrs, opAddr_noteIssue, inStore, hout]

/-- An MXR of an idle array writes its bank to the store (R70, R103). -/
theorem answers_mxr_fits (hfits : opAddr s t n f.oreg.toNat f.oaddr.toNat + mxrBytes (mxrCodeNow s t n f) ≤ storeSize n) :
    let m := mcOf s t n
    let b := m.bankOf f.bank
    let out := mxrOut b (mxrCodeNow s t n f)
    let key := tlaKey t (storeTla n + opAddr s t n f.oreg.toNat f.oaddr.toNat)
    answers (.mxr t n f) s fun u =>
      u.mem.readBytes key out.length = out ∧ memSameOutside s u key (key + out.length) ∧
      mcOf u t n = (if f.keep then m else m.setBank f.bank { Bank.empty with poison := b.poison }) ∧
      (b.poison = true → sticky u (mcPage t n) 4 = true) ∧ pcOf u t n = (pcOf s t n + 8) % 2 ^ 64 := by
  intro m b out key
  refine ⟨_, execMxr_fits h hcur hwait hmxrs hfits, ?_⟩
  have hm : mcOf (nextPc (noteIssue s t n 0x41 0) t n) t n = m := by simp [m]
  have hspec := mxrLegal_spec (s := nextPc (noteIssue s t n 0x41 0) t n) (mxrTaken s t n f) (mxrCodeNow s t n f)
    (by rw [hm]; exact hcur) (by rw [hm]; exact hwait)
  simp only [hm] at hspec
  obtain ⟨hmem, hmc, hpoison, hpc⟩ := hspec
  set u := mxrLegal (nextPc (noteIssue s t n 0x41 0) t n) t n (mxrTaken s t n f) (mxrCodeNow s t n f)
  have hmem : (noteEnd u t n).mem = s.mem.writeBytes key out := by
    rw [mem_noteEnd, hmem, mem_nextPc, mem_noteIssue]; rfl
  refine ⟨?_, fun a ha => ?_, ?_, fun hp => ?_, ?_⟩
  · rw [hmem, Memory.readBytes_writeBytes]
  · rw [hmem, Memory.readByte_writeBytes_outside _ _ _ _ ha]
  · rw [mcOf_noteEnd, hmc]; rfl
  · rw [sticky_noteEnd]; exact hpoison hp
  · rw [pcOf_noteEnd, hpc, pcOf_nextPc, pcOf_noteIssue]

/-- An MXR whose output does not fit in the store is illegal (R95, R103). -/
theorem answers_mxr_outside (hout : storeSize n < opAddr s t n f.oreg.toNat f.oaddr.toNat + mxrBytes (mxrCodeNow s t n f)) :
    answers (.mxr t n f) s fun u =>
      sticky u (mcPage t n) 3 = true ∧ u.mem = s.mem ∧ mcOf u t n = mcOf s t n ∧ pcOf u t n = (pcOf s t n + 8) % 2 ^ 64 := by
  refine ⟨_, execMxr_outside h hcur hwait hmxrs hout, ?_⟩
  have hsrc : progErrSource n = 3 := if_pos n.isLt
  obtain ⟨hfaults, hset⟩ := raiseTag_spec (noteIssue s t n 0x41 0) (mcPage t n) 3 (ptTag (noteIssue s t n 0x41 0) t n)
  rw [illegal, progErr, hsrc, ptPage_mcPart]
  refine ⟨?_, ?_, ?_, ?_⟩
  · rw [sticky_noteEnd]
    exact hset _ (pageBlock_mcPage t n) (by decide) (by decide)
  · rw [mem_noteEnd, mem_nextPc, hfaults.mem_eq, mem_noteIssue]
  · rw [mcOf_noteEnd, mcOf_nextPc, hfaults.mcOf_eq, mcOf_noteIssue]
  · rw [pcOf_noteEnd, pcOf_nextPc, hfaults.pcOf_eq, pcOf_noteIssue]

end

/-- An MXR of the bank of an unfinished MXA waits for its end (R67); 16,384 bytes are room for any output. -/
theorem answers_mxr_busy {o : MxaOp} (hcur : (mcOf s t n).cur = some o) (hbank : o.bank = f.bank) (hmxrs : (mcOf s t n).mxrs = [])
    (hroom : opAddr s t n f.oreg.toNat f.oaddr.toNat + 16384 ≤ storeSize n) :
    answers (.mxr t n f) s fun u => u.mem = s.mem ∧ pcOf u t n = (pcOf s t n + 8) % 2 ^ 64 ∧
      ∃ r : MxrOp, r.bank = f.bank ∧ r.keep = f.keep ∧ r.oaddr = opAddr s t n f.oreg.toNat f.oaddr.toNat ∧
        mcOf u t n = { mcOf s t n with mxrs := [r] } := by
  have hrun : exec (.mxr t n f) s = .next (noteEnd (setMc (nextPc (noteIssue s t n 0x41 0) t n) t n
      { mcOf s t n with mxrs := [mxrTaken s t n f] }) t n) := by
    have hin (code : Nat) : opAddr s t n f.oreg.toNat f.oaddr.toNat + mxrBytes code ≤ storeSize n := by
      have := mxrBytes_le code
      omega
    refine congrArg Host.Outcome.next ?_
    rw [issue, if_pos h]
    simp [hcur, hbank, hmxrs, opAddr_noteIssue, inStore, Nat.not_lt.2 (hin _), mxrTaken, tag_noteIssue, pget_noteIssue_mcPart]
  refine ⟨_, hrun, ?_, ?_, mxrTaken s t n f, rfl, rfl, rfl, ?_⟩
  · simp [mem_noteIssue]
  · rw [pcOf_noteEnd, pcOf_setMc, pcOf_nextPc, pcOf_noteIssue]
  · simp

end

/-- Settles O10: an end by whether its MXA was legal, an MXR by what stands in the array and by the room that the store has. -/
theorem matrixResults : Obligations.Matrix_results := by
  intro t n f s
  refine ⟨fun up hasleep => ?_, fun o hawake hcur hmxrs hhold => ⟨fun hill => ?_, fun hill => ?_⟩, fun up hcur => ?_, fun h => ⟨?_, ?_⟩⟩
  · exact congrArg Host.Outcome.next (if_neg (by simp [hasleep]))
  · obtain ⟨w, hw, hdone⟩ := mxaDone_legal hcur hill hhold
    exact answers_mxaEnd hawake hcur hw hdone (by simpa [MatrixCore.ended] using hmxrs) (by simp [MatrixCore.ended])
  · obtain ⟨w, hw, hdone⟩ := mxaDone_illegal hcur hill
    exact answers_mxaEnd hawake hcur hw hdone hmxrs rfl
  · refine congrArg Host.Outcome.next ?_
    rw [mxaFinish, hcur]
    exact ite_self s
  · exact fun hcur hwait hmxrs => ⟨answers_mxr_fits h hcur hwait hmxrs, answers_mxr_outside h hcur hwait hmxrs⟩
  · exact fun o hcur hbank hmxrs hroom => answers_mxr_busy h hcur hbank hmxrs hroom

end Sys2Proof.Machine
end

section
/-!
The state after reset (R487): the statement Reset_state. A register that nothing has stored reads the reset value of its table, and the
table of no block gives FLT_STICKY a set bit.
-/

namespace Sys2Proof.Machine

open Sys2Proof

theorem regDesc_sticky_reset (b : Block) : ∀ d ∈ regDesc b 0x020, d.reset = 0 := by
  cases b <;> decide

/-- FLT_STICKY resets to 0 on every page (R487). -/
theorem regReset_sticky (page : Nat) : regReset (regOff page 0x020) = 0 := by
  have hpage : regOff page 0x020 / 0x1000 = page := by unfold regOff; omega
  have hoff : regOff page 0x020 % 0x1000 = 0x020 := by unfold regOff; omega
  unfold regReset
  simp only [hpage, hoff]
  cases hb : pageBlock page with
  | none => rfl
  | some b =>
    have hreset := regDesc_sticky_reset b
    cases hd : regDesc b 0x020 with
    | none => simp [hd]
    | some d => simp [hd, hreset d hd]

theorem regGet_reset (off : Nat) : regGet State.reset off = regReset off := rfl

theorem sticky_reset (page src : Nat) : sticky State.reset page src = false := by
  rw [sticky, pget, regGet_reset, regReset_sticky]
  simp [bitOf]

/-- Settles O60: the registers that it names by their reset values, the sticky bits of every page by the tables of the blocks. -/
theorem resetState : Obligations.Reset_state := by
  have hpower : pState State.reset = 0 ∧ pget State.reset pwrPage 0x080 = 0x0000000A ∧
      pget State.reset pwrPage 0x08C = 0x006403E8 ∧ pget State.reset pwrPage 0x090 = 0x0000000A := by decide
  have htile : ∀ t < 12, pget State.reset (tilePage t 83) 0x08C = 0x30 ∧ pget State.reset (tilePage t 83) 0x090 = 0x78 := by
    decide
  have hbase : ∀ a < 4, pget State.reset (basePage a 10) 0x090 = 0xA0 := by decide
  obtain ⟨hstate, hctl, hdwell, hdwellHearth⟩ := hpower
  exact ⟨rfl, rfl, Memory.wf_reset, rfl, rfl, rfl, rfl, fun _ => rfl, fun page _ src _ => sticky_reset page src, hstate, hctl,
    hdwell, hdwellHearth, htile, hbase⟩

end Sys2Proof.Machine
end

section
/-!
Selections, the error-record ring and the clear of counters (R88, R167, R455, R501, R503): the statement Selections_and_ring. Each
write of a register names the registers that it may change, and a snapshot is read back register by register.
-/

namespace Sys2Proof.Machine

open Sys2Proof

/-! Registers that a write may change. -/

theorem onlyRegsAt_refl (s : State) (offs : List Nat) : onlyRegsAt s s offs := ⟨rfl, fun _ _ => rfl⟩

theorem onlyRegsAt_trans {s u v : State} {offs : List Nat} (h : onlyRegsAt s u offs) (h' : onlyRegsAt u v offs) :
    onlyRegsAt s v offs := by
  refine ⟨?_, fun o ho => (h'.2 o ho).trans (h.2 o ho)⟩
  calc v = { u with regs := { u.regs with vals := v.regs.vals } } := h'.1
    _ = { s with regs := { s.regs with vals := v.regs.vals } } := by rw [h.1]

theorem onlyRegsAt_pset (s : State) (p o v : Nat) {offs : List Nat} (h : regOff p o ∈ offs) : onlyRegsAt s (pset s p o v) offs :=
  ⟨rfl, fun o' ho => by rw [pset, regGet_regSet, if_neg fun e => ho (by rw [e]; exact h)]⟩

theorem onlyRegsAt_ite {s u v : State} {offs : List Nat} {c : Prop} [Decidable c] (h : onlyRegsAt s u offs) (h' : onlyRegsAt s v offs) :
    onlyRegsAt s (if c then u else v) offs := by
  split <;> assumption

/-- A register stored changes nothing but registers. -/
theorem pset_of_eq_setRegs {s u : State} (p o v : Nat) (h : u = { s with regs := u.regs }) :
    pset u p o v = { s with regs := (pset u p o v).regs } := by
  calc pset u p o v = { u with regs := (pset u p o v).regs } := rfl
    _ = { s with regs := (pset u p o v).regs } := congrArg (fun x : State => { x with regs := (pset u p o v).regs }) h

/-! Snapshots: words shown in consecutive registers. -/

/-- `m` words shown from an offset of a page on. -/
def showWords (p base m : Nat) (g : Nat → Nat) (s : State) : State :=
  foldList (fun k st => pset st p (base + 4 * k) (g k)) (List.range m) s

theorem foldList_append {α σ : Type} (f : α → σ → σ) (l l' : List α) (s : σ) :
    foldList f (l ++ l') s = foldList f l' (foldList f l s) := by
  induction l generalizing s with
  | nil => rfl
  | cons a l ih => exact ih (f a s)

theorem showWords_succ (p base m : Nat) (g : Nat → Nat) (s : State) :
    showWords p base (m + 1) g s = pset (showWords p base m g s) p (base + 4 * m) (g m) := by
  rw [showWords, List.range_succ, foldList_append]; rfl

theorem showWords_eq (p base m : Nat) (g : Nat → Nat) (s : State) :
    showWords p base m g s = { s with regs := (showWords p base m g s).regs } := by
  induction m with
  | zero => rfl
  | succ m ih => rw [showWords_succ]; exact pset_of_eq_setRegs _ _ _ ih

/-- A register of any page after a snapshot is shown. -/
theorem pget_showWords {p base m : Nat} (g : Nat → Nat) (s : State) (hm : base + 4 * m ≤ 0x1000) {p' o : Nat} (ho : o < 0x1000) :
    pget (showWords p base m g s) p' o =
      if p' = p ∧ base ≤ o ∧ o < base + 4 * m ∧ (o - base) % 4 = 0 then g ((o - base) / 4) % 2 ^ 32 else pget s p' o := by
  induction m with
  | zero => rw [if_neg (by omega)]; rfl
  | succ m ih =>
    rw [showWords_succ, pget_pset _ _ _ _ _ _ (by omega) ho, ih (by omega)]
    by_cases hlast : p' = p ∧ o = base + 4 * m
    · obtain ⟨rfl, rfl⟩ := hlast
      rw [if_pos ⟨rfl, rfl⟩, if_pos (by omega), show (base + 4 * m - base) / 4 = m by omega]
    · rw [if_neg hlast]
      exact if_congr (by omega) rfl rfl

theorem leNat_lt (l : List Byte) : leNat l < 256 ^ l.length := by
  induction l with
  | nil => exact Nat.one_pos
  | cons b l ih =>
    have := b.isLt
    rw [leNat, List.length_cons, Nat.pow_succ]
    omega

/-- A field of four bytes is a word. -/
theorem field_four_lt (l : List Byte) (off : Nat) : field l off 4 < 2 ^ 32 :=
  calc field l off 4 < 256 ^ ((l.drop off).take 4).length := leNat_lt _
    _ ≤ 256 ^ 4 := Nat.pow_le_pow_right (by decide) (List.length_take_le ..)

theorem pget_showWords_field {p base m : Nat} (l : List Byte) (s : State) (hm : base + 4 * m ≤ 0x1000) {k : Nat} (hk : k < m) :
    pget (showWords p base m (fun k => field l (4 * k) 4) s) p (base + 4 * k) = field l (4 * k) 4 := by
  rw [pget_showWords _ _ hm (by omega), if_pos ⟨rfl, by omega⟩, show (base + 4 * k - base) / 4 = k by omega,
    Nat.mod_eq_of_lt (field_four_lt ..)]

/-! Selections (R167, R501, R503). -/

theorem seqSelect_eq (s : State) (v : Nat) : seqSelect s v = showWords (modPage 11) 0x100 16
    (fun k => field (seqBytes (seqOf s (v % 4096))) (4 * k) 4) (pset s (modPage 11) 0x0C4 (v % 4096)) := rfl

theorem hrecSelect_eq (s : State) (v : Nat) : hrecSelect s v = showWords (modPage 6) 0x200 82
    (fun k => field ((s.flt.records[v % 256]?).getD []) (4 * k) 4) (pset s (modPage 6) 0x0A0 (v % 256)) := rfl

/-- SP_SEQ_SEL (R167). -/
theorem seqSelect_spec (s : State) (v : Nat) :
    let u := seqSelect s v
    u = { s with regs := u.regs } ∧ pget u (modPage 6) 0x094 = pget s (modPage 6) 0x094 ∧ pget u (modPage 11) 0x0C4 = v % 4096 ∧
      ∀ k < 16, pget u (modPage 11) (0x100 + 4 * k) = field (seqBytes (seqOf s (v % 4096))) (4 * k) 4 := by
  rw [seqSelect_eq]
  refine ⟨?_, ?_, ?_, fun k hk => pget_showWords_field _ _ (by decide) hk⟩
  · exact showWords_eq ..
  · rw [pget_showWords _ _ (by decide) (by decide), if_neg (by decide), pget_pset _ _ _ _ _ _ (by decide) (by decide),
      if_neg (by decide)]
  · rw [pget_showWords _ _ (by decide) (by decide), if_neg (by decide), pget_pset _ _ _ _ _ _ (by decide) (by decide),
      if_pos ⟨rfl, rfl⟩]
    omega

/-- FS_HREC_SEL (R501). -/
theorem hrecSelect_spec (s : State) (v : Nat) :
    let u := hrecSelect s v
    u = { s with regs := u.regs } ∧ pget u (modPage 6) 0x0A0 = v % 256 ∧
      ∀ k < 82, pget u (modPage 6) (0x200 + 4 * k) = field ((s.flt.records[v % 256]?).getD []) (4 * k) 4 := by
  rw [hrecSelect_eq]
  refine ⟨?_, ?_, fun k hk => pget_showWords_field _ _ (by decide) hk⟩
  · exact showWords_eq ..
  · rw [pget_showWords _ _ (by decide) (by decide), if_neg (by decide), pget_pset _ _ _ _ _ _ (by decide) (by decide),
      if_pos ⟨rfl, rfl⟩]
    omega

/-- TO_PORT_SEL (R503). -/
theorem portSelect_spec (s : State) (v : Nat) :
    let u := portSelect s v
    u = { s with regs := u.regs } ∧ pget u (modPage 8) 0x088 = v % 8 ∧
      (kfind s.chain.expect (v % 8) = none → pget u (modPage 8) 0x08C = 0xFFFF) := by
  refine ⟨pset_of_eq_setRegs _ _ _ (pset_of_eq_setRegs _ _ _ rfl), ?_, fun hnone => ?_⟩
  · simp [portSelect, pget_pset]
    omega
  · simp [portSelect, pget_pset, hnone, b2n]

/-- TO_RT_SEL (R503). -/
theorem routeSelect_spec (s : State) (v : Nat) :
    let u := routeSelect s v
    u = { s with regs := u.regs } ∧ pget u (modPage 8) 0x090 = v % 64 ∧
      (s.chain.routes.length ≤ v % 64 → pget u (modPage 8) 0x094 = 0xFFFF ∧ pget u (modPage 8) 0x098 % 2 ^ 8 = 0) := by
  refine ⟨pset_of_eq_setRegs _ _ _ (pset_of_eq_setRegs _ _ _ (pset_of_eq_setRegs _ _ _ rfl)), ?_, fun hend => ⟨?_, ?_⟩⟩
  · simp [routeSelect, pget_pset]
    omega
  · simp [routeSelect, List.getElem?_eq_none hend, pget_pset]
  · simp [routeSelect, List.getElem?_eq_none hend, pget_pset]

theorem b2n_le_one (b : Bool) : b2n b ≤ 1 := by cases b <;> decide

/-- TC_STRIKE_SEL (R455). -/
theorem strikeSelect_spec (s : State) (t v : Nat) :
    let u := strikeSelect s t v
    let k := if unitOk (v % 512) then v % 512 else 0
    onlyRegsAt s u [regOff (tilePage t 0) 0x758, regOff (tilePage t 0) 0x75C] ∧ pget u (tilePage t 0) 0x758 = k ∧
      pget u (tilePage t 0) 0x75C = min 15 (unitOf s t k).strikes + 16 * b2n (unitOf s t k).quarantined := by
  intro u k
  have hk : k < 512 := by simp only [k]; split <;> omega
  have hword : min 15 (unitOf s t k).strikes + 16 * b2n (unitOf s t k).quarantined < 2 ^ 32 := by
    have := b2n_le_one (unitOf s t k).quarantined
    omega
  refine ⟨onlyRegsAt_trans (onlyRegsAt_pset _ _ _ _ (by simp)) (onlyRegsAt_pset _ _ _ _ (by simp)), ?_, ?_⟩
  · simp only [u, strikeSelect, pget_pset, Nat.reduceLT, Nat.reduceEqDiff, and_false, if_false, and_self, if_true]
    exact Nat.mod_eq_of_lt (by omega)
  · simp only [u, strikeSelect, pget_pset, Nat.reduceLT, and_self, if_true]
    exact Nat.mod_eq_of_lt hword

/-- A write to a register of the tile-control page, which lies in no half: it is applied where the page serves (R489). -/
theorem writesReg_tileControl {i : Instr} {s : State} {t : Fin 12} {f : State → State} {P : State → State → Prop}
    (hi : exec i s = .next (blockWrite (wakeFor s 1) (tilePage t 0) f)) (hf : ∀ w, P w (f w)) : writesReg i s (tilePage t 0) P := by
  have hplace : ∀ t : Fin 12, pagePlace (tilePage t 0) = .tile t 0 := by decide
  unfold writesReg
  intro w
  refine ⟨fun hserved => ⟨_, hi, ?_⟩, fun hout => hi.trans (congrArg _ ?_)⟩
  · simp only [served, Bool.and_eq_true, Bool.not_eq_true'] at hserved
    rw [blockWrite, hserved.1, hserved.2]
    exact hf _
  · simp only [served, Bool.and_eq_false_iff, Bool.not_eq_false'] at hout
    unfold blockWrite
    split
    · rfl
    · obtain hreset | hserves := hout
      · contradiction
      · rw [show pageServes (wakeFor s 1) (tilePage t 0) = false from hserves, Bool.not_false, if_pos rfl, gatedPage, hplace]
        simp [pageHalf, w]

/-! The error-record ring (R500, R501). -/

/-- The registers of the ring. -/
def ringRegs : List Nat := [0x090, 0x094, 0x098, 0x09C].map (regOff (modPage 6))

theorem regOff_mem_ringRegs {o : Nat} (h : o = 0x090 ∨ o = 0x094 ∨ o = 0x098 ∨ o = 0x09C) : regOff (modPage 6) o ∈ ringRegs :=
  List.mem_map_of_mem (by simpa using h)

theorem regGet_lt {s : State} {off : Nat} (h : regReset off < 2 ^ 32) : regGet s off < 2 ^ 32 := by
  unfold regGet
  split
  · exact BitVec.isLt _
  · exact h

/-- FS_RING_TAIL (R501). -/
theorem ringTailWrite_spec (s : State) {v : Nat} (hv : v < 2 ^ 32) :
    let u := ringTailWrite s v
    let head := pget s (modPage 6) 0x098
    let ahead := ¬ (head + 2 ^ 32 - v) % 2 ^ 32 < 2 ^ 31
    onlyRegsAt s u [regOff (modPage 6) 0x09C] ∧ (¬ ahead → pget u (modPage 6) 0x09C = v) ∧ (ahead → pget u (modPage 6) 0x09C = head) := by
  intro u head ahead
  have hhead : head < 2 ^ 32 := regGet_lt (by decide)
  have htail : pget u (modPage 6) 0x09C = (if (head + 2 ^ 32 - v) % 2 ^ 32 < 2 ^ 31 then v else head) % 2 ^ 32 := by
    simp only [u, ringTailWrite, pget_pset, Nat.reduceLT, and_self, if_true, head]
  refine ⟨onlyRegsAt_pset _ _ _ _ (.head _), fun h => ?_, fun h => ?_⟩
  · rw [htail, if_pos (not_not.1 h), Nat.mod_eq_of_lt hv]
  · rw [htail, if_neg h, Nat.mod_eq_of_lt hhead]

/-- FS_RING_DA_LO (R501). -/
theorem ringDaWrite_spec (s : State) (v : Nat) :
    let u := ringDaWrite s v
    let on := bitOf (pget s (modPage 6) 0x094) 16
    onlyRegsAt s u ringRegs ∧ (on = true → u = s) ∧
      (on = false → pget u (modPage 6) 0x090 = min (fld v 27 7 * 128) ((0x4000000 - 768) / 128 * 128)) := by
  intro u on
  cases hon : on with
  | true =>
    have hu : u = s := if_pos hon
    exact ⟨by rw [hu]; exact onlyRegsAt_refl s _, fun _ => hu, nofun⟩
  | false =>
    have hbase : min (fld v 27 7 * 128) ((sbSize - 768) / 128 * 128) < 2 ^ 32 := (Nat.min_le_right ..).trans_lt (by decide)
    have hu : u = _ := if_neg (Bool.eq_false_iff.1 hon)
    refine ⟨?_, nofun, fun _ => ?_⟩
    · rw [hu]
      have hda := onlyRegsAt_pset s (modPage 6) 0x090 (min (fld v 27 7 * 128) ((sbSize - 768) / 128 * 128))
        (regOff_mem_ringRegs (.inl rfl))
      exact onlyRegsAt_ite hda (onlyRegsAt_trans hda (onlyRegsAt_pset _ _ _ _ (regOff_mem_ringRegs (.inr (.inl rfl)))))
    · rw [hu]
      split <;> simp only [pget_pset, Nat.reduceLT, Nat.reduceEqDiff, and_false, and_self, if_true, if_false] <;>
        exact Nat.mod_eq_of_lt hbase

theorem clampSlots_bounds (da v : Nat) : 1 ≤ clampSlots da v ∧ clampSlots da v < 2 ^ 12 := by
  unfold clampSlots clampN
  split_ifs <;> omega

/-- A word of 12 bits with two bits from bit 16 on: the field and the bit that it shows. -/
theorem fld_bitOf_cfg {slots : Nat} (x : Nat) (hs : slots < 2 ^ 12) :
    fld ((slots + x * 2 ^ 16) % 2 ^ 32) 11 0 = slots ∧ bitOf ((slots + x * 2 ^ 16) % 2 ^ 32) 16 = bitOf x 0 := by
  simp only [fld, bitOf, Nat.shiftRight_eq_div_pow, decide_eq_decide]
  omega

/-- FS_RING_CFG (R501). -/
theorem ringCfgWrite_spec (s : State) (v : BitVec 32) :
    let u := ringCfgWrite s v.toNat
    let cfg (x : State) := pget x (modPage 6) 0x094
    onlyRegsAt s u ringRegs ∧ bitOf (cfg u) 16 = v.getLsbD 16 ∧
      (bitOf (cfg s) 16 = true → fld (cfg u) 11 0 = fld (cfg s) 11 0) ∧
      (bitOf (cfg s) 16 = false → fld (cfg u) 11 0 ≥ 1) ∧
      (bitOf (cfg s) 16 = false → v.getLsbD 16 = true → pget u (modPage 6) 0x098 = 0 ∧ pget u (modPage 6) 0x09C = 0) := by
  intro u cfg
  have hbit : bitOf v.toNat 16 = v.getLsbD 16 := by rw [bitOf_eq_testBit, BitVec.getLsbD]
  have hen : bitOf (fld v.toNat 17 16) 0 = v.getLsbD 16 := by
    rw [← hbit]
    simp only [fld, bitOf, Nat.shiftRight_eq_div_pow, decide_eq_decide]
    omega
  set slots := if bitOf (cfg s) 16 then fld (cfg s) 11 0 else clampSlots (ringOff s) (fld v.toNat 11 0) with hslots
  have hlt : slots < 2 ^ 12 := by
    rw [hslots]
    split
    · exact Nat.mod_lt _ (by decide)
    · exact (clampSlots_bounds ..).2
  have hu : u = if bitOf v.toNat 16 && !bitOf (cfg s) 16 then
      pset (pset (pset s (modPage 6) 0x094 (slots + fld v.toNat 17 16 * 2 ^ 16)) (modPage 6) 0x098 0) (modPage 6) 0x09C 0
    else pset s (modPage 6) 0x094 (slots + fld v.toNat 17 16 * 2 ^ 16) := rfl
  have hcfg : cfg u = (slots + fld v.toNat 17 16 * 2 ^ 16) % 2 ^ 32 := by
    rw [hu]
    split <;> simp only [cfg, pget_pset, Nat.reduceLT, Nat.reduceEqDiff, and_false, and_self, if_true, if_false]
  obtain ⟨hfld, hone⟩ := fld_bitOf_cfg (fld v.toNat 17 16) hlt
  rw [← hcfg] at hfld hone
  have hregs : onlyRegsAt s (pset s (modPage 6) 0x094 (slots + fld v.toNat 17 16 * 2 ^ 16)) ringRegs :=
    onlyRegsAt_pset _ _ _ _ (regOff_mem_ringRegs (.inr (.inl rfl)))
  refine ⟨?_, hone.trans hen, fun hon => ?_, fun hoff => ?_, fun hoff hv => ?_⟩
  · rw [hu]
    have hhead := onlyRegsAt_trans hregs (onlyRegsAt_pset _ (modPage 6) 0x098 0 (regOff_mem_ringRegs (.inr (.inr (.inl rfl)))))
    have htail := onlyRegsAt_trans hhead (onlyRegsAt_pset _ (modPage 6) 0x09C 0 (regOff_mem_ringRegs (.inr (.inr (.inr rfl)))))
    exact onlyRegsAt_ite htail hregs
  · rw [hfld, hslots, if_pos hon]
  · rw [hfld, hslots, if_neg (by simp [hoff])]
    exact (clampSlots_bounds ..).1
  · rw [hu, if_pos (by simp [hbit, hv, hoff])]
    simp [pget_pset]

theorem exec_fsRingCfgWrite_da (v : BitVec 32) (s : State) :
    exec (.fsRingCfgWrite true v) s = .next (ringDaWrite (wakeFor s 1) v.toNat) :=
  congrArg Host.Outcome.next (if_pos rfl)

theorem exec_fsRingCfgWrite_cfg (v : BitVec 32) (s : State) :
    exec (.fsRingCfgWrite false v) s = .next (ringCfgWrite (wakeFor s 1) v.toNat) :=
  congrArg Host.Outcome.next (if_neg Bool.false_ne_true)

/-! The clear of counters (R88). -/

theorem keraseRange_kget {α : Type} (d : α) (m : KMap α) (lo hi k : Nat) :
    kget d (keraseRange m lo hi) k = if lo ≤ k ∧ k < hi then d else kget d m k := by
  have hfind := kfind_filter m (fun k => k < lo || hi ≤ k) k
  unfold kget keraseRange
  rw [hfind]
  by_cases h : lo ≤ k ∧ k < hi
  · rw [if_pos h, if_neg (by simp; omega)]; rfl
  · rw [if_neg h, if_pos (by simp; omega)]

/-- A page that is up is reached without a wake: at most the time of its half's last work changes. -/
theorem reach_upFor {s : State} {page : Nat} (h : upFor s page) :
    ∃ l, reach s page = s.setStore { s.store with idleSince := l } := by
  obtain ⟨hstate, hentering, hhalf⟩ := h
  have hsame : ∃ l, s = s.setStore { s.store with idleSince := l } := ⟨s.store.idleSince, rfl⟩
  unfold reach
  rw [wakeFor_awake ⟨hstate, hentering⟩]
  unfold pageWake
  split
  · next t i hplace =>
    split
    · next x hx =>
      unfold wakeHalf
      dsimp only
      split
      · exact ⟨_, rfl⟩
      · next hdown =>
        rw [if_pos ((hhalf t i x hplace hx).resolve_left hdown)]
        exact hsame
    · exact hsame
  · exact hsame

theorem clearWindows_eq (s : State) (page : Nat) : ∃ l, clearWindows s page = s.setStore { s.store with lps := l } := by
  unfold clearWindows
  split
  · split
    · exact ⟨_, rfl⟩
    · exact ⟨s.store.lps, rfl⟩
  · exact ⟨s.store.lps, rfl⟩

/-- COUNTER_CLEAR (R88): the counters of the page, and of no other page, are 0. -/
theorem cntClear_spec (s : State) (page : Nat) :
    let u := cntClear s page
    u = { s with regs := { s.regs with counters := u.regs.counters }, store := { s.store with lps := u.store.lps } } ∧
      ∀ k, (k / 0x1000 = page → kget 0#64 u.regs.counters k = 0) ∧
        (k / 0x1000 ≠ page → kget 0#64 u.regs.counters k = kget 0#64 s.regs.counters k) := by
  intro u
  obtain ⟨l, hl⟩ := clearWindows_eq (s.setRegs { s.regs with
    counters := keraseRange s.regs.counters (regOff page 0) (regOff (page + 1) 0) }) page
  have hu : u = _ := hl
  rw [hu]
  refine ⟨rfl, fun k => ⟨fun hin => ?_, fun hout => ?_⟩⟩
  · exact (keraseRange_kget ..).trans (if_pos (by unfold regOff; omega))
  · exact (keraseRange_kget ..).trans (if_neg (by unfold regOff; omega))

theorem answers_counterClear {page : BitVec 11} {s : State} (hup : upFor s page.toNat)
    (hctl : (pageBlock page.toNat).bind cntCtl ≠ none) (hserved : served s page.toNat = true) :
    answers (.counterClear page) s fun u =>
      u = { s with regs := { s.regs with counters := u.regs.counters }
                   store := { s.store with idleSince := u.store.idleSince, lps := u.store.lps } } ∧
      ∀ k, (k / 0x1000 = page.toNat → kget 0#64 u.regs.counters k = 0) ∧
        (k / 0x1000 ≠ page.toNat → kget 0#64 u.regs.counters k = kget 0#64 s.regs.counters k) := by
  obtain ⟨l, hreach⟩ := reach_upFor hup
  have hserved' : served (reach s page.toNat) page.toNat = true := by rw [hreach]; exact hserved
  simp only [served, Bool.and_eq_true, Bool.not_eq_true'] at hserved'
  have hrun : exec (.counterClear page) s = .next (cntClear (reach s page.toNat) page.toNat) := by
    refine congrArg Host.Outcome.next ?_
    rw [if_pos (Option.isSome_iff_ne_none.2 hctl), blockWrite, hserved'.1, hserved'.2]
    rfl
  obtain ⟨hu, hk⟩ := cntClear_spec (reach s page.toNat) page.toNat
  refine ⟨_, hrun, ?_, fun k => ?_⟩
  · rw [hreach] at hu ⊢
    rw [hu]
    rfl
  · rw [hreach] at hk ⊢
    exact hk k

/-- Settles O25: each register by the lemma of its write, on the module awake. -/
theorem selectionsAndRing : Obligations.Selections_and_ring := by
  intro v page t s
  refine ⟨fun hup => ⟨fun hnone => ?_, answers_counterClear hup⟩, ⟨_, rfl, seqSelect_spec _ _⟩, ⟨_, rfl, hrecSelect_spec _ _⟩,
    ⟨_, rfl, portSelect_spec _ _⟩, ⟨_, rfl, routeSelect_spec _ _⟩, ?_, ⟨_, rfl, ringTailWrite_spec _ v.isLt⟩,
    ⟨_, exec_fsRingCfgWrite_da v s, ringDaWrite_spec _ _⟩,
    ⟨_, exec_fsRingCfgWrite_cfg v s, ringCfgWrite_spec _ v⟩⟩
  · exact congrArg Host.Outcome.next (if_neg (by simp [hnone]))
  · exact writesReg_tileControl rfl fun w => strikeSelect_spec w t v.toNat

end Sys2Proof.Machine
end

section
/-!
SUPPORT. What raising a source leaves of the register space (R426 to R433): it stores in FLT_STICKY, in the status of a halted TCC and
in the stamp registers of an aggregator, and counts stamps; no other register and no other counter changes.
-/

namespace Sys2Proof.Machine

open Sys2Proof

/-- Offsets in their pages at which raising a source may store: FLT_STICKY, TC_STAT of a nested trap, and an aggregator's stamp. -/
def faultOffs : List Nat := [0x020, 0x098, 0x0C0, 0x0C4, 0x0C8]

/-- Every register but those that raising a source may store, and every counter but those of stamps, as before. -/
def leavesPlain (s u : State) : Prop :=
  (∀ o, o % 0x1000 ∉ faultOffs → regGet u o = regGet s o) ∧
    ∀ o, o % 0x1000 ≠ 0x800 → kget 0#64 u.regs.counters o = kget 0#64 s.regs.counters o

theorem leavesPlain_refl (s : State) : leavesPlain s s := ⟨fun _ _ => rfl, fun _ _ => rfl⟩

theorem leavesPlain_trans {s u v : State} (h : leavesPlain s u) (h' : leavesPlain u v) : leavesPlain s v :=
  ⟨fun o ho => (h'.1 o ho).trans (h.1 o ho), fun o ho => (h'.2 o ho).trans (h.2 o ho)⟩

theorem leavesPlain_ite {s u v : State} {c : Prop} [Decidable c] (h : leavesPlain s u) (h' : leavesPlain s v) :
    leavesPlain s (if c then u else v) := by
  split <;> assumption

/-- A step that touches neither registers nor counters. -/
theorem leavesPlain_of_eq {s u : State} (hv : u.regs.vals = s.regs.vals) (hc : u.regs.counters = s.regs.counters) :
    leavesPlain s u :=
  ⟨fun o _ => by rw [regGet, regGet, hv], fun o _ => by rw [hc]⟩

theorem leavesPlain_pset (s : State) (p o v : Nat) (ho : o ∈ faultOffs) : leavesPlain s (pset s p o v) := by
  refine ⟨fun o' ho' => ?_, fun _ _ => rfl⟩
  rw [pset, regGet_regSet, if_neg]
  rintro rfl
  have hlt : o < 0x1000 := (show ∀ o ∈ faultOffs, o < 0x1000 by decide) o ho
  rw [show regOff p o % 0x1000 = o by rw [regOff]; omega] at ho'
  exact ho' ho

theorem leavesPlain_count (s : State) (p n : Nat) : leavesPlain s (count s p 0x800 n) := by
  obtain ⟨k, e, hk⟩ := count_spec s p 0x800 n
  rw [e]
  exact ⟨fun _ _ => rfl, fun o ho => hk o fun ho' => ho (by rw [ho', regOff]; omega)⟩

theorem leavesPlain_markGroup (s : State) (tag : Nat) (k : CauseKind) (p x : Nat) : leavesPlain s (markGroup s tag k p x) := by
  unfold markGroup
  exact leavesPlain_ite (leavesPlain_ite (leavesPlain_refl s) (leavesPlain_of_eq rfl rfl)) (leavesPlain_refl s)

theorem leavesPlain_msixSignal (s : State) (v : Nat) : leavesPlain s (msixSignal s v) := by
  unfold msixSignal
  exact leavesPlain_ite (leavesPlain_ite (leavesPlain_refl s) (leavesPlain_of_eq rfl rfl)) (leavesPlain_of_eq rfl rfl)

theorem leavesPlain_tccCause (s : State) (t : Nat) (c : TrapCause) : leavesPlain s (tccCause s t c) := by
  unfold tccCause
  exact leavesPlain_ite (leavesPlain_refl s) (leavesPlain_of_eq rfl rfl)

theorem leavesPlain_trapReaction (s : State) (p x : Nat) : leavesPlain s (trapReaction s p x) := by
  unfold trapReaction
  split
  next t i _ =>
    refine leavesPlain_trans (leavesPlain_tccCause s t (.fault i x)) ?_
    exact leavesPlain_ite (leavesPlain_ite (leavesPlain_of_eq rfl rfl) (leavesPlain_refl _)) (leavesPlain_refl _)
  next => exact leavesPlain_refl s

theorem leavesPlain_stampSetting (s : State) (p x tag : Nat) (f : Bool) : leavesPlain s (stampSetting s p x tag f) := by
  unfold stampSetting
  refine leavesPlain_trans ?_ (leavesPlain_pset _ _ 0x0C8 _ (by decide))
  refine leavesPlain_trans ?_ (leavesPlain_pset _ _ 0x0C4 _ (by decide))
  refine leavesPlain_trans ?_ (leavesPlain_pset _ _ 0x0C0 _ (by decide))
  exact leavesPlain_trans (leavesPlain_of_eq rfl rfl) (leavesPlain_count ..)

theorem leavesPlain_restart (s : State) (c : Prop) [Decidable c] :
    leavesPlain s (if c then s.setFlt { s.flt with restartReq := true } else s) :=
  leavesPlain_ite (leavesPlain_of_eq rfl rfl) (leavesPlain_refl s)

theorem leavesPlain_resetReq (s : State) (l : List Nat) : leavesPlain s (s.setRegs { s.regs with resetReq := l }) :=
  leavesPlain_of_eq rfl rfl

theorem leavesPlain_takeReactions (s : State) (p x : Nat) : leavesPlain s (takeReactions s p x) := by
  unfold takeReactions
  dsimp only
  refine leavesPlain_trans ?_ (leavesPlain_restart _ _)
  have hreset (w : State) : leavesPlain w (match pagePlace p with
      | .module _ => w
      | _ => if bitOf (faultReact s p x) 3 && !w.regs.resetReq.contains p then
          w.setRegs { w.regs with resetReq := w.regs.resetReq ++ [p] } else w) := by
    split
    · exact leavesPlain_refl w
    · exact leavesPlain_ite (leavesPlain_resetReq ..) (leavesPlain_refl w)
  refine leavesPlain_trans ?_ (hreset _)
  have htrap (w : State) : leavesPlain w (if bitOf (faultReact s p x) 1 then trapReaction w p x else w) :=
    leavesPlain_ite (leavesPlain_trapReaction ..) (leavesPlain_refl w)
  refine leavesPlain_trans ?_ (htrap _)
  refine leavesPlain_ite ?_ (leavesPlain_refl _)
  exact leavesPlain_ite (leavesPlain_trans (leavesPlain_msixSignal ..) (leavesPlain_msixSignal ..)) (leavesPlain_msixSignal ..)

theorem leavesPlain_newSetting (s : State) (p x tag : Nat) (f : Bool) : leavesPlain s (newSetting s p x tag f) :=
  leavesPlain_trans (leavesPlain_pset _ _ 0x020 _ (by decide))
    (leavesPlain_trans (leavesPlain_stampSetting ..) (leavesPlain_takeReactions ..))

theorem leavesPlain_stampOverflow (s : State) (p : Nat) : leavesPlain s (stampOverflow s p) :=
  leavesPlain_ite (leavesPlain_refl s) (leavesPlain_newSetting ..)

theorem leavesPlain_setSource (s : State) (p x tag : Nat) (m f : Bool) : leavesPlain s (setSource s p x tag m f) := by
  unfold setSource
  split
  next => exact leavesPlain_refl s
  next b _ =>
    refine leavesPlain_ite (leavesPlain_refl s) ?_
    have hmark (c : Prop) [Decidable c] : leavesPlain s (if c then markGroup s tag (causeKind b x) p x else s) :=
      leavesPlain_ite (leavesPlain_markGroup ..) (leavesPlain_refl s)
    refine leavesPlain_ite (hmark _) (leavesPlain_ite ?_ ?_)
    · exact leavesPlain_trans (hmark _) (leavesPlain_trans (leavesPlain_newSetting ..) (leavesPlain_stampOverflow ..))
    · exact leavesPlain_trans (hmark _) (leavesPlain_newSetting ..)

theorem leavesPlain_nestTcc (s : State) (t : Nat) : leavesPlain s (nestTcc s t) := by
  unfold nestTcc
  refine leavesPlain_trans (leavesPlain_trans (leavesPlain_of_eq rfl rfl) ?_) (leavesPlain_setSource ..)
  exact leavesPlain_pset _ _ 0x098 _ (by decide)

theorem leavesPlain_raiseWith (s : State) (p x tag : Nat) (m f : Bool) : leavesPlain s (raiseWith s p x tag m f) := by
  unfold raiseWith
  split
  next =>
    exact leavesPlain_ite (leavesPlain_trans (leavesPlain_setSource ..) (leavesPlain_nestTcc ..)) (leavesPlain_setSource ..)
  next => exact leavesPlain_setSource ..

theorem onlyFaults_raise (s : State) (p x : Nat) : onlyFaults s (raise s p x) := (raiseWith_spec ..).1

theorem leavesPlain_raise (s : State) (p x : Nat) : leavesPlain s (raise s p x) := leavesPlain_raiseWith ..

theorem sticky_raise {s : State} {p x : Nat} {b : Block} (hb : pageBlock p = some b) (hd : sourceDefined b x = true) (hx : x < 32) :
    sticky (raise s p x) p x = true := (raiseWith_spec ..).2 b hb hd hx

/-- A register of a page after steps that leave the plain ones. -/
theorem leavesPlain.pget_eq {s u : State} (h : leavesPlain s u) (p : Nat) {o : Nat} (hlt : o < 0x1000) (ho : o ∉ faultOffs) :
    pget u p o = pget s p o :=
  h.1 _ (by rwa [show regOff p o % 0x1000 = o by rw [regOff]; omega])

end Sys2Proof.Machine
end

section
/-!
SUPPORT. One die at the start of a budget epoch (R382, R391, R394): what the step of one die leaves of the other dies, and what it shows
on the die's own page and keeps in its budget.
-/

namespace Sys2Proof.Machine

open Sys2Proof

/-! Numbers and pages of dies. -/

theorem powerPage_inj {d e : Nat} (hd : d < 16) (he : e < 16) (h : powerPage d = powerPage e) : d = e := by
  simp only [powerPage, basePage, tilePage] at h
  split_ifs at h <;> omega

theorem budgetKey_inj {d e : Nat} (hd : d < 16) (he : e < 16) (h : budgetKey d = budgetKey e) : d = e := by
  simp only [budgetKey] at h
  split_ifs at h <;> omega

theorem powerPage_tile {d : Nat} (h : ¬ d < 4) : tilePage (d - 4) 83 = powerPage d := by rw [powerPage, if_neg h]

theorem budgetKey_tile {d : Nat} (h : ¬ d < 4) : 0x10 + (d - 4) = budgetKey d := by rw [budgetKey, if_neg h]

theorem powerPage_source : ∀ (d : Fin 16) (src : Fin 3),
    ∃ b, pageBlock (powerPage d) = some b ∧ sourceDefined b src = true := by
  decide

theorem sticky_raise_powerPage (s : State) {d : Nat} (hd : d < 16) {src : Nat} (hsrc : src < 3) :
    sticky (raise s (powerPage d) src) (powerPage d) src = true := by
  obtain ⟨b, hb, hdef⟩ := powerPage_source ⟨d, hd⟩ ⟨src, hsrc⟩
  exact sticky_raise hb hdef (by omega)

/-! Budgets in the state. -/

theorem budgetOf_setBudget (s : State) (k k' : Nat) (x : Budget) :
    budgetOf (setBudget s k x) k' = if k' = k then x else budgetOf s k' := by
  unfold budgetOf setBudget
  exact kget_kput ..

@[simp] theorem budgetOf_pset (s : State) (p o v k : Nat) : budgetOf (pset s p o v) k = budgetOf s k := rfl
@[simp] theorem pget_setBudget (s : State) (k : Nat) (x : Budget) (p o : Nat) : pget (setBudget s k x) p o = pget s p o := rfl

@[simp] theorem budgetOf_count (s : State) (p o n k : Nat) : budgetOf (count s p o n) k = budgetOf s k := by
  obtain ⟨c, e, -⟩ := count_spec s p o n
  rw [e]; rfl

@[simp] theorem pget_count (s : State) (p o n p' o' : Nat) : pget (count s p o n) p' o' = pget s p' o' := by
  obtain ⟨c, e, -⟩ := count_spec s p o n
  rw [e]; rfl

theorem cntGet_count_other (s : State) {p o n p' o' : Nat} (h : regOff p' o' ≠ regOff p o) :
    cntGet (count s p o n) p' o' = cntGet s p' o' := by
  obtain ⟨c, e, hc⟩ := count_spec s p o n
  rw [e, cntGet, setRegs_regs, hc _ h]; rfl

/-! The frame of the dies' steps. -/

/-- What the steps of some dies leave at the start of an epoch: every field but registers, the fault record and the budgets; of
registers, counters and budgets everything but theirs and what raising a source stores. -/
structure besideDies (D : List Nat) (s u : State) : Prop where
  state : u = { s with
    regs := u.regs, flt := u.flt, host := u.host, cores := u.cores, tccs := u.tccs
    power := { s.power with budgets := u.power.budgets } }
  sticky : keepsSticky s u
  regs : ∀ p o, o < 0x1000 → o ∉ faultOffs → (∀ d ∈ D, p ≠ powerPage d) → pget u p o = pget s p o
  counters : ∀ p o, o < 0x1000 → o ≠ 0x800 → (∀ d ∈ D, p ≠ powerPage d) → cntGet u p o = cntGet s p o
  budgets : ∀ k, (∀ d ∈ D, k ≠ budgetKey d) → budgetOf u k = budgetOf s k

namespace besideDies

variable {D : List Nat} {s u v : State}

theorem refl (D : List Nat) (s : State) : besideDies D s s :=
  ⟨rfl, fun _ _ _ h => h, fun _ _ _ _ _ => rfl, fun _ _ _ _ _ => rfl, fun _ _ => rfl⟩

theorem trans (h : besideDies D s u) (h' : besideDies D u v) : besideDies D s v where
  state := calc
    v = { u with
      regs := v.regs, flt := v.flt, host := v.host, cores := v.cores, tccs := v.tccs
      power := { u.power with budgets := v.power.budgets } } := h'.state
    _ = _ := by rw [h.state]
  sticky := keepsSticky_trans h.sticky h'.sticky
  regs p o hlt ho hD := (h'.regs p o hlt ho hD).trans (h.regs p o hlt ho hD)
  counters p o hlt ho hD := (h'.counters p o hlt ho hD).trans (h.counters p o hlt ho hD)
  budgets k hD := (h'.budgets k hD).trans (h.budgets k hD)

theorem mono {E : List Nat} (h : besideDies D s u) (hsub : ∀ d ∈ D, d ∈ E) : besideDies E s u where
  state := h.state
  sticky := h.sticky
  regs p o hlt ho hE := h.regs p o hlt ho fun d hd => hE d (hsub d hd)
  counters p o hlt ho hE := h.counters p o hlt ho fun d hd => hE d (hsub d hd)
  budgets k hE := h.budgets k fun d hd => hE d (hsub d hd)

theorem ite {c : Prop} [Decidable c] (h : besideDies D s u) (h' : besideDies D s v) : besideDies D s (if c then u else v) := by
  split <;> assumption

theorem raise (D : List Nat) (s : State) (p x : Nat) : besideDies D s (raise s p x) where
  state := by
    have h := onlyFaults_raise s p x
    rw [h.power_eq]
    exact h.1
  sticky := keepsSticky_of_onlyFaults (onlyFaults_raise s p x)
  regs p' o hlt ho _ := (leavesPlain_raise s p x).pget_eq p' hlt ho
  counters p' o hlt ho _ := by
    rw [cntGet, cntGet, (leavesPlain_raise s p x).2 _ (by rw [regOff]; omega)]
  budgets k _ := by rw [budgetOf, (onlyFaults_raise s p x).power_eq]; rfl

theorem pset (s : State) {d : Nat} (hd : d ∈ D) {o : Nat} (v : Nat) (hlt : o < 0x1000) (ho : o ≠ 0x020) :
    besideDies D s (pset s (powerPage d) o v) where
  state := rfl
  sticky := keepsSticky_pset _ _ _ _ hlt ho
  regs p o' hlt' _ hD := by rw [pget_pset _ _ _ _ _ _ hlt hlt', if_neg fun h => hD d hd h.1]
  counters _ _ _ _ _ := rfl
  budgets _ _ := rfl

theorem count (s : State) {d : Nat} (hd : d ∈ D) {o : Nat} (n : Nat) (hlt : o < 0x1000) :
    besideDies D s (count s (powerPage d) o n) where
  state := by
    obtain ⟨c, e, -⟩ := count_spec s (powerPage d) o n
    rw [e]; rfl
  sticky := keepsSticky_count _ _ _ _
  regs p o' _ _ _ := pget_count ..
  counters p o' hlt' _ hD := cntGet_count_other s fun h => hD d hd ((regOff_inj hlt' hlt).1 h).1
  budgets k _ := budgetOf_count ..

theorem setBudget (s : State) {d : Nat} (hd : d ∈ D) (x : Budget) : besideDies D s (setBudget s (budgetKey d) x) where
  state := rfl
  sticky _ _ _ h := h
  regs _ _ _ _ _ := rfl
  counters _ _ _ _ _ := rfl
  budgets k hD := by rw [budgetOf_setBudget, if_neg (hD d hd)]

/-- A die that is none of them keeps its page. -/
theorem pget_page (h : besideDies D s u) {d : Nat} (hd : d < 16) (hD : ∀ e ∈ D, e < 16 ∧ e ≠ d) {o : Nat} (hlt : o < 0x1000)
    (ho : o ∉ faultOffs) : pget u (powerPage d) o = pget s (powerPage d) o :=
  h.regs _ o hlt ho fun e he heq => (hD e he).2 (powerPage_inj hd (hD e he).1 heq).symm

/-- A die that is none of them keeps its budget. -/
theorem budgetOf_key (h : besideDies D s u) {d : Nat} (hd : d < 16) (hD : ∀ e ∈ D, e < 16 ∧ e ≠ d) :
    budgetOf u (budgetKey d) = budgetOf s (budgetKey d) :=
  h.budgets _ fun e he heq => (hD e he).2 (budgetKey_inj hd (hD e he).1 heq).symm

end besideDies

/-! The step of a tile's array (R382, R394). -/

/-- The step that a tile runs at once the change that it has begun is over. -/
def stepAfterChange (s : State) (d : Nat) : Nat :=
  match (budgetOf s (budgetKey d)).target with
  | some st => st % 64
  | none => fld (pget s (powerPage d) 0x08C) 5 0

theorem fld_setFld_low (w v : Nat) : fld (setFld w 5 0 v % 2 ^ 32) 5 0 = v % 64 := by
  simp only [fld, setFld, Nat.shiftRight_zero, Nat.pow_zero, Nat.mul_one]
  omega

theorem fld_low_lt (w : Nat) : fld w 5 0 < 64 := Nat.mod_lt _ (by decide)

section
variable {d : Nat} (hd : ¬ d < 4)
include hd

/-- The end of a step change (R382). -/
theorem finishStep_spec (s : State) :
    let u := finishStep s (d - 4)
    besideDies [d] s u ∧ budgetOf u (budgetKey d) = { budgetOf s (budgetKey d) with target := none } ∧
      fld (pget u (powerPage d) 0x08C) 5 0 = stepAfterChange s d ∧
      ∀ o < 0x1000, o ≠ 0x08C → pget u (powerPage d) o = pget s (powerPage d) o := by
  unfold finishStep stepAfterChange
  simp only [powerPage_tile hd, budgetKey_tile hd]
  cases htarget : (budgetOf s (budgetKey d)).target with
  | none =>
    have hsame : budgetOf s (budgetKey d) = { budgetOf s (budgetKey d) with target := none } :=
      congrArg (fun x => { budgetOf s (budgetKey d) with target := x }) htarget
    exact ⟨.refl _ s, hsame, rfl, fun _ _ _ => rfl⟩
  | some st =>
    refine ⟨?_, ?_, ?_, fun o hlt ho => ?_⟩
    · exact ((besideDies.setBudget s (by simp) _).trans (.pset _ (by simp) _ (by decide) (by decide))).trans
        (.count _ (by simp) _ (by decide))
    · rw [budgetOf_count, budgetOf_pset, budgetOf_setBudget, if_pos rfl]
    · rw [pget_count, pget_pset _ _ _ _ _ _ (by decide) (by decide), if_pos ⟨rfl, rfl⟩, fld_setFld_low]
    · rw [pget_count, pget_pset _ _ _ _ _ _ (by decide) hlt, if_neg fun h => ho h.2, pget_setBudget]

/-- The start of a step change (R382). -/
theorem beginStep_spec (s : State) {st : Nat} (hst : st < 64) :
    let u := beginStep s (d - 4) st
    let cur := fld (pget s (powerPage d) 0x08C) 5 0
    besideDies [d] s u ∧
      budgetOf u (budgetKey d) = (if st = cur then budgetOf s (budgetKey d) else
        { budgetOf s (budgetKey d) with target := some st }) ∧
      fld (pget u (powerPage d) 0x08C) 5 0 = min cur st ∧
      ∀ o < 0x1000, o ≠ 0x08C → pget u (powerPage d) o = pget s (powerPage d) o := by
  have hcur := fld_low_lt (pget s (powerPage d) 0x08C)
  unfold beginStep
  simp only [powerPage_tile hd, budgetKey_tile hd]
  split
  next heq => exact ⟨.refl _ s, rfl, by rw [heq, Nat.min_self], fun _ _ _ => rfl⟩
  next =>
    refine ⟨?_, ?_, ?_, fun o hlt ho => ?_⟩
    · exact (besideDies.pset s (by simp) _ (by decide) (by decide)).trans (.setBudget _ (by simp) _)
    · rw [budgetOf_setBudget, if_pos rfl]
    · rw [pget_setBudget, pget_pset _ _ _ _ _ _ (by decide) (by decide), if_pos ⟨rfl, rfl⟩, fld_setFld_low]
      exact Nat.mod_eq_of_lt (by omega)
    · rw [pget_setBudget, pget_pset _ _ _ _ _ _ (by decide) hlt, if_neg fun h => ho h.2]

end

theorem foldl_max_eq_or_mem (l : List Nat) (a : Nat) : l.foldl max a = a ∨ l.foldl max a ∈ l := by
  induction l generalizing a with
  | nil => exact .inl rfl
  | cons x l ih =>
    rw [List.foldl_cons, List.mem_cons]
    obtain h | h := ih (max a x)
    · rw [h]
      omega
    · exact .inr (.inr h)

/-- A tile chooses step 0, or one that fits its grant at most 8 above the one it has (R394). -/
theorem chooseStep_spec (meas cur grant : Nat) :
    let st := chooseStep meas cur grant
    st ≤ min 48 (cur + 8) ∧ (st = 0 ∨ stepFits meas cur grant st = true) := by
  obtain h | h := foldl_max_eq_or_mem ((List.range (min 48 (cur + 8) + 1)).filter fun st => stepFits meas cur grant st) 0
  · exact ⟨by rw [chooseStep, h]; omega, .inl h⟩
  · obtain ⟨hlt, hfits⟩ := List.mem_filter.1 h
    exact ⟨Nat.lt_succ_iff.1 (List.mem_range.1 hlt), .inr hfits⟩

end Sys2Proof.Machine
end

section
/-!
One die at the start of a budget epoch, and all of them (R391, R394): the step of a die in its three parts, and the fold over the dies
that are up.
-/

namespace Sys2Proof.Machine

open Sys2Proof

/-! The step of one die. -/

/-- What ends with the last epoch: its power over the grant raises a source, and a step change is over. -/
def epochEnds (s : State) (d meas : Nat) : State :=
  let s' := if pget s (powerPage d) 0x080 * 105 < meas * 100 then raise s (powerPage d) 2 else s
  if d < 4 then s' else finishStep s' (d - 4)

/-- What a budget keeps at the start of an epoch in which a power was measured. -/
def epochBudget (b : Budget) (meas : Nat) : Budget :=
  { b with
    next := none, missed := if b.next.isSome then 0 else b.missed + 1
    emergency := b.emergency && (b.next.isNone || b.before), before := false, energy := (b.energy + meas) % 8 }

/-- What a die shows of the new epoch: the grant, the request and the measured power. -/
def epochShows (s : State) (d meas req old : Nat) : State :=
  let pg := powerPage d
  let b := budgetOf s (budgetKey d)
  setBudget (pset (pset (pset (count s pg 0x800 ((b.energy + meas) / 8)) pg 0x080 (b.next.getD old)) pg 0x084 req) pg 0x088 meas)
    (budgetKey d) (epochBudget b meas)

/-- The step that a tile chooses for its grant. -/
def epochStep (s : State) (d meas grant : Nat) : Nat :=
  if (budgetOf s (budgetKey d)).emergency then 0 else chooseStep meas (fld (pget s (powerPage d) 0x08C) 5 0) grant

/-- A tile shows whether its grant limits its step (ARR_LIMITED). -/
def epochLimits (s : State) (d meas grant : Nat) : State :=
  let cur := fld (pget s (powerPage d) 0x08C) 5 0
  pset s (powerPage d) 0x08C
    (cur + b2n ((budgetOf s (budgetKey d)).emergency || !stepFits meas cur grant 48) * 2 ^ 8)

/-- A tile's step for the new epoch. -/
def epochSteps (s : State) (d meas grant : Nat) : State :=
  if d < 4 then s else beginStep (epochLimits s d meas grant) (d - 4) (epochStep s d meas grant)

theorem epochDie_eq (s : State) (d meas req : Nat) :
    let old := pget s (powerPage d) 0x080
    let w := epochEnds s d meas
    let x := epochShows w d meas req old
    epochDie s d meas req = epochSteps x d meas ((budgetOf w (budgetKey d)).next.getD old) := by
  have hkey (x : State) (k : Nat) (b : Budget) : budgetOf (setBudget x k b) k = b := by rw [budgetOf_setBudget, if_pos rfl]
  simp only [epochDie, epochSteps, epochLimits, epochStep, epochShows, hkey]
  rfl

section
variable {d : Nat} (hlt : d < 16) (s : State) (meas : Nat)
include hlt

theorem epochEnds_spec :
    let u := epochEnds s d meas
    besideDies [d] s u ∧
      (∃ x, budgetOf u (budgetKey d) = { budgetOf s (budgetKey d) with target := x } ∧ (4 ≤ d → x = none)) ∧
      (4 ≤ d → fld (pget u (powerPage d) 0x08C) 5 0 = stepAfterChange s d) ∧
      (pget s (powerPage d) 0x080 * 105 < meas * 100 → sticky u (powerPage d) 2 = true) := by
  have hover : ∃ w, (if pget s (powerPage d) 0x080 * 105 < meas * 100 then raise s (powerPage d) 2 else s) = w ∧
      besideDies [] s w ∧ (pget s (powerPage d) 0x080 * 105 < meas * 100 → sticky w (powerPage d) 2 = true) := by
    refine ⟨_, rfl, besideDies.ite (.raise ..) (.refl ..), fun hgt => ?_⟩
    rw [if_pos hgt]
    exact sticky_raise_powerPage s hlt (by decide)
  obtain ⟨w, hw, hbeside, hsticky⟩ := hover
  have hbudget : budgetOf w (budgetKey d) = budgetOf s (budgetKey d) := hbeside.budgets _ (by simp)
  have hstep : pget w (powerPage d) 0x08C = pget s (powerPage d) 0x08C := hbeside.regs _ _ (by decide) (by decide) (by simp)
  unfold epochEnds
  simp only [hw]
  by_cases hd : d < 4
  · rw [if_pos hd]
    exact ⟨hbeside.mono (by simp), ⟨_, hbudget, fun h => absurd hd (by omega)⟩, fun h => absurd hd (by omega), hsticky⟩
  · obtain ⟨hbeside', hbudget', hstep', -⟩ := finishStep_spec hd w
    rw [if_neg hd]
    refine ⟨(hbeside.mono (by simp)).trans hbeside', ⟨none, by rw [hbudget', hbudget], fun _ => rfl⟩, fun _ => ?_,
      fun hgt => hbeside'.sticky _ _ (by decide) (hsticky hgt)⟩
    rw [hstep', stepAfterChange, stepAfterChange, hbudget, hstep]

omit hlt in
theorem epochShows_spec (req old : Nat) :
    let u := epochShows s d meas req old
    besideDies [d] s u ∧ budgetOf u (budgetKey d) = epochBudget (budgetOf s (budgetKey d)) meas ∧
      pget u (powerPage d) 0x080 = (budgetOf s (budgetKey d)).next.getD old % 2 ^ 32 ∧
      pget u (powerPage d) 0x084 = req % 2 ^ 32 ∧ pget u (powerPage d) 0x088 = meas % 2 ^ 32 ∧
      pget u (powerPage d) 0x08C = pget s (powerPage d) 0x08C := by
  refine ⟨?_, ?_, ?_, ?_, ?_, ?_⟩
  · exact ((((besideDies.count s (by simp) _ (by decide)).trans (.pset _ (by simp) _ (by decide) (by decide))).trans
      (.pset _ (by simp) _ (by decide) (by decide))).trans (.pset _ (by simp) _ (by decide) (by decide))).trans
        (.setBudget _ (by simp) _)
  · rw [epochShows, budgetOf_setBudget, if_pos rfl]
  all_goals simp [epochShows, pget_pset]

omit hlt in
theorem epochLimits_spec (grant : Nat) :
    let u := epochLimits s d meas grant
    besideDies [d] s u ∧ (∀ k, budgetOf u k = budgetOf s k) ∧
      fld (pget u (powerPage d) 0x08C) 5 0 = fld (pget s (powerPage d) 0x08C) 5 0 ∧
      ∀ o < 0x1000, o ≠ 0x08C → pget u (powerPage d) o = pget s (powerPage d) o := by
  refine ⟨.pset _ (by simp) _ (by decide) (by decide), fun _ => rfl, ?_, fun o ho hne => ?_⟩
  · rw [epochLimits, pget_pset _ _ _ _ _ _ (by decide) (by decide), if_pos ⟨rfl, rfl⟩]
    have hcur := fld_low_lt (pget s (powerPage d) 0x08C)
    generalize b2n _ = f
    generalize fld (pget s _ _) 5 0 = c at hcur ⊢
    simp only [fld, Nat.shiftRight_zero]
    omega
  · rw [epochLimits, pget_pset _ _ _ _ _ _ (by decide) ho, if_neg fun h => hne h.2]

omit hlt in
/-- The choice of a tile, also under an emergency grant (R394, R415). -/
theorem epochStep_spec (grant : Nat) :
    let cur := fld (pget s (powerPage d) 0x08C) 5 0
    let st := epochStep s d meas grant
    st ≤ min 48 (cur + 8) ∧ (st = 0 ∨ stepFits meas cur grant st = true) := by
  unfold epochStep
  split
  · exact ⟨Nat.zero_le _, .inl rfl⟩
  · exact chooseStep_spec ..

omit hlt in
theorem epochSteps_spec (grant : Nat) :
    let u := epochSteps s d meas grant
    let cur := fld (pget s (powerPage d) 0x08C) 5 0
    let st := epochStep s d meas grant
    besideDies [d] s u ∧
      budgetOf u (budgetKey d) = { budgetOf s (budgetKey d) with target := (budgetOf u (budgetKey d)).target } ∧
      (∀ o < 0x1000, o ≠ 0x08C → pget u (powerPage d) o = pget s (powerPage d) o) ∧
      (4 ≤ d → (budgetOf s (budgetKey d)).target = none →
        st ≤ min 48 (cur + 8) ∧ (st = 0 ∨ stepFits meas cur grant st = true) ∧
          (budgetOf u (budgetKey d)).target = (if st = cur then none else some st) ∧
          fld (pget u (powerPage d) 0x08C) 5 0 = min cur st) := by
  unfold epochSteps
  by_cases hd : d < 4
  · rw [if_pos hd]
    exact ⟨.refl .., rfl, fun _ _ _ => rfl, fun h => absurd hd (by omega)⟩
  obtain ⟨hmax, hfits⟩ := epochStep_spec (d := d) s meas grant
  obtain ⟨hlimits, hsame, hcur, hkeep⟩ := epochLimits_spec (d := d) s meas grant
  obtain ⟨hbeside, hbudget, hstep, hother⟩ :=
    beginStep_spec hd (epochLimits s d meas grant) (st := epochStep s d meas grant) (by omega)
  rw [hcur] at hbudget hstep
  rw [hsame] at hbudget
  rw [if_neg hd]
  refine ⟨hlimits.trans hbeside, ?_, fun o ho hne => (hother o ho hne).trans (hkeep o ho hne),
    fun _ hnone => ⟨hmax, hfits, ?_, hstep⟩⟩
  · rw [hbudget]
    split <;> rfl
  · rw [hbudget, apply_ite Budget.target, hnone]

end

/-- One die at the start of an epoch (R391, R394). -/
theorem epochDie_spec {d : Nat} (hlt : d < 16) (s : State) (meas req : Nat) :
    let u := epochDie s d meas req
    let b := budgetOf s (budgetKey d)
    let grant := b.next.getD (pget s (powerPage d) 0x080)
    let cur := stepAfterChange s d
    besideDies [d] s u ∧ pget u (powerPage d) 0x080 = grant % 2 ^ 32 ∧ pget u (powerPage d) 0x084 = req % 2 ^ 32 ∧
      pget u (powerPage d) 0x088 = meas % 2 ^ 32 ∧ (budgetOf u (budgetKey d)).next = none ∧
      (budgetOf u (budgetKey d)).missed = (if b.next.isSome then 0 else b.missed + 1) ∧
      (pget s (powerPage d) 0x080 * 105 < meas * 100 → sticky u (powerPage d) 2 = true) ∧
      (4 ≤ d → ∃ st, st ≤ min 48 (cur + 8) ∧ (st = 0 ∨ stepFits meas cur grant st = true) ∧
        (budgetOf u (budgetKey d)).target = (if st = cur then none else some st) ∧
        fld (pget u (powerPage d) 0x08C) 5 0 = min cur st) := by
  obtain ⟨hends, ⟨target, hbudget, htarget⟩, hcur, hover⟩ := epochEnds_spec hlt s meas
  obtain ⟨hshows, hbudget', hgrant, hreq, hmeas, hkeep⟩ :=
    epochShows_spec (d := d) (epochEnds s d meas) meas req (pget s (powerPage d) 0x080)
  obtain ⟨hsteps, hbudget'', hother, hstep⟩ := epochSteps_spec (d := d)
    (epochShows (epochEnds s d meas) d meas req (pget s (powerPage d) 0x080)) meas
      ((budgetOf (epochEnds s d meas) (budgetKey d)).next.getD (pget s (powerPage d) 0x080))
  dsimp only
  rw [epochDie_eq]
  rw [hbudget'] at hbudget'' hstep
  rw [hkeep] at hstep
  rw [hbudget] at hbudget'' hgrant hstep hsteps hother ⊢
  refine ⟨(hends.trans hshows).trans hsteps, ?_, ?_, ?_, ?_, ?_, fun hgt => ?_, fun hd => ?_⟩
  · rw [hother _ (by decide) (by decide), hgrant]
  · rw [hother _ (by decide) (by decide), hreq]
  · rw [hother _ (by decide) (by decide), hmeas]
  · rw [hbudget'']; rfl
  · rw [hbudget'']; rfl
  · exact hsteps.sticky _ _ (by decide) (hshows.sticky _ _ (by decide) (hover hgt))
  · rw [hcur hd] at hstep
    exact ⟨_, hstep hd (htarget hd)⟩

end Sys2Proof.Machine
end

section
/-!
The start of a budget epoch (R88, R391, R402): the timebase brought to it, the registers of the input, the counts of cycles, and the dies
that are up, one after the other.
-/

namespace Sys2Proof.Machine

open Sys2Proof

/-! The dies, one after the other. -/

/-- The steps of the dies that are up. -/
def epochDies (x : EpochReading) (l : List Nat) (s : State) : State :=
  foldList (fun d st => if dieUp st d then epochDie st d (diePower x.domains d) (x.req.getD d 0#16).toNat else st) l s

theorem besideDies_epochDies (x : EpochReading) {l : List Nat} (hl : ∀ d ∈ l, d < 16) (s : State) :
    besideDies l s (epochDies x l s) := by
  induction l generalizing s with
  | nil => exact .refl _ s
  | cons d l ih =>
    have hhead : besideDies [d] s
        (if dieUp s d then epochDie s d (diePower x.domains d) (x.req.getD d 0#16).toNat else s) :=
      .ite (epochDie_spec (hl d (.head _)) s _ _).1 (.refl _ s)
    exact (hhead.mono (by simp)).trans ((ih (fun e he => hl e (.tail _ he)) _).mono fun _ he => .tail _ he)

/-- Whether a die takes part rests on its base die and on the service state of a tile. -/
theorem dieUp_congr {s u : State} (hstore : u.store = s.store)
    (hsvc : ∀ t, pget u (tilePage t 0) 0x780 = pget s (tilePage t 0) 0x780) (d : Nat) : dieUp u d = dieUp s d := by
  simp only [dieUp, tileUp, tileSvc, baseUp, hstore, hsvc]
  rfl

theorem besideDies.store_eq {D : List Nat} {s u : State} (h : besideDies D s u) : u.store = s.store := by rw [h.state]

theorem besideDies.dieUp_eq {D : List Nat} {s u : State} (h : besideDies D s u) (hD : ∀ e ∈ D, e < 16) (d : Nat) :
    dieUp u d = dieUp s d := by
  refine dieUp_congr h.store_eq (fun t => h.regs _ _ (by decide) (by decide) fun e he heq => ?_) d
  have := hD e he
  simp only [powerPage, basePage, tilePage] at heq
  split_ifs at heq <;> omega

theorem range_split : ∀ d : Fin 16, List.range 16 = List.range d ++ d.val :: List.range' (d + 1) (15 - d) := by decide

/-- What a die that is up shows and keeps once every die has made its step. -/
theorem epochDies_spec (x : EpochReading) (d : Fin 16) (s : State) (hup : dieUp s d = true) :
    let u := epochDies x (List.range 16) s
    let b := budgetOf s (budgetKey d)
    let meas := diePower x.domains d
    let grant := b.next.getD (pget s (powerPage d) 0x080)
    let cur := stepAfterChange s d
    pget u (powerPage d) 0x080 = grant % 2 ^ 32 ∧ pget u (powerPage d) 0x084 = (x.req.getD d 0#16).toNat % 2 ^ 32 ∧
      pget u (powerPage d) 0x088 = meas % 2 ^ 32 ∧ (budgetOf u (budgetKey d)).next = none ∧
      (budgetOf u (budgetKey d)).missed = (if b.next.isSome then 0 else b.missed + 1) ∧
      (pget s (powerPage d) 0x080 * 105 < meas * 100 → sticky u (powerPage d) 2 = true) ∧
      (4 ≤ d.val → ∃ st, st ≤ min 48 (cur + 8) ∧ (st = 0 ∨ stepFits meas cur grant st = true) ∧
        (budgetOf u (budgetKey d)).target = (if st = cur then none else some st) ∧
        fld (pget u (powerPage d) 0x08C) 5 0 = min cur st) := by
  have hlow : ∀ e ∈ List.range d, e < 16 ∧ e ≠ d := fun e he => by
    have := List.mem_range.1 he
    omega
  have hhigh : ∀ e ∈ List.range' (d + 1) (15 - d), e < 16 ∧ e ≠ d := fun e he => by
    have := List.mem_range'_1.1 he
    omega
  have hbefore := besideDies_epochDies x (fun e he => (hlow e he).1) s
  generalize hw : epochDies x (List.range d) s = w at hbefore
  have hafter := besideDies_epochDies x (fun e he => (hhigh e he).1)
    (epochDie w d (diePower x.domains d) (x.req.getD d 0#16).toNat)
  have hsplit : epochDies x (List.range 16) s = epochDies x (List.range' (d + 1) (15 - d))
      (epochDie w d (diePower x.domains d) (x.req.getD d 0#16).toNat) := by
    have hupw : dieUp w d = true := (hbefore.dieUp_eq (fun e he => (hlow e he).1) d).trans hup
    rw [epochDies, range_split d, foldList_append]
    change epochDies x _ (if dieUp (epochDies x (List.range d) s) d then
      epochDie (epochDies x (List.range d) s) d _ _ else epochDies x (List.range d) s) = _
    rw [hw, if_pos hupw]
  have hbudget : budgetOf w (budgetKey d) = budgetOf s (budgetKey d) := hbefore.budgetOf_key d.isLt hlow
  have hreg {o : Nat} (hlt : o < 0x1000) (ho : o ∉ faultOffs) : pget w (powerPage d) o = pget s (powerPage d) o :=
    hbefore.pget_page d.isLt hlow hlt ho
  have hcur : stepAfterChange w d = stepAfterChange s d := by
    rw [stepAfterChange, stepAfterChange, hbudget, hreg (by decide) (by decide)]
  obtain ⟨-, hgrant, hreq, hmeas, hnext, hmissed, hover, hstep⟩ :=
    epochDie_spec d.isLt w (diePower x.domains d) (x.req.getD d 0#16).toNat
  rw [hbudget] at hgrant hmissed hstep
  rw [hreg (by decide) (by decide)] at hgrant hover hstep
  rw [hcur] at hstep
  dsimp only
  rw [hsplit, hafter.budgetOf_key d.isLt hhigh, hafter.pget_page d.isLt hhigh (by decide) (by decide),
    hafter.pget_page d.isLt hhigh (by decide) (by decide), hafter.pget_page d.isLt hhigh (by decide) (by decide),
    hafter.pget_page d.isLt hhigh (by decide) (by decide)]
  exact ⟨hgrant, hreq, hmeas, hnext, hmissed, fun hgt => hafter.sticky _ _ (by decide) (hover hgt), hstep⟩

/-! Counters of cycles (R88). -/

theorem cntGet_count (s : State) {p o n : Nat} (h : cntFrozen s p = false) :
    cntGet (count s p o n) p o = (cntGet s p o + n) % 2 ^ 64 := by
  rw [count, if_neg (by rw [h]; decide), cntGet, setRegs_regs, kget_kput, if_pos rfl, BitVec.toNat_ofNat]

/-- No block of power, nor Hearth, has a counter of cycles; and none is the first of its page. -/
theorem measuredCounter_block {p o : Nat} (h : measuredCounter p o = true) :
    pageBlock p ∉ [some .basePower, some .tilePower, some .bellows, some .hearth] ∧ o ≠ 0x800 := by
  unfold measuredCounter at h
  split at h <;> simp_all
  omega

theorem powerPage_block : ∀ d : Fin 16, pageBlock (powerPage d) = some .basePower ∨ pageBlock (powerPage d) = some .tilePower := by
  decide

theorem measuredCounter_spec {p o : Nat} (h : measuredCounter p o = true) :
    p ≠ pwrPage ∧ p ≠ hhPage ∧ (∀ d < 16, p ≠ powerPage d) ∧ o ≠ 0x800 := by
  obtain ⟨hblock, ho⟩ := measuredCounter_block h
  refine ⟨?_, ?_, fun d hd => ?_, ho⟩ <;> (rintro rfl; apply hblock)
  · exact (by decide : pageBlock pwrPage = some .bellows) ▸ (by simp)
  · exact (by decide : pageBlock hhPage = some .hearth) ▸ (by simp)
  · obtain h | h := powerPage_block ⟨d, hd⟩ <;> simp only at h <;> simp [h]

/-- Every register but those of the input stays; so do the budgets. -/
structure keepsPages (s u : State) : Prop where
  regs : ∀ p o, o < 0x1000 → p ≠ hhPage → pget u p o = pget s p o
  store : u.store = s.store
  budgets : u.power.budgets = s.power.budgets

theorem keepsPages.pageServes_eq {s u : State} (h : keepsPages s u) (p : Nat) : pageServes u p = pageServes s p := by
  have htile (t i : Nat) {o : Nat} (ho : o < 0x1000) : pget u (tilePage t i) o = pget s (tilePage t i) o :=
    h.regs _ _ ho (by rw [tilePage, hhPage, modPage]; omega)
  have hgated : halfGated u = halfGated s := by
    funext t i
    simp only [halfGated, tileGating, htile t _ (show 0x084 < 0x1000 by decide), htile t _ (show 0x01C < 0x1000 by decide)]
  simp only [pageServes, tileAway, htile _ _ (show 0x780 < 0x1000 by decide), h.store, hgated]

theorem keepsPages.cntFrozen_eq {s u : State} (h : keepsPages s u) {p : Nat} (hp : p ≠ hhPage) : cntFrozen u p = cntFrozen s p := by
  have hoff (b : Block) : (cntCtl b).all (· < 0x1000) = true := by cases b <;> rfl
  unfold cntFrozen
  cases hctl : (pageBlock p).bind cntCtl with
  | none => rfl
  | some o =>
    obtain ⟨b, -, hb⟩ := Option.bind_eq_some_iff.1 hctl
    have ho := hoff b
    rw [hb, Option.all_some, decide_eq_true_iff] at ho
    dsimp only
    rw [h.regs p o ho hp]

/-! The timebase at an epoch (R391, R403). -/

theorem countPower_spec (s : State) (t0 t1 : Nat) :
    ∃ c, countPower s t0 t1 = s.setRegs { s.regs with counters := c } ∧
      ∀ p o, o < 0x1000 → p ≠ pwrPage → kget 0#64 c (regOff p o) = kget 0#64 s.regs.counters (regOff p o) := by
  unfold countPower
  dsimp only
  split
  · exact ⟨_, rfl, fun _ _ _ _ => rfl⟩
  · obtain ⟨c, e, hc⟩ := count_spec s pwrPage (0x800 + 8 * pState s) (t1 / 1000 - t0 / 1000)
    have hst : pState s < 8 := Nat.mod_lt _ (by decide)
    exact ⟨c, e, fun p o ho hp => hc _ fun heq => hp ((regOff_inj ho (by omega)).1 heq).1⟩

/-- The timebase brought to an instant: time in the power state counts, and nothing else changes. -/
theorem advanceTo_spec (s : State) (t : Nat) :
    ∃ c, advanceTo s t = (s.setClock { s.clock with now := max s.clock.now t }).setRegs { s.regs with counters := c } ∧
      ∀ p o, o < 0x1000 → p ≠ pwrPage → kget 0#64 c (regOff p o) = kget 0#64 s.regs.counters (regOff p o) := by
  unfold advanceTo
  split
  next h =>
    rw [Nat.max_eq_right (Nat.le_of_lt h)]
    exact countPower_spec ..
  next h =>
    rw [Nat.max_eq_left (Nat.le_of_not_lt h)]
    exact ⟨s.regs.counters, rfl, fun _ _ _ _ => rfl⟩

/-- The number of the epoch that starts. -/
def nextEpoch (s : State) : Nat := max (s.power.epoch + 1) (divUp s.clock.now 1000000)

/-- The registers of the input, as an epoch reads them. -/
def showInput (x : EpochReading) (s : State) : State :=
  pset (pset (pset s hhPage 0x080 x.vin.toNat) hhPage 0x084 x.iin.toNat) hhPage 0x088 x.pin.toNat

/-- Epoch n starts: the timebase and its number. -/
def epochAt (n t : Nat) (s : State) : State :=
  let w := advanceTo s t
  w.setPower { w.power with epoch := n }

/-- The state in which an epoch starts: the timebase, the number of the epoch and the registers of the input. -/
def epochOpens (x : EpochReading) (s : State) : State := showInput x (epochAt (nextEpoch s) (nextEpoch s * 1000000) s)

theorem exec_budgetEpoch (x : EpochReading) (s : State) :
    exec (.budgetEpoch x) s =
      .next (epochDies x (List.range 16) (powerNodes (addCycles x.cycles (epochOpens x s)) x.domains)) := rfl

theorem pset_vals (s : State) (p o v : Nat) : ∃ l, pset s p o v = s.setRegs { s.regs with vals := l } := ⟨_, rfl⟩

theorem showInput_eq (x : EpochReading) (s : State) : ∃ l, showInput x s = s.setRegs { s.regs with vals := l } := by
  obtain ⟨l, h⟩ := pset_vals s hhPage 0x080 x.vin.toNat
  obtain ⟨l', h'⟩ := pset_vals (s.setRegs { s.regs with vals := l }) hhPage 0x084 x.iin.toNat
  obtain ⟨l'', h''⟩ := pset_vals (s.setRegs { s.regs with vals := l' }) hhPage 0x088 x.pin.toNat
  exact ⟨l'', by rw [showInput, h, h', setRegs_twice, setRegs_regs, h'', setRegs_twice, setRegs_regs]⟩

theorem pget_showInput_other (x : EpochReading) (s : State) {p o : Nat} (ho : o < 0x1000) (hp : p ≠ hhPage) :
    pget (showInput x s) p o = pget s p o := by
  rw [showInput, pget_pset _ _ _ _ _ _ (by decide) ho, pget_pset _ _ _ _ _ _ (by decide) ho, pget_pset _ _ _ _ _ _ (by decide) ho,
    if_neg fun h => hp h.1, if_neg fun h => hp h.1, if_neg fun h => hp h.1]

theorem showInput_spec (x : EpochReading) (s : State) :
    let u := showInput x s
    pget u hhPage 0x080 = x.vin.toNat ∧ pget u hhPage 0x084 = x.iin.toNat ∧ pget u hhPage 0x088 = x.pin.toNat := by
  have hword (v : BitVec 16) : v.toNat % 2 ^ 32 = v.toNat := Nat.mod_eq_of_lt (v.isLt.trans (by decide))
  refine ⟨?_, ?_, ?_⟩ <;> simp only [showInput, pget_pset, Nat.reduceLT, Nat.reduceEqDiff, and_false, and_self, if_true, if_false, hword]

theorem epochAt_spec (n t : Nat) (s : State) :
    ∃ c, epochAt n t s = ((s.setClock { s.clock with now := max s.clock.now t }).setPower { s.power with epoch := n }).setRegs
        { s.regs with counters := c } ∧
      ∀ p o, o < 0x1000 → p ≠ pwrPage → kget 0#64 c (regOff p o) = kget 0#64 s.regs.counters (regOff p o) := by
  obtain ⟨c, e, hc⟩ := advanceTo_spec s t
  exact ⟨c, by rw [epochAt, e]; rfl, hc⟩

/-- What the start of an epoch changes. -/
theorem epochOpens_spec (x : EpochReading) (s : State) :
    ∃ v c, epochOpens x s = ((s.setClock { s.clock with now := max s.clock.now (nextEpoch s * 1000000) }).setPower
        { s.power with epoch := nextEpoch s }).setRegs { s.regs with vals := v, counters := c } ∧
      ∀ p o, o < 0x1000 → p ≠ pwrPage → kget 0#64 c (regOff p o) = kget 0#64 s.regs.counters (regOff p o) := by
  unfold epochOpens
  generalize nextEpoch s * 1000000 = t
  generalize nextEpoch s = n
  obtain ⟨c, e, hc⟩ := epochAt_spec n t s
  obtain ⟨v, h⟩ := showInput_eq x (epochAt n t s)
  rw [h, e, setRegs_twice, setRegs_regs]
  exact ⟨v, c, rfl, hc⟩

/-- An epoch starts on its multiple of 1 ms, which the timebase has reached (R391). -/
theorem epochOpens_clock (x : EpochReading) (s : State) :
    let u := epochOpens x s
    1000000 * u.power.epoch ≤ u.clock.now ∧ s.power.epoch < u.power.epoch := by
  obtain ⟨v, c, e, -⟩ := epochOpens_spec x s
  have hlater : s.power.epoch < nextEpoch s := Nat.lt_of_lt_of_le (Nat.lt_succ_self _) (Nat.le_max_left ..)
  dsimp only
  rw [e]
  generalize nextEpoch s = n at hlater
  simp only [setRegs_power, setPower_power, setRegs_clock, setPower_clock, setClock_clock]
  omega

theorem pget_epochAt (n t : Nat) (s : State) (p o : Nat) : pget (epochAt n t s) p o = pget s p o := by
  obtain ⟨c, e, -⟩ := epochAt_spec n t s
  rw [e, pget, pget, regGet, regGet, setRegs_regs]

theorem keepsPages_epochOpens (x : EpochReading) (s : State) : keepsPages s (epochOpens x s) where
  regs p o ho hp := by rw [epochOpens, pget_showInput_other x _ ho hp, pget_epochAt]
  store := by
    obtain ⟨v, c, e, -⟩ := epochOpens_spec x s
    rw [e, setRegs_store, setPower_store, setClock_store]
  budgets := by
    obtain ⟨v, c, e, -⟩ := epochOpens_spec x s
    rw [e, setRegs_power, setPower_power]

theorem cntGet_epochOpens (x : EpochReading) (s : State) {p o : Nat} (ho : o < 0x1000) (hp : p ≠ pwrPage) :
    cntGet (epochOpens x s) p o = cntGet s p o := by
  obtain ⟨v, c, e, hc⟩ := epochOpens_spec x s
  rw [e, cntGet, cntGet, setRegs_regs, hc p o ho hp]

/-! The counts of cycles. -/

/-- Counting changes counters only. -/
theorem addCycles_eq (l : List CycleCount) (s : State) :
    addCycles l s = s.setRegs { s.regs with counters := (addCycles l s).regs.counters } := by
  refine foldList_induction (P := fun u => u = s.setRegs { s.regs with counters := u.regs.counters }) (fun c u hu => ?_) l rfl
  split
  · obtain ⟨k, e, -⟩ := count_spec u c.page.toNat c.off.toNat c.n.toNat
    rw [e, hu]
    rfl
  · exact hu

/-- A count of cycles reaches its counter (R88). -/
theorem addCycles_one {s u : State} {c : CycleCount} (h : keepsPages s u)
    (hcount : measuredCounter c.page.toNat c.off.toNat = true) (hserves : pageServes s c.page.toNat = true)
    (hfrozen : cntFrozen s c.page.toNat = false) :
    cntGet (addCycles [c] u) c.page.toNat c.off.toNat = (cntGet u c.page.toNat c.off.toNat + c.n.toNat) % 2 ^ 64 := by
  obtain ⟨-, hhearth, -⟩ := measuredCounter_spec hcount
  have hadd : addCycles [c] u = count u c.page.toNat c.off.toNat c.n.toNat :=
    if_pos (by rw [hcount, h.pageServes_eq, hserves]; rfl)
  rw [hadd, cntGet_count u ((h.cntFrozen_eq hhearth).trans hfrozen)]

end Sys2Proof.Machine
end

section
/-!
Powers of the nodes of the stack model (R407): what an epoch gives them sums to what was measured of the domains, and over the nodes of a
DRAM stack to what was measured of it.
-/

namespace Sys2Proof.Machine

open Sys2Proof

/-! Sums of a map of numbers. -/

theorem kget_cons (k' v k : Nat) (m : KMap Nat) : kget 0 ((k', v) :: m) k = if k = k' then v else kget 0 m k := by
  rw [kget, kfind]
  split <;> rfl

theorem kget_eq_zero_of_lt {m : KMap Nat} {b k : Nat} (h : kSortedFrom b m = true) (hk : k < b) : kget 0 m k = 0 := by
  induction m generalizing b with
  | nil => rfl
  | cons p m ih =>
    obtain ⟨k', v⟩ := p
    simp only [kSortedFrom, Bool.and_eq_true, decide_eq_true_eq] at h
    rw [kget_cons, if_neg (by omega), ih h.2 (by omega)]

theorem sum_kerase {m : KMap Nat} {b : Nat} (k : Nat) (h : kSortedFrom b m = true) :
    ((kerase m k).map Prod.snd).sum + kget 0 m k = (m.map Prod.snd).sum := by
  induction m generalizing b with
  | nil => rfl
  | cons p m ih =>
    obtain ⟨k', v⟩ := p
    simp only [kSortedFrom, Bool.and_eq_true, decide_eq_true_eq] at h
    have htail := ih h.2
    rw [kget_cons, List.map_cons, List.sum_cons]
    by_cases hk : k = k'
    · subst hk
      have habsent : kget 0 m k = 0 := kget_eq_zero_of_lt h.2 (Nat.lt_succ_self k)
      have herase : kerase ((k, v) :: m) k = kerase m k := List.filter_cons_of_neg (by simp)
      rw [if_pos rfl, herase]
      omega
    · have herase : kerase ((k', v) :: m) k = (k', v) :: kerase m k :=
        List.filter_cons_of_pos (by simpa using fun h => hk h.symm)
      rw [if_neg hk, herase, List.map_cons, List.sum_cons]
      omega

theorem sum_kinsert {m : KMap Nat} {b : Nat} (k x : Nat) (h : kSortedFrom b m = true) :
    ((kinsert m k x).map Prod.snd).sum + kget 0 m k = (m.map Prod.snd).sum + x := by
  induction m generalizing b with
  | nil => simp [kinsert]
  | cons p m ih =>
    obtain ⟨k', v⟩ := p
    simp only [kSortedFrom, Bool.and_eq_true, decide_eq_true_eq] at h
    have htail := ih h.2
    rw [kget_cons, kinsert, List.map_cons, List.sum_cons]
    split_ifs <;> simp only [List.map_cons, List.sum_cons]
    · omega
    · have habsent : kget 0 m k = 0 := kget_eq_zero_of_lt h.2 (by omega)
      omega
    · omega
    · omega

/-- Adding to what stands at a key adds as much to the sum. -/
theorem sum_kput {m : KMap Nat} (k x : Nat) (h : kSortedFrom 0 m = true) :
    ((kput 0 m k (kget 0 m k + x)).map Prod.snd).sum = (m.map Prod.snd).sum + x := by
  unfold kput
  split
  · have := sum_kerase k h
    omega
  · have := sum_kinsert k (kget 0 m k + x) h
    omega

/-- The same, over keys of which each stands once. -/
theorem sum_kget_kput {K : List Nat} (hK : K.Nodup) (m : KMap Nat) (k x : Nat) :
    (K.map (kget 0 (kput 0 m k (kget 0 m k + x)))).sum = (K.map (kget 0 m)).sum + if k ∈ K then x else 0 := by
  induction K with
  | nil => rfl
  | cons a K ih =>
    obtain ⟨ha, hK⟩ := List.nodup_cons.1 hK
    simp only [List.map_cons, List.sum_cons, ih hK, kget_kput, List.mem_cons]
    by_cases hka : a = k
    · subst hka
      simp only [if_true, true_or, if_neg ha]
      omega
    · simp only [if_neg hka, show k ≠ a from fun h => hka h.symm, false_or]
      omega

/-! Parts added up at their nodes. -/

/-- Parts of powers, each added to its node. -/
def addParts (parts : List (Nat × Nat)) (m : KMap Nat) : KMap Nat :=
  parts.foldl (fun m x => kput 0 m x.1 (kget 0 m x.1 + x.2)) m

/-- The total of the parts of some nodes. -/
def partsIn (K : List Nat) (parts : List (Nat × Nat)) : Nat := ((parts.filter fun x => x.1 ∈ K).map Prod.snd).sum

theorem sum_addParts (parts : List (Nat × Nat)) {m : KMap Nat} (h : kSortedFrom 0 m = true) :
    ((addParts parts m).map Prod.snd).sum = (m.map Prod.snd).sum + (parts.map Prod.snd).sum := by
  induction parts generalizing m with
  | nil => rfl
  | cons x parts ih =>
    calc ((addParts (x :: parts) m).map Prod.snd).sum
        = ((kput 0 m x.1 (kget 0 m x.1 + x.2)).map Prod.snd).sum + (parts.map Prod.snd).sum := ih (kSortedFrom_kput 0 _ h)
      _ = _ := by rw [sum_kput _ _ h, List.map_cons, List.sum_cons, Nat.add_assoc]

theorem sum_kget_addParts {K : List Nat} (hK : K.Nodup) (parts : List (Nat × Nat)) (m : KMap Nat) :
    (K.map (kget 0 (addParts parts m))).sum = (K.map (kget 0 m)).sum + partsIn K parts := by
  induction parts generalizing m with
  | nil => rfl
  | cons x parts ih =>
    have hcons : partsIn K (x :: parts) = (if x.1 ∈ K then x.2 else 0) + partsIn K parts := by
      unfold partsIn
      by_cases hx : x.1 ∈ K <;> simp [hx]
    calc (K.map (kget 0 (addParts (x :: parts) m))).sum
        = (K.map (kget 0 (kput 0 m x.1 (kget 0 m x.1 + x.2)))).sum + partsIn K parts := ih _
      _ = _ := by rw [sum_kget_kput hK, hcons, Nat.add_assoc]

theorem partsIn_flatMap (K D : List Nat) (f : Nat → List (Nat × Nat)) :
    partsIn K (D.flatMap f) = (D.map fun d => partsIn K (f d)).sum := by
  induction D with
  | nil => rfl
  | cons d D ih =>
    rw [List.flatMap_cons, List.map_cons, List.sum_cons, ← ih, partsIn, List.filter_append, List.map_append, List.sum_append]
    rfl

/-! Parts of a domain. -/

theorem length_splitFrom (p all served : Nat) (ws : List Nat) : (splitFrom p all served ws).length = ws.length := by
  induction ws generalizing served with
  | nil => rfl
  | cons w ws ih => rw [splitFrom, List.length_cons, ih, List.length_cons]

theorem length_splitPower (p : Nat) (ws : List Nat) : (splitPower p ws).length = ws.length := by
  rw [splitPower, length_splitFrom]
  split
  · exact List.length_map _
  · rfl

theorem domainNodes_ne_nil (s : State) (d : Nat) : domainNodes s d ≠ [] := by
  unfold domainNodes
  split
  next => simp
  next =>
    dsimp only
    split
    next => simp
    next => simpa using ⟨0, by decide⟩
    next => simp

/-- The parts of a domain sum to what was measured of it (R407). -/
theorem sum_domainPower (s : State) (d p : Nat) : ((domainPower s d p).map Prod.snd).sum = 1024 * p := by
  have hlen : (splitPower (1024 * p) ((domainNodes s d).map Prod.snd)).length ≤ ((domainNodes s d).map Prod.fst).length := by
    rw [length_splitPower, List.length_map, List.length_map]
  rw [domainPower, List.map_snd_zip hlen, splitPower_sum]
  simpa using domainNodes_ne_nil s d

theorem mem_domainPower {s : State} {d p : Nat} {x : Nat × Nat} (h : x ∈ domainPower s d p) :
    x.1 ∈ (domainNodes s d).map Prod.fst := (List.of_mem_zip h).1

/-- Where all nodes of a domain are among those looked at, its parts are all there. -/
theorem partsIn_domainPower_all {K : List Nat} {s : State} {d : Nat} (p : Nat)
    (h : ∀ n ∈ (domainNodes s d).map Prod.fst, n ∈ K) : partsIn K (domainPower s d p) = 1024 * p := by
  rw [partsIn, List.filter_eq_self.2 fun x hx => decide_eq_true (h _ (mem_domainPower hx)), sum_domainPower]

theorem partsIn_domainPower_none {K : List Nat} {s : State} {d : Nat} (p : Nat)
    (h : ∀ n ∈ (domainNodes s d).map Prod.fst, n ∉ K) : partsIn K (domainPower s d p) = 0 := by
  rw [partsIn, List.filter_eq_nil_iff.2 fun x hx => by simpa using h _ (mem_domainPower hx)]
  rfl

/-! The nodes of a DRAM stack (R406). -/

def layerNodes (t : Nat) : List Nat := (List.range 16).flatMap fun k => (List.range 8).map fun l => layerNode t k l

theorem mem_layerNodes {t n : Nat} : n ∈ layerNodes t ↔ ∃ k < 16, ∃ l < 8, n = layerNode t k l := by
  simp only [layerNodes, List.mem_flatMap, List.mem_map, List.mem_range, eq_comm (a := n)]

theorem nodup_layerNodes (t : Nat) : (layerNodes t).Nodup := by
  rw [layerNodes, List.nodup_flatMap]
  refine ⟨fun k _ => List.nodup_range.map fun l l' h => by simpa [layerNode] using h,
    List.nodup_range.imp fun {k k'} hne => ?_⟩
  simp only [Function.onFun, List.disjoint_left, List.mem_map, List.mem_range, layerNode, not_exists, not_and]
  rintro n ⟨l, hl, rfl⟩ l' hl'
  omega

theorem domainNodes_stack (s : State) (t : Nat) : (domainNodes s (4 * t + 7)).map Prod.fst = layerNodes t := by
  have hdiv : (4 * t + 7 - 4) / 4 = t := by omega
  have hmod : (4 * t + 7 - 4) % 4 = 3 := by omega
  rw [domainNodes, if_neg (by omega)]
  simp only [hmod, hdiv]
  simp [layerNodes, List.map_flatMap, Function.comp_def]

/-- The node that an offset below the lid of a tile names is a layer where the offset is that of no logic die. -/
theorem tile_of_mem_layerNodes {t t' o : Nat} (ho : o < 148) (h : 148 * t' + o ∈ layerNodes t) : t' = t ∧ o < 144 ∧ o % 9 ≠ 0 := by
  obtain ⟨k, hk, l, hl, heq⟩ := mem_layerNodes.1 h
  have hoff : 9 * k + 1 + l < 148 := by omega
  have ht : t' = t := by
    unfold layerNode at heq
    omega
  subst ht
  have : o = 9 * k + 1 + l := by
    unfold layerNode at heq
    omega
  omega

theorem logicNode_notMem (t t' : Nat) {k : Nat} (hk : k < 16) : logicNode t' k ∉ layerNodes t := fun h => by
  have := tile_of_mem_layerNodes (by omega) h
  omega

theorem clusterNode_notMem (t t' : Nat) {h : Nat} (hh : h < 4) : clusterNode t' h ∉ layerNodes t := fun hmem => by
  rw [clusterNode, Nat.add_assoc] at hmem
  have := tile_of_mem_layerNodes (by omega) hmem
  omega

theorem regionNode_notMem (t t' : Nat) : regionNode t' ∉ layerNodes t := fun h => by
  have := tile_of_mem_layerNodes (by omega) h
  omega

theorem edgeNode_notMem {t : Nat} (ht : t < 12) (a i : Nat) : edgeNode a i ∉ layerNodes t := fun h => by
  obtain ⟨k, hk, l, hl, heq⟩ := mem_layerNodes.1 h
  rw [edgeNode, layerNode] at heq
  omega

/-- No other domain has a node of a stack. -/
theorem domainNodes_other (s : State) {t : Nat} (ht : t < 12) {d : Nat} (hd : d < 52) (hne : d ≠ 4 * t + 7) :
    ∀ n ∈ (domainNodes s d).map Prod.fst, n ∉ layerNodes t := by
  intro n hn
  unfold domainNodes at hn
  split at hn
  next =>
    simp only [List.map_append, List.map_map, List.mem_append, List.mem_map, Function.comp] at hn
    obtain ⟨i, -, rfl⟩ | ⟨i, -, rfl⟩ := hn
    · exact edgeNode_notMem ht d i
    · exact regionNode_notMem t _
  next =>
    dsimp only at hn
    split at hn
    next =>
      simp only [List.map_map, List.mem_map, List.mem_range, Function.comp] at hn
      obtain ⟨k, hk, rfl⟩ := hn
      exact logicNode_notMem t _ hk
    next _ =>
      simp only [List.map_flatMap, List.map_map, List.mem_flatMap, List.mem_map, List.mem_range, Function.comp] at hn
      obtain ⟨k, hk, l, hl, rfl⟩ := hn
      rw [layerNode, Nat.add_assoc, Nat.add_assoc]
      intro hmem
      obtain ⟨heq, -⟩ := tile_of_mem_layerNodes (by omega) hmem
      omega
    next hne2 hne3 =>
      have hhalf : (d - 4) % 4 < 2 := by
        have : (d - 4) % 4 ≠ 2 ∧ (d - 4) % 4 ≠ 3 := ⟨hne2, hne3⟩
        omega
      simp only [List.map_append, List.map_map, List.map_cons, List.map_nil, List.mem_append, List.mem_map, List.mem_range,
        List.mem_singleton, Function.comp] at hn
      obtain ⟨i, hi, rfl⟩ | rfl := hn
      · exact logicNode_notMem t _ (by omega)
      · exact clusterNode_notMem t _ (by omega)

/-! The powers of an epoch. -/

theorem powerNodes_powers (s : State) (domains : List (BitVec 16)) :
    (powerNodes s domains).quench.powers = addParts
      (((List.range 52).filter (domainUp s)).flatMap fun d => domainPower s d (domains.getD d 0#16).toNat) [] := rfl

/-- The powers of the nodes sum to what was measured of the domains that are up. -/
theorem sum_powerNodes (s : State) (domains : List (BitVec 16)) :
    ((powerNodes s domains).quench.powers.map Prod.snd).sum =
      (((List.range 52).filter (domainUp s)).map fun d => 1024 * (domains.getD d 0#16).toNat).sum := by
  rw [powerNodes_powers, sum_addParts _ rfl]
  generalize (List.range 52).filter (domainUp s) = D
  induction D with
  | nil => rfl
  | cons d D ih =>
    rw [List.flatMap_cons, List.map_append, List.sum_append, sum_domainPower, List.map_cons, List.sum_cons, ← ih]
    simp only [List.map_nil, List.sum_nil, Nat.zero_add]

/-- The powers of the nodes of the DRAM stack of a tile that is up sum to what was measured of the stack. -/
theorem sum_powerNodes_stack (s : State) (domains : List (BitVec 16)) {t : Nat} (ht : t < 12) (hup : tileUp s t = true) :
    ((layerNodes t).map (kget 0 (powerNodes s domains).quench.powers)).sum = 1024 * (domains.getD (4 * t + 7) 0#16).toNat := by
  rw [powerNodes_powers, sum_kget_addParts (nodup_layerNodes t), partsIn_flatMap]
  have hmem : 4 * t + 7 ∈ (List.range 52).filter (domainUp s) := by
    rw [List.mem_filter, List.mem_range]
    refine ⟨by omega, ?_⟩
    rw [domainUp, if_neg (by omega), show (4 * t + 7 - 4) / 4 = t by omega, hup]
  have hothers : ∀ d, d ≠ 4 * t + 7 → d ∈ (List.range 52).filter (domainUp s) →
      partsIn (layerNodes t) (domainPower s d (domains.getD d 0#16).toNat) = 0 := fun d hne hd =>
    partsIn_domainPower_none _ (domainNodes_other s ht (List.mem_range.1 (List.mem_filter.1 hd).1) hne)
  have hzero : ((layerNodes t).map (kget 0 [])).sum = 0 := List.sum_eq_zero fun x hx => by
    obtain ⟨n, -, rfl⟩ := List.mem_map.1 hx
    rfl
  rw [hzero, Nat.zero_add, List.sum_map_eq_nsmul_single (4 * t + 7) _ hothers,
    List.count_eq_one_of_mem (List.nodup_range.filter _) hmem, one_smul, partsIn_domainPower_all]
  rw [domainNodes_stack]
  exact fun _ h => h

end Sys2Proof.Machine
end

section
/-!
SUPPORT. Budget messages (R392): what one holds, and when it agrees with its complement.
-/

namespace Sys2Proof.Machine

open Sys2Proof

theorem leNat_leBytes (n w : Nat) : leNat (leBytes n w) = w % 256 ^ n := by
  induction n generalizing w with
  | zero => simp [leBytes, leNat, Nat.mod_one]
  | succ n ih =>
    rw [leBytes, leNat, ih, BitVec.toNat_ofNat, show 256 ^ (n + 1) = 256 * 256 ^ n from Nat.pow_succ', Nat.mod_mul]

/-! Agreement with the complement. -/

/-- A good message holds a byte's complement 16 bytes on. -/
theorem getElem?_of_messageGood {m : List Byte} (h : messageGood m = true) {k : Nat} (hk : k < 16) :
    m[16 + k]? = m[k]?.map (~~~ ·) := by
  have := congrArg (·[k]?) (beq_iff_eq.1 h)
  simpa [List.getElem?_take, hk] using this

theorem messageGood_append_complement {body : List Byte} (h : body.length = 16) :
    messageGood (body ++ body.map (~~~ ·)) = true := by
  rw [messageGood, List.drop_left' h, List.take_left' h, List.take_of_length_le (by simp [h])]
  exact beq_self_eq_true _

/-- One flipped bit of a good message is noticed. -/
theorem messageGood_arrives_flip {m : List Byte} (hlen : m.length = 32) (h : messageGood m = true) (i : Fin 256) :
    messageGood (arrives m [i]) = false := by
  have hmask : BitVec.ofNat 8 (2 ^ (i.val % 8)) ≠ 0#8 :=
    (by decide : ∀ b : Fin 8, BitVec.ofNat 8 (2 ^ b.val) ≠ 0#8) ⟨i.val % 8, Nat.mod_lt _ (by decide)⟩
  rw [Bool.eq_false_iff]
  intro hgood
  have hk : i.val / 8 % 16 < 16 := Nat.mod_lt _ (by decide)
  have hold := getElem?_of_messageGood h hk
  have hnew := getElem?_of_messageGood hgood hk
  have hsome : m[i.val / 8 % 16]? = some m[i.val / 8 % 16] := List.getElem?_eq_getElem (by omega)
  simp only [arrives, List.foldl_cons, List.foldl_nil, List.getElem?_modify, hold, hsome, Option.map_some,
    Option.map_eq_map, Option.some.injEq] at hnew
  generalize BitVec.ofNat 8 (2 ^ (i.val % 8)) = c at hmask hnew
  generalize m[i.val / 8 % 16] = b at hnew
  apply hmask
  obtain hlow | hhigh : i.val / 8 = i.val / 8 % 16 ∨ i.val / 8 = 16 + i.val / 8 % 16 := by omega
  · rw [if_neg (by omega), if_pos hlow] at hnew
    simpa using hnew.symm
  · rw [if_pos hhigh, if_neg (by omega)] at hnew
    simpa using hnew

/-! What a message holds. -/

section
variable (s : State) (type d meas req grant floor flags : Nat)

theorem length_budgetMessage : (budgetMessage s type d meas req grant floor flags).length = 32 := rfl

theorem messageGood_budgetMessage : messageGood (budgetMessage s type d meas req grant floor flags) = true :=
  messageGood_append_complement rfl

theorem budgetMessage_meas : leNat ((budgetMessage s type d meas req grant floor flags).extract 4 6) = meas % 2 ^ 16 :=
  leNat_leBytes 2 meas

theorem budgetMessage_req : leNat ((budgetMessage s type d meas req grant floor flags).extract 6 8) = req % 2 ^ 16 :=
  leNat_leBytes 2 req

theorem budgetMessage_grant : leNat ((budgetMessage s type d meas req grant floor flags).extract 8 10) = grant % 2 ^ 16 :=
  leNat_leBytes 2 grant

theorem budgetMessage_floor : leNat ((budgetMessage s type d meas req grant floor flags).extract 10 12) = floor % 2 ^ 16 :=
  leNat_leBytes 2 floor

theorem budgetMessage_flags : leNat ((budgetMessage s type d meas req grant floor flags).extract 12 13) = flags % 2 ^ 8 :=
  leNat_leBytes 1 flags

end

end Sys2Proof.Machine
end

section
/-!
Budget messages reach their granting die, and grants the die (R391 to R394); and with the epoch the statement Power_budgets.
-/

namespace Sys2Proof.Machine

open Sys2Proof

/-! The granting die. -/

theorem granter_spec {d : Nat} (hd : d < 16) : granter d = 0x80 ∨ granter d < 4 := by
  unfold granter tileDie
  split_ifs
  · exact .inl rfl
  · exact .inr (by omega)

theorem budgetKey_ne_granter {d : Nat} (hd : d < 16) : budgetKey d ≠ granter d := by
  unfold budgetKey granter tileDie
  split_ifs <;> omega

theorem clampN_bounds {lo hi v : Nat} (h : lo ≤ hi) : clampN lo hi v ≤ hi := by
  unfold clampN
  split_ifs <;> omega

theorem floorOf_lt (s : State) (d : Nat) : floorOf s d < 2 ^ 16 := by
  unfold floorOf
  dsimp only
  split
  · exact Nat.lt_of_le_of_lt (clampN_bounds (by decide)) (by decide)
  · exact Nat.lt_of_le_of_lt (clampN_bounds (by decide)) (by decide)

/-! A message that fails its complement (R392). -/

theorem budgetBad_granter {d : Nat} (hd : d < 16) (s : State) :
    let u := budgetBad s (granter d)
    u.mem = s.mem ∧ u.power = s.power ∧ (granter d < 4 → sticky u (powerPage (granter d)) 0 = true) := by
  obtain hq | hbase := granter_spec hd
  · rw [hq]
    exact ⟨rfl, rfl, fun h => absurd h (by decide)⟩
  · have hbad : budgetBad s (granter d) = raise s (powerPage (granter d)) 0 := by
      rw [budgetBad, if_neg (by omega), if_pos hbase]
    dsimp only
    rw [hbad]
    exact ⟨(onlyFaults_raise ..).mem_eq, (onlyFaults_raise ..).power_eq,
      fun h => sticky_raise_powerPage s (by omega) (by decide)⟩

theorem budgetBad_key {d : Nat} (hd : d < 16) (s : State) : budgetBad s (budgetKey d) = raise s (powerPage d) 0 := by
  unfold budgetBad budgetKey
  by_cases h : d < 4
  · rw [if_pos h, if_neg (by omega), if_pos h]
  · rw [if_neg h, if_neg (by omega), if_neg (by omega), show 0x10 + (d - 4) - 0x10 + 4 = d by omega]

/-! Reports and requests (R391, R392). -/

section
variable (d : Fin 16) (fl : List (Fin 256)) (s : State)

theorem exec_budgetReport_good (hup : dieUp s d = true) (h : messageGood (arrives (reportMessage s d) fl) = true) :
    let m := arrives (reportMessage s d) fl
    exec (.budgetReport d fl) s = .next (setBudget s (granter d) { budgetOf s (granter d) with
      reports := kinsert (budgetOf s (granter d)).reports (budgetKey d) (leNat (m.extract 4 6), leNat (m.extract 12 13)) }) := by
  change execBudgetReport d fl s = _
  simp only [execBudgetReport, hup, h, Bool.not_true, Bool.false_eq_true, if_false]

theorem exec_budgetReport_bad (hup : dieUp s d = true) (h : messageGood (arrives (reportMessage s d) fl) = false) :
    exec (.budgetReport d fl) s = .next (budgetBad s (granter d)) := by
  change execBudgetReport d fl s = _
  simp only [execBudgetReport, hup, h, Bool.not_true, Bool.not_false, Bool.false_eq_true, if_false, if_true]

theorem exec_budgetReport_down (hdown : dieUp s d = false) : exec (.budgetReport d fl) s = .next s := by
  change execBudgetReport d fl s = _
  simp only [execBudgetReport, hdown, Bool.not_false, if_true]

theorem exec_budgetRequest_good (hup : dieUp s d = true) (h : messageGood (arrives (requestMessage s d) fl) = true) :
    let m := arrives (requestMessage s d) fl
    exec (.budgetRequest d fl) s = .next (setBudget s (granter d) { budgetOf s (granter d) with
      requests := kinsert (budgetOf s (granter d)).requests (budgetKey d) (leNat (m.extract 6 8), leNat (m.extract 10 12)) }) := by
  change execBudgetRequest d fl s = _
  simp only [execBudgetRequest, hup, h, Bool.not_true, Bool.false_eq_true, if_false]

theorem exec_budgetRequest_bad (hup : dieUp s d = true) (h : messageGood (arrives (requestMessage s d) fl) = false) :
    exec (.budgetRequest d fl) s = .next (budgetBad s (granter d)) := by
  change execBudgetRequest d fl s = _
  simp only [execBudgetRequest, hup, h, Bool.not_true, Bool.not_false, Bool.false_eq_true, if_false, if_true]

theorem exec_budgetRequest_down (hdown : dieUp s d = false) : exec (.budgetRequest d fl) s = .next s := by
  change execBudgetRequest d fl s = _
  simp only [execBudgetRequest, hdown, Bool.not_false, if_true]

/-- LAGGARD is bit 0 of FLAGS (R392). -/
theorem bitOf_flags (laggard limited : Bool) : bitOf ((b2n laggard + 2 * b2n limited) % 2 ^ 8) 0 = laggard := by
  revert laggard limited
  decide

/-- A REPORT tells the measured power and whether the tile lags. -/
theorem budgetReport_good (hup : dieUp s d = true) (h : messageGood (arrives (reportMessage s d) fl) = true) :
    answers (.budgetReport d fl) s fun u => u = { s with power := u.power } ∧
      ∃ v f, (budgetOf u (granter d)).reports = kinsert (budgetOf s (granter d)).reports (budgetKey d) (v, f) ∧
        (4 ≤ d.val → fl = [] → v = min 0xFFFF (pget s (powerPage d) 0x088) ∧
          bitOf f 0 = s.power.lagging.contains (d - 4)) := by
  refine ⟨_, exec_budgetReport_good d fl s hup h, rfl, _, _, by rw [budgetOf_setBudget, if_pos rfl], ?_⟩
  rintro hd rfl
  have htile : ¬ d.val < 4 := by omega
  refine ⟨?_, ?_⟩
  · change leNat ((reportMessage s d).extract 4 6) = _
    rw [reportMessage, budgetMessage_meas, if_neg htile, dieTotal, List.foldl_nil]
    omega
  · change bitOf (leNat ((reportMessage s d).extract 12 13)) 0 = _
    rw [reportMessage, budgetMessage_flags, reportFlags, if_neg htile]
    exact bitOf_flags _ _

/-- A REQUEST tells the request and the floor. -/
theorem budgetRequest_good (hup : dieUp s d = true) (h : messageGood (arrives (requestMessage s d) fl) = true) :
    answers (.budgetRequest d fl) s fun u => u = { s with power := u.power } ∧
      ∃ v f, (budgetOf u (granter d)).requests = kinsert (budgetOf s (granter d)).requests (budgetKey d) (v, f) ∧
        (4 ≤ d.val → fl = [] → v = min 0xFFFF (pget s (powerPage d) 0x084) ∧ f = floorOf s d) := by
  refine ⟨_, exec_budgetRequest_good d fl s hup h, rfl, _, _, by rw [budgetOf_setBudget, if_pos rfl], ?_⟩
  rintro hd rfl
  have htile : ¬ d.val < 4 := by omega
  have hfloor := floorOf_lt s d
  refine ⟨?_, ?_⟩
  · change leNat ((requestMessage s d).extract 6 8) = _
    rw [requestMessage, budgetMessage_req, if_neg htile, dieTotal, List.map_nil, List.foldl_nil]
    omega
  · change leNat ((requestMessage s d).extract 10 12) = _
    rw [requestMessage, budgetMessage_floor, if_neg htile, dieTotal, List.map_nil, List.foldl_nil]
    omega

end

/-! Grants (R392, R393). -/

/-- A base die divides what it was granted among itself and its tiles. -/
def shareOn (s : State) (d v : Nat) : State :=
  let own := (pget s (powerPage d) 0x084, floorOf s d)
  let s := setBudget s d { budgetOf s d with requests := kinsert (budgetOf s d).requests d own }
  let dies := d :: ([0, 1, 2].map fun i => 4 + 3 * d + i).filter (dieUp s)
  let s := divideAt s d v dies fun i q f => if i < 4 then q else limitRequest s i q f
  let x := budgetOf s d
  setBudget s d { x with next := some (kget v x.shares d), shares := kerase x.shares d, requests := kerase x.requests d }

theorem shareOn_spec (s : State) (d v : Nat) :
    let u := shareOn s d v
    u = { s with power := u.power } ∧ (budgetOf u d).next ≠ none := by
  refine ⟨rfl, ?_⟩
  rw [shareOn, budgetOf_setBudget, if_pos rfl]
  exact Option.some_ne_none _

section
variable (d : Fin 16) (fl : List (Fin 256)) (s : State) {v : Nat} (hshare : kfind (budgetOf s (granter d)).shares (budgetKey d) = some v)

/-- The GRANT of a die as it is sent. -/
def grantMessage (s : State) (d : Fin 16) (v : Nat) : List Byte :=
  budgetMessage s 3 d 0 0 v (floorOf s (if d.val < 4 then d.val else tileDie (d.val - 4))) 0

/-- The state once the granting die has sent a die's share. -/
def grantSent (s : State) (d : Nat) : State :=
  setBudget s (granter d) { budgetOf s (granter d) with shares := kerase (budgetOf s (granter d)).shares (budgetKey d) }

/-- The state once the GRANT has come. -/
def grantHeld (s : State) (d v : Nat) : State :=
  setBudget (grantSent s d) (budgetKey d) { budgetOf (grantSent s d) (budgetKey d) with next := some v, before := false }

include hshare

theorem exec_grant_bad (h : messageGood (arrives (grantMessage s d v) fl) = false) :
    exec (.grant d fl) s = .next (budgetBad (grantSent s d) (budgetKey d)) := by
  change execGrant d fl s = _
  rw [grantMessage] at h
  simp only [execGrant, hshare, h, Bool.not_false, if_true]
  rfl

theorem exec_grant_good (h : messageGood (arrives (grantMessage s d v) fl) = true) :
    let w := leNat ((arrives (grantMessage s d v) fl).extract 8 10)
    exec (.grant d fl) s = .next (if 4 ≤ d.val then grantHeld s d w else shareOn (grantHeld s d w) d w) := by
  change execGrant d fl s = _
  rw [grantMessage] at h ⊢
  simp only [execGrant, hshare, h, Bool.not_true, Bool.false_eq_true, if_false]
  rfl

/-- A GRANT that fails its complement changes no grant and raises its source. -/
theorem grant_bad (h : messageGood (arrives (grantMessage s d v) fl) = false) :
    answers (.grant d fl) s fun u => u.mem = s.mem ∧ (budgetOf u (budgetKey d)).next = (budgetOf s (budgetKey d)).next ∧
      sticky u (powerPage d) 0 = true := by
  refine ⟨_, exec_grant_bad d fl s hshare h, ?_⟩
  rw [budgetBad_key d.isLt]
  have hraise := onlyFaults_raise (grantSent s d) (powerPage d) 0
  refine ⟨hraise.mem_eq, ?_, sticky_raise_powerPage _ d.isLt (by decide)⟩
  rw [budgetOf, hraise.power_eq]
  change (budgetOf (grantSent s d) (budgetKey d)).next = _
  rw [grantSent, budgetOf_setBudget, if_neg (budgetKey_ne_granter d.isLt)]

/-- A good GRANT is what the die has for the next epoch; a base die keeps its part of it. -/
theorem grant_good (h : messageGood (arrives (grantMessage s d v) fl) = true) :
    answers (.grant d fl) s fun u => u = { s with power := u.power } ∧ (budgetOf u (budgetKey d)).next ≠ none ∧
      (4 ≤ d.val → fl = [] → (budgetOf u (budgetKey d)).next = some (v % 2 ^ 16)) := by
  refine ⟨_, exec_grant_good d fl s hshare h, ?_⟩
  by_cases htile : 4 ≤ d.val
  · rw [if_pos htile]
    have hnext (w : Nat) : (budgetOf (grantHeld s d w) (budgetKey d)).next = some w := by
      rw [grantHeld, budgetOf_setBudget, if_pos rfl]
    refine ⟨rfl, by rw [hnext]; exact Option.some_ne_none _, ?_⟩
    rintro - rfl
    rw [hnext]
    exact congrArg some (budgetMessage_grant ..)
  · rw [if_neg htile]
    obtain ⟨hpower, hnext⟩ := shareOn_spec (grantHeld s d (leNat ((arrives (grantMessage s d v) fl).extract 8 10))) d
      (leNat ((arrives (grantMessage s d v) fl).extract 8 10))
    have hkey : budgetKey d = d := by rw [budgetKey, if_pos (by omega)]
    exact ⟨hpower, by rwa [hkey], fun h => absurd h htile⟩

end

theorem grant_none (d : Fin 16) (fl : List (Fin 256)) (s : State)
    (h : kfind (budgetOf s (granter d)).shares (budgetKey d) = none) : idles (.grant d fl) s := by
  change execGrant d fl s = _
  simp only [execGrant, h]

/-! Lapses (R392). -/

theorem grantLapse_early (d : Fin 16) (s : State) (h : (budgetOf s (budgetKey d)).missed < 3) : idles (.grantLapse d) s := by
  change execGrantLapse d s = _
  simp only [execGrantLapse, if_pos h]

/-- After three epochs without a GRANT the floor applies. -/
theorem grantLapse_due (d : Fin 16) (s : State) (h : 3 ≤ (budgetOf s (budgetKey d)).missed) :
    answers (.grantLapse d) s fun u => u.mem = s.mem ∧ pget u (powerPage d) 0x080 = floorOf s d ∧
      sticky u (powerPage d) 1 = true := by
  have hexec : exec (.grantLapse d) s =
      .next (raise (pset s (powerPage d) 0x080 (floorOf s d)) (powerPage d) 1) := by
    change execGrantLapse d s = _
    simp only [execGrantLapse, if_neg (Nat.not_lt.2 h)]
  have hfloor := floorOf_lt s d
  refine ⟨_, hexec, (onlyFaults_raise ..).mem_eq, ?_, sticky_raise_powerPage _ d.isLt (by decide)⟩
  rw [(leavesPlain_raise ..).pget_eq _ (by decide) (by decide), pget_pset _ _ _ _ _ _ (by decide) (by decide), if_pos ⟨rfl, rfl⟩]
  omega

/-! Step changes (R382). -/

theorem finishStep_none {s : State} {t : Nat} (h : (budgetOf s (0x10 + t)).target = none) : finishStep s t = s := by
  simp only [finishStep, h]

theorem finishStep_regs {s : State} {t st : Nat} (h : (budgetOf s (0x10 + t)).target = some st) :
    finishStep s t = { s with regs := (finishStep s t).regs, power := (finishStep s t).power } := by
  simp only [finishStep, h]
  obtain ⟨c, e, -⟩ := count_spec (pset (setBudget s (0x10 + t) { budgetOf s (0x10 + t) with target := none }) (tilePage t 83) 0x08C
    (setFld (pget s (tilePage t 83) 0x08C) 5 0 st)) (tilePage t 83) 0x808 1
  rw [e]
  rfl

theorem arrStepChange_due (t : Fin 12) (s : State) {st : Nat} (h : (budgetOf s (0x10 + t)).target = some st) :
    answers (.arrStepChange t) s fun u => u = { s with regs := u.regs, power := u.power } ∧
      (budgetOf u (0x10 + t)).target = none ∧ fld (pget u (tilePage t 83) 0x08C) 5 0 = st % 64 := by
  have hd : ¬ t.val + 4 < 4 := by omega
  have hkey : budgetKey (t.val + 4) = 0x10 + t.val := (budgetKey_tile hd).symm
  have hpage : powerPage (t.val + 4) = tilePage t.val 83 := (powerPage_tile hd).symm
  obtain ⟨-, hbudget, hstep, -⟩ := finishStep_spec hd s
  rw [Nat.add_sub_cancel, hkey] at hbudget
  rw [Nat.add_sub_cancel, hpage, stepAfterChange, hkey, h] at hstep
  exact ⟨finishStep s t, rfl, finishStep_regs h, by rw [hbudget], hstep⟩

end Sys2Proof.Machine
end

section
/-!
The start of a budget epoch as a whole (R391, R402, R407), and the statement Power_budgets.
-/

namespace Sys2Proof.Machine

open Sys2Proof

/-! What the measurements of an epoch leave. -/

/-- The state once an epoch's counts of cycles have come in. -/
def epochCounted (x : EpochReading) (s : State) : State := addCycles x.cycles (epochOpens x s)

theorem addCycles_fields (l : List CycleCount) (s : State) :
    (addCycles l s).mem = s.mem ∧ (addCycles l s).store = s.store ∧ (addCycles l s).power = s.power ∧
      (addCycles l s).clock = s.clock ∧ ∀ p o, pget (addCycles l s) p o = pget s p o := by
  rw [addCycles_eq]
  exact ⟨rfl, rfl, rfl, rfl, fun _ _ => rfl⟩

theorem keepsPages_epochCounted (x : EpochReading) (s : State) : keepsPages s (epochCounted x s) := by
  obtain ⟨-, hstore, hpower, -, hregs⟩ := addCycles_fields x.cycles (epochOpens x s)
  have hopens := keepsPages_epochOpens x s
  exact ⟨fun p o ho hp => (hregs p o).trans (hopens.regs p o ho hp), hstore.trans hopens.store,
    (congrArg Power.budgets hpower).trans hopens.budgets⟩

theorem keepsPages_powerNodes {s u : State} (h : keepsPages s u) (domains : List (BitVec 16)) :
    keepsPages s (powerNodes u domains) := ⟨h.regs, h.store, h.budgets⟩

theorem keepsPages.dieUp_eq {s u : State} (h : keepsPages s u) (d : Nat) : dieUp u d = dieUp s d :=
  dieUp_congr h.store (fun t => h.regs _ _ (by decide) (by rw [tilePage, hhPage, modPage]; omega)) d

theorem tileUp_eq_dieUp (s : State) (t : Nat) : tileUp s t = dieUp s (t + 4) := by
  rw [dieUp, if_neg (by omega), Nat.add_sub_cancel]

theorem domainUp_eq_dieUp (s : State) (d : Nat) : domainUp s d = dieUp s (if d < 4 then d else (d - 4) / 4 + 4) := by
  unfold domainUp
  split
  next h => rw [dieUp, if_pos h]
  next => rw [tileUp_eq_dieUp]

theorem keepsPages.domainUp_eq {s u : State} (h : keepsPages s u) : domainUp u = domainUp s := by
  funext d
  rw [domainUp_eq_dieUp, domainUp_eq_dieUp, h.dieUp_eq]

theorem keepsPages.tileUp_eq {s u : State} (h : keepsPages s u) (t : Nat) : tileUp u t = tileUp s t := by
  rw [tileUp_eq_dieUp, tileUp_eq_dieUp, h.dieUp_eq]

theorem keepsPages.budgetOf_eq {s u : State} (h : keepsPages s u) (k : Nat) : budgetOf u k = budgetOf s k := by
  rw [budgetOf, budgetOf, h.budgets]

theorem powerPage_ne_hhPage (d : Nat) : powerPage d ≠ hhPage := by
  unfold powerPage basePage tilePage hhPage modPage
  split <;> omega

theorem keepsPages.pget_power {s u : State} (h : keepsPages s u) (d : Nat) {o : Nat} (ho : o < 0x1000) :
    pget u (powerPage d) o = pget s (powerPage d) o := h.regs _ o ho (powerPage_ne_hhPage d)

/-! The state after a budget epoch has started. -/

def epochStarted (x : EpochReading) (s : State) : State :=
  epochDies x (List.range 16) (powerNodes (epochCounted x s) x.domains)

theorem besideDies_epochStarted (x : EpochReading) (s : State) :
    besideDies (List.range 16) (powerNodes (epochCounted x s) x.domains) (epochStarted x s) :=
  besideDies_epochDies x (fun _ h => List.mem_range.1 h) _

theorem besideDies.epoch_eq {D : List Nat} {s u : State} (h : besideDies D s u) : u.power.epoch = s.power.epoch := by rw [h.state]

theorem besideDies.clock_eq {D : List Nat} {s u : State} (h : besideDies D s u) : u.clock = s.clock := by rw [h.state]

theorem besideDies.mem_eq {D : List Nat} {s u : State} (h : besideDies D s u) : u.mem = s.mem := by rw [h.state]

theorem powerNodes_power (s : State) (domains : List (BitVec 16)) : (powerNodes s domains).power = s.power := rfl
theorem powerNodes_clock (s : State) (domains : List (BitVec 16)) : (powerNodes s domains).clock = s.clock := rfl

section
variable (x : EpochReading) (s : State)

theorem mem_epochStarted : (epochStarted x s).mem = s.mem := by
  obtain ⟨hmem, -⟩ := addCycles_fields x.cycles (epochOpens x s)
  obtain ⟨v, c, e, -⟩ := epochOpens_spec x s
  rw [(besideDies_epochStarted x s).mem_eq, mem_powerNodes, epochCounted, hmem, e, setRegs_mem, setPower_mem, setClock_mem]

theorem clock_epochStarted : 1000000 * (epochStarted x s).power.epoch ≤ (epochStarted x s).clock.now ∧
    s.power.epoch < (epochStarted x s).power.epoch := by
  obtain ⟨-, -, hpower, hclock, -⟩ := addCycles_fields x.cycles (epochOpens x s)
  have hbeside := besideDies_epochStarted x s
  rw [hbeside.epoch_eq, hbeside.clock_eq, powerNodes_power, powerNodes_clock, epochCounted, hpower, hclock]
  exact epochOpens_clock x s

theorem input_epochStarted : pget (epochStarted x s) hhPage 0x080 = x.vin.toNat ∧
    pget (epochStarted x s) hhPage 0x084 = x.iin.toNat ∧ pget (epochStarted x s) hhPage 0x088 = x.pin.toNat := by
  obtain ⟨-, -, -, -, hregs⟩ := addCycles_fields x.cycles (epochOpens x s)
  have hkeep {o : Nat} (hlt : o < 0x1000) (ho : o ∉ faultOffs) :
      pget (epochStarted x s) hhPage o = pget (epochOpens x s) hhPage o :=
    ((besideDies_epochStarted x s).regs hhPage o hlt ho fun d _ => (powerPage_ne_hhPage d).symm).trans (hregs hhPage o)
  rw [hkeep (by decide) (by decide), hkeep (by decide) (by decide), hkeep (by decide) (by decide)]
  exact showInput_spec x _

theorem powers_epochStarted :
    (epochStarted x s).quench.powers = (powerNodes (epochCounted x s) x.domains).quench.powers := by
  rw [(besideDies_epochStarted x s).state]

theorem sum_epochStarted : ((epochStarted x s).quench.powers.map Prod.snd).sum =
    (((List.range 52).filter (domainUp s)).map fun i => 1024 * (x.domains.getD i 0#16).toNat).sum := by
  rw [powers_epochStarted, sum_powerNodes, (keepsPages_epochCounted x s).domainUp_eq]

theorem stack_epochStarted (t : Fin 12) (hup : tileUp s t = true) :
    (((List.range 16).flatMap fun i => (List.range 8).map fun l =>
      kget 0 (epochStarted x s).quench.powers (layerNode t i l)).sum) = 1024 * (x.domains.getD (4 * t.val + 7) 0#16).toNat := by
  rw [powers_epochStarted, ← sum_powerNodes_stack _ _ t.isLt (((keepsPages_epochCounted x s).tileUp_eq t).trans hup), layerNodes,
    List.map_flatMap]
  simp only [List.map_map, Function.comp_def]

theorem cycles_epochStarted {c : CycleCount} (hx : x.cycles = [c]) (hcount : measuredCounter c.page.toNat c.off.toNat = true)
    (hserves : pageServes s c.page.toNat = true) (hfrozen : cntFrozen s c.page.toNat = false) :
    cntGet (epochStarted x s) c.page.toNat c.off.toNat =
      (cntGet s c.page.toNat c.off.toNat + c.n.toNat) % 2 ^ 64 := by
  obtain ⟨hpwr, -, hpages, hoff⟩ := measuredCounter_spec hcount
  calc cntGet (epochStarted x s) c.page.toNat c.off.toNat
      = cntGet (addCycles x.cycles (epochOpens x s)) c.page.toNat c.off.toNat :=
        (besideDies_epochStarted x s).counters _ _ c.off.isLt hoff fun d hd => hpages d (List.mem_range.1 hd)
    _ = (cntGet (epochOpens x s) c.page.toNat c.off.toNat + c.n.toNat) % 2 ^ 64 := by
        rw [hx, addCycles_one (keepsPages_epochOpens x s) hcount hserves hfrozen]
    _ = _ := by rw [cntGet_epochOpens x s c.off.isLt hpwr]

/-- A die that is up at the start of an epoch. -/
theorem die_epochStarted (d : Fin 16) (hup : dieUp s d = true) :
    let u := epochStarted x s
    let b := budgetOf s (budgetKey d)
    let meas := diePower x.domains d
    let grant := b.next.getD (pget s (powerPage d) 0x080)
    let cur := stepAfterChange s d
    pget u (powerPage d) 0x080 = grant % 2 ^ 32 ∧ pget u (powerPage d) 0x084 = (x.req.getD d 0#16).toNat ∧
      pget u (powerPage d) 0x088 = meas ∧ (budgetOf u (budgetKey d)).next = none ∧
      (budgetOf u (budgetKey d)).missed = (if b.next.isSome then 0 else b.missed + 1) ∧
      (pget s (powerPage d) 0x080 * 105 < meas * 100 → sticky u (powerPage d) 2 = true) ∧
      (4 ≤ d.val → ∃ st, st ≤ min 48 (cur + 8) ∧ (st = 0 ∨ stepFits meas cur grant st = true) ∧
        (budgetOf u (budgetKey d)).target = (if st = cur then none else some st) ∧
        fld (pget u (powerPage d) 0x08C) 5 0 = min cur st) := by
  have hkeep := keepsPages_powerNodes (keepsPages_epochCounted x s) x.domains
  have hspec := epochDies_spec x d _ ((hkeep.dieUp_eq d).trans hup)
  have hstep : stepAfterChange (powerNodes (epochCounted x s) x.domains) d = stepAfterChange s d := by
    rw [stepAfterChange, stepAfterChange, hkeep.budgetOf_eq, hkeep.pget_power d (by decide)]
  have hreq := (x.req.getD d 0#16).isLt
  have hmeas : diePower x.domains d ≤ 0xFFFF := Nat.min_le_left ..
  dsimp only at hspec ⊢
  rw [hstep, hkeep.budgetOf_eq, hkeep.pget_power d (by decide), Nat.mod_eq_of_lt (by omega : (x.req.getD d 0#16).toNat < 2 ^ 32),
    Nat.mod_eq_of_lt (by omega : diePower x.domains d < 2 ^ 32)] at hspec
  exact hspec

end

/-- Settles O47: the start of an epoch is a fold over the dies of which each leaves the others' pages and budgets alone; the powers of
the nodes are sums of parts, each added at its node; and a message is good exactly while each byte faces its complement. -/
theorem powerBudgets : Obligations.Power_budgets := by
  unfold Obligations.Power_budgets
  intro d t x fl s
  dsimp only
  refine ⟨⟨epochStarted x s, exec_budgetEpoch x s, mem_epochStarted x s, (clock_epochStarted x s).1, (clock_epochStarted x s).2,
      (input_epochStarted x s).1, (input_epochStarted x s).2.1, (input_epochStarted x s).2.2, sum_epochStarted x s,
      stack_epochStarted x s t, fun c hx => cycles_epochStarted x s hx, fun hup => ?_⟩,
    fun hdown => ⟨exec_budgetReport_down d fl s hdown, exec_budgetRequest_down d fl s hdown⟩,
    fun hup => ⟨fun h => ⟨_, exec_budgetReport_bad d fl s hup h, budgetBad_granter d.isLt s⟩,
      fun h => ⟨_, exec_budgetRequest_bad d fl s hup h, budgetBad_granter d.isLt s⟩,
      budgetReport_good d fl s hup, budgetRequest_good d fl s hup⟩,
    ?_, ?_, grant_none d fl s, fun v hv => ⟨grant_bad d fl s hv, grant_good d fl s hv⟩, grantLapse_early d s, grantLapse_due d s,
    fun h => congrArg Host.Outcome.next (finishStep_none h), fun st => arrStepChange_due t s⟩
  · obtain ⟨hgrant, hreq, hmeas, hnext, hmissed, hover, hstep⟩ := die_epochStarted x s d hup
    refine ⟨hgrant, hreq, hmeas, hnext, hmissed, hover, fun htile => ?_⟩
    have hpage : tilePage t.val 83 = powerPage d := by rw [powerPage, if_neg (by omega), show d.val - 4 = t.val by omega]
    rw [hpage]
    exact hstep (by omega)
  · rintro i rfl
    exact ⟨messageGood_arrives_flip (length_budgetMessage ..) (messageGood_budgetMessage ..) i,
      messageGood_arrives_flip (length_budgetMessage ..) (messageGood_budgetMessage ..) i⟩
  · rintro rfl
    exact ⟨messageGood_budgetMessage .., messageGood_budgetMessage ..⟩

end Sys2Proof.Machine
end

section
/-!
The instruction words of the cores (R92, R93, R101 to R105, R108, R115): the statement Core_words_round_trip. Each format is read back
field by field, and the opcode in the low byte says which decoder takes the word.
-/

namespace Sys2Proof

/-! The fields of each format read back from its word. -/

@[simp] theorem decodeS_encodeS (op : BitVec 8) (f : SFields) : decodeS (encodeS op f) = f := by
  simp [decodeS, encodeS, BitVec.extractLsb'_append_eq_of_le _, BitVec.extractLsb'_append_eq_of_add_le _]

@[simp] theorem decodeV_encodeV (op : BitVec 8) (f : VFields) : decodeV (encodeV op f) = f := by
  simp [decodeV, encodeV, BitVec.extractLsb'_append_eq_of_add_le _, BitVec.extractLsb'_append_eq_of_le _]

@[simp] theorem decodeMxa_encodeMxa (f : MxaFields) : decodeMxa (encodeMxa f) = f := by
  simp [decodeMxa, encodeMxa, BitVec.extractLsb'_append_eq_of_add_le _, BitVec.extractLsb'_append_eq_of_le _,
    BitVec.getElem_append _]

@[simp] theorem decodeMxr_encodeMxr (f : MxrFields) : decodeMxr (encodeMxr f) = f := by
  simp [decodeMxr, encodeMxr, BitVec.extractLsb'_append_eq_of_add_le _, BitVec.extractLsb'_append_eq_of_le _,
    BitVec.getElem_append _]

@[simp] theorem decodeWstrm_encodeWstrm (f : WstrmFields) : decodeWstrm (encodeWstrm f) = f := by
  simp [decodeWstrm, encodeWstrm, BitVec.extractLsb'_append_eq_of_add_le _, BitVec.extractLsb'_append_eq_of_le _]

/-! The opcode is the low byte of every word (R92). -/

@[simp] theorem opcode_encodeS (op : BitVec 8) (f : SFields) : (encodeS op f).extractLsb' 0 8 = op := by
  simp [encodeS, BitVec.extractLsb'_append_eq_of_add_le _]

@[simp] theorem opcode_encodeV (op : BitVec 8) (f : VFields) : (encodeV op f).extractLsb' 0 8 = op := by
  simp [encodeV, BitVec.extractLsb'_append_eq_of_add_le _]

@[simp] theorem opcode_encodeMxa (f : MxaFields) : (encodeMxa f).extractLsb' 0 8 = 0x40#8 := by
  simp [encodeMxa, BitVec.extractLsb'_append_eq_of_add_le _]

@[simp] theorem opcode_encodeMxr (f : MxrFields) : (encodeMxr f).extractLsb' 0 8 = 0x41#8 := by
  simp [encodeMxr, BitVec.extractLsb'_append_eq_of_add_le _]

@[simp] theorem opcode_encodeWstrm (f : WstrmFields) : (encodeWstrm f).extractLsb' 0 8 = 0x42#8 := by
  simp [encodeWstrm, BitVec.extractLsb'_append_eq_of_add_le _]

theorem vectorCore_lt (v : Fin 8) : 32 + v.val < 40 := by omega

/-- Every instruction of a core has a word that the core's decoder reads back. -/
theorem decodeCoreWord_encodeCoreWord {i : Instr} {t : Fin 12} {p : Fin 41} (h : coreOfInstr i = some (t, p)) :
    ∃ w, encodeCoreWord i = some w ∧ decodeCoreWord t p w = some i := by
  cases i
  all_goals cases h
  all_goals exact ⟨_, rfl, by
    simp [decodeCoreWord, decodeCommon, decodeMatrix, decodeVector, decodeControl, vectorCore_lt]⟩

/-- An instruction of participant p of tile t whose word has the opcode of w. -/
def isInstrOf (t : Fin 12) (p : Fin 41) (w : BitVec 64) (i : Instr) : Prop :=
  coreOfInstr i = some (t, p) ∧ ∃ w', encodeCoreWord i = some w' ∧ w'.extractLsb' 0 8 = w.extractLsb' 0 8

section
variable {t : Fin 12} {w : BitVec 64} {i : Instr}

theorem isInstrOf_of_opcode {p : Fin 41} {op : Nat} {w' : BitVec 64} (hop : (w.extractLsb' 0 8).toNat = op)
    (hi : coreOfInstr i = some (t, p)) (hw : encodeCoreWord i = some w') (hop' : (w'.extractLsb' 0 8).toNat = op) :
    isInstrOf t p w i := ⟨hi, w', hw, BitVec.eq_of_toNat_eq (hop'.trans hop.symm)⟩

theorem isInstrOf_of_decodeCommon {p : Fin 41} (h : decodeCommon t p w = some i) : isInstrOf t p w i := by
  unfold decodeCommon at h
  split at h
  all_goals cases h
  all_goals exact isInstrOf_of_opcode (by assumption) rfl rfl (by simp)

theorem isInstrOf_of_decodeMatrix {n : Fin 32} (h : decodeMatrix t n w = some i) : isInstrOf t ⟨n.val, by omega⟩ w i := by
  unfold decodeMatrix at h
  split at h
  all_goals cases h
  all_goals exact isInstrOf_of_opcode (by assumption) rfl rfl (by simp)

theorem isInstrOf_of_decodeVector {v : Fin 8} (h : decodeVector t v w = some i) :
    isInstrOf t ⟨32 + v.val, by omega⟩ w i := by
  unfold decodeVector at h
  split at h
  all_goals cases h
  all_goals exact isInstrOf_of_opcode (by assumption) rfl rfl (by simp)

theorem isInstrOf_of_decodeControl (h : decodeControl t w = some i) : isInstrOf t ⟨40, by omega⟩ w i := by
  unfold decodeControl at h
  split at h
  all_goals cases h
  all_goals exact isInstrOf_of_opcode (by assumption) rfl rfl (by simp)

/-- What a core's decoder gives is an instruction of that core, with the opcode of the word. -/
theorem isInstrOf_of_decodeCoreWord {p : Fin 41} (h : decodeCoreWord t p w = some i) : isInstrOf t p w i := by
  unfold decodeCoreWord at h
  split at h
  · next j hj => cases h; exact isInstrOf_of_decodeCommon hj
  · split at h
    · exact isInstrOf_of_decodeMatrix h
    · split at h
      · next hlo hhi =>
        have hp : p = ⟨32 + (p.val - 32), by omega⟩ := Fin.ext (by simp only; omega)
        rw [hp]; exact isInstrOf_of_decodeVector (v := ⟨p.val - 32, by omega⟩) h
      · have hp : p = ⟨40, by omega⟩ := Fin.ext (by simp only; omega)
        rw [hp]; exact isInstrOf_of_decodeControl h

end

theorem encodeCoreWord_eq_none {i : Instr} (h : coreOfInstr i = none) : encodeCoreWord i = none := by
  cases i
  all_goals cases h
  all_goals rfl

/-- Settles O58: by the formats and the opcodes of the words. -/
theorem coreWordsRoundTrip : Obligations.Core_words_round_trip :=
  ⟨fun _ _ _ => decodeCoreWord_encodeCoreWord, fun _ _ _ _ => isInstrOf_of_decodeCoreWord, fun _ => encodeCoreWord_eq_none⟩

end Sys2Proof
end

section
/-!
SUPPORT. What setting a source leaves besides `onlyFaults` (R426 to R433): a TCC takes at most a pending cause, a core is asked to stop
only from its own page while it runs or waits, and registers change only in FLT_STICKY and on the pages of the aggregators.
-/

namespace Sys2Proof.Machine

open Sys2Proof

/-- A core that a source of a page may ask to stop (R128). -/
def stoppable (s : State) (page c : Nat) : Prop :=
  (∃ t i, pagePlace page = .tile t i ∧ 2 ≤ i ∧ i < 42 ∧ c = coreId t (i - 2)) ∧ ((coreOf s c).run = .running ∨ (coreOf s c).run = .waiting)

/-- What setting a source of a page may change of the TCCs, the cores and the register space. -/
def setsSource (page : Nat) (s u : State) : Prop :=
  (∀ t, ∃ l, tccOf u t = { tccOf s t with pend := l }) ∧
  (∀ c, coreOf u c = coreOf s c ∨ stoppable s page c) ∧
  ∀ o, o % 0x1000 ≠ 0x020 → pageBlock (o / 0x1000) ≠ some .aggregator → regGet u o = regGet s o

section
variable {page : Nat} {s u v : State}

theorem setsSource_refl (page : Nat) (s : State) : setsSource page s s :=
  ⟨fun t => ⟨(tccOf s t).pend, rfl⟩, fun _ => .inl rfl, fun _ _ _ => rfl⟩

theorem setsSource_trans (h : setsSource page s u) (h' : setsSource page u v) : setsSource page s v := by
  obtain ⟨ht, hc, hr⟩ := h
  obtain ⟨ht', hc', hr'⟩ := h'
  refine ⟨fun t => ?_, fun c => ?_, fun o ho ha => (hr' o ho ha).trans (hr o ho ha)⟩
  · obtain ⟨l, e⟩ := ht t
    obtain ⟨l', e'⟩ := ht' t
    exact ⟨l', by rw [e', e]⟩
  · obtain e | hs := hc c
    · obtain e' | ⟨hp, hs⟩ := hc' c
      · exact .inl (e'.trans e)
      · exact .inr ⟨hp, by rwa [e] at hs⟩
    · exact .inr hs

theorem setsSource_ite {c : Prop} [Decidable c] (h : setsSource page s u) (h' : setsSource page s v) :
    setsSource page s (if c then u else v) := by
  split <;> assumption

/-- A step that touches neither registers nor cores nor TCCs. -/
theorem setsSource_of_eq (hv : u.regs.vals = s.regs.vals) (hc : u.cores = s.cores) (ht : u.tccs = s.tccs) :
    setsSource page s u := by
  refine ⟨fun t => ⟨(tccOf s t).pend, by rw [tccOf, ht]; rfl⟩, fun c => .inl (by rw [coreOf, hc]; rfl), fun o _ _ => ?_⟩
  rw [regGet, regGet, hv]

/-- A register of a page stored that is FLT_STICKY, or that is of an aggregator. -/
theorem setsSource_pset (p o v : Nat) (hlt : o < 0x1000) (ho : o = 0x020 ∨ pageBlock p = some .aggregator) :
    setsSource page s (pset s p o v) := by
  refine ⟨fun t => ⟨(tccOf s t).pend, rfl⟩, fun _ => .inl rfl, fun o' ho' ha => ?_⟩
  rw [pset, regGet_regSet, if_neg]
  rintro rfl
  rw [show regOff p o % 0x1000 = o by rw [regOff]; omega] at ho'
  rw [show regOff p o / 0x1000 = p by rw [regOff]; omega] at ha
  exact ho.elim ho' ha

theorem pageBlock_aggregatorPage (p : Nat) : pageBlock (aggregatorPage (aggregatorOf p)) = some .aggregator := by
  have hlt : aggregatorOf p < 5 := by
    unfold aggregatorOf pagePlace
    split_ifs with h1 h2 h3
    · exact (by decide : 4 < 5)
    · exact (by omega : (p - 0x40) / 0x40 < 5)
    · simp only [Bool.and_eq_true, decide_eq_true_eq] at h3
      exact (by omega : (p - 0x200) / 0x80 / 3 < 5)
    · exact (by decide : 4 < 5)
  exact (show ∀ a < 5, pageBlock (aggregatorPage a) = some .aggregator by decide) _ hlt

theorem setsSource_markGroup (tag : Nat) (k : CauseKind) (p x : Nat) : setsSource page s (markGroup s tag k p x) := by
  unfold markGroup
  exact setsSource_ite (setsSource_ite (setsSource_refl ..) (setsSource_of_eq rfl rfl rfl)) (setsSource_refl ..)

theorem setsSource_msixSignal (v : Nat) : setsSource page s (msixSignal s v) := by
  unfold msixSignal
  exact setsSource_ite (setsSource_ite (setsSource_refl ..) (setsSource_of_eq rfl rfl rfl)) (setsSource_of_eq rfl rfl rfl)

theorem setsSource_tccCause (t : Nat) (c : TrapCause) : setsSource page s (tccCause s t c) := by
  refine setsSource_ite (setsSource_refl ..) ⟨fun t' => ?_, fun _ => .inl rfl, fun _ _ _ => rfl⟩
  rw [tccOf_setTcc]
  split
  · subst_vars; exact ⟨_, rfl⟩
  · exact ⟨(tccOf s t').pend, rfl⟩

theorem setsSource_trapReaction (x : Nat) : setsSource page s (trapReaction s page x) := by
  unfold trapReaction
  split
  next t i hplace =>
    have hcause : setsSource page s (tccCause s t (.fault i x)) := setsSource_tccCause ..
    refine setsSource_trans hcause ?_
    generalize tccCause s t (.fault i x) = w
    dsimp only
    split
    next hi =>
      simp only [Bool.and_eq_true, decide_eq_true_eq] at hi
      split
      next hrun =>
        refine ⟨fun t => ⟨(tccOf w t).pend, rfl⟩, fun c => ?_, fun _ _ _ => rfl⟩
        by_cases hc : c = coreId t (i - 2)
        · exact .inr ⟨⟨t, i, hplace, hi.1, hi.2, hc⟩, by simpa [hc] using hrun⟩
        · exact .inl (by rw [coreOf_setCore, if_neg hc])
      next => exact setsSource_refl ..
    next => exact setsSource_refl ..
  next => exact setsSource_refl ..

theorem setsSource_count (p o n : Nat) : setsSource page s (count s p o n) := by
  obtain ⟨k, e, -⟩ := count_spec s p o n
  rw [e]
  exact setsSource_of_eq rfl rfl rfl

theorem setsSource_stampSetting (p x tag : Nat) (f : Bool) : setsSource page s (stampSetting s p x tag f) := by
  have hfa := pageBlock_aggregatorPage p
  unfold stampSetting
  refine setsSource_trans ?_ (setsSource_pset _ 0x0C8 _ (by decide) (.inr hfa))
  refine setsSource_trans ?_ (setsSource_pset _ 0x0C4 _ (by decide) (.inr hfa))
  refine setsSource_trans ?_ (setsSource_pset _ 0x0C0 _ (by decide) (.inr hfa))
  exact setsSource_trans (setsSource_of_eq rfl rfl rfl) (setsSource_count ..)

theorem setsSource_takeReactions (x : Nat) : setsSource page s (takeReactions s page x) := by
  unfold takeReactions
  dsimp only
  have hrestart (w : State) (c : Prop) [Decidable c] :
      setsSource page w (if c then w.setFlt { w.flt with restartReq := true } else w) :=
    setsSource_ite (setsSource_of_eq rfl rfl rfl) (setsSource_refl ..)
  have hreset (w : State) : setsSource page w (match pagePlace page with
      | .module _ => w
      | _ => if bitOf (faultReact s page x) 3 && !w.regs.resetReq.contains page then
          w.setRegs { w.regs with resetReq := w.regs.resetReq ++ [page] } else w) := by
    split
    · exact setsSource_refl ..
    · exact setsSource_ite (setsSource_of_eq rfl rfl rfl) (setsSource_refl ..)
  have htrap (w : State) : setsSource page w (if bitOf (faultReact s page x) 1 then trapReaction w page x else w) :=
    setsSource_ite (setsSource_trapReaction x) (setsSource_refl ..)
  refine setsSource_trans (setsSource_trans (setsSource_trans ?_ (htrap _)) (hreset _)) (hrestart _ _)
  refine setsSource_ite ?_ (setsSource_refl ..)
  exact setsSource_ite (setsSource_trans (setsSource_msixSignal _) (setsSource_msixSignal _)) (setsSource_msixSignal _)

theorem setsSource_newSetting (x tag : Nat) (f : Bool) : setsSource page s (newSetting s page x tag f) :=
  setsSource_trans (setsSource_pset _ 0x020 _ (by decide) (.inl rfl))
    (setsSource_trans (setsSource_stampSetting ..) (setsSource_takeReactions ..))

theorem tileBlock_ne_aggregator (i : Nat) : tileBlock i ≠ some .aggregator := by
  unfold tileBlock
  repeat' split
  all_goals exact nofun

/-- A page of an aggregator has no core. -/
theorem not_stoppable_aggregator {p : Nat} (h : pageBlock p = some .aggregator) (s : State) (c : Nat) : ¬ stoppable s p c := by
  rintro ⟨⟨t, i, hplace, -, -⟩, -⟩
  rw [pageBlock, hplace] at h
  exact tileBlock_ne_aggregator i h

theorem setsSource_stampOverflow (p : Nat) : setsSource page s (stampOverflow s p) := by
  obtain ⟨ht, hc, hr⟩ : setsSource (aggregatorPage (aggregatorOf p)) s (stampOverflow s p) :=
    setsSource_ite (setsSource_refl ..) (setsSource_newSetting ..)
  exact ⟨ht, fun c => .inl ((hc c).resolve_right (not_stoppable_aggregator (pageBlock_aggregatorPage p) s c)), hr⟩

theorem setsSource_setSource (x tag : Nat) (m f : Bool) : setsSource page s (setSource s page x tag m f) := by
  unfold setSource
  split
  next => exact setsSource_refl ..
  next b _ =>
    have hmark (c : Prop) [Decidable c] (k : CauseKind) : setsSource page s (if c then markGroup s tag k page x else s) :=
      setsSource_ite (setsSource_markGroup ..) (setsSource_refl ..)
    refine setsSource_ite (setsSource_refl ..) (setsSource_ite (hmark _ _) (setsSource_ite ?_ ?_))
    · exact setsSource_trans (hmark _ _) (setsSource_trans (setsSource_newSetting ..) (setsSource_stampOverflow _))
    · exact setsSource_trans (hmark _ _) (setsSource_newSetting ..)

/-- A source of a page of another unit than a TCC sets no more than itself: only a TCC nests (R131). -/
theorem setsSource_raiseWith (x tag : Nat) (m f : Bool) (h : ∀ t, pagePlace page ≠ .tile t 1) :
    setsSource page s (raiseWith s page x tag m f) := by
  unfold raiseWith
  split
  next t hplace => exact absurd hplace (h t)
  next => exact setsSource_setSource ..

theorem setsSource_raiseTag (x tag : Nat) (h : ∀ t, pagePlace page ≠ .tile t 1) : setsSource page s (raiseTag s page x tag) :=
  setsSource_raiseWith x tag _ _ h

end

end Sys2Proof.Machine
end

section
/-!
SUPPORT. An instruction of any participant that issues, and one that is illegal (R92, R94, R95).
-/

namespace Sys2Proof.Machine

open Sys2Proof

section
variable {s : State} {t p : Nat} {i : Instr} {op md : Nat} {f : State → State}

/-- An instruction that issues is noted, does its work and ends. -/
theorem answers_issue {P : State → Prop} (hi : exec i s = .next (issue s t p op md f)) (h : canIssue s t p = true)
    (hP : P (noteEnd (f (noteIssue s t p op md)) t p)) : answers i s P :=
  ⟨_, by rw [hi, issue, if_pos h], hP⟩

/-- An instruction commanded while it cannot issue changes nothing (log 4). -/
theorem idles_issue (hi : exec i s = .next (issue s t p op md f)) (h : canIssue s t p = false) : idles i s := by
  rw [idles, hi, issue, if_neg (by simp [h])]

theorem answers_issueWhen {P : State → Prop} {j : Instr} {free : Bool} (hi : exec i s = .next (issueWhen s j t p op free f))
    (h : canIssue s t p = true) (hfree : free = true) (hP : P (noteEnd (f (noteIssue s t p op 0)) t p)) : answers i s P :=
  ⟨_, by rw [hi, hfree, issueWhen_free h], hP⟩

/-- An instruction that cannot issue yet is held (R94). -/
theorem heldBack_issueWhen {free : Bool} (hi : exec i s = .next (issueWhen s i t p op free f)) (h : canGo i s t p)
    (hfree : free = false) : heldBack i s t p :=
  ⟨_, by rw [hi, hfree, issueWhen_busy h], rfl⟩

end

theorem canGo_of_canIssue {s : State} {t p : Nat} (h : canIssue s t p = true) (i : Instr) : canGo i s t p :=
  ⟨((canIssue_iff s t p).1 h).1, .inl ((canIssue_iff s t p).1 h).2⟩

theorem held_of_canIssue {s : State} {t p : Nat} (h : canIssue s t p = true) : (coreOf s (coreId t p)).held = none :=
  ((canIssue_iff s t p).1 h).2

/-- Every participant's page has the source PROG_ERR (R89, R136, R139). -/
theorem progErr_defined : ∀ (t : Fin 12) (p : Fin 41),
    (pageBlock (ptPage t p)).any (sourceDefined · (progErrSource p)) = true := by decide

theorem progErrSource_lt (p : Nat) : progErrSource p < 32 := by
  unfold progErrSource; split <;> decide

theorem onlyFaults_progErr (s : State) (t p : Nat) : onlyFaults s (progErr s t p) := (raiseTag_spec ..).1

theorem sticky_progErr (s : State) (t : Fin 12) (p : Fin 41) :
    sticky (progErr s t p) (ptPage t p) (progErrSource p) = true := by
  obtain ⟨b, hb, hd⟩ := (Option.any_eq_true ..).1 (progErr_defined t p)
  exact (raiseTag_spec ..).2 b hb hd (progErrSource_lt p)

section
variable {s u : State} {t : Nat} (h : onlyFaults s u)
include h

theorem onlyFaults.sync_eq : u.sync = s.sync := by rw [h.1]

/-- Raising sources leaves the registers of every participant. -/
theorem onlyFaults.getG_eq (p j : Nat) : getG u t p j = getG s t p j := by
  obtain ⟨a, b, c, d, htcc⟩ := h.2.2.2.1 t
  refine getG_congr ?_ ?_ ?_ ?_ j
  · rw [h.core_eq]
  · rw [h.core_eq]
  · rw [htcc]
  · rw [htcc]

theorem onlyFaults.getY_eq (p r : Nat) : getY u t p r = getY s t p r :=
  getY_congr (by rw [h.core_eq]) (by rw [h.core_eq]) r

end

@[simp] theorem sync_nextPc (s : State) (t p : Nat) : (nextPc s t p).sync = s.sync := rfl

@[simp] theorem sync_noteEnd (s : State) (t p : Nat) : (noteEnd s t p).sync = s.sync := by
  obtain e | ⟨x, e⟩ := noteEnd_eq_or s t p <;> rw [e]; rfl

@[simp] theorem getG_nextPc (s : State) (t p j : Nat) : getG (nextPc s t p) t p j = getG s t p j := getG_setPc ..

@[simp] theorem getG_noteEnd (s : State) (t p j : Nat) : getG (noteEnd s t p) t p j = getG s t p j := by
  unfold noteEnd
  dsimp only
  split
  · rfl
  · exact getG_setCore _ _ _ _ _ rfl rfl

@[simp] theorem getY_nextPc (s : State) (t p r : Nat) : getY (nextPc s t p) t p r = getY s t p r :=
  getY_congr (by simp [nextPc, setPc]) (by simp [nextPc, setPc]) r

@[simp] theorem getY_noteEnd (s : State) (t p r : Nat) : getY (noteEnd s t p) t p r = getY s t p r := by
  unfold noteEnd
  dsimp only
  split
  · rfl
  · exact getY_congr (by simp) (by simp) r

/-- An instruction that is noted, is illegal and ends (R95). -/
theorem wasIllegal_noteEnd (s : State) (t : Fin 12) (p : Fin 41) (op md : Nat) :
    wasIllegal s (noteEnd (illegal (noteIssue s t p op md) t p) t p) t p := by
  have hf := onlyFaults_progErr (noteIssue s t p op md) t p
  unfold illegal
  refine ⟨?_, ?_, ?_, ?_, fun j => ?_, fun r => ?_⟩
  · rw [sticky_noteEnd]; exact sticky_progErr ..
  · rw [pcOf_noteEnd, pcOf_nextPc, hf.pcOf_eq, pcOf_noteIssue]
  · rw [mem_noteEnd, mem_nextPc, hf.mem_eq, mem_noteIssue]
  · rw [sync_noteEnd, sync_nextPc, hf.sync_eq, sync_noteIssue]
  · rw [getG_noteEnd, getG_nextPc, hf.getG_eq, getG_noteIssue]
  · rw [getY_noteEnd, getY_nextPc, hf.getY_eq, getY_noteIssue]

end Sys2Proof.Machine
end

section
/-!
The instructions that write one value to GD (R91, R97): the statement Scalar_results.
-/

namespace Sys2Proof.Machine

open Sys2Proof

/-- An instruction that writes a value to GD and goes on: the value is that of the state in which it issues. -/
theorem wroteReg_issue {s : State} {t p d op : Nat} {i : Instr} {g : State → Word64} {v : Word64}
    (hi : exec i s = .next (issue s t p op 0 fun s => nextPc (setG s t p d (g s)) t p))
    (hg : g (noteIssue s t p op 0) = v) :
    (canIssue s t p = true → answers i s fun u => wroteReg s u t p d v) ∧ (canIssue s t p = false → idles i s) := by
  refine ⟨fun h => answers_issue hi h ?_, idles_issue hi⟩
  rw [hg]
  exact wroteReg_noteIssue s t p d op v (wait_of_canIssue h)

theorem operandB_noteIssue (s : State) (t p op md : Nat) (f : SFields) :
    operandB (noteIssue s t p op md) t p f = getG s t p f.gb.toNat + f.imm.signExtend 64 := by
  rw [operandB, getG_noteIssue]; rfl

/-- An instruction of operands A and B (R97). -/
theorem wroteReg_aluOp {s : State} {t : Fin 12} {p : Fin 41} {f : SFields} {op : Nat} {i : Instr}
    {g : Word64 → Word64 → Word64} (hi : exec i s = .next (aluOp t p f op g s)) :
    let v := g (getG s t p f.ga.toNat) (getG s t p f.gb.toNat + f.imm.signExtend 64)
    (canIssue s t p = true → answers i s fun u => wroteReg s u t p f.gd.toNat v) ∧ (canIssue s t p = false → idles i s) :=
  wroteReg_issue (g := fun s => g (getG s t p f.ga.toNat) (operandB s t p f)) hi
    (by simp only [getG_noteIssue, operandB_noteIssue])

/-- LDIH's value: the immediate above the low half (R97). -/
theorem ldih_value (imm : BitVec 32) (old : Word64) :
    BitVec.ofNat 64 (imm.toNat * 2 ^ 32 + old.toNat % 2 ^ 32) = imm ++ old.setWidth 32 := by
  refine BitVec.eq_of_toNat_eq ?_
  have himm := imm.isLt
  rw [BitVec.toNat_append, BitVec.toNat_setWidth, ← Nat.shiftLeft_add_eq_or_of_lt (Nat.mod_lt _ (by decide)),
    Nat.shiftLeft_eq, BitVec.toNat_ofNat]
  omega

/-- Settles O2: each instruction by the value that it writes. -/
theorem scalarResults : Obligations.Scalar_results := by
  intro t p f s a b old gives
  have alu {i : Instr} {op : Nat} (g : Word64 → Word64 → Word64) (hi : exec i s = .next (aluOp t p f op g s)) :
      gives i (g a b) := wroteReg_aluOp hi
  have hslt : (if a.slt b then (1#64 : Word64) else 0#64) = if a.toInt < b.toInt then 1 else 0 := by
    simp [BitVec.slt]
  have hsltu : (if a.ult b then (1#64 : Word64) else 0#64) = if a.toNat < b.toNat then 1 else 0 := by
    simp [BitVec.ult]
  exact ⟨alu _ rfl, alu _ rfl, alu _ rfl, alu _ rfl, alu _ rfl, alu (fun a b => a <<< (b.toNat % 64)) rfl,
    alu (fun a b => a >>> (b.toNat % 64)) rfl, alu (fun a b => a.sshiftRight (b.toNat % 64)) rfl, alu _ rfl,
    hslt ▸ alu (fun a b => if a.slt b then 1 else 0) rfl, hsltu ▸ alu (fun a b => if a.ult b then 1 else 0) rfl,
    wroteReg_issue (g := fun s => BitVec.ofNat 64 s.clock.now) rfl (by rw [clock_noteIssue]),
    wroteReg_issue (g := fun _ => f.imm.signExtend 64) rfl rfl,
    wroteReg_issue (g := fun s => BitVec.ofNat 64 (f.imm.toNat * 2 ^ 32 + (getG s t p f.gd.toNat).toNat % 2 ^ 32)) rfl
      (by rw [getG_noteIssue, ldih_value])⟩

end Sys2Proof.Machine
end

section
/-!
Branches (R92, R97): the statement Branches. Every branch is noted, writes at most GD, and sets the PC.
-/

namespace Sys2Proof.Machine

open Sys2Proof

theorem setG_zero (s : State) (t p : Nat) (v : Word64) : setG s t p 0 v = s := if_pos rfl

theorem pc_setG (s : State) (t p d : Nat) (v : Word64) :
    (coreOf (setG s t p d v) (coreId t p)).pc = (coreOf s (coreId t p)).pc := by
  obtain ⟨-, -, hcore, -⟩ := setG_spec s t p d v
  rw [hcore]

/-- Where a branch sets the PC. -/
theorem branchTo_eq (s : State) (t p : Nat) (f : SFields) (taken : Bool) :
    branchTo s t p f taken = setPc s t p (if taken then branchTarget (pcOf s t p) f else pcOf s t p + 8) := by
  cases taken <;> rfl

section
variable {s : State} {t p op : Nat} {i : Instr} {f : State → State} (hi : exec i s = .next (issue s t p op 0 f))
  (h : canIssue s t p = true)
include hi h

theorem answers_setG_setPc {d pc : Nat} {v : Word64}
    (hf : f (noteIssue s t p op 0) = setPc (setG (noteIssue s t p op 0) t p d v) t p pc) :
    answers i s fun u => onlyReg s u t p d ∧ getG u t p d = (if d = 0 then 0 else v) ∧ pcOf u t p = pc % 2 ^ 64 :=
  answers_issue hi h (by rw [hf]; exact noteSetGPc_spec s t p d op pc v (wait_of_canIssue h))

theorem answers_setPc {pc : Nat} (hf : f (noteIssue s t p op 0) = setPc (noteIssue s t p op 0) t p pc) :
    answers i s fun u => wentTo s u t p (pc % 2 ^ 64) := by
  obtain ⟨u, hu, honly, -, hpc⟩ := answers_setG_setPc (d := 0) (v := 0) hi h (by rw [hf, setG_zero])
  exact ⟨u, hu, honly, hpc⟩

end

theorem branchTarget_mod (pc : Nat) (f : SFields) : branchTarget pc f % 2 ^ 64 = branchTarget pc f :=
  Nat.mod_eq_of_lt (BitVec.isLt _)

section
variable {s : State} {t : Fin 12} {p : Fin 41} {f : SFields} {i : Instr} (h : canIssue s t p = true)
include h

/-- A branch that is taken or not by a condition that the state gives (R97). -/
theorem wentTo_branchTo {op : Nat} {c : State → Bool}
    (hi : exec i s = .next (issue s t p op 0 fun s => branchTo s t p f (c s))) :
    answers i s fun u => wentTo s u t p
      (if c (noteIssue s t p op 0) then branchTarget (pcOf s t p) f else (pcOf s t p + 8) % 2 ^ 64) := by
  obtain ⟨u, hu, hwent⟩ := answers_setPc hi h (branchTo_eq ..)
  refine ⟨u, hu, ?_⟩
  rw [pcOf_noteIssue, apply_ite (· % 2 ^ 64), branchTarget_mod] at hwent
  exact hwent

/-- A conditional branch compares G[GA] and G[GB] (R97). -/
theorem wentTo_condBranch {op : Nat} {c : Word64 → Word64 → Bool} (hi : exec i s = .next (condBranch t p f op c s)) :
    answers i s fun u => wentTo s u t p (if c (getG s t p f.ga.toNat) (getG s t p f.gb.toNat) then branchTarget (pcOf s t p) f
      else (pcOf s t p + 8) % 2 ^ 64) := by
  have hrun := wentTo_branchTo (c := fun s => c (getG s t p f.ga.toNat) (getG s t p f.gb.toNat)) h hi
  simpa only [getG_noteIssue] using hrun

/-- LOOP with a register: it decrements GD and branches while it is not 0 (R97). -/
theorem answers_loop (hd : f.gd ≠ 0) :
    let d := getG s t p f.gd.toNat - 1
    answers (.loop t p f) s fun u => onlyReg s u t p f.gd.toNat ∧ getG u t p f.gd.toNat = (if f.gd.toNat = 0 then 0 else d) ∧
      pcOf u t p = if d = 0 then (pcOf s t p + 8) % 2 ^ 64 else branchTarget (pcOf s t p) f := by
  intro d
  have hgd : f.gd.toNat ≠ 0 := fun h0 => hd (BitVec.eq_of_toNat_eq h0)
  have hnew : getG (setG (noteIssue s t p 0x25 0) t p f.gd.toNat (getG s t p f.gd.toNat - 1#64)) t p f.gd.toNat = d := by
    rw [getG_setG, if_pos ⟨rfl, hgd⟩]; rfl
  obtain ⟨u, hu, honly, hg, hpc⟩ := answers_setG_setPc (i := .loop t p f) (d := f.gd.toNat) rfl h
    (by rw [getG_noteIssue]; exact branchTo_eq ..)
  refine ⟨u, hu, honly, hg, ?_⟩
  rw [hpc, hnew, pcOf, pc_setG]
  change (if (d != 0) then branchTarget (pcOf (noteIssue s t p 0x25 0) t p) f else pcOf (noteIssue s t p 0x25 0) t p + 8) % 2 ^ 64 = _
  rw [pcOf_noteIssue, apply_ite (· % 2 ^ 64), branchTarget_mod]
  by_cases h0 : d = 0 <;> simp [h0]

/-- LOOP with G0: the new GD reads 0, so it goes on (R97, log 9). -/
theorem answers_loop_zero (hd : f.gd = 0) : answers (.loop t p f) s fun u => wentTo s u t p ((pcOf s t p + 8) % 2 ^ 64) := by
  have hgd : f.gd.toNat = 0 := by rw [hd]; rfl
  have hrun := answers_setPc (i := .loop t p f) rfl h (pc := pcOf s t p + 8) (by
    rw [hgd, setG_zero]
    dsimp only
    rw [getG_zero, branchTo_eq, pcOf_noteIssue]
    rfl)
  exact hrun

/-- CALL saves the PC of the next instruction and branches (R97). -/
theorem answers_call :
    answers (.call t p f) s fun u => onlyReg s u t p f.gd.toNat ∧
      getG u t p f.gd.toNat = (if f.gd.toNat = 0 then 0 else BitVec.ofNat 64 (pcOf s t p + 8)) ∧
      pcOf u t p = branchTarget (pcOf s t p) f := by
  obtain ⟨u, hu, honly, hg, hpc⟩ := answers_setG_setPc (i := .call t p f) (d := f.gd.toNat) rfl h (branchTo_eq ..)
  change getG u t p f.gd.toNat = (if f.gd.toNat = 0 then 0 else BitVec.ofNat 64 (pcOf (noteIssue s t p 0x26 0) t p + 8)) at hg
  rw [pcOf_noteIssue] at hg
  refine ⟨u, hu, honly, hg, ?_⟩
  rw [hpc, pcOf, pc_setG]
  change branchTarget (pcOf (noteIssue s t p 0x26 0) t p) f % 2 ^ 64 = _
  rw [pcOf_noteIssue, branchTarget_mod]

end

/-- Settles O4: each branch by its condition and its target. -/
theorem branches : Obligations.Branches := by
  intro t p f s h a b next target goes writes d
  have cond {i : Instr} {op : Nat} (c : Word64 → Word64 → Bool) (hi : exec i s = .next (condBranch t p f op c s)) :
      goes i (if c a b then target else next) := wentTo_condBranch h hi
  have heq : goes (.beq t p f) (if a = b then target else next) := by simpa using cond (· == ·) rfl
  have hne : goes (.bne t p f) (if a = b then next else target) := by
    have hrun := cond (i := .bne t p f) (· != ·) rfl
    rwa [show (if (a != b) = true then target else next) = if a = b then next else target by
      by_cases hab : a = b <;> simp [hab]] at hrun
  have hlt : goes (.blt t p f) (if a.toInt < b.toInt then target else next) := by
    simpa [BitVec.slt] using cond (i := .blt t p f) (·.slt ·) rfl
  have hge : goes (.bge t p f) (if a.toInt < b.toInt then next else target) := by
    have hrun := cond (i := .bge t p f) (fun a b => !a.slt b) rfl
    rwa [show (if (!a.slt b) = true then target else next) = if a.toInt < b.toInt then next else target by
      by_cases hab : a.toInt < b.toInt <;> simp [BitVec.slt, hab]] at hrun
  have hjr : goes (.jr t p f) (a.toNat / 8 * 8) := by
    have hrun := answers_setPc (i := .jr t p f) rfl h rfl
    have ha := a.isLt
    rwa [getG_noteIssue, Nat.mod_eq_of_lt (a := a.toNat / 8 * 8) (by omega)] at hrun
  exact ⟨answers_setPc (i := .nop t p f) (pc := pcOf s t p + 8) rfl h (by rw [nextPc, ← pcOf, pcOf_noteIssue]),
    wentTo_branchTo (c := fun _ => true) h rfl, heq, hne, hlt, hge, hjr, answers_call h, answers_loop h, answers_loop_zero h⟩

end Sys2Proof.Machine
end

section
/-!
SUPPORT. The abort of a participant (R96, R117): what an array's work changes, and what is left of the array and of the participant.
-/

namespace Sys2Proof.Machine

open Sys2Proof

/-! What an array's work changes. -/

theorem pagePlace_mcPage : ∀ (t : Fin 12) (n : Fin 32), pagePlace (mcPage t n) = .tile t (2 + n) := by decide

/-- The boot addresses of the TCCs are as they were (R138). -/
def leavesBoot (s u : State) : Prop := ∀ p, pageBlock p = some .tcc → pget u p 0x09C = pget s p 0x09C

/-- Work of an array: it changes memory and arrays, and raises sources of its page; no MXA of the array begins to wait. -/
def arrayWork (s u : State) (t n : Nat) : Prop :=
  onlyFaults ((s.setMem u.mem).setMcs u.mcs) u ∧ (∀ c, coreOf u c = coreOf s c ∨ stoppable s (mcPage t n) c) ∧
    leavesBoot s u ∧ ((mcOf s t n).waiting = none → (mcOf u t n).waiting = none)

section
variable {s u v : State} {t n : Nat}

theorem leavesBoot_of_setsSource {page : Nat} (h : setsSource page s u) : leavesBoot s u := by
  intro p hp
  refine h.2.2 _ (by rw [regOff]; omega) ?_
  rw [show regOff p 0x09C / 0x1000 = p by rw [regOff]; omega, hp]
  decide

theorem arrayWork_refl (s : State) (t n : Nat) : arrayWork s s t n := ⟨onlyFaults_refl s, fun _ => .inl rfl, fun _ _ => rfl, id⟩

/-- Raising sources does not depend on memory and arrays that were there before. -/
theorem onlyFaults_setMem_setMcs (h : onlyFaults s u) (m : Memory) (k : KMap MatrixCore) :
    onlyFaults ((s.setMem m).setMcs k) ((u.setMem m).setMcs k) := by
  obtain ⟨he, hh, hc, ht, hs⟩ := h
  refine ⟨?_, hh, hc, ht, hs⟩
  conv_lhs => rw [he]
  rfl

theorem arrayWork_trans (h : arrayWork s u t n) (h' : arrayWork u v t n) : arrayWork s v t n := by
  obtain ⟨hf, hc, hb, hw⟩ := h
  obtain ⟨hf', hc', hb', hw'⟩ := h'
  refine ⟨onlyFaults_trans (onlyFaults_setMem_setMcs hf v.mem v.mcs) hf', fun c => ?_, fun p hp => (hb' p hp).trans (hb p hp), hw' ∘ hw⟩
  obtain e | hs := hc c
  · obtain e' | ⟨hp, hs⟩ := hc' c
    · exact .inl (e'.trans e)
    · exact .inr ⟨hp, by rwa [e] at hs⟩
  · exact .inr hs

theorem arrayWork_of_onlyFaults (h : onlyFaults s u) (hc : ∀ c, coreOf u c = coreOf s c ∨ stoppable s (mcPage t n) c)
    (hb : leavesBoot s u) : arrayWork s u t n := by
  refine ⟨?_, hc, hb, fun hw => by rw [h.mcOf_eq, hw]⟩
  rw [h.mem_eq, h.mcs_eq]
  exact h

theorem arrayWork_setMc {x : MatrixCore} (hx : (mcOf s t n).waiting = none → x.waiting = none) :
    arrayWork s (setMc s t n x) t n :=
  ⟨onlyFaults_refl _, fun _ => .inl rfl, fun _ _ => rfl, by simpa using hx⟩

theorem arrayWork_setMem (s : State) (m : Memory) (t n : Nat) : arrayWork s (s.setMem m) t n :=
  ⟨onlyFaults_refl _, fun _ => .inl rfl, fun _ _ => rfl, id⟩

theorem arrayWork_ite {c : Prop} [Decidable c] (h : arrayWork s u t n) (h' : arrayWork s v t n) :
    arrayWork s (if c then u else v) t n := by
  split <;> assumption

theorem arrayWork_foldList {α : Type} {f : α → State → State} (hf : ∀ a u, arrayWork u (f a u) t n) (l : List α)
    (s : State) : arrayWork s (foldList f l s) t n :=
  foldList_induction (P := fun u => arrayWork s u t n) (fun a u hu => arrayWork_trans hu (hf a u)) l (arrayWork_refl s t n)

theorem arrayWork_count (s : State) (page off k t n : Nat) : arrayWork s (count s page off k) t n := by
  have hf := onlyFaults_count s page off k
  obtain ⟨k, e, -⟩ := count_spec s page off k
  rw [e] at hf ⊢
  exact arrayWork_of_onlyFaults hf (fun _ => .inl rfl) fun _ _ => rfl

theorem arrayWork_pset (s : State) {off : Nat} (v t n : Nat) (ho : off < 0x1000) (h : off ≠ 0x020) (h' : off ≠ 0x09C) :
    arrayWork s (pset s (mcPage t n) off v) t n :=
  arrayWork_of_onlyFaults (onlyFaults_pset _ _ _ _ ho h) (fun _ => .inl rfl) fun p _ => by
    rw [pget_pset _ _ _ _ _ _ ho (by decide), if_neg fun h => h' h.2.symm]

theorem arrayWork_storePut (s : State) (t n off : Nat) (data : List Byte) (own : Bool) :
    arrayWork s (storePut s t n off data own) t n :=
  arrayWork_ite (arrayWork_setMc id) (arrayWork_setMem ..)

theorem arrayWork_storeWrite (s : State) (t n off : Nat) (data : List Byte) (own : Bool) :
    arrayWork s (storeWrite s t n off data own) t n :=
  arrayWork_foldList (fun _ _ => arrayWork_storePut ..) _ s

theorem arrayWork_landHeld (s : State) (t n : Nat) : arrayWork s (landHeld s t n) t n := by
  refine arrayWork_trans (arrayWork_setMc (x := { mcOf s t n with heldW := [] }) id) ?_
  exact arrayWork_foldList (fun _ _ => arrayWork_setMem ..) _ _

theorem waiting_setBank (m : MatrixCore) (b : Bool) (x : Bank) : (m.setBank b x).waiting = m.waiting := by
  cases b <;> rfl

end

section
variable (s : State) (t : Fin 12) (n : Fin 32)

theorem setsSource_mcRaise (src : Nat) (tag : Word32) : setsSource (mcPage t n) s (mcRaise s t n src tag) := by
  refine setsSource_raiseTag _ _ fun t' h => ?_
  rw [pagePlace_mcPage] at h
  injection h
  omega

theorem arrayWork_mcRaise (src : Nat) (tag : Word32) : arrayWork s (mcRaise s t n src tag) t n :=
  arrayWork_of_onlyFaults (onlyFaults_mcRaise ..) (setsSource_mcRaise ..).2.1 (leavesBoot_of_setsSource (setsSource_mcRaise ..))

theorem arrayWork_raised (p : Prop) [Decidable p] (src : Nat) (tag : Word32) :
    arrayWork s (if p then mcRaise s t n src tag else s) t n :=
  arrayWork_ite (arrayWork_mcRaise ..) (arrayWork_refl ..)

theorem arrayWork_compareBank (b : Bank) (r : MxrOp) : arrayWork s (compareBank s t n b r) t n := by
  have hcount (c : ColCheck) (u : State) : arrayWork u (countCheck u t n c) t n := by
    cases c <;> exact arrayWork_count ..
  unfold compareBank
  extract_lets pg cs s₁ s₂
  have h₂ : arrayWork s s₂ t n := arrayWork_trans (arrayWork_foldList hcount _ s) (arrayWork_raised ..)
  clear_value s₂ cs
  split
  · exact h₂
  · split
    · have hshow (u : State) (off v : Nat) (hoff : off = 0x0A0 ∨ off = 0x0A4 ∨ off = 0x0A8) : arrayWork u (pset u pg off v) t n :=
        arrayWork_pset _ _ _ _ (by omega) (by omega) (by omega)
      exact arrayWork_trans h₂ (arrayWork_trans (arrayWork_trans (arrayWork_trans (hshow _ _ _ (.inl rfl))
        (hshow _ _ _ (.inr (.inl rfl)))) (hshow _ _ _ (.inr (.inr rfl)))) (arrayWork_mcRaise ..))
    · exact h₂

theorem arrayWork_mxrLegal (r : MxrOp) (code : Nat) : arrayWork s (mxrLegal s t n r code) t n := by
  unfold mxrLegal
  extract_lets pg m b s₁ s₂ s₃ s₄ s₅ m₅ m₆
  have h₁ : arrayWork s s₁ t n := arrayWork_setMc id
  have h₂ : arrayWork s₁ s₂ t n := arrayWork_raised ..
  have h₃ : arrayWork s₂ s₃ t n := arrayWork_ite (arrayWork_compareBank ..) (arrayWork_count ..)
  have h₅ : arrayWork s₃ s₅ t n := arrayWork_trans (arrayWork_storeWrite ..) (arrayWork_count ..)
  refine arrayWork_trans (arrayWork_trans (arrayWork_trans (arrayWork_trans h₁ h₂) h₃) h₅) (arrayWork_setMc fun hw => ?_)
  split
  · exact hw
  · rw [waiting_setBank]; exact hw

theorem arrayWork_mxrRun (r : MxrOp) : arrayWork s (mxrRun s t n r) t n :=
  arrayWork_ite (arrayWork_mxrLegal ..) (arrayWork_mcRaise ..)

theorem arrayWork_mxrDrain (bank : Bool) : arrayWork s (mxrDrain s t n bank) t n := by
  unfold mxrDrain
  extract_lets m due s₁
  have h₁ : arrayWork s s₁ t n := arrayWork_setMc id
  exact arrayWork_trans h₁ (arrayWork_foldList (fun _ _ => arrayWork_mxrRun ..) _ _)

theorem arrayWork_mxaDone : arrayWork s (mxaDone s t n) t n := by
  unfold mxaDone
  extract_lets m pg s₁
  split
  · exact arrayWork_refl ..
  next o _ =>
  have h₁ : arrayWork s s₁ t n := arrayWork_trans (arrayWork_count ..) (arrayWork_count ..)
  extract_lets b clash k s₈ s₂ bad s₃ s₄ s₅ s₆ m₆ ring
  refine arrayWork_trans h₁ (arrayWork_ite (arrayWork_setMc id) ?_)
  have counted (u : State) (x y z : Nat) : arrayWork u (count (count (count u pg 0x820 x) pg 0x828 y) pg 0x830 z) t n :=
    arrayWork_trans (arrayWork_trans (arrayWork_count ..) (arrayWork_count ..)) (arrayWork_count ..)
  have h₂ : arrayWork s₁ s₂ t n := arrayWork_ite (arrayWork_refl ..)
    (arrayWork_ite (arrayWork_trans (counted ..) (arrayWork_count ..)) (counted ..))
  have h₆ : arrayWork s₁ s₆ t n := arrayWork_trans (arrayWork_trans (arrayWork_trans (arrayWork_trans h₂
    (arrayWork_count ..)) (arrayWork_raised ..)) (arrayWork_raised ..)) (arrayWork_raised ..)
  exact arrayWork_trans h₆ (arrayWork_setMc fun hw => (waiting_setBank ..).trans hw)

theorem arrayWork_mxaFinish : arrayWork s (mxaFinish s t n none) t n := by
  unfold mxaFinish
  split
  · exact arrayWork_refl ..
  · exact arrayWork_trans (arrayWork_trans (arrayWork_mxaDone ..) (arrayWork_landHeld ..)) (arrayWork_mxrDrain ..)

/-! The abort of an array (R117). -/

/-- The waiting MXA of an array abandoned, with the MXRs that wait for it. -/
def abandonWaiting (s : State) (t n : Nat) : State :=
  match (mcOf s t n).waiting with
  | some o =>
    let s' := setMc s t n { mcOf s t n with waiting := none, mxrs := (mcOf s t n).mxrs.filter fun r => r.bank != o.bank }
    if (mcOf s t n).cur.isNone then landHeld s' t n else s'
  | none => s

/-- The MXA that reads the ring brought to its end. -/
def finishRing (s : State) (t n : Nat) : State :=
  match (mcOf s t n).cur with
  | some o => if o.ring && !o.illegal then mxaFinish s t n none else s
  | none => s

theorem mcAbort_eq : mcAbort s t n = ringFlush (finishRing (abandonWaiting s t n) t n) t n := rfl

theorem waiting_abandonWaiting : (mcOf (abandonWaiting s t n) t n).waiting = none := by
  unfold abandonWaiting
  split
  · extract_lets m s'
    have hs' : (mcOf s' t n).waiting = none := by simp [s']
    split
    · exact (arrayWork_landHeld s' t n).2.2.2 hs'
    · exact hs'
  · assumption

theorem arrayWork_abandonWaiting : arrayWork s (abandonWaiting s t n) t n := by
  unfold abandonWaiting
  split
  · extract_lets m s'
    have hs' : arrayWork s s' t n := arrayWork_setMc fun _ => rfl
    exact arrayWork_ite (arrayWork_trans hs' (arrayWork_landHeld ..)) hs'
  · exact arrayWork_refl ..

theorem arrayWork_finishRing : arrayWork s (finishRing s t n) t n := by
  unfold finishRing
  split
  · exact arrayWork_ite (arrayWork_mxaFinish ..) (arrayWork_refl ..)
  · exact arrayWork_refl ..

/-- What an abort leaves of an array: nothing waits in it, and it has no tiles and no descriptors; besides, the half of its slice was
busy until now. -/
theorem mcAbort_spec : ∃ w x, arrayWork s w t n ∧ mcAbort s t n = w.setStore x ∧
    (mcOf w t n).waiting = none ∧ (mcOf w t n).ring = [] ∧ (mcOf w t n).descs = [] := by
  have hwork := arrayWork_trans (arrayWork_abandonWaiting s t n) (arrayWork_finishRing _ t n)
  have hwait : (mcOf (finishRing (abandonWaiting s t n) t n) t n).waiting = none :=
    (arrayWork_finishRing _ t n).2.2.2 (waiting_abandonWaiting ..)
  rw [mcAbort_eq]
  set v := finishRing (abandonWaiting s t n) t n
  refine ⟨setMc v t n { mcOf v t n with ring := [], descs := [] }, _, arrayWork_trans hwork (arrayWork_setMc id), rfl, ?_, ?_, ?_⟩
  · rw [mcOf_setMc_same]; exact hwait
  · rw [mcOf_setMc_same]
  · rw [mcOf_setMc_same]

end

/-! The abort of a participant (R96, R117). -/

theorem touchHalves_eq (s : State) (l : List (Nat × Nat)) : ∃ x, touchHalves s l = s.setStore x := by
  refine foldList_induction (P := fun u => ∃ x, u = s.setStore x) (fun h u hu => ?_) l ⟨s.store, rfl⟩
  obtain ⟨x, rfl⟩ := hu
  exact ⟨_, rfl⟩

theorem touchPart_eq (s : State) (t p : Nat) : ∃ x, touchPart s t p = s.setStore x := touchHalves_eq ..

/-- A core whose program ended as aborted. -/
def Core.abortedCore (k : Core) : Core :=
  { k with run := .idle, aborted := true, wait := none, stopReq := false, opcode := 0, opmod := 0, held := none }

/-- What ending a program as aborted leaves: its core idle and aborted and every other core as it was, every source that was set, and
of a matrix core an array in which nothing waits. -/
theorem endAborted_spec (s : State) (t : Fin 12) (p : Fin 41) :
    (∀ c, coreOf (endAborted s t p) c = if c = coreId t p then (coreOf s c).abortedCore else coreOf s c) ∧
    (∀ page src, src < 32 → sticky s page src = true → sticky (endAborted s t p) page src = true) ∧
    (p.val < 32 → (mcOf (endAborted s t p) t p).waiting = none ∧ (mcOf (endAborted s t p) t p).ring = [] ∧
      (mcOf (endAborted s t p) t p).descs = []) := by
  unfold endAborted
  extract_lets k s₁ s₂
  have hs₂ (c : Nat) : coreOf s₂ c = if c = coreId t p then (coreOf s c).abortedCore else coreOf s c := by
    simp only [s₂, coreOf_setCore]
    split
    next h => rw [h]; rfl
    next => rfl
  obtain ⟨x, hx⟩ := touchPart_eq (if p.val < 32 then mcAbort s₂ t p else s₂) t p
  rw [hx]
  split
  next hp =>
    obtain ⟨w, y, ⟨hf, hc, -⟩, hrun, hmc⟩ := mcAbort_spec s₂ t ⟨p.val, hp⟩
    rw [show mcAbort s₂ t p = w.setStore y from hrun]
    refine ⟨fun c => ?_, fun page src hsrc hset => hf.2.2.2.2 page src hsrc hset, fun _ => hmc⟩
    rw [← hs₂ c]
    refine (hc c).resolve_right ?_
    rintro ⟨⟨t', i, hplace, -, -, rfl⟩, hbusy⟩
    rw [pagePlace_mcPage] at hplace
    injection hplace with ht hi
    subst ht hi
    rw [hs₂, if_pos (by simp)] at hbusy
    simp [Core.abortedCore] at hbusy
  next hp => exact ⟨hs₂, fun _ _ _ h => h, fun h => absurd h hp⟩

/-- Ending a program as aborted leaves the records of the units and the boot addresses. -/
theorem endAborted_keeps (s : State) (t : Fin 12) (p : Fin 41) :
    (endAborted s t p).units = s.units ∧ leavesBoot s (endAborted s t p) := by
  unfold endAborted
  extract_lets k s₁ s₂
  obtain ⟨x, hx⟩ := touchPart_eq (if p.val < 32 then mcAbort s₂ t p else s₂) t p
  rw [hx]
  split
  next hp =>
    obtain ⟨w, y, ⟨hf, -, hb, -⟩, hrun, -⟩ := mcAbort_spec s₂ t ⟨p.val, hp⟩
    rw [show mcAbort s₂ t p = w.setStore y from hrun]
    refine ⟨?_, hb⟩
    change w.units = s.units
    rw [hf.1]
    rfl
  next => exact ⟨rfl, fun _ _ => rfl⟩

/-- Ending a program as aborted leaves memory, where its array has no MXA. -/
theorem mem_endAborted (s : State) (t p : Nat) (h : p < 32 → (mcOf s t p).cur = none ∧ (mcOf s t p).waiting = none) :
    (endAborted s t p).mem = s.mem := by
  unfold endAborted
  extract_lets k s₁ s₂
  rw [mem_touchPart]
  split
  next hp =>
    obtain ⟨hcur, hwait⟩ := h hp
    have hm : mcOf s₂ t p = mcOf s t p := rfl
    rw [mcAbort, hm]
    simp only [hwait, hm, hcur]
    rfl
  next => rfl

end Sys2Proof.Machine
end

section
/-!
The ways a program ends or stops (R95 to R97, R117, R125, R127, R128, R131): the statement Program_ends, a lemma for each instruction
and each kind of participant.
-/

namespace Sys2Proof.Machine

open Sys2Proof

section
variable (s : State) (t p op md : Nat)

@[simp] theorem mem_issued : (nextPc (noteIssue s t p op md) t p).mem = s.mem := mem_noteIssue ..

@[simp] theorem tccOf_issued (t' : Nat) : tccOf (nextPc (noteIssue s t p op md) t p) t' = tccOf s t' := tccOf_noteIssue ..

@[simp] theorem tccOf_noteEnd (t' : Nat) : tccOf (noteEnd s t p) t' = tccOf s t' := by
  obtain e | ⟨x, e⟩ := noteEnd_eq_or s t p <;> rw [e]; rfl

@[simp] theorem pget_noteEnd (page o : Nat) : pget (noteEnd s t p) page o = pget s page o := by
  obtain e | ⟨x, e⟩ := noteEnd_eq_or s t p <;> rw [e]; rfl

theorem tccs_noteIssue : (noteIssue s t p op md).tccs = s.tccs := by
  obtain ⟨k, e, -⟩ := noteIssue_spec s t p op md
  rw [e]; rfl

theorem tccs_noteEnd : (noteEnd s t p).tccs = s.tccs := by
  obtain e | ⟨x, e⟩ := noteEnd_eq_or s t p <;> rw [e]; rfl

/-- The core of an instruction that is noted and gone past (R92, R134). -/
theorem coreOf_issued (c : Nat) : coreOf (nextPc (noteIssue s t p op md) t p) c =
    if c = coreId t p then { coreOf s c with opcode := op, opmod := md, held := none, pc := (pcOf s t p + 8) % 2 ^ 64 }
    else coreOf s c := by
  rw [nextPc, coreOf_setPc, coreOf_noteIssue, coreOf_noteIssue, if_pos rfl]
  split
  · next h => subst h; rfl
  · rfl

/-- Ending an instruction keeps whether the core runs. -/
theorem run_noteEnd : (coreOf (noteEnd s t p) (coreId t p)).run = (coreOf s (coreId t p)).run := by
  unfold noteEnd
  dsimp only
  split
  · rfl
  · rw [coreOf_setCore, if_pos rfl]

/-- A core that no longer runs after its instruction, as it stands when the instruction has ended (R97). -/
theorem coreOf_noteEnd_run {s w : State} {t p op md : Nat} {r : RunState} {a : Bool} (h : canIssue s t p = true)
    (hw : coreOf w (coreId t p) =
      { coreOf (nextPc (noteIssue s t p op md) t p) (coreId t p) with run := r, aborted := a }) :
    coreOf (noteEnd w t p) (coreId t p) =
      { coreOf s (coreId t p) with pc := (pcOf s t p + 8) % 2 ^ 64, run := r, aborted := a, opcode := 0, opmod := 0 } := by
  rw [noteEnd_eq _ _ _ (by rw [hw, coreOf_issued, if_pos rfl]; exact wait_of_canIssue h), coreOf_setCore, if_pos rfl, hw,
    coreOf_issued, if_pos rfl, ← held_of_canIssue h]

end

/-! END (R97). -/

/-- With no piece to run again, none starts (R443). -/
theorem rerunPieces_of_noReplays {s : State} (h : ∀ g ∈ s.sched.groups, g.replays = []) : rerunPieces s = s := by
  have hnone : (s.sched.groups.flatMap fun g =>
      if g.fate = .running then g.replays.flatMap fun r => r.todo.map fun c => (g.tag, c) else []) = [] := by
    rw [List.flatMap_eq_nil_iff]
    intro g hg
    rw [h g hg]
    exact ite_self _
  rw [rerunPieces, hnone]
  rfl

/-- Where no chain peer's piece runs, no participant runs one (R369). -/
theorem peerPiece_of_noPeers {s : State} {q : Req} (h : s.chain.peers = []) : peerPiece s q = none := by
  unfold peerPiece
  split
  · rw [h]; exact ite_self _
  · rfl

theorem chain_noteIssue (s : State) (t p op md : Nat) : (noteIssue s t p op md).chain = s.chain := by
  obtain ⟨k, e, -⟩ := noteIssue_spec s t p op md
  rw [e]; rfl

theorem sched_noteIssue (s : State) (t p op md : Nat) : (noteIssue s t p op md).sched = s.sched := by
  obtain ⟨k, e, -⟩ := noteIssue_spec s t p op md
  rw [e]; rfl

/-- A TCC that is halted: it is not running, and TCC_CTL.HALT reads 1 (R97, R138). -/
def haltedTcc (u : State) (t : Nat) : Prop :=
  (tccOf u t).halted = true ∧ bitOf (pget u (tccPage t) 0x098) 0 = true ∧ (coreOf u (coreId t 40)).run = .idle

theorem bitOf_tccCtl_psetBits (s : State) (t : Nat) :
    bitOf (pget (psetBits s (tccPage t) 0x098 1) (tccPage t) 0x098) 0 = true := by
  rw [psetBits, pget_pset _ _ _ _ _ _ (by decide) (by decide), if_pos ⟨rfl, rfl⟩, bitOf_mod _ _ (by decide), bitOf_or]
  simp [show bitOf 1 0 = true from rfl]

theorem haltedTcc_haltTcc (s : State) (t : Nat) (locked : Bool) : haltedTcc (haltTcc s t locked) t := by
  refine ⟨?_, bitOf_tccCtl_psetBits .., ?_⟩
  · change (tccOf (setTcc s t { tccOf s t with halted := true, locked := (tccOf s t).locked || locked }) t).halted = true
    rw [tccOf_setTcc, if_pos rfl]
  · change (coreOf (setCore _ (coreId t 40) _) (coreId t 40)).run = .idle
    rw [coreOf_setCore, if_pos rfl]

theorem haltedTcc_noteEnd {s : State} {t : Nat} (h : haltedTcc s t) : haltedTcc (noteEnd s t 40) t := by
  obtain ⟨hhalt, hctl, hrun⟩ := h
  exact ⟨by rwa [tccOf_noteEnd], by rwa [pget_noteEnd], by rwa [run_noteEnd]⟩

theorem pcOf_haltTcc (s : State) (t : Nat) (locked : Bool) : pcOf (haltTcc s t locked) t 40 = pcOf s t 40 := by
  change (coreOf (setCore _ (coreId t 40) _) (coreId t 40)).pc = _
  rw [coreOf_setCore, if_pos rfl]
  rfl

/-! What sending the results of a chain peer's piece leaves of the TCC that ran it (R369). -/

/-- The TCC of a tile stays halted or not, and its PC, its run state and TCC_CTL stay. -/
def leavesTcc (s u : State) (t : Nat) : Prop :=
  (tccOf u t).halted = (tccOf s t).halted ∧ pcOf u t 40 = pcOf s t 40 ∧
    (coreOf u (coreId t 40)).run = (coreOf s (coreId t 40)).run ∧ pget u (tccPage t) 0x098 = pget s (tccPage t) 0x098

theorem leavesTcc_refl (s : State) (t : Nat) : leavesTcc s s t := ⟨rfl, rfl, rfl, rfl⟩

theorem leavesTcc_trans {s u v : State} {t : Nat} (h : leavesTcc s u t) (h' : leavesTcc u v t) : leavesTcc s v t := by
  obtain ⟨hh, hp, hr, hg⟩ := h
  obtain ⟨hh', hp', hr', hg'⟩ := h'
  exact ⟨hh'.trans hh, hp'.trans hp, hr'.trans hr, hg'.trans hg⟩

theorem leavesTcc.haltedTcc {s u : State} {t : Nat} (h : leavesTcc s u t) (hs : haltedTcc s t) : haltedTcc u t := by
  obtain ⟨hh, -, hr, hg⟩ := h
  obtain ⟨hhalt, hctl, hrun⟩ := hs
  exact ⟨hh.trans hhalt, hg ▸ hctl, hr.trans hrun⟩

theorem leavesTcc_foldList {α : Type} {f : α → State → State} {t : Nat} (hf : ∀ a u, leavesTcc u (f a u) t) (l : List α) (s : State) :
    leavesTcc s (foldList f l s) t :=
  foldList_induction (P := fun u => leavesTcc s u t) (fun a u hu => leavesTcc_trans hu (hf a u)) l (leavesTcc_refl s t)

theorem leavesTcc_count (s : State) (page off n t : Nat) : leavesTcc s (count s page off n) t := by
  obtain ⟨k, e, -⟩ := count_spec s page off n
  rw [e]; exact leavesTcc_refl s t

theorem leavesTcc_travel (s : State) (x y : Loc) (n t : Nat) : leavesTcc s (travel s x y n).2 t := by
  obtain ⟨k, e⟩ := travel_spec s x y n
  rw [e]; exact leavesTcc_refl s t

theorem pageBlock_tccPage : ∀ t : Fin 12, pageBlock (tccPage t) = some .tcc := by decide

/-- A TCC has no current-operation registers (R138). -/
theorem leavesTcc_setCurop (s : State) (page : Nat) (ws : List Nat) (t : Fin 12) : leavesTcc s (setCurop s page ws) t := by
  unfold setCurop
  split
  next b hb =>
    by_cases hpage : page = tccPage t
    · rw [hpage, pageBlock_tccPage] at hb
      cases hb
      exact leavesTcc_refl s t
    · have hoffs : ∀ x ∈ (curopOffs b).zip ws, x.1 < 0x1000 := fun x hx => (curopOffs_spec b _ (List.of_mem_zip hx).1).1
      generalize (curopOffs b).zip ws = l at hoffs
      induction l generalizing s with
      | nil => exact leavesTcc_refl s t
      | cons x l ih =>
        have hx : leavesTcc s (pset s page x.1 x.2) t := ⟨rfl, rfl, rfl, by
          rw [pget_pset _ _ _ _ _ _ (hoffs x (.head _)) (by decide), if_neg fun h => hpage h.1.symm]⟩
        exact leavesTcc_trans hx (ih _ fun y hy => hoffs y (.tail _ hy))
  next => exact leavesTcc_refl s t

/-- A source of another page than a TCC's leaves the TCC as it is, but for the causes that are pending at it. -/
theorem leavesTcc_raiseTag (s : State) {page : Nat} (hpage : ∀ t, pagePlace page ≠ .tile t 1) (src tag : Nat) (t : Fin 12) :
    leavesTcc s (raiseTag s page src tag) t := by
  obtain ⟨htcc, -, hreg⟩ := setsSource_raiseTag (s := s) src tag hpage
  have hf := (raiseTag_spec s page src tag).1
  obtain ⟨l, hl⟩ := htcc t
  refine ⟨by rw [hl], hf.pcOf_eq t 40, by rw [hf.core_eq], hreg _ (by simp only [regOff]; omega) ?_⟩
  rw [show regOff (tccPage t) 0x098 / 0x1000 = tccPage t by simp only [regOff]; omega, pageBlock_tccPage]
  exact nofun

theorem leavesTcc_raiseOp (s : State) {page : Nat} (hpage : ∀ t, pagePlace page ≠ .tile t 1) (src : Nat) (ws : List Nat) (t : Fin 12) :
    leavesTcc s (raiseOp s page src ws) t :=
  leavesTcc_trans (leavesTcc_trans (leavesTcc_setCurop ..) (leavesTcc_raiseTag _ hpage ..)) (leavesTcc_setCurop ..)

theorem pagePlace_cpPage (c t : Nat) : pagePlace (cpPage c) ≠ .tile t 1 := by
  unfold pagePlace cpPage basePage
  split_ifs
  · exact nofun
  · exact nofun
  · intro h
    injection h
    omega
  · exact nofun

theorem leavesTcc_transmit (s : State) (c : Nat) (f : Frame) (last : Option (Nat × Option Nat)) (t : Nat) :
    leavesTcc s (transmit s c f last) t := by
  unfold transmit
  extract_lets p f' s'
  split
  · exact leavesTcc_refl s t
  · have hs' : leavesTcc s s' t := leavesTcc_refl s t
    exact leavesTcc_trans hs' (leavesTcc_trans (leavesTcc_count ..) (leavesTcc_count ..))

theorem leavesTcc_toPort (s : State) (x : Loc) (c : Nat) (f : Frame) (last : Option (Nat × Option Nat)) (t : Nat) :
    leavesTcc s (toPort s x c f last).2 t := by
  have htravel := leavesTcc_travel s x (leafLoc (.port c)) (frameFlits f) t
  unfold toPort
  split
  next h => rw [h] at htravel; exact leavesTcc_trans htravel (leavesTcc_transmit ..)
  next h => rw [h] at htravel; exact htravel

theorem leavesTcc_sendControl (s : State) (c : Nat) (f : Frame) (t : Fin 12) : leavesTcc s (sendControl s c f) t := by
  have hraise (u : State) : leavesTcc u (raiseOp u (cpPage c) 6 (frameOp f)) t := leavesTcc_raiseOp u (pagePlace_cpPage c) ..
  unfold sendControl sendFrom
  split
  next c' _ _ =>
    have hport := leavesTcc_toPort s (leafLoc (.port c)) c' f none t
    split
    next h => rw [h] at hport; exact hport
    next h => rw [h] at hport; exact leavesTcc_trans hport (hraise _)
  next => exact hraise s

theorem leavesTcc_peerResults (s : State) (x : PeerReplay) (t : Fin 12) : leavesTcc s (peerResults s x) t :=
  leavesTcc_trans (leavesTcc_refl s t) (leavesTcc_foldList (fun _ _ => leavesTcc_sendControl ..) _ _)

section
variable {t : Fin 12} {p : Fin 41} {s : State} (f : SFields)

/-- END of a core: IDLE, not aborted (R97). -/
theorem answers_endProgram_core (h : canIssue s t p = true) (hp : p.val ≠ 40) (hg : ∀ g ∈ s.sched.groups, g.replays = [])
    (hpeers : s.chain.peers = []) :
    answers (.endProgram t p f) s fun u => u.mem = s.mem ∧ u.tccs = s.tccs ∧
      coreOf u (coreId t p) = { coreOf s (coreId t p) with
        pc := (pcOf s t p + 8) % 2 ^ 64, run := .idle, aborted := false, opcode := 0, opmod := 0 } := by
  refine answers_issue (i := .endProgram t p f) rfl h ?_
  dsimp only
  rw [peerPiece_of_noPeers (by rw [chain_noteIssue]; exact hpeers)]
  set w := nextPc (noteIssue s t p 0x02 0) t p
  set v := setCore w (coreId t p) { coreOf w (coreId t p) with run := .idle, aborted := false }
  have hcore : coreOf v (coreId t p) = { coreOf w (coreId t p) with run := .idle, aborted := false } := by
    rw [coreOf_setCore, if_pos rfl]
  have hmem : v.mem = s.mem := mem_noteIssue ..
  have htccs : v.tccs = s.tccs := tccs_noteIssue ..
  have hsched : v.sched = s.sched := sched_noteIssue ..
  have hend : endProgram t p (noteIssue s t p 0x02 0) = rerunPieces (touchPart v t p) := if_neg hp
  clear_value v
  obtain ⟨x, hx⟩ := touchPart_eq v t p
  rw [hend, hx, rerunPieces_of_noReplays (by rw [setStore_sched, hsched]; exact hg)]
  dsimp only
  refine ⟨?_, ?_, coreOf_noteEnd_run (op := 0x02) (md := 0) h hcore⟩
  · rw [mem_noteEnd]; exact hmem
  · rw [tccs_noteEnd]; exact htccs

/-- END of the TCC: it halts behind the END (R97). -/
theorem answers_endProgram_tcc (h : canIssue s t p = true) (hp : p.val = 40) :
    answers (.endProgram t p f) s fun u => u.mem = s.mem ∧ haltedTcc u t ∧ pcOf u t p = (pcOf s t p + 8) % 2 ^ 64 := by
  refine answers_issue (i := .endProgram t p f) rfl h ?_
  dsimp only
  rw [endProgram, if_pos hp, hp]
  generalize peerPiece _ _ = piece
  set w := haltTcc (nextPc (noteIssue s t 40 0x02 0) t 40) t false
  have hw : haltedTcc w t := haltedTcc_haltTcc ..
  have hpc : pcOf w t 40 = (pcOf s t 40 + 8) % 2 ^ 64 := by rw [pcOf_haltTcc, pcOf_nextPc, pcOf_noteIssue]
  have hmem : w.mem = s.mem := by rw [mem_haltTcc, mem_issued]
  cases piece with
  | none => exact ⟨by rw [mem_noteEnd]; exact hmem, haltedTcc_noteEnd hw, by rw [pcOf_noteEnd]; exact hpc⟩
  | some x =>
    have hx := leavesTcc_peerResults w x t
    refine ⟨?_, haltedTcc_noteEnd (hx.haltedTcc hw), ?_⟩
    · rw [mem_noteEnd]; exact (mem_peerResults w x).trans hmem
    · rw [pcOf_noteEnd]; exact hx.2.1.trans hpc

end

/-! TRAP (R127, R128, R131). -/

/-- The software cause of a participant is pending at the TCC after the one is that a TRAP left there; it is the one of the TRAP, unless an
earlier one of the participant was pending (R129). -/
def softwarePending (s u : State) (t p code : Nat) : Prop :=
  (∃ n, TrapCause.software p n ∈ (tccOf u t).pend) ∧
  ((∀ n, TrapCause.software p n ∉ (tccOf s t).pend) → TrapCause.software p code ∈ (tccOf u t).pend)

theorem software_of_merges {x : TrapCause} {p code : Nat} (h : x.merges (.software p code) = true) :
    ∃ n, x = .software p n := by
  cases x with
  | fault q a => simp [TrapCause.merges] at h
  | software q n =>
    simp only [TrapCause.merges, decide_eq_true_eq] at h
    exact ⟨n, by rw [h]⟩

theorem softwarePending_tccCause (s : State) (t p code : Nat) : softwarePending s (tccCause s t (.software p code)) t p code := by
  unfold tccCause
  dsimp only
  split
  next hany =>
    obtain ⟨x, hx, hm⟩ := List.any_eq_true.1 hany
    obtain ⟨n, rfl⟩ := software_of_merges hm
    exact ⟨⟨n, hx⟩, fun hnone => absurd hx (hnone n)⟩
  next =>
    have hin : TrapCause.software p code ∈
        (tccOf (setTcc s t { tccOf s t with pend := (tccOf s t).pend ++ [.software p code] }) t).pend := by
      rw [tccOf_setTcc, if_pos rfl]; simp
    exact ⟨⟨code, hin⟩, fun _ => hin⟩

theorem coreOf_tccCause (s : State) (t c : Nat) (x : TrapCause) : coreOf (tccCause s t x) c = coreOf s c := by
  unfold tccCause
  dsimp only
  split <;> rfl

theorem softwarePending_congr {s s' u u' : State} {t p code : Nat} (h : softwarePending s u t p code)
    (hs : tccOf s' t = tccOf s t) (hu : tccOf u' t = tccOf u t) : softwarePending s' u' t p code := by
  rw [softwarePending, hs, hu]
  exact h

/-- What a nested trap leaves (R131): the TCC halted with NESTED_TRAP set; memory and cores as they were, but that running ones may be
asked to stop. -/
theorem nestTcc_spec (s : State) (t : Fin 12) :
    (tccOf (nestTcc s t) t).halted = true ∧ (tccOf (nestTcc s t) t).nested = true ∧
      bitOf (pget (nestTcc s t) (tccPage t) 0x098) 0 = true ∧ sticky (nestTcc s t) (tccPage t) 3 = true := by
  unfold nestTcc
  extract_lets k s₁ s₂
  obtain ⟨htcc, -, hreg⟩ := setsSource_setSource (page := tccPage t) (s := s₂) 3 (coreOf s₂ (coreId t 40)).tag.toNat true false
  have hs₂ : tccOf s₂ t = { k with halted := true, locked := true, nested := true } := by
    change tccOf s₁ t = _
    rw [tccOf_setTcc, if_pos rfl]
  obtain ⟨l, hl⟩ := htcc t
  rw [hs₂] at hl
  refine ⟨by rw [hl], by rw [hl], ?_, (setSource_spec ..).2 _ (pageBlock_tccPage t) (by decide) (by decide)⟩
  rw [pget, hreg _ (by simp only [regOff]; omega)]
  · exact bitOf_tccCtl_psetBits ..
  · rw [show regOff (tccPage t) 0x098 / 0x1000 = tccPage t by simp only [regOff]; omega, pageBlock_tccPage]
    exact nofun

section
variable {t : Fin 12} {p : Fin 41} {s : State} (f : SFields)

/-- TRAP of a core: it stops, and its cause is pending (R127, R128). -/
theorem answers_trap_core (h : canIssue s t p = true) (hp : p.val ≠ 40) :
    answers (.trap t p f) s fun u => u.mem = s.mem ∧ softwarePending s u t p (f.imm.toNat % 2 ^ 16) ∧
      coreOf u (coreId t p) = { coreOf s (coreId t p) with
        pc := (pcOf s t p + 8) % 2 ^ 64, run := .trapped, opcode := 0, opmod := 0 } := by
  refine answers_issue (i := .trap t p f) rfl h ?_
  dsimp only
  rw [if_neg hp]
  set w := nextPc (noteIssue s t p 0x03 0) t p
  set v := setCore w (cid t p) { coreOf w (cid t p) with run := .trapped }
  refine ⟨?_, ?_, coreOf_noteEnd_run (op := 0x03) (md := 0) h ?_⟩
  · rw [mem_noteEnd, mem_tccCause]; exact mem_noteIssue ..
  · exact softwarePending_congr (softwarePending_tccCause v ..) (tccOf_noteIssue ..).symm (tccOf_noteEnd ..)
  · rw [coreOf_tccCause, coreOf_setCore, if_pos rfl, coreOf_issued, if_pos rfl]

/-- TRAP of the TCC outside a trap: its cause is pending (R127). -/
theorem answers_trap_tcc (h : canIssue s t p = true) (hp : p.val = 40) (htrap : (tccOf s t).inTrap = false) :
    answers (.trap t p f) s fun u => u.mem = s.mem ∧ softwarePending s u t p (f.imm.toNat % 2 ^ 16) ∧
      pcOf u t p = (pcOf s t p + 8) % 2 ^ 64 := by
  refine answers_issue (i := .trap t p f) rfl h ?_
  dsimp only
  rw [if_pos hp, if_neg (by rw [tccOf_issued, htrap]; decide)]
  refine ⟨?_, ?_, ?_⟩
  · rw [mem_noteEnd, mem_tccCause, mem_issued]
  · rw [← hp]
    exact softwarePending_congr (softwarePending_tccCause (nextPc (noteIssue s t p 0x03 0) t p) ..) (tccOf_issued ..).symm
      (tccOf_noteEnd ..)
  · rw [pcOf_noteEnd, pcOf, coreOf_tccCause, ← pcOf, pcOf_nextPc, pcOf_noteIssue]

/-- TRAP of the TCC in a trap is a nested one (R131). -/
theorem answers_trap_nested (h : canIssue s t p = true) (hp : p.val = 40) (htrap : (tccOf s t).inTrap = true) :
    answers (.trap t p f) s fun u => u.mem = s.mem ∧ haltedTcc u t ∧ (tccOf u t).nested = true ∧ sticky u (tccPage t) 3 = true := by
  refine answers_issue (i := .trap t p f) rfl h ?_
  dsimp only
  rw [if_pos hp, if_pos (by rw [tccOf_issued, htrap])]
  obtain ⟨hhalt, hnest, hctl, hset⟩ := nestTcc_spec (nextPc (noteIssue s t p 0x03 0) t p) t
  refine ⟨?_, ⟨?_, ?_, ?_⟩, ?_, ?_⟩
  · rw [mem_noteEnd, mem_setCore, mem_nestTcc, mem_issued]
  · rw [tccOf_noteEnd]; exact hhalt
  · rw [pget_noteEnd]; exact hctl
  · rw [← hp, run_noteEnd, coreOf_setCore, if_pos rfl]
  · rw [tccOf_noteEnd]; exact hnest
  · rw [sticky_noteEnd]; exact hset

/-! FENCE, an illegal word, and a PC outside the store. -/

/-- An instruction that writes no register and goes on, once its condition holds. -/
theorem wentTo_issueWhen {i j : Instr} {op : Nat} {free : Bool} (h : canIssue s t p = true) (hfree : free = true)
    (hi : exec i s = .next (issueWhen s j t p op free fun s => nextPc s t p)) :
    answers i s fun u => wentTo s u t p ((pcOf s t p + 8) % 2 ^ 64) := by
  refine answers_setPc (op := op) (pc := pcOf s t p + 8) (f := fun s => nextPc s t p) ?_ h ?_
  · rw [hi, hfree, issueWhen_free h, issue, if_pos h]
  · rw [nextPc, ← pcOf, pcOf_noteIssue]

theorem answers_illegalInstruction (h : canIssue s t p = true) (w : BitVec 64) (hw : decodeCoreWord t p w = none) :
    answers (.illegalInstruction t p w) s fun u => wasIllegal s u t p := by
  refine answers_issue (op := w.toNat % 256) (md := 0) (f := fun s => illegal s t p) ?_ h (wasIllegal_noteEnd ..)
  change Host.Outcome.next (if _ then _ else _) = _
  rw [hw]; rfl

/-- A PC outside the store ends the program of a core as aborted (R96). -/
theorem answers_pcOutOfStore_core (hrun : (coreOf s (coreId t p)).run = .running) (hpc : storeSize p ≤ (coreOf s (coreId t p)).pc)
    (hp : p.val ≠ 40) :
    answers (.pcOutOfStore t p) s fun u =>
      sticky u (ptPage t p) (progErrSource p) = true ∧ (coreOf u (coreId t p)).run = .idle ∧ (coreOf u (coreId t p)).aborted = true ∧
      (p.val < 32 → (mcOf u t p).waiting = none ∧ (mcOf u t p).ring = [] ∧ (mcOf u t p).descs = []) := by
  obtain ⟨hcore, hset, hmc⟩ := endAborted_spec (progErr s t p) t p
  refine ⟨endAborted (progErr s t p) t p, ?_, hset _ _ (progErrSource_lt p) (sticky_progErr ..), ?_, ?_, hmc⟩
  · change Host.Outcome.next (if _ then _ else _) = _
    rw [if_pos (by simp [hrun, hpc, hp]), if_neg hp]
  · rw [hcore, if_pos rfl]; rfl
  · rw [hcore, if_pos rfl]; rfl

/-- A PC outside the store halts the TCC (R96). -/
theorem answers_pcOutOfStore_tcc (hrun : (coreOf s (coreId t p)).run = .running) (hpc : storeSize p ≤ (coreOf s (coreId t p)).pc)
    (hp : p.val = 40) (hhalt : (tccOf s t).halted = false) :
    answers (.pcOutOfStore t p) s fun u => sticky u (ptPage t p) (progErrSource p) = true ∧ haltedTcc u t := by
  refine ⟨haltTcc (progErr s t p) t true, ?_, ?_, haltedTcc_haltTcc ..⟩
  · change Host.Outcome.next (if _ then _ else _) = _
    rw [if_pos (by simp [hrun, hpc, hhalt]), if_pos hp]
  · rw [haltTcc, psetBits, sticky_pset_other _ _ _ _ _ _ (by decide) (by decide)]
    exact sticky_progErr ..

end

/-- Settles O5: each instruction and event by the participant that it is of. -/
theorem programEnds : Obligations.Program_ends := by
  intro t p f s c k next code halts pending
  have halts_of {u : State} (hp : p.val = 40) (h : haltedTcc u t) : halts u := by
    obtain ⟨hhalt, hctl, hrun⟩ := h
    exact ⟨hhalt, hctl, by rwa [← hp] at hrun⟩
  refine ⟨fun h => ⟨answers_endProgram_core f h, fun hp => ?_, answers_trap_core f h, answers_trap_tcc f h,
    fun hp htrap => ?_, fun hset => wentTo_issueWhen h hset rfl, fun w hw => ?_⟩,
    fun h hset => heldBack_issueWhen rfl h hset,
    fun hrun hpc => ⟨answers_pcOutOfStore_core hrun hpc, fun hp hhalt => ?_⟩⟩
  · obtain ⟨u, hu, hmem, hhalt, hnext⟩ := answers_endProgram_tcc f h hp
    exact ⟨u, hu, hmem, halts_of hp hhalt, hnext⟩
  · obtain ⟨u, hu, hmem, hhalt, hnest⟩ := answers_trap_nested f h hp htrap
    exact ⟨u, hu, hmem, halts_of hp hhalt, hnest⟩
  · obtain ⟨u, hu, hset, hnext, hmem, -, hg, -⟩ := answers_illegalInstruction h w hw
    exact ⟨u, hu, hset, hnext, hmem, hg⟩
  · obtain ⟨u, hu, hset, hh⟩ := answers_pcOutOfStore_tcc hrun hpc hp hhalt
    exact ⟨u, hu, hset, halts_of hp hh⟩

end Sys2Proof.Machine
end

section
/-!
SUPPORT. A write to a register of a page that lies in no half of a tile (R489, R492), and what writing the flags and barriers leaves of an
instruction in progress.
-/

namespace Sys2Proof.Machine

open Sys2Proof

/-- A page lies in no half of a tile: a write that its unit does not serve raises nothing (R318, R489). -/
def pageInNoHalf (page : Nat) : Prop := ∀ t i, pagePlace page = .tile t i → pageHalf i = none

theorem gatedPage_of_pageInNoHalf {page : Nat} (h : pageInNoHalf page) (s : State) (tag : Nat) : gatedPage s page tag = s := by
  unfold gatedPage
  split
  next t i hplace => simp [h t i hplace]
  next => rfl

/-- A write to a register of a page in no half: it is applied where the page serves, and else it is discarded (R489, R492). -/
theorem writesReg_of_pageInNoHalf {i : Instr} {s : State} {page : Nat} {f : State → State} {P : State → State → Prop}
    (hpage : pageInNoHalf page) (hi : exec i s = .next (blockWrite (wakeFor s 1) page f)) (hf : P (wakeFor s 1) (f (wakeFor s 1))) :
    writesReg i s page P := by
  unfold writesReg
  intro w
  refine ⟨fun hserved => ⟨_, hi, ?_⟩, fun hout => hi.trans (congrArg _ ?_)⟩
  · simp only [served, Bool.and_eq_true, Bool.not_eq_true'] at hserved
    rw [blockWrite, hserved.1, hserved.2]
    exact hf
  · simp only [served, Bool.and_eq_false_iff, Bool.not_eq_false'] at hout
    unfold blockWrite
    split
    · rfl
    · obtain hreset | hserves := hout
      · contradiction
      · rw [show pageServes (wakeFor s 1) page = false from hserves, Bool.not_false, if_pos rfl, gatedPage_of_pageInNoHalf hpage]

theorem pageInNoHalf_tileControl : ∀ t : Fin 12, pageInNoHalf (tilePage t 0) := by
  intro t t' i h
  have hplace : ∀ t : Fin 12, pagePlace (tilePage t 0) = .tile t 0 := by decide
  rw [hplace] at h
  injection h with _ hi
  rw [← hi]
  rfl

theorem pageInNoHalf_tcc : ∀ t : Fin 12, pageInNoHalf (tccPage t) := by
  intro t t' i h
  have hplace : ∀ t : Fin 12, pagePlace (tccPage t) = .tile t 1 := by decide
  rw [hplace] at h
  injection h with _ hi
  rw [← hi]
  rfl

theorem pageInNoHalf_baseControl : pageInNoHalf (basePage 0 0) := by
  intro t i h
  rw [show pagePlace (basePage 0 0) = .base 0 0 from rfl] at h
  exact nomatch h

/-! An instruction that changes flags and barriers besides. -/

section
variable (s : State) (y : Sync) (t p : Nat)

theorem nextPc_setSync : nextPc (s.setSync y) t p = (nextPc s t p).setSync y := rfl

theorem noteEnd_setSync : noteEnd (s.setSync y) t p = (noteEnd s t p).setSync y := by
  unfold noteEnd
  dsimp only
  split
  · next h => rw [if_pos (by exact h)]
  · next h => rw [if_neg (by exact h)]; rfl

theorem setG_setSync (d : Nat) (v : Word64) : setG (s.setSync y) t p d v = (setG s t p d v).setSync y := by
  unfold setG
  split
  · rfl
  · split
    · next h => rw [if_pos (by exact h)]; rfl
    · next h => rw [if_neg (by exact h)]; rfl

@[simp] theorem sync_setG (d : Nat) (v : Word64) : (setG s t p d v).sync = s.sync := by
  obtain ⟨⟨cores, tccs, e⟩, -⟩ := setG_spec s t p d v
  rw [e]; rfl

end

theorem setSync_back {s v : State} (h : v.sync = s.sync) (y : Sync) : (v.setSync y).setSync s.sync = v := by
  rw [setSync_twice, ← h, setSync_self]

section
variable {s : State} {t p : Nat} (h : canIssue s t p = true) (op : Nat) (y : Sync)
include h

/-- An instruction that is noted, goes on and ends (R92). -/
theorem wentTo_noteIssue : wentTo s (noteEnd (nextPc (noteIssue s t p op 0) t p) t p) t p ((pcOf s t p + 8) % 2 ^ 64) := by
  obtain ⟨honly, -, hpc⟩ := wroteReg_noteIssue s t p 0 op 0 (wait_of_canIssue h)
  rw [setG_zero] at honly hpc
  exact ⟨honly, hpc⟩

/-- An instruction that changes flags and barriers and goes on. -/
theorem wentTo_setSync :
    let u := noteEnd (nextPc ((noteIssue s t p op 0).setSync y) t p) t p
    wentTo s (u.setSync s.sync) t p ((pcOf s t p + 8) % 2 ^ 64) ∧ u.sync = y := by
  intro u
  have hu : u = (noteEnd (nextPc (noteIssue s t p op 0) t p) t p).setSync y := by
    rw [← noteEnd_setSync, ← nextPc_setSync]
  have hsync : (noteEnd (nextPc (noteIssue s t p op 0) t p) t p).sync = s.sync := by
    rw [sync_noteEnd, sync_nextPc, sync_noteIssue]
  rw [hu, setSync_back hsync]
  exact ⟨wentTo_noteIssue h op, rfl⟩

/-- An instruction that changes flags and barriers, writes GD and goes on. -/
theorem wroteReg_setSync (d : Nat) (v : Word64) :
    let u := noteEnd (nextPc (setG ((noteIssue s t p op 0).setSync y) t p d v) t p) t p
    wroteReg s (u.setSync s.sync) t p d v ∧ u.sync = y := by
  intro u
  have hu : u = (noteEnd (nextPc (setG (noteIssue s t p op 0) t p d v) t p) t p).setSync y := by
    rw [← noteEnd_setSync, ← nextPc_setSync, ← setG_setSync]
  have hsync : (noteEnd (nextPc (setG (noteIssue s t p op 0) t p d v) t p) t p).sync = s.sync := by
    rw [sync_noteEnd, sync_nextPc, sync_setG, sync_noteIssue]
  rw [hu, setSync_back hsync]
  exact ⟨wroteReg_noteIssue s t p d op v (wait_of_canIssue h), rfl⟩

end

end Sys2Proof.Machine
end

section
/-!
Flags, and arriving at a barrier and waiting for it (R94, R119 to R125, R132, R133): the statement Flags_and_barrier_instructions.
-/

namespace Sys2Proof.Machine

open Sys2Proof

/-! Flags (R119, R120). -/

theorem decide_mem_putMember (l : List Nat) (k k' : Nat) (v : Bool) :
    decide (k' ∈ putMember l k v) = if k' = k then v else decide (k' ∈ l) := by
  unfold putMember
  cases v
  · by_cases h : k' = k <;> simp [h]
  · by_cases h : k' = k <;> by_cases hk : k ∈ l <;> simp [h, hk]

theorem setFlag_eq (s : State) (md : Bool) (t n : Nat) (v : Bool) : setFlag s md t n v = s.setSync (setFlag s md t n v).sync := by
  unfold setFlag
  split <;> rfl

/-- A flag after a flag was written. -/
theorem flagVal_setFlag (s : State) (md md' : Bool) (t n n' : Nat) (v : Bool) :
    flagVal (setFlag s md t n v) md' t n' = if md' = md ∧ n' = n then v else flagVal s md' t n' := by
  cases md <;> cases md' <;> simp [flagVal, setFlag, decide_mem_putMember]

theorem waiters_setFlag (s : State) (md : Bool) (t n : Nat) (v : Bool) :
    (setFlag s md t n v).sync.waiters = s.sync.waiters.map fun w => if w.awaits md t n v then { w with ready := some 0 } else w := by
  unfold setFlag
  split <;> rfl

/-- What writing a flag does to the flags and to those that wait for it (R120). -/
def putsFlag (w u : State) (t : Nat) (md : Bool) (n : Nat) (v : Bool) : Prop :=
  flagVal u md t n = v ∧ (∀ md' n', n' < 256 → (md' ≠ md ∨ n' ≠ n) → flagVal u md' t n' = flagVal w md' t n') ∧
  ∀ x ∈ w.sync.waiters, x.awaits md t n v = true → ∃ y ∈ u.sync.waiters, y.core = x.core ∧ y.num = x.num ∧ y.ready = some 0

theorem putsFlag_setFlag (s : State) (t : Nat) (md : Bool) (n : Nat) (v : Bool) :
    putsFlag s (setFlag s md t n v) t md n v := by
  refine ⟨by rw [flagVal_setFlag, if_pos ⟨rfl, rfl⟩], fun md' n' _ hne => ?_, fun x hx haw => ?_⟩
  · rw [flagVal_setFlag, if_neg (by tauto)]
  · refine ⟨{ x with ready := some 0 }, ?_, rfl, rfl, rfl⟩
    rw [waiters_setFlag]
    exact List.mem_map.2 ⟨x, hx, if_pos haw⟩

theorem putsFlag_congr {w w' u u' : State} {t n : Nat} {md v : Bool} (h : putsFlag w u t md n v) (hw : w'.sync = w.sync)
    (hu : u'.sync = u.sync) : putsFlag w' u' t md n v := by
  simp only [putsFlag, flagVal, hw, hu] at h ⊢
  exact h

/-- A register write that writes a flag (R132, R133). -/
theorem writesReg_setFlag {i : Instr} {s : State} {page t n : Nat} {md v : Bool} (hpage : pageInNoHalf page)
    (hi : exec i s = .next (blockWrite (wakeFor s 1) page fun s => setFlag s md t n v)) :
    writesReg i s page fun w u => u = w.setSync u.sync ∧ putsFlag w u t md n v :=
  writesReg_of_pageInNoHalf hpage hi ⟨setFlag_eq .., putsFlag_setFlag ..⟩

/-- A module flag is of no tile. -/
theorem setFlag_module (s : State) (t t' n : Nat) (v : Bool) : setFlag s true t n v = setFlag s true t' n v := by
  simp [setFlag, Waiter.awaits]

theorem exec_mfSet (n : BitVec 6) (t : Nat) (s : State) :
    exec (.mfSet n) s = .next (blockWrite (wakeFor s 1) (basePage 0 0) fun s => setFlag s true t n.toNat true) := by
  simp only [setFlag_module _ t 0]
  rfl

theorem exec_mfClr (n : BitVec 6) (t : Nat) (s : State) :
    exec (.mfClr n) s = .next (blockWrite (wakeFor s 1) (basePage 0 0) fun s => setFlag s true t n.toNat false) := by
  simp only [setFlag_module _ t 0]
  rfl

theorem flagNum_of_legal {f : SFields} (h : f.flags.getLsbD 0 = true → f.imm.toNat % 256 < 64) :
    flagNum f = some (f.imm.toNat % 256) := by
  simp only [flagNum]
  rw [if_neg]
  simp only [Bool.and_eq_true, decide_eq_true_eq, not_and, not_lt]
  intro hmd
  have := h hmd
  omega

theorem flagNum_of_not_legal {f : SFields} (h : ¬ (f.flags.getLsbD 0 = true → f.imm.toNat % 256 < 64)) : flagNum f = none := by
  simp only [flagNum]
  rw [if_pos]
  simp only [Classical.not_imp, not_lt] at h
  simp only [Bool.and_eq_true, decide_eq_true_eq]
  exact ⟨h.1, by omega⟩

section
variable {t : Fin 12} {p : Fin 41} {f : SFields} {s : State}

/-- FSET and FCLR, once every earlier load, store and transfer is complete (R97, R120, R125). -/
theorem answers_flagOp {i j : Instr} {op : Nat} {v : Bool} (hi : exec i s = .next (flagOp j t p f op v s)) (h : canIssue s t p = true)
    (hset : settled s t p = true) (hlegal : f.flags.getLsbD 0 = true → f.imm.toNat % 256 < 64) :
    answers i s fun u => wentTo s (u.setSync s.sync) t p ((pcOf s t p + 8) % 2 ^ 64) ∧
      putsFlag s u t (f.flags.getLsbD 0) (f.imm.toNat % 256) v := by
  have hrun : exec i s = .next (issueWhen s j t p op (settled s t p) fun s =>
      match flagNum f with
      | some n => nextPc (setFlag s (f.flags.getLsbD 0) t n v) t p
      | none => illegal s t p) := hi
  refine answers_issueWhen hrun h hset ?_
  rw [flagNum_of_legal hlegal]
  dsimp only
  rw [setFlag_eq]
  have hputs := putsFlag_setFlag (noteIssue s t p op 0) t (f.flags.getLsbD 0) (f.imm.toNat % 256) v
  obtain ⟨hwent, hsync⟩ := wentTo_setSync h op (setFlag (noteIssue s t p op 0) (f.flags.getLsbD 0) t (f.imm.toNat % 256) v).sync
  exact ⟨hwent, putsFlag_congr hputs (sync_noteIssue ..).symm hsync⟩

/-- An instruction that names no flag, no barrier, or a barrier without its participant, once it issues (R95). -/
theorem wasIllegal_issueWhen {i j : Instr} {op : Nat} {free : Bool} {g : State → State} (h : canIssue s t p = true)
    (hfree : free = true) (hi : exec i s = .next (issueWhen s j t p op free g))
    (hg : g (noteIssue s t p op 0) = illegal (noteIssue s t p op 0) t p) : answers i s fun u => wasIllegal s u t p :=
  answers_issueWhen hi h hfree (by rw [hg]; exact wasIllegal_noteEnd ..)

theorem wasIllegal_issue {i : Instr} {op : Nat} {g : State → State} (h : canIssue s t p = true)
    (hi : exec i s = .next (issue s t p op 0 g))
    (hg : g (noteIssue s t p op 0) = illegal (noteIssue s t p op 0) t p) : answers i s fun u => wasIllegal s u t p :=
  answers_issue hi h (by rw [hg]; exact wasIllegal_noteEnd ..)

/-- FTST reads a flag (R97). -/
theorem answers_ftst (h : canIssue s t p = true) (hlegal : f.flags.getLsbD 0 = true → f.imm.toNat % 256 < 64) :
    answers (.ftst t p f) s fun u => wroteReg s u t p f.gd.toNat
      (if flagVal s (f.flags.getLsbD 0) t (f.imm.toNat % 256) then 1 else 0) := by
  refine answers_issue (i := .ftst t p f) rfl h ?_
  rw [flagNum_of_legal hlegal]
  dsimp only
  have hval : (BitVec.ofNat 64 (b2n (flagVal (noteIssue s t p 0x33 0) (f.flags.getLsbD 0) t (f.imm.toNat % 256))) : Word64) =
      if flagVal s (f.flags.getLsbD 0) t (f.imm.toNat % 256) then 1 else 0 := by
    rw [flagVal, sync_noteIssue, ← flagVal]
    cases flagVal s (f.flags.getLsbD 0) t (f.imm.toNat % 256) <;> rfl
  rw [hval]
  exact wroteReg_noteIssue _ _ _ _ _ _ (wait_of_canIssue h)

end

/-! Waiting (R120, R121). -/

theorem waiterOf_addWaiter (s : State) (w : Waiter) (h : w.saved = false) : waiterOf (addWaiter s w) w.core = some w := by
  have hnone : ((s.sync.waiters.filter fun x => !x.ofCore w.core).find? fun x => x.ofCore w.core) = none := by
    rw [List.find?_eq_none]
    intro x hx
    simpa using (List.mem_filter.1 hx).2
  simp only [waiterOf, addWaiter, dropWaiter, setSync_sync, List.find?_append, hnone]
  simp [Waiter.ofCore, h]

theorem waiterOf_dropWaiter (s : State) (c : Nat) : waiterOf (dropWaiter s c) c = none := by
  rw [waiterOf, List.find?_eq_none]
  intro x hx
  simpa using (List.mem_filter.1 hx).2

section
variable {s : State} {t p : Nat} (h : canIssue s t p = true) (op : Nat) (wt : Wait)
include h

/-- An instruction that waits: it stays in progress (R134). -/
theorem waits_noteEnd (y : Sync) (x : Waiter) (hx : x.saved = false) (hc : x.core = coreId t p) :
    let u := noteEnd (addWaiter (enterWait ((noteIssue s t p op 0).setSync y) (coreId t p) wt) x) t p
    coreOf u (coreId t p) = { coreOf s (coreId t p) with run := .waiting, wait := some wt, opcode := op, opmod := 0 } ∧
      waiterOf u (coreId t p) = some x ∧ u.sync = (addWaiter (s.setSync y) x).sync := by
  intro u
  set v := addWaiter (enterWait ((noteIssue s t p op 0).setSync y) (coreId t p) wt) x
  have hcore : coreOf v (coreId t p) =
      { coreOf s (coreId t p) with run := .waiting, wait := some wt, opcode := op, opmod := 0 } := by
    change coreOf (setCore _ (coreId t p) { coreOf (noteIssue s t p op 0) (coreId t p) with run := .waiting, wait := some wt }) _ = _
    rw [coreOf_setCore, if_pos rfl, coreOf_noteIssue, if_pos rfl, ← held_of_canIssue h]
  have hu : u = v := if_pos (by rw [hcore]; rfl)
  rw [hu]
  exact ⟨hcore, hc ▸ waiterOf_addWaiter _ _ hx, rfl⟩

end

theorem coreId_div (t : Nat) (p : Fin 41) : coreId t p / 41 = t := by simp only [coreId]; omega
theorem coreId_mod (t : Nat) (p : Fin 41) : coreId t p % 41 = p := by simp only [coreId]; omega

/-! Barriers (R121, R122). -/

@[simp] theorem barOf_setBar_same (s : State) (md : Bool) (t g : Nat) (b : BarGroup) : barOf (setBar s md t g b) md t g = b := by
  cases md <;> simp [barOf, setBar]

theorem barOf_congr {s u : State} (h : u.sync = s.sync) (md : Bool) (t g : Nat) : barOf u md t g = barOf s md t g := by
  simp only [barOf, h]

theorem barOf_addWaiter (s : State) (x : Waiter) (md : Bool) (t g : Nat) : barOf (addWaiter s x) md t g = barOf s md t g := by
  cases md <;> rfl

theorem setBar_eq (s : State) (md : Bool) (t g : Nat) (b : BarGroup) : setBar s md t g b = s.setSync (setBar s md t g b).sync := by
  unfold setBar
  split <;> rfl

/-- A barrier group in which a member has arrived: counted, or held where it has arrived already (R122). -/
def BarGroup.arriveOf (b : BarGroup) (m : Nat) : BarGroup :=
  if bitOf b.arrived m then { b with owed := kerase b.owed m, held := setBitN b.held m true }
  else { b with owed := kerase b.owed m, arrived := setBitN b.arrived m true }

theorem arrive_eq (s : State) (md : Bool) (t g m : Nat) : arrive s md t g m = setBar s md t g ((barOf s md t g).arriveOf m) := by
  unfold arrive BarGroup.arriveOf
  dsimp only
  split <;> rfl

theorem owed_arriveOf (b : BarGroup) (m : Nat) : kfind (b.arriveOf m).owed m = none := by
  unfold BarGroup.arriveOf
  split <;> simp [kfind_kerase]

theorem barTarget_noteIssue (s : State) (t p op : Nat) (f : SFields) : barTarget (noteIssue s t p op 0) t p f = barTarget s t p f := by
  simp only [barTarget, barOf_congr (sync_noteIssue s t p op 0)]

section
variable {t : Fin 12} {p : Fin 41} {f : SFields} {s : State}

/-- FWAIT waits, and is granted at once where the flag holds the value (R97, R120). -/
theorem answers_fwait (h : canIssue s t p = true) (hlegal : f.flags.getLsbD 0 = true → f.imm.toNat % 256 < 64) :
    let md := f.flags.getLsbD 0
    let n := f.imm.toNat % 256
    let v := f.flags.getLsbD 1
    answers (.fwait t p f) s fun u =>
      coreOf u (coreId t p) = { coreOf s (coreId t p) with run := .waiting, wait := some (.flag md n v), opcode := 0x32, opmod := 0 } ∧
      waiterOf u (coreId t p) = some ⟨coreId t p, md, false, n, v, if flagVal s md t n = v then some 0 else none, false⟩ := by
  intro md n v
  refine answers_issue (i := .fwait t p f) rfl h ?_
  rw [flagNum_of_legal hlegal]
  dsimp only
  obtain ⟨hcore, hwaiter, -⟩ := waits_noteEnd h 0x32 (.flag md n v) s.sync
    ⟨coreId t p, md, false, n, v, if flagVal s md t n = v then some 0 else none, false⟩ rfl rfl
  have hsync : (noteIssue s t p 0x32 0).setSync s.sync = noteIssue s t p 0x32 0 := by
    rw [← sync_noteIssue s t p 0x32 0, setSync_self]
  rw [hsync] at hcore hwaiter
  have hval : flagVal (noteIssue s t p 0x32 0) (f.flags.getLsbD 0) t (f.imm.toNat % 256) = flagVal s md t n := by
    rw [flagVal, sync_noteIssue, ← flagVal]
  rw [hval]
  exact ⟨hcore, hwaiter⟩

/-- A granted wait for a flag is over (R120). -/
theorem answers_fwaitRelease {md v : Bool} {n : Nat} {x : Waiter} (hrun : (coreOf s (coreId t p)).run = .waiting)
    (hwait : (coreOf s (coreId t p)).wait = some (.flag md n v)) (hx : waiterOf s (coreId t p) = some x) :
    (x.ready ≠ none → answers (.fwaitRelease t p) s fun u =>
      coreOf u (coreId t p) = { coreOf s (coreId t p) with
        run := .running, wait := none, pc := (pcOf s t p + 8) % 2 ^ 64, opcode := 0, opmod := 0 } ∧ waiterOf u (coreId t p) = none) ∧
    (x.ready = none → idles (.fwaitRelease t p) s) := by
  have hexec : exec (.fwaitRelease t p) s = .next (if x.ready.isSome then finishWait s (coreId t p) 0 else s) := by
    change Host.Outcome.next _ = _
    rw [hrun, hwait, hx]
  refine ⟨fun hready => ?_, fun hready => by rw [idles, hexec, hready]; rfl⟩
  rw [if_pos (Option.isSome_iff_ne_none.2 hready)] at hexec
  refine ⟨_, hexec, ?_⟩
  have hfinish : finishWait s (coreId t p) 0 = endWait (dropWaiter s (coreId t p)) t p := by
    unfold finishWait
    dsimp only
    rw [hwait, coreId_div, coreId_mod]
  rw [hfinish]
  refine ⟨?_, waiterOf_dropWaiter ..⟩
  rw [endWait, coreOf_setCore, if_pos rfl]
  rfl

end

/-- What is said of an instruction that is held until every load, store and transfer is complete (R94, R125). -/
theorem releases_issueRelease {i : Instr} {s : State} {t : Fin 12} {p : Fin 41} {op : Nat} {g : State → State} {P : State → Prop}
    (hi : exec i s = .next (issueRelease s i t p op g)) (hP : canIssue s t p = true → P (noteEnd (g (noteIssue s t p op 0)) t p)) :
    (canIssue s t p = true → settled s t p = true → answers i s P) ∧
    (canGo i s t p → settled s t p = false → heldBack i s t p) :=
  ⟨fun h hset => answers_issueWhen hi h hset (hP h), fun h hset => heldBack_issueWhen hi h hset⟩

section
variable {t : Fin 12} {p : Fin 41} {f : SFields} {s : State}

/-- A barrier wait: the participant waits for the current generation, or for the next one (R121). -/
def waitsAtBarrier (s u : State) (t : Fin 12) (p : Fin 41) (f : SFields) (op : Nat) (later : Bool) : Prop :=
  let md := f.flags.getLsbD 0
  let g := f.imm.toNat % 16
  coreOf u (coreId t p) =
    { coreOf s (coreId t p) with run := .waiting, wait := some (.barrier md g f.gd.toNat), opcode := op, opmod := 0 } ∧
  waiterOf u (coreId t p) = some ⟨coreId t p, md, true, g, later, none, false⟩

/-- The wait half of a barrier instruction, where no generation has ended meanwhile (R121). -/
theorem waitsAtBarrier_barWait (h : canIssue s t p = true) (op : Nat) (y : Sync) {m : Nat} :
    let md := f.flags.getLsbD 0
    let g := f.imm.toNat % 16
    let b := barOf (s.setSync y) md t g
    kfind b.owed m = none →
    let u := noteEnd (barWait ((noteIssue s t p op 0).setSync y) t p f g m) t p
    waitsAtBarrier s u t p f op (bitOf b.held m) ∧ barOf u md t g = b := by
  intro md g b howed u
  have hb : barOf ((noteIssue s t p op 0).setSync y) md t g = b := rfl
  obtain ⟨hcore, hwaiter, hsync⟩ := waits_noteEnd h op (.barrier md g f.gd.toNat) y
    ⟨coreId t p, md, true, g, bitOf b.held m, none, false⟩ rfl rfl
  have hu : u = noteEnd (addWaiter (enterWait ((noteIssue s t p op 0).setSync y) (coreId t p) (.barrier md g f.gd.toNat))
      ⟨coreId t p, md, true, g, bitOf b.held m, none, false⟩) t p := by
    simp only [u, barWait]
    rw [hb, howed]
  rw [hu]
  refine ⟨⟨hcore, hwaiter⟩, ?_⟩
  rw [barOf_congr hsync]
  exact barOf_addWaiter ..

/-- BARA by a member (R121, R122). -/
theorem releases_bara {g m : Nat} (hm : barTarget s t p f = some (g, some m)) :
    let md := f.flags.getLsbD 0
    (canIssue s t p = true → settled s t p = true → answers (.bara t p f) s fun u =>
      wentTo s (u.setSync s.sync) t p ((pcOf s t p + 8) % 2 ^ 64) ∧ barOf u md t g = (barOf s md t g).arriveOf m) ∧
    (canGo (.bara t p f) s t p → settled s t p = false → heldBack (.bara t p f) s t p) := by
  intro md
  refine releases_issueRelease rfl fun h => ?_
  rw [barTarget_noteIssue, hm]
  dsimp only
  rw [arrive_eq, setBar_eq]
  obtain ⟨hwent, hsync⟩ := wentTo_setSync h 0x34
    (setBar (noteIssue s t p 0x34 0) md t g ((barOf (noteIssue s t p 0x34 0) md t g).arriveOf m)).sync
  refine ⟨hwent, ?_⟩
  rw [barOf_congr hsync, barOf_setBar_same, barOf_congr (sync_noteIssue ..)]

theorem barTarget_group {g : Nat} {x : Option Nat} (h : barTarget s t p f = some (g, x)) : g = f.imm.toNat % 16 := by
  simp only [barTarget] at h
  split at h
  · cases h
  · cases h; rfl

/-- BAR by a member: it arrives, and waits (R97). -/
theorem releases_bar {m : Nat} (hm : barTarget s t p f = some (f.imm.toNat % 16, some m)) :
    let md := f.flags.getLsbD 0
    let b := (barOf s md t (f.imm.toNat % 16)).arriveOf m
    (canIssue s t p = true → settled s t p = true → answers (.bar t p f) s fun u =>
      waitsAtBarrier s u t p f 0x36 (bitOf b.held m) ∧ barOf u md t (f.imm.toNat % 16) = b) ∧
    (canGo (.bar t p f) s t p → settled s t p = false → heldBack (.bar t p f) s t p) := by
  intro md b
  refine releases_issueRelease rfl fun h => ?_
  rw [barTarget_noteIssue, hm]
  dsimp only
  rw [arrive_eq, barOf_congr (sync_noteIssue ..), setBar_eq]
  have hb : barOf (s.setSync (setBar (noteIssue s t p 0x36 0) md t (f.imm.toNat % 16) b).sync) md t (f.imm.toNat % 16) = b :=
    (barOf_congr rfl ..).trans (barOf_setBar_same ..)
  have hrun := waitsAtBarrier_barWait (f := f) h 0x36 (setBar (noteIssue s t p 0x36 0) md t (f.imm.toNat % 16) b).sync (m := m)
    (by rw [hb]; exact owed_arriveOf ..)
  rw [hb] at hrun
  exact hrun

/-- BARW by a member: a generation that has ended meanwhile returns its status, and else it waits (R121). -/
theorem answers_barw {m : Nat} (h : canIssue s t p = true) (hm : barTarget s t p f = some (f.imm.toNat % 16, some m)) :
    let md := f.flags.getLsbD 0
    let g := f.imm.toNat % 16
    let b := barOf s md t g
    (∀ st, kfind b.owed m = some st → answers (.barw t p f) s fun u =>
      wroteReg s (u.setSync s.sync) t p f.gd.toNat (BitVec.ofNat 64 st) ∧ barOf u md t g = { b with owed := kerase b.owed m }) ∧
    (kfind b.owed m = none → answers (.barw t p f) s fun u =>
      waitsAtBarrier s u t p f 0x35 (bitOf b.held m) ∧ barOf u md t g = b) := by
  intro md g b
  have hb : barOf (noteIssue s t p 0x35 0) md t g = b := barOf_congr (sync_noteIssue ..) ..
  refine ⟨fun st howed => ?_, fun howed => ?_⟩
  · refine answers_issue (i := .barw t p f) rfl h ?_
    rw [barTarget_noteIssue, hm]
    dsimp only [barWait]
    rw [hb, howed]
    dsimp only
    rw [setBar_eq]
    obtain ⟨hwrote, hsync⟩ := wroteReg_setSync h 0x35
      (setBar (noteIssue s t p 0x35 0) md t g { b with owed := kerase b.owed m }).sync f.gd.toNat (BitVec.ofNat 64 st)
    exact ⟨hwrote, by rw [barOf_congr hsync, barOf_setBar_same]⟩
  · refine answers_issue (i := .barw t p f) rfl h ?_
    rw [barTarget_noteIssue, hm]
    have hrun := waitsAtBarrier_barWait (f := f) h 0x35 s.sync (m := m) howed
    have hsync : (noteIssue s t p 0x35 0).setSync s.sync = noteIssue s t p 0x35 0 := by
      rw [← sync_noteIssue s t p 0x35 0, setSync_self]
    rw [hsync] at hrun
    exact hrun

/-- BARW by a participant outside the mask: PROG_ERR, and GD is 2 (R122). -/
theorem answers_barw_outside {g : Nat} (h : canIssue s t p = true) (hm : barTarget s t p f = some (g, none)) :
    answers (.barw t p f) s fun u => sticky u (ptPage t p) (progErrSource p) = true ∧ u.sync = s.sync ∧
      pcOf u t p = (pcOf s t p + 8) % 2 ^ 64 ∧ getG u t p f.gd.toNat = if f.gd.toNat = 0 then 0 else 2 := by
  refine answers_issue (i := .barw t p f) rfl h ?_
  rw [barTarget_noteIssue, hm]
  dsimp only
  set w := noteIssue s t p 0x35 0
  have hf := onlyFaults_progErr w t p
  obtain ⟨⟨cores, tccs, e⟩, -⟩ := setG_spec (progErr w t p) t p f.gd.toNat 2#64
  refine ⟨?_, ?_, ?_, ?_⟩
  · rw [sticky_noteEnd]
    change sticky (setG (progErr w t p) t p f.gd.toNat 2#64) _ _ = true
    rw [e]
    exact sticky_progErr w t p
  · rw [sync_noteEnd, sync_nextPc, sync_setG, hf.sync_eq, sync_noteIssue]
  · rw [pcOf_noteEnd, pcOf_nextPc, pcOf, pc_setG, ← pcOf, hf.pcOf_eq, pcOf_noteIssue]
  · rw [getG_noteEnd, getG_nextPc, getG_setG]
    by_cases hd : f.gd.toNat = 0
    · rw [hd, if_neg (by simp), if_pos rfl, getG_zero]; rfl
    · rw [if_pos ⟨rfl, hd⟩, if_neg hd]; rfl

end

/-- Settles O7: each instruction and register of the flags, then each of the barriers by the participant that it is of. -/
theorem flagsAndBarrierInstructions : Obligations.Flags_and_barrier_instructions := by
  refine ⟨fun t p f s => ?_, fun t p f s => ?_⟩
  · intro c k md n next legal puts sets
    have flagOps {i : Instr} {op : Nat} {v : Bool} (hi : exec i s = .next (flagOp i t p f op v s)) : sets i v := by
      have hrun : exec i s = .next (issueWhen s i t p op (settled s t p) fun s =>
          match flagNum f with
          | some n => nextPc (setFlag s (f.flags.getLsbD 0) t n v) t p
          | none => illegal s t p) := hi
      refine ⟨fun h hset => ⟨fun hlegal => answers_flagOp hi h hset hlegal, fun hillegal => ?_⟩, heldBack_issueWhen hrun⟩
      exact wasIllegal_issueWhen h hset hrun (by rw [flagNum_of_not_legal hillegal])
    refine ⟨flagOps rfl, flagOps rfl, fun h => ⟨answers_ftst h, answers_fwait h, fun hillegal => ⟨?_, ?_⟩⟩,
      fun md n v x hrun hwait hx => answers_fwaitRelease hrun hwait hx, fun n => ⟨?_, ?_⟩, fun n => ⟨?_, ?_⟩⟩
    · exact wasIllegal_issue (i := .ftst t p f) h rfl (by rw [flagNum_of_not_legal hillegal])
    · exact wasIllegal_issue (i := .fwait t p f) h rfl (by rw [flagNum_of_not_legal hillegal])
    · exact writesReg_setFlag (i := .tfSet t n) (pageInNoHalf_tileControl t) rfl
    · exact writesReg_setFlag (i := .tfClr t n) (pageInNoHalf_tileControl t) rfl
    · exact writesReg_setFlag pageInNoHalf_baseControl (exec_mfSet n t s)
    · exact writesReg_setFlag pageInNoHalf_baseControl (exec_mfClr n t s)
  · intro c k md g b next arrived waits releases
    have illegals (hm : ∀ m, barTarget s t p f ≠ some (g, some m)) :
        (releases (.bara t p f) fun u => wasIllegal s u t p) ∧ releases (.bar t p f) fun u => wasIllegal s u t p := by
      refine ⟨releases_issueRelease rfl fun _ => ?_, releases_issueRelease rfl fun _ => ?_⟩
      all_goals
        rw [barTarget_noteIssue]
        split
        next g' m hg => exact absurd hg (barTarget_group hg ▸ hm m)
        next => exact wasIllegal_noteEnd ..
    refine ⟨fun m hm => ⟨releases_bara hm, releases_bar hm, fun h => answers_barw h hm⟩, fun hm => ?_, fun hm => ?_⟩
    · obtain ⟨ha, hb⟩ := illegals fun m => by rw [hm]; simp
      exact ⟨ha, hb, fun h => answers_barw_outside h hm⟩
    · obtain ⟨ha, hb⟩ := illegals fun m => by rw [hm]; simp
      exact ⟨ha, hb, fun h => wasIllegal_issue (i := .barw t p f) h rfl (by rw [barTarget_noteIssue, hm])⟩

end Sys2Proof.Machine
end

section
/-!
How a barrier generation ends, and its mask (R121, R123, R124, R132, R133, R365): the statement Barrier_generations.
-/

namespace Sys2Proof.Machine

open Sys2Proof

/-! Waits that are granted (R121). -/

/-- Waits of barriers granted: the core of one that is released goes on, and nothing else changes but its registers and the waiters. -/
def grantsWaits (s u : State) : Prop :=
  (∃ l, u = { s with cores := u.cores, tccs := u.tccs, sync := { s.sync with waiters := l } }) ∧
  ∀ c, coreOf u c = coreOf s c ∨ (coreOf u c).run = .running

/-- A core that runs, or that waits in an instruction. -/
def runsOrWaits (s : State) (c : Nat) : Prop :=
  (coreOf s c).run = .running ∨ ((coreOf s c).run = .waiting ∧ (coreOf s c).wait.isSome = true)

section
variable {s u v : State}

theorem grantsWaits_refl (s : State) : grantsWaits s s := ⟨⟨s.sync.waiters, rfl⟩, fun _ => .inl rfl⟩

theorem grantsWaits_trans (h : grantsWaits s u) (h' : grantsWaits u v) : grantsWaits s v := by
  obtain ⟨⟨l, e⟩, hc⟩ := h
  obtain ⟨⟨l', e'⟩, hc'⟩ := h'
  refine ⟨⟨l', ?_⟩, fun c => ?_⟩
  · conv_lhs => rw [e', e]
  · obtain he | hr := hc' c
    · obtain h | h := hc c
      · exact .inl (he.trans h)
      · exact .inr (by rw [he, h])
    · exact .inr hr

theorem grantsWaits_ite {c : Prop} [Decidable c] (h : grantsWaits s u) (h' : grantsWaits s v) :
    grantsWaits s (if c then u else v) := by
  split <;> assumption

theorem grantsWaits.running (h : grantsWaits s u) {c : Nat} (hc : (coreOf s c).run = .running) : (coreOf u c).run = .running :=
  (h.2 c).elim (fun e => by rw [e, hc]) id

theorem grantsWaits.runsOrWaits (h : grantsWaits s u) {c : Nat} (hc : runsOrWaits s c) : runsOrWaits u c := by
  obtain e | hr := h.2 c
  · simpa only [Machine.runsOrWaits, e] using hc
  · exact .inl hr

theorem grantsWaits_setWaiters (s : State) (l : List Waiter) : grantsWaits s (s.setSync { s.sync with waiters := l }) :=
  ⟨⟨l, rfl⟩, fun _ => .inl rfl⟩

theorem coreId_div_mod (c : Nat) : coreId (c / 41) (c % 41) = c := by simp only [coreId]; omega

/-- A wait that is over: the core goes on. -/
theorem endWait_spec (s : State) (c : Nat) :
    grantsWaits s (endWait s (c / 41) (c % 41)) ∧ (coreOf (endWait s (c / 41) (c % 41)) c).run = .running := by
  have hrun : (coreOf (endWait s (c / 41) (c % 41)) c).run = .running := by
    rw [endWait, coreId_div_mod, coreOf_setCore, if_pos rfl]
  refine ⟨⟨⟨s.sync.waiters, rfl⟩, fun c' => ?_⟩, hrun⟩
  by_cases hc : c' = c
  · exact .inr (hc ▸ hrun)
  · exact .inl (by rw [endWait, coreId_div_mod, coreOf_setCore, if_neg hc])

theorem eq_of_setCores_setTccs {s s' u : State} {cores : KMap Core} {tccs : KMap Tcc} {l : List Waiter}
    (h : s' = (s.setCores cores).setTccs tccs)
    (hu : u = { s' with cores := u.cores, tccs := u.tccs, sync := { s'.sync with waiters := l } }) :
    u = { s with cores := u.cores, tccs := u.tccs, sync := { s.sync with waiters := l } } := by
  conv_lhs => rw [hu, h]
  rfl

/-- A register written before a wait ends. -/
theorem endWait_setG_spec (s : State) (c d : Nat) (x : Word64) :
    let u := endWait (setG s (c / 41) (c % 41) d x) (c / 41) (c % 41)
    grantsWaits s u ∧ (coreOf u c).run = .running := by
  intro u
  obtain ⟨⟨⟨l, e⟩, hc⟩, hrun⟩ := endWait_spec (setG s (c / 41) (c % 41) d x) c
  obtain ⟨⟨cores, tccs, e'⟩, hother, -⟩ := setG_spec s (c / 41) (c % 41) d x
  refine ⟨⟨⟨l, eq_of_setCores_setTccs e' e⟩, fun c' => ?_⟩, hrun⟩
  · by_cases hcc : c' = c
    · exact .inr (hcc ▸ hrun)
    · exact (hc c').imp_left fun h => h.trans (hother c' (by rwa [coreId_div_mod]))

theorem finishWait_spec (s : State) (c status : Nat) :
    grantsWaits s (finishWait s c status) ∧ ((coreOf s c).wait.isSome = true → (coreOf (finishWait s c status) c).run = .running) := by
  have hdrop : grantsWaits s (dropWaiter s c) := grantsWaits_setWaiters ..
  unfold finishWait
  dsimp only
  split
  next rd _ =>
    obtain ⟨hg, hrun⟩ := endWait_setG_spec (dropWaiter s c) c rd (BitVec.ofNat 64 status)
    exact ⟨grantsWaits_trans hdrop hg, fun _ => hrun⟩
  next =>
    obtain ⟨hg, hrun⟩ := endWait_spec (dropWaiter s c) c
    exact ⟨grantsWaits_trans hdrop hg, fun _ => hrun⟩
  next hnone => exact ⟨hdrop, fun h => by rw [hnone] at h; cases h⟩

theorem grantsWaits_grantBarrier (s : State) (w : Waiter) (status : Nat) : grantsWaits s (grantBarrier s w status) := by
  unfold grantBarrier
  split
  · exact (finishWait_spec ..).1
  · exact grantsWaits_setWaiters ..

/-- A core that waits runs on when its wait is granted, and one that runs goes on (R121). -/
theorem running_grantBarrier {w : Waiter} (h : runsOrWaits s w.core) (hsaved : w.saved = false) (status : Nat) :
    (coreOf (grantBarrier s w status) w.core).run = .running := by
  obtain hrun | ⟨hrun, hwait⟩ := h
  · exact (grantsWaits_grantBarrier ..).running hrun
  · unfold grantBarrier
    rw [if_pos (by simp [hrun, hsaved])]
    exact (finishWait_spec ..).2 hwait

theorem grantsWaits_foldList {f : Waiter → State → State} (hf : ∀ w u, grantsWaits u (f w u)) (l : List Waiter) (s : State) :
    grantsWaits s (foldList f l s) :=
  foldList_induction (P := fun u => grantsWaits s u) (fun w u hu => grantsWaits_trans hu (hf w u)) l (grantsWaits_refl s)

/-- Every core whose wait is in a list of granted ones runs on. -/
theorem running_grantAll {x : Waiter} (hsaved : x.saved = false) (status : Nat) (l : List Waiter) (s : State) (hx : x ∈ l)
    (h : runsOrWaits s x.core) : (coreOf (foldList (fun w st => grantBarrier st w status) l s) x.core).run = .running := by
  induction l generalizing s with
  | nil => cases hx
  | cons w l ih =>
    obtain rfl | hx := List.mem_cons.1 hx
    · exact (grantsWaits_foldList (fun _ _ => grantsWaits_grantBarrier ..) l _).running (running_grantBarrier h hsaved status)
    · exact ih _ hx ((grantsWaits_grantBarrier ..).runsOrWaits h)

end

/-! The end of a generation (R121, R123, R124). -/

/-- A barrier group whose generation has ended. -/
def BarGroup.endedOf (b b' : BarGroup) : Prop :=
  b'.gen = (b.gen + 1) % 2 ^ 16 ∧ b'.members = b.pend.getD b.members ∧ b'.arrived = b.held &&& b.pend.getD b.members ∧
  b'.held = 0 ∧ b'.pend = none

/-- Every participant that waits for the current generation of a group runs on. -/
def runOn (w u : State) (md : Bool) (t g : Nat) : Prop :=
  ∀ x ∈ w.sync.waiters, x.waitsFor md t g false = true → x.saved = false → (coreOf w x.core).run = .waiting →
    (∃ w', (coreOf w x.core).wait = some w') → (coreOf u x.core).run = .running

theorem endGeneration_spec (s : State) (md : Bool) (t g status : Nat) :
    let u := endGeneration s md t g status
    (barOf s md t g).endedOf (barOf u md t g) ∧ u.mem = s.mem ∧ u.regs = s.regs ∧ u.sync.cb = s.sync.cb ∧ runOn s u md t g := by
  intro u
  simp only [u, endGeneration]
  generalize List.foldl _ _ _ = owed
  generalize hb : ({ members := _, arrived := _, held := _, gen := _, pend := _, owed := owed } : BarGroup) = b'
  generalize List.map _ (setBar s md t g b').sync.waiters = ws
  set w := (setBar s md t g b').setSync { (setBar s md t g b').sync with waiters := ws } with hw
  set cur := s.sync.waiters.filter fun w => w.waitsFor md t g false
  set v := foldList (fun w st => grantBarrier st w status) cur w
  have hcur : grantsWaits w v := grantsWaits_foldList (fun _ _ => grantsWaits_grantBarrier ..) ..
  have hall := grantsWaits_foldList (f := fun w st =>
    if bitOf ((barOf s md t g).held &&& (barOf s md t g).pend.getD (barOf s md t g).members)
      (if md = true then w.core / 41 else w.core % 41) = true then st else grantBarrier st w 2)
    (fun w u => grantsWaits_ite (grantsWaits_refl u) (grantsWaits_grantBarrier ..))
    (s.sync.waiters.filter fun w => w.waitsFor md t g true) v
  obtain ⟨⟨l, e⟩, -⟩ := grantsWaits_trans hcur hall
  have hwcore (c : Nat) : coreOf w c = coreOf s c := by cases md <;> rfl
  refine ⟨?_, ?_, ?_, ?_, fun x hx hfor hsaved hrun hwait => ?_⟩
  · rw [e]
    have hbar : barOf { w with sync := { w.sync with waiters := l } } md t g = b' := by
      cases md <;> simp [barOf, hw, setBar]
    refine Eq.subst (motive := fun x => BarGroup.endedOf _ x) hbar.symm ?_
    rw [← hb]
    exact ⟨rfl, rfl, rfl, rfl, rfl⟩
  · rw [e]; cases md <;> rfl
  · rw [e]; cases md <;> rfl
  · rw [e]; cases md <;> rfl
  · obtain ⟨w', hw'⟩ := hwait
    refine hall.running (running_grantAll hsaved status cur w (List.mem_filter.2 ⟨hx, hfor⟩) (.inr ?_))
    rw [hwcore, hrun, hw']
    exact ⟨rfl, rfl⟩

/-- A held write of the chain barrier's configuration, applied as the local generation ends (R365). -/
def applyHeldConfig (s : State) (g : Nat) : State :=
  match (cbOf s (g - 4)).pend with
  | some v => pset s (basePage 0 0) (0x460 + 4 * (g - 4)) v
  | none => s

theorem endModuleGen_eq (s : State) (g status : Nat) : endModuleGen s g status =
    if g < 4 then endGeneration s true 0 g status
    else setCb (applyHeldConfig (endGeneration s true 0 g status) g) (g - 4) .reset := rfl

/-- What ending a generation of a group leaves, and what it applies (R121, R123, R365). -/
def genEnded (w u : State) (md : Bool) (t g : Nat) : Prop :=
  (barOf w md t g).endedOf (barOf u md t g) ∧ u.mem = w.mem ∧
  (∀ v, md = true → 4 ≤ g → (cbOf w (g - 4)).pend = some v →
    pget u (basePage 0 0) (0x460 + 4 * (g - 4)) = v % 2 ^ 32 ∧ (cbOf u (g - 4)).pend = none) ∧
  (md = false ∨ g < 4 ∨ (cbOf w (g - 4)).pend = none → u.regs = w.regs) ∧ runOn w u md t g

theorem genEnded_tile (s : State) (t g status : Nat) : genEnded s (endGeneration s false t g status) false t g := by
  obtain ⟨hbar, hmem, hregs, -, hrun⟩ := endGeneration_spec s false t g status
  exact ⟨hbar, hmem, fun _ h => absurd h (by decide), fun _ => hregs, hrun⟩

theorem genEnded_module (s : State) {g : Nat} (hg : g < 8) (status : Nat) : genEnded s (endModuleGen s g status) true 0 g := by
  obtain ⟨hbar, hmem, hregs, hcb, hrun⟩ := endGeneration_spec s true 0 g status
  have hcbOf : cbOf (endGeneration s true 0 g status) (g - 4) = cbOf s (g - 4) := by rw [cbOf, hcb]; rfl
  rw [endModuleGen_eq]
  generalize endGeneration s true 0 g status = u at *
  split
  next hlow => exact ⟨hbar, hmem, fun _ _ h => absurd h (by omega), fun _ => hregs, hrun⟩
  next hhigh =>
    have hreset : (cbOf (setCb (applyHeldConfig u g) (g - 4) .reset) (g - 4)).pend = none := by
      simp only [cbOf, setCb, setSync_sync, kget_kput, if_true]
      rfl
    have happly : applyHeldConfig u g = u ∨ ∃ v, applyHeldConfig u g = pset u (basePage 0 0) (0x460 + 4 * (g - 4)) v := by
      unfold applyHeldConfig
      split
      · exact .inr ⟨_, rfl⟩
      · exact .inl rfl
    refine ⟨?_, ?_, fun v _ _ hv => ⟨?_, hreset⟩, fun h => ?_, ?_⟩
    · obtain e | ⟨v, e⟩ := happly <;> rw [e] <;> exact hbar
    · obtain e | ⟨v, e⟩ := happly <;> rw [e] <;> exact hmem
    · change pget (applyHeldConfig u g) _ _ = _
      rw [applyHeldConfig, hcbOf, hv]
      dsimp only
      rw [pget_pset _ _ _ _ _ _ (by omega) (by omega), if_pos ⟨rfl, rfl⟩]
    · have hnone : (cbOf s (g - 4)).pend = none := by simpa [hhigh] using h
      change (applyHeldConfig u g).regs = s.regs
      rw [applyHeldConfig, hcbOf, hnone]
      exact hregs
    · obtain e | ⟨v, e⟩ := happly <;> rw [e] <;> exact hrun

/-- A barrier of the module is of no tile. -/
theorem genEnded_anyTile {w u : State} {g : Nat} (t : Nat) (h : genEnded w u true 0 g) : genEnded w u true t g := by
  have hfor (x : Waiter) : x.waitsFor true t g false = x.waitsFor true 0 g false := by simp [Waiter.waitsFor]
  simp only [genEnded, runOn, hfor] at h ⊢
  exact h

/-! Masks (R124). -/

theorem writeMembers_spec (s : State) (md : Bool) (t g new : Nat) :
    let u := writeMembers s md t g new
    let b := barOf s md t g
    u = s.setSync u.sync ∧ barOf u md t g = if b.arrived = 0 then { b with members := new } else { b with pend := some new } := by
  intro u b
  simp only [u, writeMembers]
  split
  next h => exact ⟨setBar_eq .., by rw [barOf_setBar_same]⟩
  next h => exact ⟨setBar_eq .., by rw [barOf_setBar_same]⟩

/-- A mask of 41 participants with one half written (R132). -/
def maskWith (b : BarGroup) (high : Bool) (v : BitVec 32) : Nat :=
  let old := b.pend.getD b.members
  if high then old % 2 ^ 32 + v.toNat % 2 ^ 9 * 2 ^ 32 else old / 2 ^ 32 * 2 ^ 32 + v.toNat

theorem exec_tbMembersWrite (t : Fin 12) (g : Fin 16) (high : Bool) (v : BitVec 32) (s : State) :
    exec (.tbMembersWrite t g high v) s = .next (blockWrite (wakeFor s 1) (tilePage t 0) fun u =>
      writeMembers u false t g (maskWith (barOf (wakeFor s 1) false t g) high v)) := rfl

/-- A generation of which every member has arrived ends (R121). -/
theorem completeBar_spec {s : State} {md : Bool} (t g : Nat) (hmd : md = true → g < 8 ∧ boundTo s g = none)
    (hall : allArrived (barOf s md t g) = true) : genEnded s (completeBar s md t g) md t g := by
  unfold completeBar
  rw [hall]
  cases md with
  | false => exact genEnded_tile ..
  | true =>
    obtain ⟨hg, hbound⟩ := hmd rfl
    rw [if_pos rfl, hbound]
    exact genEnded_anyTile t (genEnded_module s hg 0)

/-- Settles O8: a generation that completes, one that is aborted, and the masks. -/
theorem barrierGenerations : Obligations.Barrier_generations := by
  intro md t g s hmd ended
  have hout : (md && decide (8 ≤ g.val)) = false := by
    cases md with
    | false => rfl
    | true => simpa using (hmd rfl).1
  have hexec : exec (.barrierComplete md t g) s = .next (completeBar s md t g) := by
    change Host.Outcome.next (if _ then _ else _) = _
    rw [hout]
    rfl
  refine ⟨fun hall => ⟨_, hexec, completeBar_spec t g hmd hall⟩, fun hall => ?_, ?_, ?_, ?_, ?_⟩
  · rw [idles, hexec, completeBar, hall]
    rfl
  · rintro rfl
    exact writesReg_of_pageInNoHalf (i := .tbAbort t g) (pageInNoHalf_tileControl t) rfl (genEnded_tile ..)
  · rintro hg rfl hbound
    refine writesReg_of_pageInNoHalf (i := .mbAbort ⟨g.val, hg⟩) pageInNoHalf_baseControl rfl ?_
    rw [abortModuleBar, hbound]
    exact genEnded_anyTile t (genEnded_module _ hg 1)
  · rintro high v rfl
    exact writesReg_of_pageInNoHalf (pageInNoHalf_tileControl t) (exec_tbMembersWrite ..) (writeMembers_spec ..)
  · rintro hg v rfl
    exact writesReg_of_pageInNoHalf (i := .mbMembersWrite ⟨g.val, hg⟩ v) pageInNoHalf_baseControl rfl (writeMembers_spec ..)

end Sys2Proof.Machine
end

section
/-!
SUPPORT. What a read of the fabric depends on (R20, R25, R99, R268, R289, R313): memory, the storage units, the clock, whether Quench
holds the halves, and the registers that raising a source leaves. Two states that agree on these give the same bytes.
-/

namespace Sys2Proof.Machine

open Sys2Proof

/-- Two states agree on everything that a read depends on. -/
structure sameData (s u : State) : Prop where
  mem : u.mem = s.mem
  store : u.store = s.store
  clock : u.clock = s.clock
  quench : u.quench = s.quench
  regs : ∀ o, o % 0x1000 ∉ faultOffs → regGet u o = regGet s o

/-- Two results of an operation: the same answer, and states that agree. -/
def sameResult {α : Type} (x y : α × State) : Prop := y.1 = x.1 ∧ sameData x.2 y.2

section
variable {s u v w : State}


theorem sameData.trans (h : sameData s u) (h' : sameData u v) : sameData s v :=
  ⟨h'.mem.trans h.mem, h'.store.trans h.store, h'.clock.trans h.clock, h'.quench.trans h.quench,
    fun o ho => (h'.regs o ho).trans (h.regs o ho)⟩

theorem sameData.symm (h : sameData s u) : sameData u s :=
  ⟨h.mem.symm, h.store.symm, h.clock.symm, h.quench.symm, fun o ho => (h.regs o ho).symm⟩

/-- Steps from two states that agree, each of which changes nothing that a read depends on. -/
theorem sameData.steps (h : sameData s u) (hs : sameData s v) (hu : sameData u w) : sameData v w := hs.symm.trans (h.trans hu)

theorem sameData_ite {c : Prop} [Decidable c] {s' u' : State} (h : sameData s u) (h' : sameData s' u') :
    sameData (if c then s else s') (if c then u else u') := by
  split <;> assumption

theorem sameResult_ite {α : Type} {c : Prop} [Decidable c] {x y x' y' : α × State} (h : sameResult x y) (h' : sameResult x' y') :
    sameResult (if c then x else x') (if c then y else y') := by
  split <;> assumption

/-- The two results taken apart. -/
theorem sameResult.split {α : Type} {x y : α × State} (h : sameResult x y) :
    ∃ a s' u', x = (a, s') ∧ y = (a, u') ∧ sameData s' u' :=
  ⟨x.1, x.2, y.2, rfl, Prod.ext h.1 rfl, h.2⟩

theorem sameData_foldList {α : Type} {f : α → State → State} (hf : ∀ a s u, sameData s u → sameData (f a s) (f a u)) (l : List α)
    (h : sameData s u) : sameData (foldList f l s) (foldList f l u) := by
  induction l generalizing s u with
  | nil => exact h
  | cons a l ih => exact ih (hf a s u h)

/-! Steps that a read does not see. -/

theorem sameData_count (s : State) (page o n : Nat) : sameData s (count s page o n) := by
  obtain ⟨k, e, -⟩ := count_spec s page o n
  rw [e]
  exact ⟨rfl, rfl, rfl, rfl, fun _ _ => rfl⟩

theorem sameData_of_counters (h : ∃ k, u = s.setRegs { s.regs with counters := k }) : sameData s u := by
  obtain ⟨k, rfl⟩ := h
  exact ⟨rfl, rfl, rfl, rfl, fun _ _ => rfl⟩

theorem sameData_of_onlyFaults (h : onlyFaults s u) (hr : leavesPlain s u) : sameData s u :=
  ⟨h.mem_eq, h.store_eq, h.clock_eq, by rw [h.1], hr.1⟩

theorem sameData_raiseTag (s : State) (page src tag : Nat) : sameData s (raiseTag s page src tag) :=
  sameData_of_onlyFaults (raiseTag_spec ..).1 (leavesPlain_raiseWith ..)

theorem sameData_raise (s : State) (page src : Nat) : sameData s (raise s page src) :=
  sameData_of_onlyFaults (onlyFaults_raise ..) (leavesPlain_raise ..)

theorem sameData_setFree (s : State) (n : Nat) : sameData s (s.setFree n) := ⟨rfl, rfl, rfl, rfl, fun _ _ => rfl⟩

end

/-! Steps that a read sees. -/

section
variable {s u : State} (h : sameData s u)
include h

theorem sameData.setStore (x : Storage) : sameData (s.setStore x) (u.setStore x) :=
  ⟨h.mem, rfl, h.clock, h.quench, h.regs⟩

theorem sameData.setMem (m : Memory) : sameData (s.setMem m) (u.setMem m) := ⟨rfl, h.store, h.clock, h.quench, h.regs⟩

theorem sameData.pset (p o v : Nat) : sameData (pset s p o v) (pset u p o v) := by
  refine ⟨h.mem, h.store, h.clock, h.quench, fun o' ho' => ?_⟩
  rw [Machine.pset, Machine.pset, regGet_regSet, regGet_regSet, h.regs o' ho']

theorem sameData.setCurop (page : Nat) (ws : List Nat) : sameData (setCurop s page ws) (setCurop u page ws) := by
  unfold Machine.setCurop
  split
  · exact sameData_foldList (fun x _ _ h => h.pset page x.1 x.2) _ h
  · exact h

theorem sameData.count (page o n : Nat) : sameData (count s page o n) (count u page o n) :=
  h.steps (sameData_count ..) (sameData_count ..)

/-- A source raised with a tag of its own in each state. -/
theorem sameData.raiseTag (page src tag tag' : Nat) : sameData (raiseTag s page src tag) (raiseTag u page src tag') :=
  h.steps (sameData_raiseTag ..) (sameData_raiseTag ..)

theorem sameData.raiseOp (page src : Nat) (ws : List Nat) : sameData (raiseOp s page src ws) (raiseOp u page src ws) :=
  ((h.setCurop page ws).raiseTag ..).setCurop ..

theorem sameData.pget_eq (p : Nat) {o : Nat} (hlt : o < 0x1000) (ho : o ∉ faultOffs) : pget u p o = pget s p o :=
  h.regs _ (by rwa [show regOff p o % 0x1000 = o by rw [regOff]; omega])

/-! Halves (R315 to R318). -/

theorem sameData.halfState_eq (t k : Nat) : halfState u t k = halfState s t k := by
  simp only [halfState, h.pget_eq _ (o := 0x084) (by decide) (by decide)]

theorem sameData.halfGated_eq (t k : Nat) : halfGated u t k = halfGated s t k := by
  simp only [halfGated, tileGating, h.pget_eq _ (o := 0x084) (by decide) (by decide),
    h.pget_eq _ (o := 0x01C) (by decide) (by decide)]

theorem sameData.tileUp_eq (t : Nat) : tileUp u t = tileUp s t := by
  unfold tileUp tileSvc baseUp
  rw [h.store, h.pget_eq _ (o := 0x780) (by decide) (by decide)]

theorem sameData.touchHalf (t k : Nat) : sameData (touchHalf s t k) (touchHalf u t k) := by
  unfold Machine.touchHalf
  rw [h.store, h.clock]
  exact h.setStore _

theorem sameData.setHalf (t k c : Nat) : sameData (setHalf s t k c) (setHalf u t k c) := by
  unfold Machine.setHalf
  rw [h.pget_eq _ (by decide) (by decide)]
  exact h.pset ..

theorem sameData.latchWake (t k : Nat) : sameData (latchWake s t k) (latchWake u t k) := by
  have hset (w : Storage) (v v' : State) (hv : sameData v v') : sameData
      (if halfState v t k = 1 then Machine.setHalf v t k 3 else v) (if halfState v' t k = 1 then Machine.setHalf v' t k 3 else v') := by
    rw [hv.halfState_eq]
    exact sameData_ite (hv.setHalf ..) hv
  unfold Machine.latchWake
  rw [h.store, h.clock]
  exact hset s.store _ _ (sameData_ite h (h.setStore _))

theorem sameData.slowRequests (t k : Nat) : sameData (slowRequests s t k) (slowRequests u t k) := by
  have hfold (l : List SeamReq) (late : SeamReq → Bool) : sameData
      (foldList (fun r st => if late r && !r.slow then Machine.raiseTag st (tilePage t 84) 2 r.tag else st) l s)
      (foldList (fun r st => if late r && !r.slow then Machine.raiseTag st (tilePage t 84) 2 r.tag else st) l u) :=
    sameData_foldList (fun r _ _ h => sameData_ite (c := (late r && !r.slow) = true) (h.raiseTag (tilePage t 84) 2 r.tag r.tag) h) l h
  unfold Machine.slowRequests
  dsimp only
  rw [h.store, h.clock]
  have hf := hfold (kget [] s.store.seam (t * 2 + k)) fun r => decide (r.since + 8000 < s.clock.now)
  rw [hf.store]
  exact hf.setStore _

theorem sameData.slowWake (t k : Nat) : sameData (slowWake s t k) (slowWake u t k) := by
  unfold Machine.slowWake
  rw [h.store, h.clock]
  split
  · exact sameData_ite (h.steps (sameData_raise ..) (sameData_raise ..)) h
  · exact h

theorem sameData.awaken (t k : Nat) : sameData (awaken s t k) (awaken u t k) := by
  have hslow := (((h.setHalf t k 0).touchHalf t k).slowRequests t k).slowWake t k
  unfold Machine.awaken
  dsimp only
  generalize Machine.slowWake _ t k = v at *
  generalize Machine.slowWake _ t k = w at *
  rw [hslow.store]
  have hend := (hslow.setStore { v.store with
    wakeSince := kerase v.store.wakeSince (t * 2 + k), seam := kerase v.store.seam (t * 2 + k) }).count (tilePage t 84) (0x800 + 8 * k) 1
  split
  · exact hend.steps (sameData_count ..) (sameData_count ..)
  · exact hend

theorem sameData.wakeHalf (t k : Nat) : sameData (wakeHalf s t k) (wakeHalf u t k) := by
  unfold Machine.wakeHalf
  dsimp only
  rw [h.halfState_eq, h.halfGated_eq, h.quench]
  exact sameData_ite (h.touchHalf ..) (sameData_ite h (sameData_ite (h.latchWake ..) ((h.latchWake ..).awaken ..)))

theorem sameResult_reachHalf (t k tag : Nat) : sameResult (reachHalf s t k tag) (reachHalf u t k tag) := by
  unfold reachHalf
  rw [h.tileUp_eq, h.halfGated_eq]
  exact sameResult_ite ⟨rfl, h⟩ (sameResult_ite ⟨rfl, h.raiseTag ..⟩ ⟨rfl, h.wakeHalf ..⟩)

/-! Paths (R313, R322). -/

theorem sameData.pathUp_eq (l : List Bool) (a : Nat) : pathUp u a l = pathUp s a l := by
  induction l generalizing a with
  | nil => rfl
  | cons ew l ih => rw [pathUp, pathUp, ih, h.pget_eq _ (by decide) (by decide)]

theorem sameData.route_eq (a b : Nat) : route u a b = route s a b := by simp only [route, h.pathUp_eq]

theorem sameResult_travel (x y : Loc) (n : Nat) : sameResult (travel s x y n) (travel u x y n) := by
  refine ⟨?_, h.steps (sameData_of_counters (travel_spec ..)) (sameData_of_counters (travel_spec ..))⟩
  unfold travel
  rw [h.route_eq]
  split
  · split
    · rfl
    · split <;> rfl
  all_goals split <;> rfl

theorem sameResult_carry (q : Req) (y : Loc) (n : Nat) : sameResult (carry s q y n) (carry u q y n) := by
  obtain ⟨there, s', u', es, eu, h'⟩ := (sameResult_travel h (leafLoc q.who) y n).split
  have hback := (sameResult_travel h' y (leafLoc q.who) n).2
  unfold carry
  dsimp only
  rw [es, eu]
  dsimp only
  split
  · exact ⟨rfl, h'⟩
  · rw [hback.store]
    split
    · exact ⟨rfl, hback.setStore _⟩
    · exact ⟨rfl, hback⟩

theorem sameResult_sliceReach (q : Req) (t n : Nat) : sameResult (sliceReach s q t n) (sliceReach u q t n) := by
  obtain ⟨up, s', u', es, eu, h'⟩ := (sameResult_reachHalf h t (sliceHalf n) q.tag).split
  unfold sliceReach
  rw [es, eu]
  exact sameResult_ite ⟨rfl, h'⟩ (sameResult_carry h' ..)

/-! LPDDR5X (R285 to R289). -/

theorem sameData.chState_eq (p c : Nat) : chState u p c = chState s p c := by
  simp only [chState, h.pget_eq _ (o := 0x080) (by decide) (by decide)]

theorem sameData.regionChan_eq (a q : Nat) : regionChan u a q = regionChan s a q := by
  simp only [regionChan, regionChans, h.chState_eq]

theorem sameData.regionTop_eq (a : Nat) : regionTop u a = regionTop s a := by
  simp only [regionTop, regionChans, h.chState_eq]

theorem sameData.baseUp_eq (a : Nat) : baseUp u a = baseUp s a := by
  unfold baseUp
  rw [h.store]

theorem sameData.regionFenced_eq (a : Nat) : regionFenced u a = regionFenced s a := by
  unfold regionFenced
  simp only [h.baseUp_eq, h.chState_eq]

theorem sameData.lpOf_eq (p : Nat) : lpOf u p = lpOf s p := by
  unfold lpOf
  rw [h.store]

theorem sameData.setLp (p : Nat) (x : LpSt) : sameData (setLp s p x) (setLp u p x) := by
  unfold Machine.setLp
  rw [h.store]
  exact h.setStore _

end

/-- A controller after lines were transferred on a channel. -/
def LpSt.moved (l : LpSt) (c now lo hi : Nat) (write : Bool) : LpSt :=
  let k := kget LpChan.reset l.chans c
  let k' := { k with writing := write, down := false, lastReq := now, cache := useChecks k.cache lo hi write }
  { l with chans := kput .reset l.chans c k' }

/-- What a transfer on a channel changes that a read sees: its controller. -/
theorem lpMoved_spec (s : State) (ch n lo hi : Nat) (write : Bool) :
    ∃ w, sameData s w ∧ lpMoved s ch n lo hi write = setLp w (ch / 4) ((lpOf s (ch / 4)).moved (ch % 4) s.clock.now lo hi write) := by
  unfold lpMoved drawWord
  dsimp only
  set s₁ := count (s.setFree (s.free + 1)) (lpPage (ch / 4)) (lpCnt (ch % 4) 1) (8 * n)
  have h₁ : sameData s s₁ := (sameData_setFree ..).trans (sameData_count ..)
  have h₂ (c : Prop) [Decidable c] (k : Nat) : sameData s (if c then s₁ else count s₁ (lpPage (ch / 4)) (lpCnt (ch % 4) 2) k) := by
    split
    · exact h₁
    · exact h₁.trans (sameData_count ..)
  have h₃ := (h₂ ((kget LpChan.reset (lpOf s (ch / 4)).chans (ch % 4)).writing = write) (if write then 8 else 16)).trans
    (sameData_count _ (lpPage (ch / 4)) (lpCnt (ch % 4) 3) (32 * ((Config.freeWord s.free).toNat % (n + 1))))
  refine ⟨_, h₃, ?_⟩
  rw [h₃.clock]
  rfl

section
variable {s u : State} (h : sameData s u)
include h

theorem sameData.lpMoved (ch n lo hi : Nat) (write : Bool) : sameData (lpMoved s ch n lo hi write) (lpMoved u ch n lo hi write) := by
  obtain ⟨v, hv, es⟩ := lpMoved_spec s ch n lo hi write
  obtain ⟨w, hw, eu⟩ := lpMoved_spec u ch n lo hi write
  rw [es, eu, h.lpOf_eq, h.clock]
  exact (h.steps hv hw).setLp ..

theorem sameData.lpCharge (ch cda : Nat) (write : Bool) : sameData (lpCharge s ch cda write) (lpCharge u ch cda write) :=
  h.lpMoved ..

theorem sameData.lpUncCount (ch op cda tag : Nat) : sameData (lpUncCount s ch op cda tag) (lpUncCount u ch op cda tag) := by
  unfold Machine.lpUncCount
  dsimp only
  rw [h.pget_eq _ (o := 0x090) (by decide) (by decide)]
  have hset := h.pset (lpPage (ch / 4)) 0x090 (setFld (pget s (lpPage (ch / 4)) 0x090) (8 * (ch % 4) + 7) (8 * (ch % 4))
    (min 255 (fld (pget s (lpPage (ch / 4)) 0x090) (8 * (ch % 4) + 7) (8 * (ch % 4)) + 1)))
  rw [hset.pget_eq _ (o := 0x08C) (by decide) (by decide)]
  exact sameData_ite (hset.raiseOp ..) hset

theorem sameData.lpLineLost (op tag ch cda : Nat) : sameData (lpLineLost s op tag ch cda) (lpLineLost u op tag ch cda) :=
  (h.raiseOp ..).lpUncCount ..

theorem sameData.lpCheckPar (op tag da ch cda : Nat) (par : Bool) :
    sameData (lpCheckPar s op tag da ch cda par) (lpCheckPar u op tag da ch cda par) := by
  unfold Machine.lpCheckPar
  rw [h.mem]
  exact sameData_ite ((h.setMem _).raiseOp ..) h

theorem sameResult_lpCheckedLine (op tag a q : Nat) (r : LpRead) :
    sameResult (lpCheckedLine s op tag a q r) (lpCheckedLine u op tag a q r) := by
  unfold lpCheckedLine
  dsimp only
  rw [h.regionChan_eq]
  generalize regionChan s a q = x
  have hpar := (h.lpCharge x.1 x.2 false).lpCheckPar op tag (regionBase a + q / 128 * 128) x.1 x.2 r.par
  have hecc := sameData_ite (c := r.lecc = 0#8) hpar (hpar.count (lpPage (x.1 / 4)) (lpCnt (x.1 % 4) 6) r.lecc.toNat)
  generalize (if r.lecc = 0#8 then _ else _) = v at *
  generalize (if r.lecc = 0#8 then _ else _) = w at *
  have hagain := hecc.lpCharge x.1 x.2 false
  rw [hecc.mem, hagain.mem]
  exact sameResult_ite ⟨rfl, hecc⟩ (sameResult_ite ⟨rfl, (hagain.count ..).raiseOp ..⟩ ⟨rfl, hagain.lpLineLost ..⟩)

theorem sameData.putLine (da : Nat) (data : List Byte) (good : Bool) : sameData (putLine s da data good) (putLine u da data good) := by
  unfold Machine.putLine
  rw [h.mem]
  exact h.setMem _

theorem sameData.lpMerge (p : Nat) (e : GEntry) (par : Bool) : sameData (lpMerge s p e par) (lpMerge u p e par) := by
  unfold Machine.lpMerge
  dsimp only
  rw [h.lpOf_eq]
  have hset := h.setLp p { lpOf s p with gb := (lpOf s p).gb.filter fun x => x.line != e.line }
  rw [hset.regionChan_eq, hset.mem]
  generalize Machine.setLp s p _ = v at *
  generalize Machine.setLp u p _ = w at *
  generalize regionChan v _ _ = x
  have hread := hset.lpCharge x.1 x.2 false
  have hbad := sameData_ite (c := v.mem.lineGood (e.line * 128) = true) hread ((hread.lpCharge x.1 x.2 false).lpUncCount x.1 3 x.2 e.tag)
  generalize (if v.mem.lineGood (e.line * 128) = true then _ else _) = v₂ at *
  generalize (if v.mem.lineGood (e.line * 128) = true then _ else _) = w₂ at *
  have hcnt := (hbad.lpCharge x.1 x.2 true).count (lpPage p) (lpCnt (x.1 % 4) 5) 1
  unfold readBytes
  rw [hcnt.mem]
  have hput := hcnt.putLine (e.line * 128) (mergeBytes ((Machine.count (Machine.lpCharge v₂ x.1 x.2 true) (lpPage p)
    (lpCnt (x.1 % 4) 5) 1).mem.readBytes (e.line * 128) 128) e.bytes) (v.mem.lineGood (e.line * 128) && !par)
  have hpar := sameData_ite (c := par = true) (hput.raiseOp (lpPage p) 3 (lpOp x.1 3 x.2 e.tag)) hput
  exact sameData_ite hpar (hpar.raiseOp ..)

theorem sameData.lpFlush (p line : Nat) : sameData (lpFlush s p line) (lpFlush u p line) := by
  unfold Machine.lpFlush
  rw [h.lpOf_eq]
  split
  · exact h.lpMerge ..
  · exact h

theorem sameResult_lpReadLine (op tag a q : Nat) (r : LpRead) :
    sameResult (lpReadLine s op tag a q r) (lpReadLine u op tag a q r) := by
  unfold lpReadLine
  rw [h.regionChan_eq]
  exact sameResult_lpCheckedLine (h.lpFlush ..) ..

/-! Bonded memory (R259 to R268). -/

theorem sameData.rlog_eq (t n : Nat) {i : Nat} (hi : i < 16) : rlog u t n i = rlog s t n i :=
  h.pget_eq _ (by omega) (by simp only [faultOffs, List.mem_cons, List.not_mem_nil, or_false]; omega)

theorem sameData.rowLogEntry_eq (t n o : Nat) : rowLogEntry u (scPage t n) o = rowLogEntry s (scPage t n) o := by
  unfold rowLogEntry
  refine List.find?_congr fun i hi => ?_
  have hword := h.rlog_eq t n (List.mem_range.1 hi)
  unfold rlog at hword
  dsimp only
  rw [hword]

theorem sameData.rowLog (t n o op kind tag : Nat) : sameData (rowLog s t n o op kind tag) (rowLog u t n o op kind tag) := by
  have hfree : ((List.range 16).find? fun i => !bitOf (rlog u t n i) 0) = (List.range 16).find? fun i => !bitOf (rlog s t n i) 0 :=
    List.find?_congr fun i hi => by rw [h.rlog_eq t n (List.mem_range.1 hi)]
  have hlt (i : Nat) (hi : (rowLogEntry s (scPage t n) o).or ((List.range 16).find? fun i => !bitOf (rlog s t n i) 0) = some i) :
      i < 16 := by
    obtain hi | ⟨-, hi⟩ := Option.or_eq_some_iff.1 hi <;> exact List.mem_range.1 (List.mem_of_find?_eq_some hi)
  unfold Machine.rowLog
  dsimp only
  rw [h.rowLogEntry_eq, hfree]
  split
  · exact h.raiseOp ..
  next i hi =>
    rw [h.rlog_eq t n (hlt i hi)]
    generalize min 255 _ = cnt
    generalize 1 + max kind _ * 2 + rowKey o + cnt * 2 ^ 24 = word
    have hword := h.pset (scPage t n) (0x100 + 8 * i) word
    rw [hword.clock]
    have hset := hword.pset (scPage t n) (0x104 + 8 * i) ((Machine.pset s (scPage t n) (0x100 + 8 * i) word).clock.now / 2 ^ 10)
    rw [hset.pget_eq _ (o := 0x084) (by decide) (by decide)]
    exact sameData_ite (hset.raiseOp ..) hset

theorem sameResult_goldenLine (tag t n g : Nat) : sameResult (goldenLine s tag t n g) (goldenLine u tag t n g) := by
  obtain ⟨ok, v, w, es, eu, h'⟩ := (sameResult_carry h ⟨.slice t n, tag⟩ (daLoc g) 1).split
  unfold goldenLine
  rw [es, eu]
  dsimp only
  split
  · rw [h'.regionFenced_eq, h'.regionTop_eq]
    exact sameResult_ite ⟨rfl, h'⟩ (sameResult_ite ⟨rfl, h'.raiseTag ..⟩ (sameResult_lpReadLine h' ..))
  · exact ⟨rfl, h'⟩

theorem sameResult_goldenStep (tag t n o g : Nat) : sameResult (goldenStep s tag t n o g) (goldenStep u tag t n o g) := by
  obtain ⟨⟨d, st⟩, v, w, es, eu, h'⟩ := (sameResult_goldenLine h tag t n g).split
  unfold goldenStep
  rw [es, eu]
  exact sameResult_ite ⟨rfl, ((h'.count ..).rowLog ..).raiseOp ..⟩ ⟨rfl, ((h'.count ..).rowLog ..).raiseOp ..⟩

theorem sameData.goldenOf_eq (da : Nat) : goldenOf u da = goldenOf s da := by
  unfold goldenOf
  rw [h.store]

theorem sameResult_badLine (bond : Bool) (tag t n o : Nat) : sameResult (badLine s bond tag t n o) (badLine u bond tag t n o) := by
  unfold badLine
  rw [h.goldenOf_eq]
  split
  · exact sameResult_goldenStep h ..
  · exact ⟨rfl, ((h.count ..).rowLog ..).raiseOp ..⟩

theorem sameData.sliceOf_eq (t n : Nat) : sliceOf u t n = sliceOf s t n := by
  unfold sliceOf
  rw [h.store]

theorem sameData.setSlice (t n : Nat) (x : SliceSt) : sameData (setSlice s t n x) (setSlice u t n x) := by
  unfold Machine.setSlice
  rw [h.store]
  exact h.setStore _

theorem sameData.sliceRmw (t n : Nat) (e : GEntry) : sameData (sliceRmw s t n e) (sliceRmw u t n e) := by
  unfold Machine.sliceRmw
  dsimp only
  rw [h.sliceOf_eq]
  have hcnt := (((h.setSlice t n { sliceOf s t n with mb := (sliceOf s t n).mb.filter fun y => y.line != e.line }).touchHalf t
    (sliceHalf n)).count (scPage t n) 0x818 1).count (scPage t n) 0x808 1
  generalize Machine.count (Machine.count (Machine.touchHalf (Machine.setSlice s t n _) t _) _ _ _) _ _ _ = v at *
  generalize Machine.count (Machine.count (Machine.touchHalf (Machine.setSlice u t n _) t _) _ _ _) _ _ _ = w at *
  unfold readBytes
  rw [hcnt.mem, hcnt.goldenOf_eq]
  have hpoison (s u : State) (h : sameData s u) (l : List Byte) (o : Nat) := 
    ((h.putLine (e.line * 128) l false).rowLog t n o 5 3 e.tag).raiseOp (scPage t n) 4 (scOp 5 o e.tag)
  refine sameData_ite (hcnt.putLine ..) ?_
  split
  next g _ =>
    obtain ⟨⟨d, st⟩, v', w', es, eu, h'⟩ := (sameResult_goldenLine hcnt e.tag t n g).split
    rw [es, eu]
    exact sameData_ite ((((h'.count ..).rowLog ..).raiseOp ..).putLine ..) (hpoison _ _ ((h'.count ..).raiseOp ..) ..)
  next => exact hpoison _ _ hcnt ..

theorem sameData.sliceFlush (t n line : Nat) : sameData (sliceFlush s t n line) (sliceFlush u t n line) := by
  unfold Machine.sliceFlush
  rw [h.sliceOf_eq]
  split
  · exact h.sliceRmw ..
  · exact h

theorem sameResult_sliceReadLine (bond : Bool) (tag t n o : Nat) :
    sameResult (sliceReadLine s bond tag t n o) (sliceReadLine u bond tag t n o) := by
  have hcnt := (h.sliceFlush t n ((sliceBase t n + o / 128 * 128) / 128)).count (scPage t n) 0x800 1
  unfold sliceReadLine readBytes
  dsimp only
  rw [hcnt.mem]
  exact sameResult_ite ⟨rfl, hcnt⟩ (sameResult_badLine hcnt ..)

/-! Shared buffers (R297, R298), and reads as a whole (R25, R99). -/

theorem sameResult_sbRead (op tag a o n : Nat) : sameResult (sbRead s op tag a o n) (sbRead u op tag a o n) := by
  have hcnt := h.count (sbPage a) 0x800 1
  unfold sbRead readBytes
  dsimp only
  rw [hcnt.mem]
  exact sameResult_ite ⟨rfl, (hcnt.pset ..).raiseOp ..⟩ ⟨rfl, hcnt⟩

theorem sameResult_chunkRead (q : Req) (da n : Nat) : sameResult (chunkRead s q da n) (chunkRead u q da n) := by
  unfold chunkRead
  split
  next t m o _ =>
    obtain ⟨up, v, w, es, eu, h'⟩ := (sameResult_sliceReach h q t m).split
    obtain ⟨x, v', w', es', eu', h''⟩ := (sameResult_sliceReadLine h' (overBonds q.who t m) q.tag t m o).split
    rw [es, eu]
    dsimp only
    rw [es', eu']
    exact sameResult_ite ⟨rfl, h'⟩ ⟨rfl, h''⟩
  next a o _ =>
    obtain ⟨up, v, w, es, eu, h'⟩ := (sameResult_carry h q (daLoc da) 1).split
    obtain ⟨x, v', w', es', eu', h''⟩ := (sameResult_lpReadLine h' 1 q.tag a o plainRead).split
    rw [h.regionFenced_eq, h.regionTop_eq, es, eu]
    dsimp only
    rw [es', eu']
    exact sameResult_ite ⟨rfl, h⟩ (sameResult_ite ⟨rfl, h.raiseTag ..⟩ (sameResult_ite ⟨rfl, h'⟩ ⟨rfl, h''⟩))
  next a o _ =>
    have hpath := sameResult_ite (c := baseUp s a = true) (sameResult_carry h q (daLoc da) 1)
      (x' := (false, s)) (y' := (false, u)) ⟨rfl, h⟩
    obtain ⟨up, v, w, es, eu, h'⟩ := hpath.split
    rw [h.baseUp_eq, es, eu]
    exact sameResult_ite (sameResult_sbRead h' ..) ⟨rfl, h'⟩
  next => exact ⟨rfl, h⟩
  next => exact ⟨rfl, h⟩

end

theorem sameResult_readPieces {rd : State → Nat → Nat → (List Byte × ASt) × State}
    (hrd : ∀ s u a n, sameData s u → sameResult (rd s a n) (rd u a n)) (l : List (Nat × Nat)) {s u : State} (h : sameData s u) :
    sameResult (readPieces rd l s) (readPieces rd l u) := by
  induction l generalizing s u with
  | nil => exact ⟨rfl, h⟩
  | cons x l ih =>
    obtain ⟨d, v, w, es, eu, h'⟩ := (hrd s u x.1 x.2 h).split
    obtain ⟨ds, v', w', es', eu', h''⟩ := (ih h').split
    unfold readPieces
    rw [es, eu]
    dsimp only
    rw [es', eu']
    exact ⟨rfl, h''⟩

section
variable {s u : State} (h : sameData s u)
include h

theorem sameResult_daRead (q : Req) (a n : Nat) : sameResult (daRead s q a n) (daRead u q a n) :=
  sameResult_readPieces (rd := fun s a n => chunkRead s q a n) (fun _ _ _ _ h => sameResult_chunkRead h ..) _ h

theorem sameResult_tlaReach (q : Req) (t a : Nat) : sameResult (tlaReach s q t a) (tlaReach u q t a) := by
  unfold tlaReach
  cases tlaHalf a with
  | some k =>
    obtain ⟨up, v, w, es, eu, h'⟩ := (sameResult_reachHalf h t k q.tag).split
    dsimp only
    rw [es, eu]
    exact sameResult_ite (sameResult_carry h' ..) ⟨rfl, h'⟩
  | none =>
    dsimp only
    rw [h.tileUp_eq]
    exact sameResult_ite (sameResult_carry h ..) ⟨rfl, h⟩

theorem sameResult_tlaChunkRead (q : Req) (t a n : Nat) : sameResult (tlaChunkRead s q t a n) (tlaChunkRead u q t a n) := by
  obtain ⟨up, v, w, es, eu, h'⟩ := (sameResult_tlaReach h q t a).split
  unfold tlaChunkRead readBytes
  rw [es, eu]
  dsimp only
  rw [h'.mem]
  exact sameResult_ite ⟨rfl, h⟩ (sameResult_ite ⟨rfl, h'⟩ ⟨rfl, h'⟩)

theorem sameResult_tlaRead (q : Req) (t a n : Nat) : sameResult (tlaRead s q t a n) (tlaRead u q t a n) :=
  sameResult_readPieces (rd := fun s a n => tlaChunkRead s q t a n) (fun _ _ _ _ h => sameResult_tlaChunkRead h ..) _ h

end

end Sys2Proof.Machine
end

section
/-!
SUPPORT. What a read of the fabric leaves of the arrays: it wakes halves, counts flits, raises sources, charges and flushes the storage
units, and changes no array. The lemma about an operation is stated once, for simp, in the order of the model.
-/

namespace Sys2Proof.Machine

open Sys2Proof

@[simp] theorem mcs_ite (c : Prop) [Decidable c] (s u : State) : (if c then s else u).mcs = if c then s.mcs else u.mcs :=
  apply_ite State.mcs c s u

@[simp] theorem mcs_foldList {α : Type} {f : α → State → State} (hf : ∀ a s, (f a s).mcs = s.mcs) (l : List α) (s : State) :
    (foldList f l s).mcs = s.mcs :=
  foldList_induction (P := (·.mcs = s.mcs)) (fun a u hu => (hf a u).trans hu) l rfl

@[simp] theorem mcs_pset (s : State) (page o v : Nat) : (pset s page o v).mcs = s.mcs := rfl
@[simp] theorem mcs_count (s : State) (page o n : Nat) : (count s page o n).mcs = s.mcs := (onlyFaults_count ..).mcs_eq
@[simp] theorem mcs_raiseTag (s : State) (page src tag : Nat) : (raiseTag s page src tag).mcs = s.mcs := (raiseTag_spec ..).1.mcs_eq
@[simp] theorem mcs_raise (s : State) (page src : Nat) : (raise s page src).mcs = s.mcs := (onlyFaults_raise ..).mcs_eq
@[simp] theorem mcs_setCurop (s : State) (page : Nat) (ws : List Nat) : (setCurop s page ws).mcs = s.mcs := by
  unfold setCurop
  split
  · exact mcs_foldList (f := fun (x : Nat × Nat) st => pset st page x.1 x.2) (fun _ _ => rfl) _ _
  · rfl
@[simp] theorem mcs_raiseOp (s : State) (page src : Nat) (ws : List Nat) : (raiseOp s page src ws).mcs = s.mcs := by simp [raiseOp]
@[simp] theorem mcs_putLine (s : State) (da : Nat) (data : List Byte) (good : Bool) : (putLine s da data good).mcs = s.mcs := rfl

/-! Halves and paths. -/

@[simp] theorem mcs_touchHalf (s : State) (t h : Nat) : (touchHalf s t h).mcs = s.mcs := rfl
@[simp] theorem mcs_setHalf (s : State) (t h code : Nat) : (setHalf s t h code).mcs = s.mcs := rfl
@[simp] theorem mcs_latchWake (s : State) (t h : Nat) : (latchWake s t h).mcs = s.mcs := by simp [latchWake]
@[simp] theorem mcs_slowRequests (s : State) (t h : Nat) : (slowRequests s t h).mcs = s.mcs := by simp [slowRequests]
@[simp] theorem mcs_slowWake (s : State) (t h : Nat) : (slowWake s t h).mcs = s.mcs := by
  unfold slowWake
  split <;> simp
@[simp] theorem mcs_awaken (s : State) (t h : Nat) : (awaken s t h).mcs = s.mcs := by
  unfold awaken
  dsimp only
  split <;> simp
@[simp] theorem mcs_wakeHalf (s : State) (t h : Nat) : (wakeHalf s t h).mcs = s.mcs := by simp [wakeHalf]
@[simp] theorem mcs_reachHalf (s : State) (t h tag : Nat) : (reachHalf s t h tag).2.mcs = s.mcs := by simp [reachHalf]
@[simp] theorem mcs_carry (s : State) (q : Req) (y : Loc) (n : Nat) : (carry s q y n).2.mcs = s.mcs := by
  obtain ⟨k, l, e⟩ := carry_spec s q y n
  rw [e]; rfl
@[simp] theorem mcs_sliceReach (s : State) (q : Req) (t n : Nat) : (sliceReach s q t n).2.mcs = s.mcs := by simp [sliceReach]

/-! Storage. -/

@[simp] theorem mcs_setLp (s : State) (p : Nat) (x : LpSt) : (setLp s p x).mcs = s.mcs := rfl
@[simp] theorem mcs_setSlice (s : State) (t n : Nat) (x : SliceSt) : (setSlice s t n x).mcs = s.mcs := rfl
@[simp] theorem mcs_lpCharge (s : State) (ch cda : Nat) (write : Bool) : (lpCharge s ch cda write).mcs = s.mcs := by
  rw [(lpTraffic_lpCharge s ch cda write).1]
@[simp] theorem mcs_lpUncCount (s : State) (ch op cda tag : Nat) : (lpUncCount s ch op cda tag).mcs = s.mcs := by
  unfold lpUncCount
  dsimp only
  rw [mcs_ite, mcs_raiseOp, ite_self, mcs_pset]
@[simp] theorem mcs_lpLineLost (s : State) (op tag ch cda : Nat) : (lpLineLost s op tag ch cda).mcs = s.mcs := by simp [lpLineLost]
@[simp] theorem mcs_lpCheckPar (s : State) (op tag da ch cda : Nat) (par : Bool) : (lpCheckPar s op tag da ch cda par).mcs = s.mcs := by
  simp [lpCheckPar]
@[simp] theorem mcs_lpCheckedLine (s : State) (op tag a q : Nat) (r : LpRead) : (lpCheckedLine s op tag a q r).2.mcs = s.mcs := by
  simp [lpCheckedLine]
@[simp] theorem mcs_lpMerge (s : State) (p : Nat) (e : GEntry) (par : Bool) : (lpMerge s p e par).mcs = s.mcs := by simp [lpMerge]
@[simp] theorem mcs_lpFlush (s : State) (p line : Nat) : (lpFlush s p line).mcs = s.mcs := by
  unfold lpFlush lpRmw
  split <;> simp
@[simp] theorem mcs_lpReadLine (s : State) (op tag a q : Nat) (r : LpRead) : (lpReadLine s op tag a q r).2.mcs = s.mcs := by
  simp [lpReadLine]
@[simp] theorem mcs_lpTail (s : State) (a tag : Nat) : (lpTail s a tag).mcs = s.mcs := by simp [lpTail]
@[simp] theorem mcs_rowLog (s : State) (t n o op kind tag : Nat) : (rowLog s t n o op kind tag).mcs = s.mcs := by
  unfold rowLog
  dsimp only
  split
  · exact mcs_raiseOp ..
  · rw [mcs_ite, mcs_raiseOp, ite_self, mcs_pset, mcs_pset]
@[simp] theorem mcs_goldenLine (s : State) (tag t n g : Nat) : (goldenLine s tag t n g).2.mcs = s.mcs := by
  unfold goldenLine
  dsimp only
  split <;> simp
@[simp] theorem mcs_badLine (s : State) (bond : Bool) (tag t n o : Nat) : (badLine s bond tag t n o).2.mcs = s.mcs := by
  unfold badLine goldenStep
  split <;> simp
@[simp] theorem mcs_sliceRmw (s : State) (t n : Nat) (e : GEntry) : (sliceRmw s t n e).mcs = s.mcs := by
  unfold sliceRmw
  dsimp only
  split
  · simp
  · split <;> simp
@[simp] theorem mcs_sliceFlush (s : State) (t n line : Nat) : (sliceFlush s t n line).mcs = s.mcs := by
  unfold sliceFlush
  split <;> simp
@[simp] theorem mcs_sliceReadLine (s : State) (bond : Bool) (tag t n o : Nat) : (sliceReadLine s bond tag t n o).2.mcs = s.mcs := by
  simp [sliceReadLine]
@[simp] theorem mcs_sbBad (s : State) (a o op tag : Nat) : (sbBad s a o op tag).mcs = s.mcs := by
  unfold sbBad
  dsimp only
  rw [mcs_raiseOp, mcs_pset]
@[simp] theorem mcs_sbRead (s : State) (op tag a o n : Nat) : (sbRead s op tag a o n).2.mcs = s.mcs := by simp [sbRead]

@[simp] theorem mcs_chunkRead (s : State) (q : Req) (da n : Nat) : (chunkRead s q da n).2.mcs = s.mcs := by
  unfold chunkRead
  dsimp only
  split
  · simp
  · simp
  · split <;> split <;> simp
  · rfl
  · rfl

theorem mcs_readPieces {rd : State → Nat → Nat → (List Byte × ASt) × State} (h : ∀ s a n, (rd s a n).2.mcs = s.mcs)
    (l : List (Nat × Nat)) (s : State) : (readPieces rd l s).2.mcs = s.mcs := by
  induction l generalizing s with
  | nil => rfl
  | cons x l ih => simp [readPieces, ih, h]

@[simp] theorem mcs_daRead (s : State) (q : Req) (a n : Nat) : (daRead s q a n).2.mcs = s.mcs := mcs_readPieces (by simp) ..

end Sys2Proof.Machine
end

section
/-!
The weight ring (R65, R86, R94, R104, R105): the statement Weight_ring.
-/

namespace Sys2Proof.Machine

open Sys2Proof

/-- Whether an MXA reads the ring (R105, R117). -/
def ringRead (m : MatrixCore) : Bool := match m.cur with | some o => o.ring && !o.illegal | none => false

theorem ringRead_iff (m : MatrixCore) : ringRead m = true ↔ ∃ o, m.cur = some o ∧ o.ring = true ∧ o.illegal = false := by
  unfold ringRead
  cases m.cur <;> simp

section
variable {t : Fin 12} {n : Fin 32} {s : State}

/-! WSTRM (R104). -/

theorem exec_wstrm (f : WstrmFields) : exec (.wstrm t n f) s =
    .next (issueWhen s (.wstrm t n f) t n 0x42 ((mcOf s t n).descs.length < 8) fun s =>
      let first := (getG s t n f.sreg.toNat).toNat / 128 + f.soff.toNat
      if f.tsize.toNat = 0 || sliceBytes / 128 < first + (f.count.toNat + 1) * f.tsize.toNat then illegal s t n
      else setMc (nextPc s t n) t n { mcOf (nextPc s t n) t n with
        descs := (mcOf (nextPc s t n) t n).descs ++
          [⟨first, f.tsize.toNat, f.count.toNat + 1, 0, (coreOf (nextPc s t n) (coreId t n)).tag⟩] }) := rfl

/-- WSTRM of tiles that lie in the slice queues their descriptor (R104). -/
theorem answers_wstrm (f : WstrmFields) (h : canIssue s t n = true) (hroom : (mcOf s t n).descs.length < 8) :
    let first := (getG s t n f.sreg.toNat).toNat / 128 + f.soff.toNat
    (f.tsize.toNat ≠ 0 ∧ first + (f.count.toNat + 1) * f.tsize.toNat ≤ sliceBytes / 128) →
    answers (.wstrm t n f) s fun u => u.mem = s.mem ∧ pcOf u t n = (pcOf s t n + 8) % 2 ^ 64 ∧
      mcOf u t n = { mcOf s t n with descs := (mcOf s t n).descs ++
        [⟨first, f.tsize.toNat, f.count.toNat + 1, 0, (coreOf s (coreId t n)).tag⟩] } := by
  rintro first ⟨hsize, hfits⟩
  refine answers_issueWhen (exec_wstrm f) h (by simpa using hroom) ?_
  dsimp only
  rw [getG_noteIssue, if_neg (by simp only [Bool.or_eq_true, decide_eq_true_eq]; omega)]
  refine ⟨?_, ?_, ?_⟩
  · rw [mem_noteEnd, mem_setMc, mem_issued]
  · rw [pcOf_noteEnd, pcOf_setMc, pcOf_nextPc, pcOf_noteIssue]
  · rw [mcOf_noteEnd, mcOf_setMc_same, mcOf_nextPc, mcOf_noteIssue, coreOf_issued, if_pos rfl]

/-- WSTRM of tiles that leave the slice, or of no size, is illegal (R95, R104). -/
theorem answers_wstrm_illegal (f : WstrmFields) (h : canIssue s t n = true) (hroom : (mcOf s t n).descs.length < 8) :
    let first := (getG s t n f.sreg.toNat).toNat / 128 + f.soff.toNat
    ¬ (f.tsize.toNat ≠ 0 ∧ first + (f.count.toNat + 1) * f.tsize.toNat ≤ sliceBytes / 128) →
    answers (.wstrm t n f) s fun u => sticky u (mcPage t n) 3 = true ∧ mcOf u t n = mcOf s t n := by
  intro first hbad
  refine answers_issueWhen (exec_wstrm f) h (by simpa using hroom) ?_
  dsimp only
  rw [getG_noteIssue, if_pos (by simp only [Bool.or_eq_true, decide_eq_true_eq]; omega)]
  obtain ⟨hset, -⟩ := wasIllegal_noteEnd s t (mcPart n) 0x42 0
  rw [ptPage_mcPart, progErrSource, if_pos n.isLt] at hset
  refine ⟨hset, ?_⟩
  rw [mcOf_noteEnd, illegal, mcOf_nextPc, (onlyFaults_progErr ..).mcOf_eq, mcOf_noteIssue]

/-! A tile that enters the ring (R65). -/

theorem mcOf_of_mcs {u v : State} {t n : Nat} (h : u.mcs = v.mcs) : mcOf u t n = mcOf v t n := by rw [mcOf, h]; rfl

/-- While Quench holds no half, a request waits for none (R420). -/
theorem awaitHalves_of_notHolding {q : Req} {hs : List (Nat × Nat)} {f : State → State} (h : s.quench.holding = false) :
    awaitHalves s q hs f = f s := by
  refine if_neg ?_
  simp [halfHeld, h]

/-- A tile for which the ring has room enters it (R65). -/
theorem answers_ringTileEligible {d : StreamDesc} {rest : List StreamDesc} (hd : (mcOf s t n).descs = d :: rest)
    (hroom : ((mcOf s t n).ring.map RingTile.units).foldl (· + ·) 0 + d.tsize ≤ ringBytes s t n / 128)
    (hq : s.quench.holding = false) :
    answers (.ringTileEligible t n) s fun u => ∃ x : RingTile, x.units = d.tsize ∧ x.uses = 0 ∧
      mcOf u t n = { mcOf s t n with
        ring := (mcOf s t n).ring ++ [x]
        descs := if d.served + 1 = d.count then rest else { d with served := d.served + 1 } :: rest } := by
  change ∃ u, execRingTileEligible t n s = .next u ∧ _
  unfold execRingTileEligible
  dsimp only
  rw [hd]
  dsimp only
  rw [if_neg (by omega), awaitHalves_of_notHolding hq]
  have hmcs := mcs_daRead s ⟨.part t n, d.tag.toNat⟩
    (sliceBase t (streamSlice s t n d.tag.toNat) + (d.first + d.served * d.tsize) * 128) (d.tsize * 128)
  generalize daRead s _ _ _ = r at hmcs ⊢
  refine ⟨_, rfl, ⟨r.1.1, d.tsize, r.1.2 != .ok, 0⟩, rfl, rfl, ?_⟩
  rw [mcOf_of_mcs (mcs_touchHalf ..), mcOf_setMc_same, mcOf_of_mcs (setMem_mcs ..), mcOf_of_mcs hmcs]

theorem idles_ringTileEligible {d : StreamDesc} {rest : List StreamDesc} (hd : (mcOf s t n).descs = d :: rest)
    (hroom : ringBytes s t n / 128 < ((mcOf s t n).ring.map RingTile.units).foldl (· + ·) 0 + d.tsize) :
    idles (.ringTileEligible t n) s := by
  change execRingTileEligible t n s = .next s
  unfold execRingTileEligible
  dsimp only
  rw [hd]
  dsimp only
  rw [if_pos hroom]

/-! WFLUSH (R105). -/

theorem exec_wflush : exec (.wflush t n) s =
    .next (issueWhen s (.wflush t n) t n 0x43 (!ringRead (mcOf s t n)) fun s => ringFlush (nextPc s t n) t n) := rfl

theorem answers_wflush (h : canIssue s t n = true) (hread : ringRead (mcOf s t n) = false) :
    answers (.wflush t n) s fun u => mcOf u t n = { mcOf s t n with ring := [], descs := [] } ∧ u.mem = s.mem := by
  refine answers_issueWhen exec_wflush h (by rw [hread]; rfl) ⟨?_, ?_⟩
  · rw [mcOf_noteEnd]
    change mcOf (setMc _ t n _) t n = _
    rw [mcOf_setMc_same, mcOf_nextPc, mcOf_noteIssue]
  · rw [mem_noteEnd]
    exact mem_noteIssue ..

/-! The base and the size of the ring (R86). -/

/-- Whether the ring takes no base and no size: it is not empty, or an MXA reads it or waits for it (R86). -/
def ringTaken (m : MatrixCore) : Bool := m.ring != [] || m.waiting.isSome || ringRead m

theorem ringTaken_iff (m : MatrixCore) : ringTaken m = false ↔
    m.ring = [] ∧ m.waiting = none ∧ ¬ ∃ o, m.cur = some o ∧ o.ring = true ∧ o.illegal = false := by
  rw [← ringRead_iff]
  simp [ringTaken, and_assoc]

theorem ringSize_lt (base v : Nat) : ringSize base v < 2 ^ 32 := by
  unfold ringSize clampN
  dsimp only
  split_ifs <;> omega

theorem ringSize_eq (base v : Nat) : ringSize base v =
    if fld v 20 7 = 0 then 0 else min (clampN 0x14000 0x100000 (fld v 20 7 * 128)) (0x200000 - base) := by
  simp [ringSize]

theorem putRing_base (s : State) (pg v : Nat) : pget (putRing s pg false v) pg 0x08C = fld v 20 7 * 128 := by
  have hfld : fld v 20 7 < 2 ^ 14 := Nat.mod_lt _ (by decide)
  unfold putRing
  rw [if_neg Bool.false_ne_true, pget_pset _ _ _ _ _ _ (by decide) (by decide), if_neg (by simp),
    pget_pset _ _ _ _ _ _ (by decide) (by decide), if_pos ⟨rfl, rfl⟩]
  exact Nat.mod_eq_of_lt (by omega)

theorem putRing_size (s : State) (pg v : Nat) : pget (putRing s pg true v) pg 0x08C = pget s pg 0x08C ∧
    pget (putRing s pg true v) pg 0x090 = ringSize (pget s pg 0x08C) v := by
  unfold putRing
  rw [if_pos rfl, pget_pset _ _ _ _ _ _ (by decide) (by decide), pget_pset _ _ _ _ _ _ (by decide) (by decide),
    if_neg (by simp), if_pos ⟨rfl, rfl⟩]
  exact ⟨rfl, Nat.mod_eq_of_lt (ringSize_lt ..)⟩

theorem mem_mcs_putRing (s : State) (pg v : Nat) (size : Bool) : (putRing s pg size v).mem = s.mem ∧ (putRing s pg size v).mcs = s.mcs := by
  unfold putRing
  split <;> exact ⟨rfl, rfl⟩

section
variable {size : Bool} {v : BitVec 32} {w : State} (hw : reach s (mcPage t n) = w) (hserved : served w (mcPage t n) = true)
include hw hserved

/-- A write of the ring's base or size that the page serves: taken where the ring is free (R86, log 122). -/
theorem exec_mcWringWrite : exec (.mcWringWrite t n size v) s = .next
    (if ringTaken (mcOf w t n) then mcRaise w t n 3 (coreOf w (coreId t n)).tag
    else putRing w (mcPage t n) size v.toNat) := by
  simp only [served, Bool.and_eq_true, Bool.not_eq_true'] at hserved
  change Host.Outcome.next (mcWringWrite t n size v (reach s (mcPage t n))) = _
  rw [hw]
  unfold mcWringWrite blockWrite
  dsimp only
  rw [hserved.1, hserved.2]
  rfl

theorem exec_mcWringWrite_free (h : ringTaken (mcOf w t n) = false) :
    exec (.mcWringWrite t n size v) s = .next (putRing w (mcPage t n) size v.toNat) := by
  rw [exec_mcWringWrite hw hserved, if_neg (by simp [h])]

theorem exec_mcWringWrite_taken (h : ringTaken (mcOf w t n) = true) :
    exec (.mcWringWrite t n size v) s = .next (mcRaise w t n 3 (coreOf w (coreId t n)).tag) := by
  rw [exec_mcWringWrite hw hserved, if_pos h]

end

end

/-- Settles O11: the descriptors, the tiles, WFLUSH and the registers of the ring. -/
theorem weightRing : Obligations.Weight_ring := by
  intro t n f s k m first fits reads
  have hreads (b : Bool) : ringRead (mcOf s t n) = b ↔ (b = true ↔ reads) := by
    have := ringRead_iff (mcOf s t n)
    cases b
    · rw [← Bool.not_eq_true, this]; simp [reads, m]
    · rw [this]; simp [reads, m]
  refine ⟨fun hfull hgo => heldBack_issueWhen (exec_wstrm f) hgo (by simpa using hfull),
    fun h hroom => ⟨answers_wstrm f h hroom, answers_wstrm_illegal f h hroom⟩,
    fun d rest hd => ⟨answers_ringTileEligible hd, idles_ringTileEligible hd⟩,
    fun hread hgo => heldBack_issueWhen exec_wflush hgo (by rw [(hreads true).2 (by simpa using hread)]; rfl),
    fun h hread => answers_wflush h ((hreads false).2 (by simpa using hread)), ?_⟩
  intro size v w mw base idle hserved
  refine ⟨fun hidle => ?_, fun hidle => ?_⟩
  · obtain ⟨hmem, hmcs⟩ := mem_mcs_putRing w (mcPage t n) v.toNat size
    refine ⟨_, exec_mcWringWrite_free rfl hserved ((ringTaken_iff _).2 hidle), ?_, ?_, hmem, hmcs⟩
    · rintro rfl
      exact putRing_base ..
    · rintro rfl
      rw [← ringSize_eq]
      exact putRing_size ..
  · have htaken : ringTaken mw = true := by
      rw [← Bool.not_eq_false, ringTaken_iff]
      exact hidle
    have hf := onlyFaults_mcRaise w t n 3 (coreOf w (coreId t n)).tag
    have hp : leavesPlain w (mcRaise w t n 3 (coreOf w (coreId t n)).tag) := leavesPlain_raiseWith ..
    exact ⟨_, exec_mcWringWrite_taken rfl hserved htaken, sticky_mcRaise w t n _ (by decide), hf.mem_eq, hf.mcs_eq,
      hp.pget_eq _ (by decide) (by decide), hp.pget_eq _ (by decide) (by decide)⟩

end Sys2Proof.Machine
end

section
/-!
SUPPORT. Loads of the own store under transfers (R100), and instructions that change memory or the arrays besides.
-/

namespace Sys2Proof.Machine

open Sys2Proof

/-! What an instruction noted leaves of the data that a load reads. -/

theorem sameData_noteIssue (s : State) (t p op md : Nat) : sameData s (noteIssue s t p op md) := by
  obtain ⟨k, e, -⟩ := noteIssue_spec s t p op md
  rw [e]
  exact ⟨rfl, rfl, rfl, rfl, fun _ _ => rfl⟩

theorem tlaWriters_noteIssue {s : State} {t p a n : Nat} (op md : Nat) (h : tlaWriters s t a n = []) :
    tlaWriters (noteIssue s t p op md) t a n = [] := by
  obtain ⟨k, e, -⟩ := noteIssue_spec s t p op md
  rw [e]
  exact tlaWriters_setCore rfl h

/-- The value that a transfer leaves depends on the data and on the transfer's step tag. -/
theorem sameData.xferValue_eq {s u : State} (h : sameData s u) (t c : Nat) (x : Xfer) (off n : Nat)
    (htag : (coreOf u c).tag = (coreOf s c).tag) : xferValue u t c x off n = xferValue s t c x off n := by
  unfold xferValue peekRemote readBytes
  rw [h.mem, htag]
  split
  · rfl
  · split
    · exact congrArg Prod.fst (sameResult_tlaRead h ..).1
    · exact congrArg Prod.fst (sameResult_daRead h ..).1

/-- A load of a word, or of a part of it, that no transfer writes. -/
theorem loadUnderXfer_quiet {s : State} {t p a n : Nat} (h : tlaWriters s t (storeTla p + a / 8 * 8) 8 = []) (ha : a % 8 + n ≤ 8) :
    loadUnderXfer s t p a n = (s.mem.readBytes (storeKey t p a) n, s) := by
  have hkey : storeKey t p (a / 8 * 8) + a % 8 = storeKey t p a := by unfold storeKey tlaKey; omega
  unfold loadUnderXfer wordUnderXfer
  rw [h, List.foldl_nil]
  dsimp only
  rw [readBytes, Memory.take_drop_readBytes _ _ _ _ _ ha, hkey]

/-- A load of a word that one transfer writes: the word before it or after it, as a free choice (R100, log 5). -/
theorem loadUnderXfer_one {s : State} {t p a : Nat} {y : Nat × Xfer × Nat} (h : tlaWriters s t (storeTla p + a) 8 = [y]) (ha : a % 8 = 0) :
    ∃ d, loadUnderXfer s t p a 8 = (d, s.setFree (s.free + 1)) ∧ (d = s.mem.readBytes (storeKey t p a) 8 ∨
      d = (xferValue (s.setFree (s.free + 1)) t y.1 y.2.1 (storeTla p + a - y.2.2) 8).take 8) := by
  have hword : a / 8 * 8 = a := by omega
  have hlen : (s.mem.readBytes (storeKey t p a) 8).take 8 = s.mem.readBytes (storeKey t p a) 8 :=
    List.take_of_length_le (Memory.length_readBytes ..).le
  unfold loadUnderXfer wordUnderXfer
  rw [hword, h, ha, List.foldl_cons, List.foldl_nil]
  refine ⟨_, rfl, ?_⟩
  dsimp only [drawBool, readBytes]
  rw [List.drop_zero]
  split
  · exact .inr rfl
  · exact .inl hlen

/-! An instruction whose work also changes memory, or the arrays, or draws a free value. -/

section
variable (s : State) (t p : Nat)

theorem mcs_nextPc : (nextPc s t p).mcs = s.mcs := rfl

theorem mcs_noteIssue (op md : Nat) : (noteIssue s t p op md).mcs = s.mcs := by
  obtain ⟨k, e, -⟩ := noteIssue_spec s t p op md
  rw [e]; rfl

theorem mcs_noteEnd : (noteEnd s t p).mcs = s.mcs := by
  obtain e | ⟨x, e⟩ := noteEnd_eq_or s t p <;> rw [e]; rfl

theorem nextPc_setMem (m : Memory) : nextPc (s.setMem m) t p = (nextPc s t p).setMem m := rfl

theorem nextPc_setMcs (m : KMap MatrixCore) : nextPc (s.setMcs m) t p = (nextPc s t p).setMcs m := rfl

theorem noteEnd_setMem (m : Memory) : noteEnd (s.setMem m) t p = (noteEnd s t p).setMem m := by
  unfold noteEnd
  dsimp only
  split
  · next h => rw [if_pos (by exact h)]
  · next h => rw [if_neg (by exact h)]; rfl

theorem noteEnd_setMcs (m : KMap MatrixCore) : noteEnd (s.setMcs m) t p = (noteEnd s t p).setMcs m := by
  unfold noteEnd
  dsimp only
  split
  · next h => rw [if_pos (by exact h)]
  · next h => rw [if_neg (by exact h)]; rfl

theorem count_setFree (k page off n : Nat) : count (s.setFree k) page off n = (count s page off n).setFree k := by
  unfold count
  split
  · next h => rw [if_pos (by exact h)]
  · next h => rw [if_neg (by exact h)]; rfl

theorem noteIssue_setFree (k op md : Nat) : noteIssue (s.setFree k) t p op md = (noteIssue s t p op md).setFree k := by
  unfold noteIssue
  dsimp only
  split_ifs
  · exact count_setFree (setCore s _ _) ..
  · exact count_setFree (setCore s _ _) ..
  · rfl

end

theorem setMem_back {s v : State} (h : v.mem = s.mem) (m : Memory) : (v.setMem m).setMem s.mem = v := by
  rw [setMem_twice, ← h, setMem_self]

theorem setMcs_back {s v : State} (h : v.mcs = s.mcs) (m : KMap MatrixCore) : (v.setMcs m).setMcs s.mcs = v := by
  rw [setMcs_twice, ← h, setMcs_self]

section
variable {s : State} {t p : Nat} (h : canIssue s t p = true) (op : Nat)
include h

/-- An instruction that changes memory and goes on. -/
theorem wentTo_setMem (m : Memory) :
    let u := noteEnd (nextPc ((noteIssue s t p op 0).setMem m) t p) t p
    wentTo s (u.setMem s.mem) t p ((pcOf s t p + 8) % 2 ^ 64) ∧ u.mem = m := by
  dsimp only
  have hu : noteEnd (nextPc ((noteIssue s t p op 0).setMem m) t p) t p = (noteEnd (nextPc (noteIssue s t p op 0) t p) t p).setMem m := by
    rw [← noteEnd_setMem, ← nextPc_setMem]
  have hmem : (noteEnd (nextPc (noteIssue s t p op 0) t p) t p).mem = s.mem := by
    rw [mem_noteEnd, mem_nextPc, mem_noteIssue]
  rw [hu, setMem_back hmem]
  exact ⟨wentTo_noteIssue h op, rfl⟩

/-- An instruction that changes the arrays and goes on. -/
theorem wentTo_setMcs (m : KMap MatrixCore) :
    let u := noteEnd (nextPc ((noteIssue s t p op 0).setMcs m) t p) t p
    wentTo s (u.setMcs s.mcs) t p ((pcOf s t p + 8) % 2 ^ 64) ∧ u.mcs = m := by
  dsimp only
  have hu : noteEnd (nextPc ((noteIssue s t p op 0).setMcs m) t p) t p = (noteEnd (nextPc (noteIssue s t p op 0) t p) t p).setMcs m := by
    rw [← noteEnd_setMcs, ← nextPc_setMcs]
  have hmcs : (noteEnd (nextPc (noteIssue s t p op 0) t p) t p).mcs = s.mcs := by
    rw [mcs_noteEnd, mcs_nextPc, mcs_noteIssue]
  rw [hu, setMcs_back hmcs]
  exact ⟨wentTo_noteIssue h op, rfl⟩

end

end Sys2Proof.Machine
end

section
/-!
Loads and stores of the own store (R67, R96 to R100): the statement Own_store_access.
-/

namespace Sys2Proof.Machine

open Sys2Proof

theorem exec_loadOp {i : Instr} {t : Fin 12} {p : Fin 41} {f : SFields} {op n : Nat} {s : State}
    (hi : exec i s = .next (loadOp i t p f op n s)) :
    exec i s = .next (issueWhen s i t p op (!loadHeld s t p (effAddr s t p f / n * n) n) fun s' =>
      if inStore p (effAddr s t p f / n * n) n then
        nextPc (setG (loadUnderXfer s' t p (effAddr s t p f / n * n) n).2 t p f.gd.toNat
          (BitVec.ofNat 64 (leNat (loadUnderXfer s' t p (effAddr s t p f / n * n) n).1))) t p
      else illegal s' t p) := hi

section
variable {t : Fin 12} {p : Fin 41} {f : SFields} {s : State}

/-- An illegal access of the own store changes no register and no byte (R95, R96). -/
theorem answers_illegal_of {i : Instr} {op : Nat} {u : State}
    (hi : exec i s = .next u) (hu : u = noteEnd (illegal (noteIssue s t p op 0) t p) t p) :
    answers i s fun u => sticky u (ptPage t p) (progErrSource p) = true ∧ pcOf u t p = (pcOf s t p + 8) % 2 ^ 64 ∧
      u.mem = s.mem ∧ ∀ j, getG u t p j = getG s t p j := by
  obtain ⟨hset, hpc, hmem, -, hg, -⟩ := wasIllegal_noteEnd s t p op 0
  exact ⟨u, hi, hu ▸ ⟨hset, hpc, hmem, hg⟩⟩


section
variable (h : canIssue s t p = true) {i : Instr} {op n : Nat} (hi : exec i s = .next (loadOp i t p f op n s))
include h hi

theorem heldBack_loadOp (hheld : loadHeld s t p (effAddr s t p f / n * n) n = true) : heldBack i s t p :=
  heldBack_issueWhen (exec_loadOp hi) (canGo_of_canIssue h i) (by rw [hheld]; rfl)

section
variable (hfree : loadHeld s t p (effAddr s t p f / n * n) n = false)
include hfree

/-- A load outside the store is illegal (R96). -/
theorem answers_loadOp_outside (hout : storeSize p < effAddr s t p f / n * n + n) :
    answers i s fun u => sticky u (ptPage t p) (progErrSource p) = true ∧ pcOf u t p = (pcOf s t p + 8) % 2 ^ 64 ∧
      u.mem = s.mem ∧ ∀ j, getG u t p j = getG s t p j := by
  refine answers_illegal_of (op := op) (u := noteEnd _ t p) ?_ rfl
  rw [exec_loadOp hi, hfree, Bool.not_false, issueWhen_free h, if_neg (by simpa [inStore] using hout)]

/-- What a load inside the store writes to GD, where `l` is what it reads (R97). -/
theorem answers_loadOp {l : List Byte} {k : Nat} (hin : effAddr s t p f / n * n + n ≤ storeSize p)
    (hl : loadUnderXfer (noteIssue s t p op 0) t p (effAddr s t p f / n * n) n = (l, noteIssue (s.setFree k) t p op 0)) :
    answers i s fun u => wroteReg (s.setFree k) u t p f.gd.toNat (BitVec.ofNat 64 (leNat l)) := by
  refine answers_issueWhen (exec_loadOp hi) h (by rw [hfree]; rfl) ?_
  rw [if_pos (by simpa [inStore] using hin), hl]
  exact wroteReg_noteIssue (s.setFree k) t p f.gd.toNat op _ (wait_of_canIssue h)

/-- A load while no transfer writes the store. -/
theorem answers_loadOp_quiet (hin : effAddr s t p f / n * n + n ≤ storeSize p) (hn : 0 < n)
    (ha : effAddr s t p f / n * n % 8 + n ≤ 8) (hquiet : storeQuiet s t p) :
    answers i s fun u => wroteReg s u t p f.gd.toNat
      (BitVec.ofNat 64 (leNat (s.mem.readBytes (storeKey t p (effAddr s t p f / n * n)) n))) := by
  have hsize := eight_dvd_storeSize p
  have hword : tlaWriters s t (storeTla p + effAddr s t p f / n * n / 8 * 8) 8 = [] :=
    tlaWriters_part hquiet (by omega) (by omega)
  refine answers_loadOp (k := s.free) h hi hfree hin ?_
  rw [loadUnderXfer_quiet (tlaWriters_noteIssue op 0 hword) ha, mem_noteIssue]
  rfl

end

end

/-! Stores. -/

theorem length_leBytes (n w : Nat) : (leBytes n w).length = n := by
  induction n generalizing w with
  | zero => rfl
  | succ n ih => rw [leBytes, List.length_cons, ih]

theorem storePut_free {s : State} {t p off : Nat} {data : List Byte} {own : Bool} (hfree : lineFree s t p off) :
    storePut s t p off data own = writeBytes s (storeKey t p off) data := by
  refine if_neg ?_
  simpa [lineFree] using hfree

theorem storePut_held {s : State} {t p off : Nat} {data : List Byte} {own : Bool} (hp : p < 32)
    (hreads : (mcOf s t p).reads (off / 128) = true) : storePut s t p off data own =
      setMc s t p { mcOf s t p with heldW := (mcOf s t p).heldW ++ [⟨off, data, own⟩] } :=
  if_pos (by simp [hp, hreads])

theorem not_lineFree {s : State} {t p off : Nat} (h : ¬ lineFree s t p off) : p < 32 ∧ (mcOf s t p).reads (off / 128) = true := by
  simpa [lineFree] using h

theorem effAddr_noteIssue (s : State) (t p op md : Nat) (f : SFields) : effAddr (noteIssue s t p op md) t p f = effAddr s t p f := by
  rw [effAddr, getG_noteIssue]; rfl

section
variable {i : Instr} {op n : Nat} (hi : exec i s = .next (storeOp t p f op n s)) (h : canIssue s t p = true)
include h hi

/-- A store outside the store is illegal (R96). -/
theorem answers_storeOp_outside (hout : storeSize p < effAddr s t p f / n * n + n) :
    answers i s fun u => sticky u (ptPage t p) (progErrSource p) = true ∧ pcOf u t p = (pcOf s t p + 8) % 2 ^ 64 ∧
      u.mem = s.mem ∧ ∀ j, getG u t p j = getG s t p j := by
  refine answers_illegal_of (op := op) (u := noteEnd _ t p) ?_ rfl
  rw [hi, storeOp, issue, if_pos h]
  dsimp only
  rw [effAddr_noteIssue, if_neg (by simpa [inStore] using hout)]

/-- What a store inside the store does. -/
theorem answers_storeOp {P : State → Prop} (hin : effAddr s t p f / n * n + n ≤ storeSize p)
    (hP : P (noteEnd (nextPc (storePut (noteIssue s t p op 0) t p (effAddr s t p f / n * n)
      (leBytes n (getG s t p f.gb.toNat).toNat) true) t p) t p)) : answers i s P := by
  refine answers_issue hi h ?_
  rw [effAddr_noteIssue, if_pos (by simpa [inStore] using hin), getG_noteIssue]
  exact hP

/-- A store to a line that no MXA reads (R97). -/
theorem answers_storeOp_free (hin : effAddr s t p f / n * n + n ≤ storeSize p) (hfree : lineFree s t p (effAddr s t p f / n * n)) :
    answers i s fun u => wentTo s (u.setMem s.mem) t p ((pcOf s t p + 8) % 2 ^ 64) ∧
      u.mem.readBytes (storeKey t p (effAddr s t p f / n * n)) n = leBytes n (getG s t p f.gb.toNat).toNat ∧
      memSameOutside s u (storeKey t p (effAddr s t p f / n * n)) (storeKey t p (effAddr s t p f / n * n) + n) := by
  refine answers_storeOp hi h hin ?_
  rw [storePut_free (by simpa only [lineFree, mcOf_noteIssue] using hfree), writeBytes, mem_noteIssue]
  obtain ⟨hwent, hmem⟩ := wentTo_setMem h op
    (s.mem.writeBytes (storeKey t p (effAddr s t p f / n * n)) (leBytes n (getG s t p f.gb.toNat).toNat))
  have hlen := length_leBytes n (getG s t p f.gb.toNat).toNat
  refine ⟨hwent, ?_, fun a ha => ?_⟩
  · have hread := Memory.readBytes_writeBytes s.mem (storeKey t p (effAddr s t p f / n * n)) (leBytes n (getG s t p f.gb.toNat).toNat)
    rwa [hlen, ← hmem] at hread
  · rw [hmem, Memory.readByte_writeBytes_outside _ _ _ _ (by rwa [hlen])]

/-- A store to a line that an MXA still reads is held by the store (R67). -/
theorem answers_storeOp_held (hin : effAddr s t p f / n * n + n ≤ storeSize p) (hheld : ¬ lineFree s t p (effAddr s t p f / n * n)) :
    answers i s fun u => wentTo s (u.setMcs s.mcs) t p ((pcOf s t p + 8) % 2 ^ 64) ∧
      mcOf u t p = { mcOf s t p with heldW := (mcOf s t p).heldW ++
        [⟨effAddr s t p f / n * n, leBytes n (getG s t p f.gb.toNat).toNat, true⟩] } ∧
      ∀ t' n', n' < 32 → t' ≠ t.val ∨ n' ≠ p.val → mcOf u t' n' = mcOf s t' n' := by
  obtain ⟨hp, hreads⟩ := not_lineFree hheld
  refine answers_storeOp hi h hin ?_
  rw [storePut_held hp (by rwa [mcOf_noteIssue]), setMc, mcs_noteIssue, mcOf_noteIssue]
  obtain ⟨hwent, hmcs⟩ := wentTo_setMcs h op (kput .reset s.mcs (t * 32 + p) { mcOf s t p with heldW := (mcOf s t p).heldW ++
    [⟨effAddr s t p f / n * n, leBytes n (getG s t p f.gb.toNat).toNat, true⟩] })
  refine ⟨hwent, ?_, fun t' n' hn' hne => ?_⟩
  · rw [mcOf, hmcs, kget_kput, if_pos rfl]
  · rw [mcOf, hmcs, kget_kput, if_neg (by omega)]
    rfl

end

end

theorem noteIssue_free (s : State) (t p op md : Nat) : (noteIssue s t p op md).free = s.free := by
  obtain ⟨k, e, -⟩ := noteIssue_spec s t p op md
  rw [e]; rfl

theorem coreTag_noteIssue (s : State) (t p op md c : Nat) : (coreOf (noteIssue s t p op md) c).tag = (coreOf s c).tag := by
  rw [coreOf_noteIssue]
  split <;> rfl

/-- The low bytes of a number are those of its low part. -/
theorem leNat_take (l : List Byte) (k : Nat) : leNat (l.take k) = leNat l % 256 ^ k := by
  induction l generalizing k with
  | nil => simp [leNat]
  | cons b l ih =>
    cases k with
    | zero => simp [leNat, Nat.mod_one]
    | succ k =>
      have hdiv : (b.toNat + 256 * leNat l) / 256 = leNat l := by omega
      rw [List.take_succ_cons, leNat, leNat, ih, Nat.pow_succ', Nat.mod_mul, hdiv]
      omega

theorem ofNat_leNat_take (l : List Byte) : BitVec.ofNat 64 (leNat (l.take 8)) = BitVec.ofNat 64 (leNat l) := by
  refine BitVec.eq_of_toNat_eq ?_
  rw [leNat_take, BitVec.toNat_ofNat, BitVec.toNat_ofNat]
  exact Nat.mod_mod _ _

/-- A load of the whole word while one transfer writes it (R100). -/
theorem answers_ld_oneWriter {t : Fin 12} {p : Fin 41} {f : SFields} {s : State} (h : canIssue s t p = true) {y : Nat × Xfer × Nat}
    (hy : tlaWriters (noteIssue s t p 0x18 0) t (storeTla p + effAddr s t p f / 8 * 8) 8 = [y])
    (hfree : loadHeld s t p (effAddr s t p f / 8 * 8) 8 = false) (hin : effAddr s t p f / 8 * 8 + 8 ≤ storeSize p) :
    answers (.ld t p f) s fun u => ∃ v : Nat,
      (v = leNat (s.mem.readBytes (storeKey t p (effAddr s t p f / 8 * 8)) 8) ∨
        v = leNat (xferValue s t y.1 y.2.1 (storeTla p + effAddr s t p f / 8 * 8 - y.2.2) 8)) ∧
      wroteReg (s.setFree (s.free + 1)) u t p f.gd.toNat (BitVec.ofNat 64 v) := by
  obtain ⟨d, hload, hd⟩ := loadUnderXfer_one hy (Nat.mul_mod_left ..)
  have hdata : sameData s ((noteIssue s t p 0x18 0).setFree (s.free + 1)) :=
    (sameData_noteIssue ..).trans (sameData_setFree ..)
  rw [noteIssue_free] at hload hd
  have hval : xferValue ((noteIssue s t p 0x18 0).setFree (s.free + 1)) t y.1 y.2.1 (storeTla p + effAddr s t p f / 8 * 8 - y.2.2) 8 =
      xferValue s t y.1 y.2.1 (storeTla p + effAddr s t p f / 8 * 8 - y.2.2) 8 :=
    hdata.xferValue_eq _ _ _ _ _ (coreTag_noteIssue ..)
  rw [hval, mem_noteIssue] at hd
  rw [← noteIssue_setFree] at hload
  obtain ⟨u, hu, hwrote⟩ := answers_loadOp (i := .ld t p f) (k := s.free + 1) h rfl hfree hin hload
  obtain rfl | rfl := hd
  · exact ⟨u, hu, _, .inl rfl, hwrote⟩
  · exact ⟨u, hu, _, .inr rfl, by rwa [ofNat_leNat_take] at hwrote⟩

/-- Settles O3: loads and stores of the own store, outside it, under transfers and under an MXA that still reads. -/
theorem ownStoreAccess : Obligations.Own_store_access := by
  intro t p f s h
  refine ⟨⟨heldBack_loadOp h rfl, fun hfree => ⟨answers_loadOp_outside h rfl hfree,
      fun hin hquiet => answers_loadOp_quiet h rfl hfree hin (by decide) (by omega) hquiet⟩⟩,
    ⟨heldBack_loadOp h rfl, fun hfree => ⟨answers_loadOp_outside h rfl hfree,
      fun hin hquiet => answers_loadOp_quiet h rfl hfree hin (by decide) (by omega) hquiet⟩⟩,
    ⟨answers_storeOp_outside rfl h, answers_storeOp_free rfl h, answers_storeOp_held rfl h⟩,
    ⟨answers_storeOp_outside rfl h, answers_storeOp_free rfl h, answers_storeOp_held rfl h⟩,
    fun y hy hfree hin => answers_ld_oneWriter h hy hfree hin⟩

end Sys2Proof.Machine
end

section
/-!
SUPPORT. Waking a half and starting a program: what they leave of the cores (R116, R317).
-/

namespace Sys2Proof.Machine

open Sys2Proof

theorem coreOf_of_cores {s u : State} (h : u.cores = s.cores) (c : Nat) : coreOf u c = coreOf s c := by rw [coreOf, h]; rfl

theorem coreOf_count (s : State) (page off n c : Nat) : coreOf (count s page off n) c = coreOf s c := by
  obtain ⟨k, e, -⟩ := count_spec s page off n
  rw [e]; rfl

theorem tccOf_count (s : State) (page off n t : Nat) : tccOf (count s page off n) t = tccOf s t := by
  obtain ⟨k, e, -⟩ := count_spec s page off n
  rw [e]; rfl

/-- What a tile's power page raises stops no core (R128). -/
theorem coreOf_raiseWith_power (s : State) (t : Fin 12) (src tag c : Nat) (m f : Bool) :
    coreOf (raiseWith s (tilePage t 84) src tag m f) c = coreOf s c := by
  have hplace : ∀ t : Fin 12, pagePlace (tilePage t 84) = .tile t 84 := by decide
  obtain ⟨-, hcores, -⟩ := setsSource_raiseWith (s := s) (page := tilePage t 84) src tag m f (by rw [hplace]; rintro t' ⟨⟩)
  refine (hcores c).resolve_right ?_
  rintro ⟨⟨t', i, hp, -, hi, -⟩, -⟩
  rw [hplace] at hp
  injection hp with _ h
  omega

theorem coreOf_foldList {α : Type} {f : α → State → State} {c : Nat} (hf : ∀ a u, coreOf (f a u) c = coreOf u c) (l : List α)
    (s : State) : coreOf (foldList f l s) c = coreOf s c :=
  foldList_induction (P := fun u => coreOf u c = coreOf s c) (fun a u hu => (hf a u).trans hu) l rfl

section
variable (s : State) (t : Fin 12) (k c : Nat)

theorem coreOf_latchWake : coreOf (latchWake s t k) c = coreOf s c := by
  unfold latchWake
  dsimp only
  split <;> split <;> rfl

theorem coreOf_slowRequests : coreOf (slowRequests s t k) c = coreOf s c := by
  unfold slowRequests
  extract_lets j l late s'
  rw [coreOf_of_cores (setStore_cores ..)]
  refine coreOf_foldList (fun r u => ?_) l s
  split
  · exact coreOf_raiseWith_power ..
  · rfl

theorem coreOf_slowWake : coreOf (slowWake s t k) c = coreOf s c := by
  unfold slowWake raise
  split
  · split
    · exact coreOf_raiseWith_power ..
    · rfl
  · rfl

theorem coreOf_awaken : coreOf (awaken s t k) c = coreOf s c := by
  unfold awaken
  dsimp only
  split <;> simp only [coreOf_count] <;>
    exact (coreOf_slowWake ..).trans (coreOf_slowRequests ..)

theorem coreOf_wakeHalf : coreOf (wakeHalf s t k) c = coreOf s c := by
  unfold wakeHalf
  dsimp only
  split
  · rfl
  · split
    · rfl
    · split
      · exact coreOf_latchWake ..
      · exact (coreOf_awaken ..).trans (coreOf_latchWake ..)

end

theorem coreOf_abandonTest (s : State) (t u c : Nat) : coreOf (abandonTest s t u) c = coreOf s c := by
  unfold abandonTest
  split
  · split <;> rfl
  · rfl

/-- The core of a program that starts (R116, R134). -/
def Core.startedAt (k : Core) (pc g1 tag : Nat) : Core :=
  { k with
    pc := pc, g := putReg k.epoch 0#64 k.g 1 (BitVec.ofNat 64 g1), run := .running, aborted := false, tag := BitVec.ofNat 32 tag
    wait := none, stopReq := false, opcode := 0, opmod := 0, held := none }

/-- A program that starts changes the core of its participant alone. -/
theorem coreOf_startProgram (s : State) (t : Fin 12) (p pc g1 tag c : Nat) :
    coreOf (startProgram s t p pc g1 tag) c = if c = coreId t p then (coreOf s c).startedAt pc g1 tag else coreOf s c := by
  have hset : coreOf (setCore s (coreId t p) ((coreOf s (coreId t p)).startedAt pc g1 tag)) c =
      if c = coreId t p then (coreOf s c).startedAt pc g1 tag else coreOf s c := by
    rw [coreOf_setCore]
    split
    next h => rw [h]
    next => rfl
  rw [← hset]
  unfold startProgram
  dsimp only
  rw [coreOf_abandonTest]
  split
  · exact coreOf_wakeHalf ..
  · rfl

/-- The registers of a participant other than the TCC are those of its core. -/
theorem getG_core {s : State} {t p : Nat} (hp : p < 40) (j : Nat) : getG s t p j =
    if j = 0 then 0#64 else kget (lostG (coreOf s (coreId t p)).epoch (coreId t p * 64 + j)) (coreOf s (coreId t p)).g j := by
  have hbank : bankTwo s t p j = false := by simp [bankTwo, show p ≠ 40 by omega]
  rw [getG, hbank]
  rfl

/-- The registers of a program that starts: G1 is given, the others stay (R116). -/
theorem getG_startedAt {s u : State} {t p : Nat} (hp : p < 40) {pc tag : Nat} {g1 : Word64}
    (h : coreOf u (coreId t p) = (coreOf s (coreId t p)).startedAt pc g1.toNat tag) (j : Nat) :
    getG u t p j = if j = 1 then g1 else getG s t p j := by
  rw [getG_core hp, getG_core hp, h]
  simp only [Core.startedAt, BitVec.ofNat_toNat, BitVec.setWidth_eq]
  rw [kget_putReg _ _ _ _ _ _ _ (fun he => by rw [lostG, if_pos he])]
  split
  next h0 => rw [if_neg (by omega)]
  next => rfl

end Sys2Proof.Machine
end

section
/-!
The TCC starts, resumes, aborts and awaits participants, and is halted and restarted (R115 to R117, R128, R138, R523): the statement
Participant_control.
-/

namespace Sys2Proof.Machine

open Sys2Proof

theorem coreId_inj {t p q : Nat} : coreId t p = coreId t q ↔ p = q := by simp only [coreId]; omega

theorem mem_setBits {w n k : Nat} : k ∈ setBits w n ↔ k < n ∧ bitOf w k = true := by simp [setBits]

section
variable {t : Fin 12} {f : SFields} {s : State}

theorem namedPart_noteIssue (op : Nat) : namedPart (noteIssue s t 40 op 0) t f = namedPart s t f := by
  rw [namedPart, getG_noteIssue]; rfl

theorem namedMask_noteIssue (op : Nat) : namedMask (noteIssue s t 40 op 0) t f = namedMask s t f := by
  rw [namedMask, getG_noteIssue]; rfl

/-- The core of another participant is as it was while the TCC's instruction is noted. -/
theorem coreOf_noteIssue_other {q : Nat} (hq : q < 40) (op : Nat) :
    coreOf (noteIssue s t 40 op 0) (coreId t q) = coreOf s (coreId t q) := by
  rw [coreOf_noteIssue, if_neg (by rw [coreId_inj]; omega)]

/-! An instruction of the TCC whose work leaves its own core: it goes on. -/

theorem coreOf_noteEnd_other {p c : Nat} (hc : c ≠ coreId t p) : coreOf (noteEnd s t p) c = coreOf s c := by
  obtain e | ⟨x, e⟩ := noteEnd_eq_or s t p
  · rw [e]
  · rw [e, coreOf_setCore, if_neg hc]

theorem coreOf_ended_other {p c : Nat} (hc : c ≠ coreId t p) : coreOf (noteEnd (nextPc s t p) t p) c = coreOf s c := by
  rw [coreOf_noteEnd_other hc, nextPc, coreOf_setPc, if_neg hc]

theorem pcOf_ended {v : State} {p : Nat} (hv : pcOf v t p = pcOf s t p) :
    pcOf (noteEnd (nextPc v t p) t p) t p = (pcOf s t p + 8) % 2 ^ 64 := by
  rw [pcOf_noteEnd, pcOf_nextPc, hv]

theorem mem_ended {p : Nat} : (noteEnd (nextPc s t p) t p).mem = s.mem := by rw [mem_noteEnd, mem_nextPc]

/-- An instruction of the TCC that is illegal. -/
theorem wasIllegal_tcc {i : Instr} {op : Nat} {g : State → State} (h : canIssue s t 40 = true)
    (hi : exec i s = .next (issue s t 40 op 0 g)) (hg : g (noteIssue s t 40 op 0) = illegal (noteIssue s t 40 op 0) t 40) :
    answers i s fun u => wasIllegal s u t 40 := wasIllegal_issue (p := 40) h hi hg

/-! CSTART (R116, R317). -/

/-- CSTART is refused unless it names an IDLE participant below 40 whose half is not GATED. -/
def startRefused (s : State) (t p : Nat) : Bool :=
  40 ≤ p || (coreOf s (coreId t p)).run != .idle || (ptHalf p).any (halfGated s t)

theorem startRefused_iff {p : Nat} : startRefused s t p = true ↔
    40 ≤ p ∨ (coreOf s (coreId t p)).run ≠ .idle ∨ ∃ h, ptHalf p = some h ∧ halfGated s t h = true := by
  rw [← Option.any_eq_true]
  simp [startRefused, or_assoc]

theorem startRefused_noteIssue {p : Nat} (op : Nat) : startRefused (noteIssue s t 40 op 0) t p = startRefused s t p := by
  have hgated : halfGated (noteIssue s t 40 op 0) t = halfGated s t := funext fun h => (sameData_noteIssue ..).halfGated_eq t h
  by_cases hp : p < 40
  · rw [startRefused, coreOf_noteIssue_other hp, hgated]; rfl
  · simp [startRefused, show 40 ≤ p by omega]

/-- What CSTART does where it is legal. -/
def cstartWork (s : State) (t p pc g1 tag : Nat) : State :=
  count (noteStart (startProgram s t p pc g1 tag) t p pc g1 tag) (tccPage t) 0x810 1

theorem exec_cstart : exec (.cstart t f) s = .next (issue s t 40 0xC0 0 fun s =>
    if startRefused s t (namedPart s t f) then illegal s t 40
    else nextPc (cstartWork s t (namedPart s t f)
      ((getG s t 40 f.gb.toNat).toNat / 8 * 8) (getG s t 40 f.gd.toNat).toNat f.imm.toNat) t 40) := rfl

theorem coreOf_cstartWork (p pc g1 tag c : Nat) : coreOf (cstartWork s t p pc g1 tag) c =
    if c = coreId t p then (coreOf s c).startedAt pc g1 tag else coreOf s c := by
  rw [cstartWork, coreOf_count, ← coreOf_startProgram]
  rfl

theorem answers_cstart (h : canIssue s t 40 = true) :
    let p := namedPart s t f
    let k := coreOf s (coreId t p)
    p < 40 → startRefused s t p = false → answers (.cstart t f) s fun u =>
      coreOf u (coreId t p) = { k with
        pc := (getG s t 40 f.gb.toNat).toNat / 8 * 8, g := (coreOf u (coreId t p)).g, run := .running, aborted := false
        tag := f.imm, wait := none, stopReq := false, opcode := 0, opmod := 0, held := none } ∧
      getG u t p 1 = getG s t 40 f.gd.toNat ∧ (∀ j, j ≠ 1 → getG u t p j = getG s t p j) ∧
      (∀ c, c ≠ coreId t p → c ≠ coreId t 40 → coreOf u c = coreOf s c) ∧
      pcOf u t 40 = (pcOf s t 40 + 8) % 2 ^ 64 ∧ u.mem = s.mem := by
  intro p k hp hstart
  have hother : coreId t p ≠ coreId t 40 := by rw [Ne, coreId_inj]; omega
  refine answers_issue exec_cstart h ?_
  rw [namedPart_noteIssue, startRefused_noteIssue, if_neg (by simp [p, hstart]), getG_noteIssue, getG_noteIssue]
  set pc := (getG s t 40 f.gb.toNat).toNat / 8 * 8
  set w := noteIssue s t 40 0xC0 0
  set u := noteEnd (nextPc (cstartWork w t p pc (getG s t 40 f.gd.toNat).toNat f.imm.toNat) t 40) t 40
  have hcore : coreOf u (coreId t p) = k.startedAt pc (getG s t 40 f.gd.toNat).toNat f.imm.toNat := by
    rw [coreOf_ended_other hother, coreOf_cstartWork, if_pos rfl, coreOf_noteIssue_other hp]
  refine ⟨?_, ?_, fun j hj => ?_, fun c hc hc' => ?_, pcOf_ended ?_, ?_⟩
  · rw [hcore]
    simp [Core.startedAt]
  · rw [getG_startedAt hp hcore, if_pos rfl]
  · rw [getG_startedAt hp hcore, if_neg hj]
  · rw [coreOf_ended_other hc', coreOf_cstartWork, if_neg hc, coreOf_noteIssue, if_neg hc']
  · rw [pcOf, coreOf_cstartWork, if_neg hother.symm]
    exact pcOf_noteIssue ..
  · rw [mem_ended, cstartWork, mem_count, mem_noteStart, mem_startProgram, mem_noteIssue]

theorem answers_cstart_illegal (h : canIssue s t 40 = true) (hstart : startRefused s t (namedPart s t f) = true) :
    answers (.cstart t f) s fun u => wasIllegal s u t 40 :=
  wasIllegal_tcc h exec_cstart (by rw [namedPart_noteIssue, startRefused_noteIssue, if_pos hstart])

/-! CRESUME (R128). -/

theorem exec_cresume : exec (.cresume t f) s = .next (issue s t 40 0xC3 0 fun s =>
    if 40 ≤ namedPart s t f || (coreOf s (coreId t (namedPart s t f))).run != .trapped then illegal s t 40
    else resumePart (nextPc s t 40) (coreId t (namedPart s t f)) (coreOf s (coreId t (namedPart s t f))).wait) := rfl

theorem coreOf_endWait_other {c c' d : Nat} {x : Word64} (hc : c' ≠ c) :
    coreOf (endWait (setG s (c / 41) (c % 41) d x) (c / 41) (c % 41)) c' = coreOf s c' := by
  obtain ⟨-, hother, -⟩ := setG_spec s (c / 41) (c % 41) d x
  rw [endWait, coreOf_setCore, coreId_div_mod, if_neg hc, hother c' (by rwa [coreId_div_mod])]

/-- A participant whose wait ends changes no core but its own. -/
theorem coreOf_finishWait_other {c c' status : Nat} (hc : c' ≠ c) : coreOf (finishWait s c status) c' = coreOf s c' := by
  unfold finishWait
  dsimp only
  split
  · exact coreOf_endWait_other (s := dropWaiter s c) hc
  · have := coreOf_endWait_other (s := dropWaiter s c) (d := 0) (x := 0) hc
    rwa [setG_zero] at this
  · rfl

theorem coreOf_resumePart_other {c c' : Nat} {w : Option Wait} (hc : c' ≠ c) : coreOf (resumePart s c w) c' = coreOf s c' := by
  unfold resumePart
  have hset (x : Core) : coreOf (setCore s c x) c' = coreOf s c' := by rw [coreOf_setCore, if_neg hc]
  dsimp only
  split
  · exact hset _
  · split
    · split
      · exact (coreOf_finishWait_other hc).trans (hset _)
      · exact hset _
    · exact hset _

/-- A participant resumes and runs, where it waited for nothing. -/
theorem coreOf_resumePart_none (s : State) (c : Nat) :
    coreOf (resumePart s c none) c = { coreOf s c with run := .running, wait := none } := by
  rw [resumePart, coreOf_setCore, if_pos rfl]

/-- A participant goes back into a wait that nothing granted meanwhile. -/
theorem coreOf_resumePart_some {c : Nat} {w : Wait} (h : (waiterOf s c).bind (·.ready) = none) :
    coreOf (resumePart s c (some w)) c = { coreOf s c with run := .waiting, wait := some w } := by
  have hw : waiterOf (setCore s c { coreOf s c with run := .waiting, wait := some w }) c = waiterOf s c := rfl
  have hset : coreOf (setCore s c { coreOf s c with run := .waiting, wait := some w }) c =
      { coreOf s c with run := .waiting, wait := some w } := by rw [coreOf_setCore, if_pos rfl]
  unfold resumePart
  dsimp only
  rw [hw]
  split
  next x hx =>
    rw [hx, Option.bind_some] at h
    rw [h]
    exact hset
  next => exact hset

theorem answers_cresume (h : canIssue s t 40 = true) :
    let p := namedPart s t f
    let k := coreOf s (coreId t p)
    p < 40 → k.run = .trapped → answers (.cresume t f) s fun u => u.mem = s.mem ∧ pcOf u t 40 = (pcOf s t 40 + 8) % 2 ^ 64 ∧
      (k.wait = none → coreOf u (coreId t p) = { k with run := .running }) ∧
      ∀ w, k.wait = some w → ((waiterOf s (coreId t p)).bind (·.ready)) = none →
        coreOf u (coreId t p) = { k with run := .waiting } := by
  intro p k hp hrun
  have hother : coreId t p ≠ coreId t 40 := by rw [Ne, coreId_inj]; omega
  refine answers_issue exec_cresume h ?_
  rw [namedPart_noteIssue, coreOf_noteIssue_other hp, if_neg (by simp [show (coreOf s (coreId t p)).run = .trapped from hrun]; exact hp)]
  set w := nextPc (noteIssue s t 40 0xC3 0) t 40
  have hk : coreOf w (coreId t p) = k := by
    rw [coreOf_issued, if_neg hother]
  refine ⟨?_, ?_, fun hwait => ?_, fun x hwait hready => ?_⟩
  · rw [mem_noteEnd, mem_resumePart, mem_issued]
  · rw [pcOf_noteEnd, pcOf, coreOf_resumePart_other hother.symm]
    exact (pcOf_nextPc ..).trans (by rw [pcOf_noteIssue])
  · rw [coreOf_noteEnd_other hother, hwait, coreOf_resumePart_none, hk, ← hwait]
  · have hwaiter : waiterOf w (coreId t p) = waiterOf s (coreId t p) := by
      rw [waiterOf, sync_nextPc, sync_noteIssue]; rfl
    rw [coreOf_noteEnd_other hother, hwait, coreOf_resumePart_some (by rwa [hwaiter]), hk, ← hwait]

theorem answers_cresume_illegal (h : canIssue s t 40 = true)
    (hbad : 40 ≤ namedPart s t f ∨ (coreOf s (coreId t (namedPart s t f))).run ≠ .trapped) :
    answers (.cresume t f) s fun u => wasIllegal s u t 40 := by
  refine wasIllegal_tcc h exec_cresume ?_
  rw [namedPart_noteIssue, if_pos]
  by_cases hp : namedPart s t f < 40
  · rw [coreOf_noteIssue_other hp]
    simpa using hbad
  · simp [show 40 ≤ namedPart s t f by omega]

/-! CABORT (R117). -/

theorem coreOf_abortPart (s : State) (t : Fin 12) {p : Nat} (hp : p < 41) (c : Nat) :
    coreOf (abortPart s t p) c = if c = coreId t p then (coreOf s c).abortedCore else coreOf s c := by
  rw [abortPart, coreOf_count]
  exact (endAborted_spec s t ⟨p, hp⟩).1 c

/-- Participants aborted one after another: each of them is idle and aborted, and every other core is as it was. -/
theorem coreOf_abortParts (t : Fin 12) (c : Nat) : ∀ (l : List Nat) (s : State), (∀ q ∈ l, q < 41) →
    coreOf (foldList (fun p st => abortPart st t p) l s) c =
      if ∃ q ∈ l, c = coreId t q then (coreOf s c).abortedCore else coreOf s c
  | [], s, _ => by simp [foldList]
  | p :: l, s, hl => by
    have hp := hl p (.head _)
    rw [foldList, coreOf_abortParts t c l _ fun q hq => hl q (.tail _ hq), coreOf_abortPart s t hp]
    by_cases hc : c = coreId t p
    · have hex : ∃ q ∈ p :: l, c = coreId t q := ⟨p, .head _, hc⟩
      rw [if_pos hc, if_pos hex]
      split <;> rfl
    · have hex : (∃ q ∈ p :: l, c = coreId t q) ↔ ∃ q ∈ l, c = coreId t q := by simp [hc]
      rw [if_neg hc]
      simp only [hex]

/-- No MXA is in an array or waits. -/
def arrayIdle (s : State) (t n : Nat) : Prop := (mcOf s t n).cur = none ∧ (mcOf s t n).waiting = none

/-- Ending a program whose array is idle leaves idle arrays idle. -/
theorem arrayIdle_endAborted {p n : Nat} (h : p < 32 → arrayIdle s t p) (hn : arrayIdle s t n) : arrayIdle (endAborted s t p) t n := by
  unfold endAborted
  extract_lets k s₁ s₂
  have hm (q : Nat) : mcOf s₂ t q = mcOf s t q := rfl
  obtain ⟨x, hx⟩ := touchPart_eq (if p < 32 then mcAbort s₂ t p else s₂) t p
  rw [hx]
  split
  next hp =>
    obtain ⟨hcur, hwait⟩ := h hp
    have hflush : mcAbort s₂ t p = ringFlush s₂ t p := by
      rw [mcAbort, hm]
      simp only [hwait, hm, hcur]
    rw [hflush]
    change (mcOf (setMc s₂ t p _) t n).cur = none ∧ (mcOf (setMc s₂ t p _) t n).waiting = none
    unfold mcOf setMc
    rw [setMcs_mcs, kget_kput]
    split
    · exact ⟨hcur, hwait⟩
    · exact hn
  next => exact hn

/-- Aborting a participant whose array is idle leaves memory, and leaves idle arrays idle. -/
theorem abortPart_arrayIdle {p : Nat} (h : p < 32 → arrayIdle s t p) :
    (abortPart s t p).mem = s.mem ∧ ∀ n, arrayIdle s t n → arrayIdle (abortPart s t p) t n := by
  refine ⟨by rw [abortPart, mem_count, mem_endAborted s t p h], fun n hn => ?_⟩
  rw [arrayIdle, abortPart, mcOf_count]
  exact arrayIdle_endAborted h hn

theorem mem_abortParts (t : Fin 12) : ∀ (l : List Nat) (s : State), (∀ q ∈ l, q < 32 → arrayIdle s t q) →
    (foldList (fun p st => abortPart st t p) l s).mem = s.mem
  | [], _, _ => rfl
  | p :: l, s, h => by
    obtain ⟨hmem, hidle⟩ := abortPart_arrayIdle (t := t) (h p (.head _))
    rw [foldList, mem_abortParts t l _ fun q hq hq' => hidle q (h q (.tail _ hq) hq'), hmem]

theorem answers_cabort (h : canIssue s t 40 = true) : answers (.cabort t f) s fun u => pcOf u t 40 = (pcOf s t 40 + 8) % 2 ^ 64 ∧
    ((∀ q ∈ namedMask s t f, q < 32 → arrayIdle s t q) → u.mem = s.mem) ∧
    ∀ q < 40, (q ∈ namedMask s t f → (coreOf u (coreId t q)).run = .idle ∧ (coreOf u (coreId t q)).aborted = true) ∧
      (q ∉ namedMask s t f → coreOf u (coreId t q) = coreOf s (coreId t q)) := by
  refine answers_issue (i := .cabort t f) rfl h ?_
  rw [namedMask_noteIssue]
  have hlt (q : Nat) (hq : q ∈ namedMask s t f) : q < 40 := (mem_setBits.1 hq).1
  have hcore (c : Nat) := coreOf_abortParts t c (namedMask s t f) (noteIssue s t 40 0xC2 0) fun q hq => (hlt q hq).trans (by decide)
  refine ⟨pcOf_ended ?_, fun hidle => ?_, fun q hq => ?_⟩
  · rw [pcOf, hcore, if_neg ?_]
    · exact pcOf_noteIssue ..
    · rintro ⟨q, hq, he⟩
      have := hlt q hq
      rw [coreId_inj] at he
      omega
  · rw [mem_ended, mem_abortParts, mem_noteIssue]
    intro q hq hq'
    rw [arrayIdle, mcOf_noteIssue]
    exact hidle q hq hq'
  · have hne : coreId t q ≠ coreId t 40 := by rw [Ne, coreId_inj]; omega
    have hex : (∃ q' ∈ namedMask s t f, coreId t q = coreId t q') ↔ q ∈ namedMask s t f := by simp [coreId_inj]
    rw [coreOf_ended_other hne, hcore, coreOf_noteIssue_other hq]
    simp only [hex]
    exact ⟨fun hq => by rw [if_pos hq]; exact ⟨rfl, rfl⟩, fun hq => if_neg hq⟩

/-! CWAIT (R115). -/

theorem allIdle_iff {l : List Nat} : allIdle s t l = true ↔ ∀ q ∈ l, (coreOf s (coreId t q)).run = .idle := by simp [allIdle]

theorem allIdle_noteIssue (op : Nat) {l : List Nat} (hl : ∀ q ∈ l, q < 40) : allIdle (noteIssue s t 40 op 0) t l = allIdle s t l := by
  rw [Bool.eq_iff_iff, allIdle_iff, allIdle_iff]
  exact forall₂_congr fun q hq => by rw [coreOf_noteIssue_other (hl q hq)]

theorem abortedMask_noteIssue (op : Nat) {l : List Nat} (hl : ∀ q ∈ l, q < 40) :
    abortedMask (noteIssue s t 40 op 0) t l = abortedMask s t l := by
  rw [abortedMask, abortedMask, List.filter_congr fun q hq => by rw [coreOf_noteIssue_other (hl q hq)]]

theorem exec_cwait : exec (.cwait t f) s = .next (issue s t 40 0xC1 0 fun s =>
    if allIdle s t (namedMask s t f) then
      nextPc (setG s t 40 f.gd.toNat (BitVec.ofNat 64 (abortedMask s t (namedMask s t f)))) t 40
    else enterWait s (coreId t 40) (.cwait (maskOf (namedMask s t f)) f.gd.toNat)) := rfl

theorem namedMask_lt {q : Nat} (hq : q ∈ namedMask s t f) : q < 40 := (mem_setBits.1 hq).1

theorem answers_cwait_idle (h : canIssue s t 40 = true) (hidle : allIdle s t (namedMask s t f) = true) :
    answers (.cwait t f) s fun u =>
      wroteReg s u t 40 f.gd.toNat (BitVec.ofNat 64 (abortedMask s t (namedMask s t f))) := by
  refine answers_issue exec_cwait h ?_
  rw [namedMask_noteIssue, allIdle_noteIssue _ fun q hq => namedMask_lt hq, abortedMask_noteIssue _ fun q hq => namedMask_lt hq,
    if_pos hidle]
  exact wroteReg_noteIssue _ _ _ _ _ _ (wait_of_canIssue h)

/-- An instruction that waits stays in progress, and nothing but its core changes (R134). -/
theorem waits_issue {t p op : Nat} (h : canIssue s t p = true) (w : Wait) :
    let u := noteEnd (enterWait (noteIssue s t p op 0) (coreId t p) w) t p
    u = { s with cores := u.cores, regs := u.regs } ∧
      coreOf u (coreId t p) = { coreOf s (coreId t p) with run := .waiting, wait := some w, opcode := op, opmod := 0 } := by
  have hcore : coreOf (enterWait (noteIssue s t p op 0) (coreId t p) w) (coreId t p) =
      { coreOf s (coreId t p) with run := .waiting, wait := some w, opcode := op, opmod := 0 } := by
    rw [enterWait, coreOf_setCore, if_pos rfl, coreOf_noteIssue, if_pos rfl, ← held_of_canIssue h]
  have hstay : noteEnd (enterWait (noteIssue s t p op 0) (coreId t p) w) t p = enterWait (noteIssue s t p op 0) (coreId t p) w :=
    if_pos (by rw [hcore]; rfl)
  dsimp only
  rw [hstay]
  refine ⟨?_, hcore⟩
  obtain ⟨k, e, -⟩ := noteIssue_spec s t p op 0
  rw [e]
  rfl

theorem answers_cwait_waits (h : canIssue s t 40 = true) (hidle : allIdle s t (namedMask s t f) = false) :
    answers (.cwait t f) s fun u => u = { s with cores := u.cores, regs := u.regs } ∧
      coreOf u (coreId t 40) = { coreOf s (coreId t 40) with
        run := .waiting, wait := some (.cwait (maskOf (namedMask s t f)) f.gd.toNat), opcode := 0xC1, opmod := 0 } := by
  refine answers_issue exec_cwait h ?_
  rw [namedMask_noteIssue, allIdle_noteIssue _ fun q hq => namedMask_lt hq, if_neg (by simp [hidle])]
  exact waits_issue h _

section
variable {m rd : Nat} (hrun : (coreOf s (coreId t 40)).run = .waiting) (hwait : (coreOf s (coreId t 40)).wait = some (.cwait m rd))
include hrun hwait

theorem exec_cwaitRelease : exec (.cwaitRelease t) s = .next (
    if allIdle s t (setBits m 40) then endWait (setG s t 40 rd (BitVec.ofNat 64 (abortedMask s t (setBits m 40)))) t 40 else s) := by
  change Host.Outcome.next _ = _
  rw [hrun, hwait]

end

/-- The end of a wait of the TCC that answers with a value. -/
theorem answered_endWait (s : State) (t rd : Nat) (v : Word64) :
    let u := endWait (setG s t 40 rd v) t 40
    getG u t 40 rd = (if rd = 0 then 0 else v) ∧ (coreOf u (coreId t 40)).run = .running ∧ (coreOf u (coreId t 40)).wait = none ∧
      pcOf u t 40 = (pcOf s t 40 + 8) % 2 ^ 64 := by
  have hcore (x : Core) (u : State) : coreOf (setCore u (coreId t 40) x) (coreId t 40) = x := by rw [coreOf_setCore, if_pos rfl]
  refine ⟨?_, ?_, ?_, ?_⟩
  · rw [endWait, getG_setCore (setG s t 40 rd v) t 40 rd _ (by rfl) (by rfl), getG_setG]
    by_cases h0 : rd = 0
    · rw [if_neg (by simp [h0]), if_pos h0, h0, getG_zero]
      rfl
    · rw [if_pos ⟨rfl, h0⟩, if_neg h0]
  · rw [endWait, hcore]
  · rw [endWait, hcore]
  · rw [endWait, pcOf, hcore, pc_setG]
    rfl

/-! TCC_CTL (R138). -/

theorem bitOf_tccCtl_pclrBits (s : State) (t : Nat) :
    bitOf (pget (pclrBits s (tccPage t) 0x098 1) (tccPage t) 0x098) 0 = false := by
  rw [pclrBits, pget_pset _ _ _ _ _ _ (by decide) (by decide), if_pos ⟨rfl, rfl⟩, bitOf_mod _ _ (by decide), bitOf_eq_testBit,
    Nat.testBit_and]
  exact Bool.and_false _

/-- HALT 1 halts the TCC (R138). -/
theorem haltWrite_true (s : State) (t : Nat) : let u := haltWrite s t true
    u.mem = s.mem ∧ u.cores = s.cores ∧ tccOf u t = { tccOf s t with halted := true } ∧ bitOf (pget u (tccPage t) 0x098) 0 = true := by
  refine ⟨rfl, rfl, ?_, bitOf_tccCtl_psetBits ..⟩
  change tccOf (setTcc s t _) t = _
  rw [tccOf_setTcc, if_pos rfl]

/-- A TCC let run, before its program and its PC are looked at: HALT reads 0 (R138). -/
def haltCleared (s : State) (t : Nat) : State :=
  pclrBits (setTcc s t { tccOf s t with halted := false, fresh := false }) (tccPage t) 0x098 1

/-- A TCC without a program runs. -/
def runsIfIdle (s : State) (t : Nat) : State :=
  if (coreOf s (coreId t 40)).run = .idle then setCore (haltCleared s t) (coreId t 40) { coreOf s (coreId t 40) with run := .running }
  else haltCleared s t

theorem haltWrite_false_eq (h : (tccOf s t).locked = false) : haltWrite s t false =
    if (tccOf s t).fresh then setPc (runsIfIdle s t) t 40 (fld (pget (runsIfIdle s t) (tccPage t) 0x09C) 18 3 * 8)
    else runsIfIdle s t := by
  rw [haltWrite, if_neg Bool.false_ne_true, if_neg (by simp [h])]
  rfl

theorem coreOf_runsIfIdle (s : State) (t c : Nat) : coreOf (runsIfIdle s t) c = if c = coreId t 40 then
    { coreOf s c with run := if (coreOf s c).run = .idle then .running else (coreOf s c).run } else coreOf s c := by
  unfold runsIfIdle
  split
  next hrun =>
    rw [coreOf_setCore]
    split
    next hc => rw [hc, if_pos hrun]
    next => rfl
  next hrun =>
    split
    next hc => rw [hc, if_neg hrun]; rfl
    next => rfl

theorem runsIfIdle_rest (s : State) (t : Nat) : (runsIfIdle s t).mem = s.mem ∧
    tccOf (runsIfIdle s t) t = { tccOf s t with halted := false, fresh := false } ∧
    bitOf (pget (runsIfIdle s t) (tccPage t) 0x098) 0 = false ∧
    pget (runsIfIdle s t) (tccPage t) 0x09C = pget s (tccPage t) 0x09C := by
  have hrest : (runsIfIdle s t).mem = s.mem ∧ (runsIfIdle s t).tccs = (haltCleared s t).tccs ∧
      (runsIfIdle s t).regs = (haltCleared s t).regs := by
    unfold runsIfIdle
    split <;> exact ⟨rfl, rfl, rfl⟩
  obtain ⟨hmem, htccs, hregs⟩ := hrest
  refine ⟨hmem, ?_, ?_, ?_⟩
  · rw [tccOf, htccs]
    exact (tccOf_setTcc s t t { tccOf s t with halted := false, fresh := false }).trans (if_pos rfl)
  · rw [pget, regGet, hregs]
    exact bitOf_tccCtl_pclrBits ..
  · rw [pget, regGet, hregs]
    change pget (haltCleared s t) (tccPage t) 0x09C = _
    rw [haltCleared, pclrBits, pget_pset _ _ _ _ _ _ (by decide) (by decide), if_neg (by simp)]
    rfl

/-- What HALT 0 leaves of a TCC that no fault holds (R138). -/
theorem haltWrite_false (h : (tccOf s t).locked = false) : let u := haltWrite s t false
    u.mem = s.mem ∧ tccOf u t = { tccOf s t with halted := false, fresh := false } ∧ bitOf (pget u (tccPage t) 0x098) 0 = false ∧
      (∀ c, c ≠ coreId t 40 → coreOf u c = coreOf s c) ∧
      coreOf u (coreId t 40) = { coreOf s (coreId t 40) with
        run := if (coreOf s (coreId t 40)).run = .idle then .running else (coreOf s (coreId t 40)).run
        pc := if (tccOf s t).fresh = true then fld (pget s (tccPage t) 0x09C) 18 3 * 8 else (coreOf s (coreId t 40)).pc } := by
  obtain ⟨hmem, htcc, hctl, hboot⟩ := runsIfIdle_rest s t
  have hfld : fld (pget s (tccPage t) 0x09C) 18 3 < 2 ^ 16 := Nat.mod_lt _ (by decide)
  rw [haltWrite_false_eq h]
  split
  next hfresh =>
    refine ⟨hmem, htcc, hctl, fun c hc => ?_, ?_⟩
    · rw [coreOf_setPc, if_neg hc, coreOf_runsIfIdle, if_neg hc]
    · rw [coreOf_setPc, if_pos rfl, coreOf_runsIfIdle, if_pos rfl, hboot, Nat.mod_eq_of_lt (by omega)]
  next hfresh =>
    refine ⟨hmem, htcc, hctl, fun c hc => ?_, ?_⟩
    · rw [coreOf_runsIfIdle, if_neg hc]
    · rw [coreOf_runsIfIdle, if_pos rfl]

/-- RESTART clears the trap, what is pending, and the wait; the PC takes TCC_BOOT (R138, R523). -/
theorem tccRestart_spec (s : State) (t : Nat) : let u := tccRestart s t
    u.mem = s.mem ∧ u.regs = s.regs ∧ tccOf u t = { tccOf s t with
      inTrap := false, pend := [], events := 0, locked := false, nested := false, savedWait := none, fresh := false } ∧
    (∀ c, c ≠ coreId t 40 → coreOf u c = coreOf s c) ∧
    coreOf u (coreId t 40) = { coreOf s (coreId t 40) with
      pc := fld (pget s (tccPage t) 0x09C) 18 3 * 8, wait := none, opcode := 0, opmod := 0, held := none
      run := if (coreOf s (coreId t 40)).run = .waiting then .running else (coreOf s (coreId t 40)).run } := by
  refine ⟨rfl, rfl, ?_, fun c hc => ?_, ?_⟩
  · change tccOf (setTcc (dropWaiters s _) t _) t = _
    rw [tccOf_setTcc, if_pos rfl]
  · change coreOf (setCore _ (coreId t 40) _) c = _
    rw [coreOf_setCore, if_neg hc]
    rfl
  · change coreOf (setCore _ (coreId t 40) _) (coreId t 40) = _
    rw [coreOf_setCore, if_pos rfl]
    rfl

end

/-- Settles O21: CSTART, CRESUME, CABORT and CWAIT, and HALT and RESTART of the TCC. -/
theorem participantControl : Obligations.Participant_control := by
  refine ⟨fun t f s => ?_, fun t s => ?_⟩
  · intro a p k named gated next idle
    refine ⟨fun h => ?_, fun m rd hrun hwait => ⟨fun hidle => ?_, fun hidle => ?_⟩⟩
    · refine ⟨fun hp hrun hgated => answers_cstart h hp ?_, fun hbad => answers_cstart_illegal h (startRefused_iff.2 hbad),
        answers_cresume h, answers_cresume_illegal h, answers_cabort h,
        fun hidle => answers_cwait_idle h (allIdle_iff.2 hidle),
        fun hidle => answers_cwait_waits h (by rw [← Bool.not_eq_true, allIdle_iff]; exact hidle)⟩
      rw [← Bool.not_eq_true, startRefused_iff]
      rintro (h40 | hbusy | hg)
      · exact absurd hp (not_lt.2 h40)
      · exact hbusy hrun
      · exact hgated hg
    · refine ⟨_, (exec_cwaitRelease hrun hwait).trans (congrArg _ (if_pos (allIdle_iff.2 hidle))), ?_, answered_endWait s t rd _⟩
      rw [mem_endWait, mem_setG]
    · rw [idles, exec_cwaitRelease hrun hwait, if_neg (by rw [allIdle_iff]; exact hidle)]
  · have hpage := pageInNoHalf_tcc t
    refine ⟨writesReg_of_pageInNoHalf hpage rfl (haltWrite_true ..), writesReg_of_pageInNoHalf hpage rfl ?_,
      writesReg_of_pageInNoHalf hpage rfl ?_⟩
    · refine ⟨mem_haltWrite .., fun hlocked => ?_, fun hlocked => ?_⟩
      · rw [haltWrite, if_neg Bool.false_ne_true, if_pos hlocked]
      · obtain ⟨-, htcc, hctl, -, hcore⟩ := haltWrite_false hlocked
        refine ⟨htcc, hctl, fun hfresh => ?_, fun hrun => ?_⟩
        · rw [pcOf, hcore]
          exact if_pos hfresh
        · rw [hcore]
          exact if_pos hrun
    · obtain ⟨hmem, hregs, htcc, -, hcore⟩ := tccRestart_spec (wakeFor s 1) t
      refine ⟨hmem, hregs, htcc, ?_, ?_⟩
      · rw [pcOf, hcore]
      · rw [hcore]

end Sys2Proof.Machine
end

section
/-!
Traps and events of the TCC (R127 to R131, R449, R523): the statement Traps_and_events.
-/

namespace Sys2Proof.Machine

open Sys2Proof

/-! The pending cause that is taken next (R130). -/

theorem TrapCause.not_before_of_before {c d : TrapCause} (h : TrapCause.before c d = true) : TrapCause.before d c = false := by
  cases c <;> cases d <;> simp [TrapCause.before] at h ⊢ <;> omega

/-- One step of the search for the cause that is taken next. -/
def earlier (b : Option TrapCause) (c : TrapCause) : Option TrapCause :=
  match b with
  | none => some c
  | some x => if TrapCause.before c x then some c else some x

/-- The search ends with the cause that comes before every other. -/
theorem foldl_earlier {c : TrapCause} : ∀ (l : List TrapCause) (b : Option TrapCause), (∀ d ∈ l, d ≠ c → TrapCause.before c d = true) →
    (b = some c ∨ c ∈ l ∧ ∀ x, b = some x → x ≠ c → TrapCause.before c x = true) → l.foldl earlier b = some c
  | [], b, _, hb => hb.resolve_right fun h => nomatch h.1
  | a :: l, b, hl, hb => by
    have htail (d : TrapCause) (hd : d ∈ l) : d ≠ c → TrapCause.before c d = true := hl d (.tail _ hd)
    refine foldl_earlier l _ htail ?_
    by_cases ha : a = c
    · refine .inl ?_
      subst ha
      cases b with
      | none => rfl
      | some x =>
        by_cases hx : x = a
        · simp [earlier, hx]
        · have hbefore : TrapCause.before a x = true := by
            obtain h | ⟨-, h⟩ := hb
            · exact absurd (Option.some.inj h) hx
            · exact h x rfl hx
          simp [earlier, hbefore]
    · have hca : TrapCause.before c a = true := hl a (.head _) ha
      obtain rfl | ⟨hmem, hx⟩ := hb
      · exact .inl (by simp [earlier, TrapCause.not_before_of_before hca])
      · have hmem' : c ∈ l := (List.mem_cons.1 hmem).resolve_left (Ne.symm ha)
        refine .inr ⟨hmem', fun y hy hyc => ?_⟩
        cases b with
        | none => cases hy; exact hca
        | some x =>
          simp only [earlier] at hy
          split at hy
          · cases hy; exact hca
          · cases hy; exact hx y rfl hyc

theorem nextCause_of_first {c : TrapCause} {l : List TrapCause} (hc : c ∈ l) (h : ∀ d ∈ l, d ≠ c → TrapCause.before c d = true) :
    nextCause l = some c :=
  foldl_earlier l none h (.inr ⟨hc, fun _ hx => nomatch hx⟩)

/-! The entry into a trap (R129). -/

/-- The TCC in the trap of a cause: the saved PC, the cause word, and the other causes pending. -/
def entersTrap (s u : State) (t : Nat) (c : TrapCause) (epc : Nat) : Prop :=
  tccOf u t = { tccOf s t with inTrap := true, epc := epc, cause := TrapCause.word c, pend := (tccOf s t).pend.filter (· != c)
                               savedWait := (tccOf u t).savedWait } ∧
  pcOf u t 40 = fld (pget s (tccPage t) 0x080) 18 3 * 8 ∧ (coreOf u (coreId t 40)).run = .running ∧ u.mem = s.mem ∧
  u.sync = { s.sync with waiters := u.sync.waiters }

theorem sync_count (s : State) (page off n : Nat) : (count s page off n).sync = s.sync := by
  obtain ⟨k, e, -⟩ := count_spec s page off n
  rw [e]; rfl

section
variable {t : Fin 12} {f : SFields} {s : State}

theorem enterTrap_spec (s : State) (t : Nat) (c : TrapCause) (epc : Nat) (saved : Option Wait) :
    entersTrap s (enterTrap s t c epc saved) t c epc ∧ (tccOf (enterTrap s t c epc saved) t).savedWait = saved := by
  have hmem := mem_enterTrap s t c epc saved
  unfold enterTrap
  extract_lets k s₁ x tvec s₂
  have hs₂ : tccOf s₂ t = { k with
      inTrap := true, epc := epc, cause := TrapCause.word c, pend := k.pend.filter (· != c), savedWait := saved } :=
    (tccOf_setTcc ..).trans (if_pos rfl)
  have hcore : coreOf s₂ (coreId t 40) = { x with pc := tvec, run := .running, wait := none, opcode := 0, opmod := 0, held := none } :=
    (coreOf_setCore ..).trans (if_pos rfl)
  have hrest : ∀ v : State, v = (if k.inTrap then s₂ else saveWaiter s₂ (coreId t 40) true) → tccOf v t = tccOf s₂ t ∧
      coreOf v (coreId t 40) = coreOf s₂ (coreId t 40) ∧ v.sync = { s.sync with waiters := v.sync.waiters } := by
    rintro v rfl
    split <;> exact ⟨rfl, rfl, rfl⟩
  obtain ⟨htcc, hc, hsync⟩ := hrest _ rfl
  refine ⟨⟨?_, ?_, ?_, hmem, ?_⟩, ?_⟩
  · rw [tccOf_count, htcc, hs₂]
  · rw [pcOf, coreOf_count, hc, hcore]
    rfl
  · rw [coreOf_count, hc, hcore]
  · rw [sync_count]
    exact hsync
  · rw [tccOf_count, htcc, hs₂]

theorem entersTrap.noteEnd {u : State} {c : TrapCause} {epc : Nat} (h : entersTrap s u t c epc) :
    entersTrap s (noteEnd u t 40) t c epc := by
  obtain ⟨htcc, hpc, hrun, hmem, hsync⟩ := h
  exact ⟨by rwa [tccOf_noteEnd], by rwa [pcOf_noteEnd], by rwa [run_noteEnd], by rwa [mem_noteEnd], by rwa [sync_noteEnd]⟩

theorem pget_noteIssue (s : State) (t p op md page off : Nat) : pget (noteIssue s t p op md) page off = pget s page off := by
  obtain ⟨k, e, -⟩ := noteIssue_spec s t p op md
  rw [e]; rfl

theorem entersTrap_noteIssue {u : State} {op epc : Nat} {c : TrapCause} (h : entersTrap (noteIssue s t 40 op 0) u t c epc) :
    entersTrap s u t c epc := by
  simpa only [entersTrap, tccOf_noteIssue, pget_noteIssue, mem_noteIssue, sync_noteIssue] using h

/-- TCC_TRAP_ENTRY at an instruction boundary, with a cause to take (R129). -/
theorem answers_tccTrapEntry {c : TrapCause} (hnest : (tccOf s t).nested = false) (hhalt : (tccOf s t).halted = false)
    (htrap : (tccOf s t).inTrap = false) (hc : nextCause (tccOf s t).pend = some c) : answers (.tccTrapEntry t) s fun u =>
      entersTrap s u t c (coreOf s (coreId t 40)).pc ∧ (tccOf u t).savedWait = (coreOf s (coreId t 40)).wait := by
  have hexec : exec (.tccTrapEntry t) s =
      .next (enterTrap s t c (coreOf s (coreId t 40)).pc (coreOf s (coreId t 40)).wait) := by
    change execTccTrapEntry t s = _
    rw [execTccTrapEntry, hnest, hc, if_neg Bool.false_ne_true, hhalt, htrap]
    rfl
  exact ⟨_, hexec, enterTrap_spec ..⟩

theorem idles_tccTrapEntry (hnest : (tccOf s t).nested = false)
    (h : (tccOf s t).halted = true ∨ (tccOf s t).inTrap = true ∨ (tccOf s t).pend = []) : idles (.tccTrapEntry t) s := by
  change execTccTrapEntry t s = _
  rw [execTccTrapEntry, hnest, if_neg Bool.false_ne_true]
  split
  next c hc =>
    rw [if_pos ?_]
    obtain h | h | h := h
    · simp [h]
    · simp [h]
    · rw [h] at hc
      cases hc
  next => rfl

/-! TRET (R130). -/

theorem exec_tret : exec (.tret t f) s = .next (issue s t 40 0xC6 0 fun s =>
    if !(tccOf s t).inTrap then illegal s t 40
    else
      match nextCause (tccOf s t).pend with
      | some c => enterTrap s t c (tccOf s t).epc (tccOf s t).savedWait
      | none =>
        resumePart (saveWaiter (dropWaiter (setPc (setTcc s t { tccOf s t with inTrap := false, savedWait := none }) t 40 (tccOf s t).epc)
          (coreId t 40)) (coreId t 40) false) (coreId t 40) (tccOf s t).savedWait) := rfl

theorem answers_tret_illegal (h : canIssue s t 40 = true) (htrap : (tccOf s t).inTrap = false) :
    answers (.tret t f) s fun u => wasIllegal s u t 40 :=
  wasIllegal_tcc h exec_tret (by rw [tccOf_noteIssue, htrap]; rfl)

/-- TRET with a cause to take enters its trap (R130). -/
theorem answers_tret_next {c : TrapCause} (h : canIssue s t 40 = true) (htrap : (tccOf s t).inTrap = true)
    (hc : nextCause (tccOf s t).pend = some c) : answers (.tret t f) s fun u =>
      entersTrap s u t c (tccOf s t).epc ∧ (tccOf u t).savedWait = (tccOf s t).savedWait := by
  refine answers_issue exec_tret h ?_
  rw [tccOf_noteIssue, htrap, hc]
  obtain ⟨henter, hsaved⟩ := enterTrap_spec (noteIssue s t 40 0xC6 0) t c (tccOf s t).epc (tccOf s t).savedWait
  exact ⟨entersTrap_noteIssue henter.noteEnd, by rw [tccOf_noteEnd]; exact hsaved⟩

/-- TRET with no cause to take leaves the trap (R130). -/
theorem answers_tret_leave (h : canIssue s t 40 = true) (htrap : (tccOf s t).inTrap = true) (hpend : (tccOf s t).pend = [])
    (hwait : (tccOf s t).savedWait = none) : answers (.tret t f) s fun u => u.mem = s.mem ∧
      tccOf u t = { tccOf s t with inTrap := false } ∧ pcOf u t 40 = (tccOf s t).epc % 2 ^ 64 ∧
      (coreOf u (coreId t 40)).run = .running := by
  refine answers_issue exec_tret h ?_
  rw [tccOf_noteIssue, htrap, hpend, hwait]
  set w := setTcc (noteIssue s t 40 0xC6 0) t { tccOf s t with inTrap := false, savedWait := none }
  set v := saveWaiter (dropWaiter (setPc w t 40 (tccOf s t).epc) (coreId t 40)) (coreId t 40) false
  have hmem : v.mem = s.mem := by
    simp only [v, w, mem_saveWaiter, mem_dropWaiter, mem_setPc, mem_setTcc, mem_noteIssue]
  have hcore : coreOf v (coreId t 40) = { coreOf w (coreId t 40) with pc := (tccOf s t).epc % 2 ^ 64 } := by
    change coreOf (setPc w t 40 (tccOf s t).epc) (coreId t 40) = _
    rw [coreOf_setPc, if_pos rfl]
  have htcc : tccOf v t = { tccOf s t with inTrap := false, savedWait := none } := by
    change tccOf w t = _
    simp only [w, tccOf_setTcc, if_true]
  change (noteEnd (resumePart v (coreId t 40) none) t 40).mem = s.mem ∧
    tccOf (noteEnd (resumePart v (coreId t 40) none) t 40) t = _ ∧ pcOf (noteEnd (resumePart v (coreId t 40) none) t 40) t 40 = _ ∧
    (coreOf (noteEnd (resumePart v (coreId t 40) none) t 40) (coreId t 40)).run = _
  refine ⟨?_, ?_, ?_, ?_⟩
  · rw [mem_noteEnd, mem_resumePart]
    exact hmem
  · rw [tccOf_noteEnd]
    exact htcc.trans (by rw [← hwait])
  · rw [pcOf_noteEnd, pcOf, coreOf_resumePart_none, hcore]
  · rw [run_noteEnd, coreOf_resumePart_none]

/-! WAITEV (R523). -/

theorem exec_waitev : exec (.waitev t f) s = .next (issue s t 40 0xC7 0 fun s =>
    if f.imm.toNat % 8 = 0 then illegal s t 40
    else if (tccOf s t).events &&& (f.imm.toNat % 8) != 0 then
      nextPc (setG (setTcc s t { tccOf s t with events := (tccOf s t).events - ((tccOf s t).events &&& (f.imm.toNat % 8)) }) t 40
        f.gd.toNat (BitVec.ofNat 64 ((tccOf s t).events &&& (f.imm.toNat % 8)))) t 40
    else enterWait s (coreId t 40) (.event (f.imm.toNat % 8) f.gd.toNat)) := rfl

theorem count_setTcc (s : State) (t' page off n : Nat) (x : Tcc) : count (setTcc s t' x) page off n = setTcc (count s page off n) t' x := by
  have hfrozen : cntFrozen (setTcc s t' x) page = cntFrozen s page := rfl
  unfold count
  rw [hfrozen]
  split
  · rfl
  · rfl

theorem noteIssue_setTcc (s : State) (t p op md t' : Nat) (x : Tcc) :
    noteIssue (setTcc s t' x) t p op md = setTcc (noteIssue s t p op md) t' x := by
  unfold noteIssue
  dsimp only
  split_ifs
  · exact count_setTcc (setCore s _ _) ..
  · exact count_setTcc (setCore s _ _) ..
  · rfl

theorem answers_waitev_hit (h : canIssue s t 40 = true) :
    let set := f.imm.toNat % 8
    let hit := (tccOf s t).events &&& set
    hit ≠ 0 → answers (.waitev t f) s fun u =>
      wroteReg (setTcc s t { tccOf s t with events := (tccOf s t).events - hit }) u t 40 f.gd.toNat (BitVec.ofNat 64 hit) := by
  intro set hit hne
  have hset : set ≠ 0 := fun h0 => hne (by simp [hit, h0])
  refine answers_issue exec_waitev h ?_
  rw [tccOf_noteIssue, if_neg hset, if_pos (by simpa [hit, set] using hne), ← noteIssue_setTcc]
  refine wroteReg_noteIssue _ _ _ _ _ _ ?_
  rw [coreOf_setTcc]
  exact wait_of_canIssue h

theorem answers_waitev_waits (h : canIssue s t 40 = true) (hset : f.imm.toNat % 8 ≠ 0)
    (hhit : (tccOf s t).events &&& (f.imm.toNat % 8) = 0) : answers (.waitev t f) s fun u =>
      u = { s with cores := u.cores, regs := u.regs } ∧ coreOf u (coreId t 40) = { coreOf s (coreId t 40) with
        run := .waiting, wait := some (.event (f.imm.toNat % 8) f.gd.toNat), opcode := 0xC7, opmod := 0 } := by
  refine answers_issue exec_waitev h ?_
  rw [tccOf_noteIssue, if_neg hset, if_neg (by simp [hhit])]
  exact waits_issue h _

section
variable {set rd : Nat} (hrun : (coreOf s (coreId t 40)).run = .waiting) (hwait : (coreOf s (coreId t 40)).wait = some (.event set rd))
include hrun hwait

theorem exec_waitevRelease : exec (.waitevRelease t) s = .next (if (tccOf s t).events &&& set = 0 then s
    else endWait (setG (setTcc s t { tccOf s t with events := (tccOf s t).events - ((tccOf s t).events &&& set) }) t 40 rd
      (BitVec.ofNat 64 ((tccOf s t).events &&& set))) t 40) := by
  change Host.Outcome.next _ = _
  rw [hrun, hwait]

theorem answers_waitevRelease (hhit : (tccOf s t).events &&& set ≠ 0) : answers (.waitevRelease t) s fun u => u.mem = s.mem ∧
    (tccOf u t).events = (tccOf s t).events - ((tccOf s t).events &&& set) ∧
    getG u t 40 rd = (if rd = 0 then 0 else BitVec.ofNat 64 ((tccOf s t).events &&& set)) ∧
    (coreOf u (coreId t 40)).run = .running ∧ pcOf u t 40 = ((coreOf s (coreId t 40)).pc + 8) % 2 ^ 64 := by
  refine ⟨_, (exec_waitevRelease hrun hwait).trans (congrArg _ (if_neg hhit)), ?_⟩
  set w := setTcc s t { tccOf s t with events := (tccOf s t).events - ((tccOf s t).events &&& set) }
  obtain ⟨hg, hrun', -, hpc⟩ := answered_endWait w t rd (BitVec.ofNat 64 ((tccOf s t).events &&& set))
  obtain ⟨-, -, -, htcc⟩ := setG_spec w t 40 rd (BitVec.ofNat 64 ((tccOf s t).events &&& set))
  refine ⟨?_, ?_, hg, hrun', hpc⟩
  · rw [mem_endWait, mem_setG]
    rfl
  · change (tccOf (setG w t 40 rd _) t).events = _
    rw [htcc, tccOf_setTcc, if_pos rfl]

end

/-! A core whose page set a trap-reaction source (R128). -/

theorem coreSourceTrap_spec (p : Fin 40) :
    let y := coreOf s (coreId t p)
    (y.stopReq = true → (y.run = .running ∨ y.run = .waiting) → answers (.coreSourceTrap t p) s fun u =>
      u = { s with cores := u.cores } ∧ (∀ c, c ≠ coreId t p → coreOf u c = coreOf s c) ∧
      coreOf u (coreId t p) = { y with run := .trapped, stopReq := false, held := none }) ∧
    ((y.stopReq = false ∨ y.run = .idle ∨ y.run = .trapped) → idles (.coreSourceTrap t p) s) := by
  intro y
  have hexec : exec (.coreSourceTrap t p) s = .next (if y.stopReq && (y.run = .running || y.run = .waiting) then
      setCore s (coreId t p) { y with run := .trapped, stopReq := false, held := none } else s) := rfl
  refine ⟨fun hstop hrun => ⟨_, hexec.trans (congrArg _ (if_pos (by simpa [hstop] using hrun))), rfl, fun c hc => ?_, ?_⟩, fun hno => ?_⟩
  · rw [coreOf_setCore, if_neg hc]
  · rw [coreOf_setCore, if_pos rfl]
  · refine hexec.trans (congrArg _ (if_neg ?_))
    obtain h | h | h := hno <;> simp [h]

/-! A nested trap (R131, R449). -/

theorem abortParts_keeps (t : Fin 12) (l : List Nat) (s : State) (hl : ∀ q ∈ l, q < 41) :
    (foldList (fun p st => abortPart st t p) l s).units = s.units ∧ leavesBoot s (foldList (fun p st => abortPart st t p) l s) := by
  refine foldList_inv (fun u => u.units = s.units ∧ leavesBoot s u) _ l s ⟨rfl, fun _ _ => rfl⟩ fun p hp u hu => ?_
  obtain ⟨hunits, hboot⟩ := hu
  obtain ⟨hunits', hboot'⟩ := endAborted_keeps u t ⟨p, hl p hp⟩
  obtain ⟨k, e, -⟩ := count_spec (endAborted u t p) (tccPage t) 0x818 1
  rw [abortPart, e]
  exact ⟨hunits'.trans hunits, fun page hpage => (hboot' page hpage).trans (hboot page hpage)⟩

theorem units_haltWrite (h : (tccOf s t).locked = false) : (haltWrite s t false).units = s.units := by
  have hrun : (runsIfIdle s t).units = s.units := by
    unfold runsIfIdle
    split <;> rfl
  rw [haltWrite_false_eq h]
  split
  · exact hrun
  · exact hrun

theorem units_tccRestart (s : State) (t : Nat) : (tccRestart s t).units = s.units := rfl

/-- A strike on a unit counts it, up to 15, and leaves the cores and the traps (R447). -/
theorem strike_spec (s : State) (t : Fin 12) (i : Nat) : (unitOf (strike s t i) t i).strikes = min 15 ((unitOf s t i).strikes + 1) ∧
    (∀ c, coreOf (strike s t i) c = coreOf s c) ∧ ∃ l, tccOf (strike s t i) t = { tccOf s t with pend := l } := by
  have hplace : ∀ t : Fin 12, pagePlace (tilePage t 0) = .tile t 0 := by decide
  unfold strike
  extract_lets r n s₁ s₂
  have hset : setsSource (tilePage t 0) s₁ s₂ := setsSource_raiseTag 2 0 (by rw [hplace]; rintro t' ⟨⟩)
  have hunits : s₂.units = s₁.units := by
    have e := congrArg State.units (raiseTag_spec s₁ (tilePage t 0) 2 0).1.1
    exact e
  have hstrikes : (unitOf s₂ t i).strikes = n := by
    rw [unitOf, hunits]
    change (kget .reset (kput .reset s.units (t * 512 + i) { r with strikes := n }) (t * 512 + i)).strikes = n
    rw [kget_kput, if_pos rfl]
  have hcores (c : Nat) : coreOf s₂ c = coreOf s c := by
    refine (hset.2.1 c).resolve_right ?_
    rintro ⟨⟨t', j, hp, hj, -⟩, -⟩
    rw [hplace] at hp
    injection hp
    omega
  split
  · refine ⟨?_, hcores, hset.1 t⟩
    change (kget .reset (kput .reset s₂.units (t * 512 + i) { unitOf s₂ t i with condemned := true }) (t * 512 + i)).strikes = n
    rw [kget_kput, if_pos rfl]
    exact hstrikes
  · exact ⟨hstrikes, hcores, hset.1 t⟩

/-- The response to a nested trap: every program ended, the TCC restarted, one strike on it (R449). -/
theorem nestResponse_spec (s : State) (t : Fin 12) : let u := nestResponse s t
    (∀ q < 40, (coreOf u (coreId t q)).run = .idle) ∧ (tccOf u t).inTrap = false ∧ (tccOf u t).events = 0 ∧
      pcOf u t 40 = fld (pget s (tccPage t) 0x09C) 18 3 * 8 ∧
      (unitOf u t 40).strikes = min 15 ((unitOf s t 40).strikes + 1) := by
  have hlt : ∀ q ∈ List.range 40, q < 41 := fun q hq => by have := List.mem_range.1 hq; omega
  unfold nestResponse
  extract_lets s₁ s₂
  obtain ⟨hunits₁, hboot₁⟩ := abortParts_keeps t (List.range 40) s hlt
  obtain ⟨-, -, htcc, hother, hcore⟩ := tccRestart_spec s₁ t
  have hlocked : (tccOf (tccRestart s₁ t) t).locked = false := by rw [htcc]
  obtain ⟨-, htcc₂, -, hother₂, hcore₂⟩ := haltWrite_false hlocked
  obtain ⟨hstrikes, hcores₃, l, htcc₃⟩ := strike_spec s₂ t 40
  change (∀ q < 40, (coreOf (strike s₂ t 40) (coreId t q)).run = .idle) ∧ (tccOf (strike s₂ t 40) t).inTrap = false ∧
    (tccOf (strike s₂ t 40) t).events = 0 ∧ pcOf (strike s₂ t 40) t 40 = _ ∧ (unitOf (strike s₂ t 40) t 40).strikes = _
  rw [htcc₃, hstrikes]
  have hs₂ : tccOf s₂ t = _ := htcc₂
  refine ⟨fun q hq => ?_, ?_, ?_, ?_, ?_⟩
  · have hne : coreId t q ≠ coreId t 40 := by rw [Ne, coreId_inj]; omega
    rw [hcores₃, hother₂ _ hne, hother _ hne, coreOf_abortParts t _ _ _ hlt, if_pos ⟨q, List.mem_range.2 hq, rfl⟩]
    rfl
  · rw [hs₂, htcc]
  · rw [hs₂, htcc]
  · have hfresh : (tccOf (tccRestart s₁ t) t).fresh = false := by rw [htcc]
    have hboot : pget s₁ (tccPage t) 0x09C = pget s (tccPage t) 0x09C := hboot₁ _ (pageBlock_tccPage t)
    rw [pcOf, hcores₃, hcore₂, hfresh, hcore, hboot, if_neg Bool.false_ne_true]
  · have hunits : s₂.units = s.units := (units_haltWrite hlocked).trans ((units_tccRestart s₁ t).trans hunits₁)
    rw [unitOf, hunits]
    rfl

end

/-- Settles O22: the entry into a trap, TRET, WAITEV, a nested trap, and a core that a source of its page stops. -/
theorem trapsAndEvents : Obligations.Traps_and_events := by
  intro t f s k x first tvec set enters
  refine ⟨fun hnest hhalt htrap c hc => answers_tccTrapEntry hnest hhalt htrap (nextCause_of_first hc.1 hc.2), idles_tccTrapEntry,
    fun hnest => ⟨_, ?_, nestResponse_spec s t⟩, fun h => ⟨answers_tret_illegal h, answers_tret_leave h,
      fun htrap c hc => answers_tret_next h htrap (nextCause_of_first hc.1 hc.2), fun hset => ?_, answers_waitev_hit h,
      answers_waitev_waits h⟩,
    fun set rd hrun hwait => ⟨fun hhit => ?_, answers_waitevRelease hrun hwait⟩, coreSourceTrap_spec⟩
  · change execTccTrapEntry t s = _
    rw [execTccTrapEntry, show (tccOf s t).nested = true from hnest, if_pos rfl]
  · exact wasIllegal_tcc h exec_waitev (if_pos hset)
  · exact (exec_waitevRelease hrun hwait).trans (congrArg _ (if_pos hhit))

end Sys2Proof.Machine
end

section
/-!
SUPPORT. Registers as a read shows them (R486 to R491): what a word shows while counters, the time halves were busy and the instruction
in progress change.
-/

namespace Sys2Proof.Machine

open Sys2Proof

/-- Nothing changed but counters, the time halves were busy, and what cores show of an instruction in progress; of the cores other than
one TCC, nothing. -/
def showsSame (t : Nat) (s u : State) : Prop :=
  (∃ cores k l, u = ((s.setCores cores).setRegs { s.regs with counters := k }).setStore { s.store with idleSince := l }) ∧
  ∀ c, coreOf u c = { coreOf s c with opcode := (coreOf u c).opcode, opmod := (coreOf u c).opmod, held := (coreOf u c).held } ∧
    (c ≠ coreId t 40 → coreOf u c = coreOf s c)

theorem showsSame_refl (t : Nat) (s : State) : showsSame t s s :=
  ⟨⟨s.cores, s.regs.counters, s.store.idleSince, rfl⟩, fun _ => ⟨rfl, fun _ => rfl⟩⟩

theorem guardOf_lt {b : Block} {o v : Nat} (hv : guardOf b o = some v) (ho : o < 0x800) : v < 0x800 := by
  have hle : v = o - 4 := by
    unfold guardOf at hv
    split at hv
    · cases hv
    · split at hv
      · split at hv
        · cases hv; rfl
        · cases hv
      · split at hv
        · split at hv
          · cases hv; rfl
          · cases hv
        · cases hv
  omega

section
variable {t : Nat} {s u : State}

/-- A step that leaves the cores. -/
theorem showsSame.frame (h : showsSame t s u) (k : KMap Word64) (l : KMap Nat) :
    showsSame t s ((u.setRegs { u.regs with counters := k }).setStore { u.store with idleSince := l }) := by
  obtain ⟨⟨cores, k', l', rfl⟩, hc⟩ := h
  exact ⟨⟨cores, k, l, rfl⟩, hc⟩

theorem showsSame_noteIssue (s : State) (t op md : Nat) : showsSame t s (noteIssue s t 40 op md) := by
  obtain ⟨k, e, -⟩ := noteIssue_spec s t 40 op md
  refine ⟨⟨(noteIssue s t 40 op md).cores, k, s.store.idleSince, by rw [e]; rfl⟩, fun c => ?_⟩
  rw [coreOf_noteIssue]
  split
  next h => exact ⟨rfl, fun hne => absurd h hne⟩
  next => exact ⟨rfl, fun _ => rfl⟩

variable (h : showsSame t s u)
include h

theorem showsSame.run_eq (c : Nat) : (coreOf u c).run = (coreOf s c).run := by rw [(h.2 c).1]

theorem showsSame.pc_eq (c : Nat) : (coreOf u c).pc = (coreOf s c).pc := by rw [(h.2 c).1]

theorem showsSame.tag_eq (c : Nat) : (coreOf u c).tag = (coreOf s c).tag := by rw [(h.2 c).1]

theorem showsSame.mem_eq : u.mem = s.mem := by
  obtain ⟨⟨cores, k, l, rfl⟩, -⟩ := h
  rfl

theorem showsSame.tccOf_eq (t' : Nat) : tccOf u t' = tccOf s t' := by
  obtain ⟨⟨cores, k, l, rfl⟩, -⟩ := h
  rfl

theorem showsSame.tileSyncWord_eq (t' o : Nat) : tileSyncWord u t' o = tileSyncWord s t' o := by
  have hstate (p : Nat) : pstate u t' p = pstate s t' p := by rw [pstate, pstate, h.tccOf_eq, h.run_eq]
  have hword (m : Nat) : pstateWord u t' m = pstateWord s t' m := by simp only [pstateWord, hstate]
  unfold tileSyncWord
  rw [hword]
  obtain ⟨⟨cores, k, l, rfl⟩, -⟩ := h
  rfl

theorem showsSame.tccWord_eq (t' o : Nat) : tccWord u t' o = tccWord s t' o := by
  simp only [tccWord, h.tccOf_eq, h.run_eq, h.pc_eq]

theorem showsSame.mcOf_eq (t' n : Nat) : mcOf u t' n = mcOf s t' n := by
  obtain ⟨⟨cores, k, l, rfl⟩, -⟩ := h
  rfl

theorem showsSame.mcCurop_eq (t' n : Nat) : mcCurop u t' n = mcCurop s t' n := by
  simp only [mcCurop, h.mcOf_eq, h.tag_eq]

theorem showsSame.mcWord_eq (t' n o : Nat) : mcWord u t' n o = mcWord s t' n o := by
  simp only [mcWord, h.mcOf_eq, h.mcCurop_eq]

/-- A vector core shows its own core. -/
theorem showsSame.vectorCore_eq {t' p : Nat} (hp : 32 ≤ p ∧ p < 40) : coreOf u (coreId t' p) = coreOf s (coreId t' p) :=
  (h.2 _).2 (by simp only [coreId]; omega)

theorem showsSame.vcCurop_eq {t' p : Nat} (hp : 32 ≤ p ∧ p < 40) : vcCurop u t' p = vcCurop s t' p := by
  rw [vcCurop, h.vectorCore_eq hp]
  rfl

theorem showsSame.vcWord_eq {t' p : Nat} (hp : 32 ≤ p ∧ p < 40) (o : Nat) : vcWord u t' p o = vcWord s t' p o := by
  simp only [vcWord, h.vcCurop_eq hp, h.vectorCore_eq hp]

theorem showsSame.curopWords_eq (page : Nat) : curopWords u page = curopWords s page := by
  unfold curopWords
  split
  next t' i _ =>
    have hrest : scCurop u t' (i - 42) = scCurop s t' (i - 42) ∧ pget u page = pget s page := by
      obtain ⟨⟨cores, k, l, rfl⟩, -⟩ := h
      exact ⟨rfl, rfl⟩
    split
    · exact h.mcCurop_eq ..
    · split
      next hi =>
        simp only [Bool.and_eq_true, decide_eq_true_eq] at hi
        exact h.vcCurop_eq (by omega)
      next => rw [hrest.1, hrest.2]
  next =>
    obtain ⟨⟨cores, k, l, rfl⟩, -⟩ := h
    rfl

theorem showsSame.scWord_eq (t' n o : Nat) : scWord u t' n o = scWord s t' n o := by
  unfold scWord
  rw [h.curopWords_eq]
  obtain ⟨⟨cores, k, l, rfl⟩, -⟩ := h
  rfl

theorem showsSame.viewWord_eq {b : Block} {page : Nat} (hb : pageBlock page = some b) (o : Nat) : viewWord u b page o = viewWord s b page o := by
  have hvector (t' i : Nat) (hplace : pagePlace page = .tile t' i) (hv : b = .vectorCore) : 32 ≤ i - 2 ∧ i - 2 < 40 := by
    rw [pageBlock, hplace, hv] at hb
    simp only [tileBlock] at hb
    grind
  unfold viewWord
  split
  · exact h.tileSyncWord_eq ..
  · exact h.tccWord_eq ..
  · exact h.mcWord_eq ..
  next t' i hplace => exact h.vcWord_eq (hvector t' i hplace rfl) o
  · exact h.scWord_eq ..
  all_goals
    obtain ⟨⟨cores, k, l, rfl⟩, -⟩ := h
    rfl

/-- A word of a page below its counters shows the same. -/
theorem showsSame.regWord_eq (page : Nat) {o : Nat} (ho : o < 0x800) : regWord u page o = regWord s page o := by
  have hcommon (b : Block) (o : Nat) : commonWord u b page o = commonWord s b page o := by
    obtain ⟨⟨cores, k, l, rfl⟩, -⟩ := h
    rfl
  have hspecific (b : Block) (hb : pageBlock page = some b) (o : Nat) (ho : o < 0x800) : specificWord u b page o = specificWord s b page o := by
    have hview := h.viewWord_eq hb o
    simp only [specificWord, if_neg (Nat.not_le.2 ho), hview]
    obtain ⟨⟨cores, k, l, rfl⟩, -⟩ := h
    rfl
  unfold regWord
  split
  · rfl
  · obtain ⟨⟨cores, k, l, rfl⟩, -⟩ := h
    rfl
  next b _ hb =>
    split
    next v hv =>
      have hle : v < 0x800 := guardOf_lt hv ho
      rw [hcommon, hspecific b hb v hle]
    next => rw [hcommon, hspecific b hb o ho]

end


/-! A read of a register that shows it as it stands (R486 to R489). -/

/-- A word that is read as it stands: of a page that answers, below the counters, and of no pair that is latched (R488, R489). -/
def readsPlain (s : State) (page o : Nat) : Prop :=
  ∃ b, pageBlock page = some b ∧ b ≠ .msix ∧ isLo b o = none ∧ (4 ≤ o → isLo b (o - 4) = none) ∧ o < 0x800 ∧ pageStatus s page = .ok

/-- The state after an access that leaves counters and the times halves were busy. -/
def afterAccess (s : State) (k : KMap Word64) (l : KMap Nat) : State :=
  (s.setRegs { s.regs with counters := k }).setStore { s.store with idleSince := l }

theorem showsSame_afterAccess (t : Nat) (s : State) (k : KMap Word64) (l : KMap Nat) : showsSame t s (afterAccess s k l) :=
  (showsSame_refl t s).frame k l

theorem latchedRead_plain {s : State} {page o : Nat} (ag : Agent) (h : readsPlain s page o) :
    latchedRead s ag page o = (regWord s page o, s) := by
  obtain ⟨b, hb, hmsix, hlo, hhi, -, -⟩ := h
  have hhi' : (decide (4 ≤ o) && (isLo b (o - 4)).isSome) = false := by
    by_cases h4 : 4 ≤ o
    · simp [hhi h4]
    · simp [h4]
  unfold latchedRead
  rw [hb]
  split
  next h => cases h
  next h => exact absurd (Option.some.inj h) hmsix
  next b' _ h =>
    obtain rfl : b = b' := Option.some.inj h
    rw [hlo, hhi']
    rfl

section
variable {s : State} {off : Nat}

/-- A read of a plain register that nothing keeps from its page. -/
theorem regRead_plain (ag : Agent) (hag : ∀ q, agentReq s ag = some q → (leafLoc q.who).die < 4) (hup : upFor s (off / 0x1000))
    (hp : pathsGood s) (h : readsPlain s (off / 0x1000) (off % 0x1000 / 4 * 4)) :
    ∃ k l, regRead s ag off = ((regWord s (off / 0x1000) (off % 0x1000 / 4 * 4), .ok), afterAccess s k l) := by
  obtain ⟨l, hreach⟩ := reach_upFor hup
  have hplain : ∀ k, readsPlain (afterAccess s k l) (off / 0x1000) (off % 0x1000 / 4 * 4) := fun _ => h
  obtain ⟨-, -, -, -, -, ho, hstatus⟩ := h
  have hword (k : KMap Word64) := (showsSame_afterAccess 0 s k l).regWord_eq (off / 0x1000) ho
  have hcarry : ∃ k, carryPage (s.setStore { s.store with idleSince := l }) ag (off / 0x1000) = (true, afterAccess s k l) := by
    unfold carryPage
    split
    next q hq =>
      obtain ⟨hgo, k, hk⟩ := carry_good (s.setStore { s.store with idleSince := l }) q (pageLoc (off / 0x1000)) 1 hp (hag q hq)
      exact ⟨k, Prod.ext hgo hk⟩
    next => exact ⟨s.regs.counters, rfl⟩
  obtain ⟨k, hk⟩ := hcarry
  refine ⟨k, l, ?_⟩
  have hstatus' : pageStatus (s.setStore { s.store with idleSince := l }) (off / 0x1000) = .ok := hstatus
  unfold regRead
  dsimp only
  rw [hreach, hstatus']
  dsimp only
  rw [hk, latchedRead_plain ag (hplain k), hword]
  rfl

end

/-- Quench holds no half of a page that nothing keeps from an access. -/
theorem pageHalves_free {s : State} {page : Nat} (h : upFor s page) : (pageHalves page).any (halfHeld s) = false := by
  obtain ⟨-, -, hhalf⟩ := h
  unfold pageHalves
  split
  next t i hplace =>
    cases hx : pageHalf i with
    | none => rfl
    | some x =>
      have := hhalf t i x hplace hx
      simp only [Option.toList_some, List.map_singleton, List.any_cons, List.any_nil, Bool.or_false, halfHeld]
      obtain h | h := this <;> simp [h]
  next => rfl

/-! The shared buffers (R297, R298). -/

theorem daKind_eq_shared {da a o : Nat} (h : daKind da = .shared a o) : da = sbBase a + o := by
  unfold daKind at h
  split_ifs at h with _ _ hin
  simp only [Bool.and_eq_true, decide_eq_true_eq] at hin
  cases h
  unfold sbBase
  omega

theorem daKind_eq_register {da r : Nat} (h : daKind da = .register r) : da = 0x30000000000 + r := by
  unfold daKind at h
  split_ifs at h with _ _ _ hin
  simp only [Bool.and_eq_true, decide_eq_true_eq] at hin
  rw [DaKind.register.injEq] at h
  omega

section
variable {s : State} {q : Req} {da a o : Nat} (hk : daKind da = .shared a o) (hp : pathsGood s) (hdie : (leafLoc q.who).die < 4)
  (hup : baseUp s a = true)
include hk hp hdie hup

/-- A read of good words of a shared buffer of a base die that serves. -/
theorem chunkRead_shared {n : Nat} (hpar : s.mem.parityBad da n = false) :
    ∃ k, chunkRead s q da n = ((s.mem.readBytes da n, .ok), s.setRegs { s.regs with counters := k }) := by
  obtain ⟨hgo, k, hw⟩ := carry_good s q (daLoc da) 1 hp hdie
  have hda := daKind_eq_shared hk
  have hread := sbRead_good (s.setRegs { s.regs with counters := k }) 1 q.tag a o n (by rw [← hda]; exact hpar)
  obtain ⟨k', hcount, -⟩ := count_spec (s.setRegs { s.regs with counters := k }) (sbPage a) 0x800 1
  refine ⟨k', ?_⟩
  have hcarry : carry s q (daLoc da) 1 = (true, s.setRegs { s.regs with counters := k }) := Prod.ext hgo hw
  unfold chunkRead
  rw [hk]
  dsimp only
  rw [hup, if_pos rfl, hcarry]
  dsimp only
  rw [if_pos rfl, hread, hcount, ← hda]
  rfl

/-- A first run's write to a shared buffer of a base die that serves, outside every held range. -/
theorem chunkWrite_shared_put (htag : firstRun q.tag) (hheld : s.store.held = []) (data : List Byte) : ∃ k d,
    chunkWrite s q da data = (.ok, sbWrite ((s.setRegs { s.regs with counters := k }).setSched d) q.tag a o data) := by
  obtain ⟨hgo, k, hw⟩ := carry_good s q (daLoc da) 1 hp hdie
  obtain ⟨d, hput⟩ := putResult_firstRun (s.setRegs { s.regs with counters := k }) q da data (fun s => sbWrite s q.tag a o data) htag
  exact ⟨k, d, by simp [chunkWrite, inRanges, hheld, chunkPut, hk, hup, hgo, hw, hput]⟩

end

/-- Whole words written to a shared buffer: nothing is read, so nothing is raised. -/
theorem sbWrite_words (s : State) (tag a o : Nat) {data : List Byte} (ho : o % 4 = 0) (hlen : data.length % 4 = 0) (hne : 0 < data.length) :
    ∃ m, sbWrite s tag a o data = (count s (sbPage a) 0x808 1).setMem m := by
  have hda : (sbBase a + o) % 4 = 0 := by unfold sbBase; omega
  have hend : (sbBase a + o + data.length) % 4 = 0 := by omega
  have hword : ¬ (sbBase a + o) / 4 = (sbBase a + o + data.length) / 4 := by omega
  exact ⟨_, by simp only [sbWrite, hda, hend, hword]; rfl⟩

end Sys2Proof.Machine
end

section
/-!
LDG, STG and the host's access words (R32, R115, R331, R333, R488): the statement Word_accesses.
-/

namespace Sys2Proof.Machine

open Sys2Proof

/-! Waiting for halves (R94, R420). -/

/-- What a wait for halves leaves: the cores, the TCCs and memory. -/
def leavesParts (s u : State) : Prop := u.cores = s.cores ∧ u.tccs = s.tccs ∧ u.mem = s.mem

theorem leavesParts_latchWake (s : State) (t h : Nat) : leavesParts s (latchWake s t h) := by
  unfold latchWake
  dsimp only
  split <;> split <;> exact ⟨rfl, rfl, rfl⟩

theorem leavesParts_seamRequest (s : State) (q : Req) (t h n : Nat) : leavesParts s (seamRequest s q t h n) := by
  unfold seamRequest
  split
  · exact ⟨rfl, rfl, rfl⟩
  · obtain ⟨hc, ht, hm⟩ := leavesParts_latchWake (s.setStore { s.store with
      seam := kinsert s.store.seam (t * 2 + h) (kget [] s.store.seam (t * 2 + h) ++
        List.replicate (min n (64 - (kget [] s.store.seam (t * 2 + h)).length)) ⟨q.who, q.tag, s.clock.now, false⟩) }) t h
    exact ⟨hc, ht, hm⟩

theorem leavesParts_awaitHalves (s : State) (q : Req) (hs : List (Nat × Nat)) : leavesParts s (awaitHalves s q hs id) := by
  unfold awaitHalves
  split
  · refine foldList_induction (P := fun u => leavesParts s u) (fun h u hu => ?_) hs ⟨rfl, rfl, rfl⟩
    have hstep : leavesParts u (if halfHeld u h then seamOnce u q h.1 h.2 else u) := by
      split
      · unfold seamOnce
        split
        · exact leavesParts_latchWake ..
        · exact leavesParts_seamRequest ..
      · exact ⟨rfl, rfl, rfl⟩
    obtain ⟨hc, ht, hm⟩ := hu
    obtain ⟨hc', ht', hm'⟩ := hstep
    exact ⟨hc'.trans hc, ht'.trans ht, hm'.trans hm⟩
  · exact ⟨rfl, rfl, rfl⟩

/-- The TCC is as ready as its core and its control are: the seam strip is always awake (R315). -/
theorem leavesParts.ready_eq {s u : State} (h : leavesParts s u) (t : Nat) : ready u t 40 = ready s t 40 := by
  have hcore := coreOf_of_cores h.1 (coreId t 40)
  have htcc : tccOf u t = tccOf s t := by rw [tccOf, h.2.1]; rfl
  have hawake (v : State) : ptAwake v t 40 = true := rfl
  simp only [ready, hcore, htcc, hawake]

section
variable {t : Fin 12} {f : SFields} {s : State} {i : Instr} {op : Nat} {g : Nat → State → State}

/-- LDG or STG once no half that it needs is held. -/
theorem globalOp_free (h : canIssue s t 40 = true) (hfree : (globalHalves (globalAddr s t f)).any (halfHeld s) = false) :
    globalOp s i t op f g = noteEnd (g (globalAddr s t f) (noteIssue s t 40 op 0)) t 40 := by
  have hwait (q : Req) : awaitHalves s q (globalHalves (globalAddr s t f)) id = s := if_neg (by simp [hfree])
  unfold globalOp
  dsimp only
  rw [hwait, ite_self, hfree, Bool.not_false, issueWhen_free h]

/-- LDG or STG is held while Quench holds a half that it needs (R420). -/
theorem globalOp_held (hi : exec i s = .next (globalOp s i t op f g)) (h : canGo i s t 40)
    (hheld : (globalHalves (globalAddr s t f)).any (halfHeld s) = true) :
    answers i s fun u => u.mem = s.mem ∧ coreOf u (coreId t 40) = { coreOf s (coreId t 40) with held := some i } := by
  have hparts := leavesParts_awaitHalves s (partReq s t 40) (globalHalves (globalAddr s t f))
  have hcore := coreOf_of_cores hparts.1 (coreId t 40)
  set w := awaitHalves s (partReq s t 40) (globalHalves (globalAddr s t f)) id
  have hgo : canGo i w t 40 := by rwa [canGo, hparts.ready_eq, hcore]
  have hrun : globalOp s i t op f g = setCore w (coreId t 40) { coreOf w (coreId t 40) with held := some i } := by
    unfold globalOp
    dsimp only
    rw [h.1, if_pos rfl, hheld, Bool.not_true, issueWhen_busy hgo]
  refine ⟨_, hi.trans (congrArg _ hrun), hparts.2.2, ?_⟩
  rw [coreOf_setCore, if_pos rfl, hcore]

end

/-- With no transfer outstanding, none lands before an access (R314). -/
theorem landLine_none {s : State} {t : Nat} (da : Nat) (h : (coreOf s (coreId t 40)).xfers = []) : landLine s t da = s := by
  unfold landLine landBefore
  refine foldList_inv (fun u => u = s) _ _ s rfl fun m _ u hu => ?_
  subst hu
  dsimp only
  rw [h]
  rfl

/-- An access that meets no unit is an error, and changes nothing (R32). -/
theorem daRead_unmapped {s : State} {q : Req} {da : Nat} (hda : da % 4 = 0) (hk : daKind da = .unmapped) :
    daRead s q da 4 = ((List.replicate 4 0#8, .error), s) := by
  have hread : chunkRead s q da 4 = ((List.replicate 4 0#8, .error), s) := by rw [chunkRead, hk]
  rw [daRead, pieces_inLine da 4 (by decide) (by omega)]
  simp only [readPieces, hread]
  rfl

theorem daKind_unmapped_word {da : Nat} (hda : da % 4 = 0) (hk : daKind da = .unmapped) {i : Nat} (hi : i < 4) :
    daKind (da + i) = .unmapped := by
  unfold daKind at hk ⊢
  simp only [Bool.and_eq_true, decide_eq_true_eq] at hk ⊢
  split_ifs at hk with h₁ h₂ h₃ h₄
  rw [if_neg (by omega), if_neg (by omega), if_neg (by omega), if_neg (by omega)]

theorem putUnheld_unmapped {q : Req} (s : State) : ∀ (l : List Byte) (da : Nat), (∀ i < l.length, daKind (da + i) = .unmapped) →
    putUnheld s q da l = (.error, s)
  | [], _, _ => rfl
  | b :: l, da, h => by
    have hput : (chunkPut s q da [b]).2 = s := by rw [chunkPut, show daKind da = .unmapped from h 0 (by simp)]
    have hrest := putUnheld_unmapped (q := q) s l (da + 1) fun i hi => by
      rw [Nat.add_assoc, Nat.add_comm 1]
      exact h (i + 1) (by simpa using hi)
    rw [putUnheld, hput, ite_self, hrest]

theorem daWrite_inLine {s : State} {q : Req} {da : Nat} {data : List Byte} (h0 : 0 < data.length) (hin : da % 128 + data.length ≤ 128) :
    (daWrite s q da data).2 = (chunkWrite s q da data).2 ∧
      (daWrite s q da data).1 = (chunkWrite s q da data).1.worse .ok := by
  rw [daWrite, pieces_inLine da data.length h0 hin]
  refine ⟨?_, ?_⟩ <;> simp only [writePieces, List.take_length]

theorem daWrite_unmapped {s : State} {q : Req} {da : Nat} {data : List Byte} (hda : da % 4 = 0) (hk : daKind da = .unmapped)
    (hlen : data.length = 4) : daWrite s q da data = (.error, s) := by
  have hwrite : chunkWrite s q da data = (.error, s) := by
    unfold chunkWrite
    split
    · exact putUnheld_unmapped s data da fun i hi => daKind_unmapped_word hda hk (by omega)
    · rw [chunkPut, hk]
  obtain ⟨hs, hst⟩ := daWrite_inLine (s := s) (q := q) (da := da) (data := data) (by omega) (by omega)
  rw [hwrite] at hs hst
  exact Prod.ext hst hs

section
variable {t : Fin 12} {f : SFields} {s : State}

theorem globalAddr_mod : globalAddr s t f % 4 = 0 := Nat.mul_mod_left ..

theorem leafLoc_tcc_die (t : Fin 12) : (leafLoc (.part t 40)).die < 4 := by
  simp only [leafLoc, tileDie]
  omega

/-- LDG's result written: GD takes the value, and the TCC goes on. -/
theorem loaded_noteEnd {w : State} {v : Word64} (hmem : w.mem = s.mem) (hpc : pcOf w t 40 = pcOf s t 40) :
    let u := noteEnd (nextPc (setG w t 40 f.gd.toNat v) t 40) t 40
    u.mem = s.mem ∧ pcOf u t 40 = (pcOf s t 40 + 8) % 2 ^ 64 ∧ getG u t 40 f.gd.toNat = if f.gd = 0 then 0 else v := by
  have hgd : f.gd = 0 ↔ f.gd.toNat = 0 := by rw [← BitVec.toNat_inj]; rfl
  refine ⟨?_, pcOf_ended ?_, ?_⟩
  · rw [mem_ended, mem_setG, hmem]
  · rw [pcOf, pc_setG]
    exact hpc
  · rw [getG_noteEnd, getG_nextPc, getG_setG]
    by_cases h0 : f.gd.toNat = 0
    · rw [if_pos (hgd.2 h0), if_neg (by simp [h0]), h0, getG_zero]
      rfl
    · rw [if_neg (mt hgd.1 h0), if_pos ⟨rfl, h0⟩]

theorem xfers_noteIssue (hx : (coreOf s (coreId t 40)).xfers = []) (op : Nat) :
    (coreOf (noteIssue s t 40 op 0) (coreId t 40)).xfers = [] := by
  rw [coreOf_noteIssue, if_pos rfl]
  exact hx

/-- The halves of an access that is no register's and no bonded memory's: none (R420). -/
theorem globalHalves_none {da : Nat} (h : daKind da = .unmapped ∨ ∃ a o, daKind da = .shared a o) : globalHalves da = [] := by
  have hhigh : ¬ da < 0x9000000000 := by
    intro hlt
    rw [daKind, if_pos hlt] at h
    obtain h | ⟨a, o, h⟩ := h <;> cases h
  have hhalves : daHalves da 4 = [] := by
    unfold daHalves
    rw [if_neg (by simp [hhigh])]
  unfold globalHalves
  split
  next hr =>
    rw [hr] at h
    obtain h | ⟨a, o, h⟩ := h <;> cases h
  next => exact hhalves

theorem keepsSticky_setG (s : State) (t p d : Nat) (v : Word64) : keepsSticky s (setG s t p d v) := by
  obtain ⟨⟨cores, tccs, e⟩, -⟩ := setG_spec s t p d v
  exact keepsSticky_of_regs fun _ => by rw [e]; rfl

theorem tccAddrErr_spec (s : State) (t : Fin 12) :
    onlyFaults s (tccAddrErr s t) ∧ sticky (tccAddrErr s t) (tccPage t) 4 = true := by
  obtain ⟨hf, hset⟩ := raiseTag_spec s (tccPage t) 4 (coreOf s (coreId t 40)).tag.toNat
  exact ⟨hf, hset .tcc (pageBlock_tccPage t) (by decide) (by decide)⟩

section
variable (h : canIssue s t 40 = true) (hx : (coreOf s (coreId t 40)).xfers = [])
include h hx

/-- LDG of a plain register that nothing keeps from its page (R486). -/
theorem answers_ldg_register {r : Nat} (hk : daKind (globalAddr s t f) = .register r) (hup : upFor s (r / 0x1000)) (hp : pathsGood s)
    (hplain : readsPlain s (r / 0x1000) (r % 0x1000)) : answers (.ldg t f) s fun u =>
      u.mem = s.mem ∧ pcOf u t 40 = (pcOf s t 40 + 8) % 2 ^ 64 ∧
        getG u t 40 f.gd.toNat = if f.gd = 0 then 0 else BitVec.ofNat 64 (regWord s (r / 0x1000) (r % 0x1000)) := by
  have hr : r % 0x1000 / 4 * 4 = r % 0x1000 := by
    have hda := daKind_eq_register hk
    have hmod := globalAddr_mod (s := s) (t := t) (f := f)
    omega
  have hfree : (globalHalves (globalAddr s t f)).any (halfHeld s) = false := by
    rw [globalHalves, hk]
    exact pageHalves_free hup
  have hshow := showsSame_noteIssue s t 0xC4 0
  set w := noteIssue s t 40 0xC4 0
  have hupw : upFor w (r / 0x1000) := by
    obtain ⟨⟨cores, k, l, e⟩, -⟩ := hshow
    rw [e]
    exact hup
  have hpw : pathsGood w := by
    obtain ⟨⟨cores, k, l, e⟩, -⟩ := hshow
    rw [e]
    exact hp
  have hplainw : readsPlain w (r / 0x1000) (r % 0x1000 / 4 * 4) := by
    rw [hr]
    obtain ⟨⟨cores, k, l, e⟩, -⟩ := hshow
    rw [e]
    exact hplain
  obtain ⟨-, -, -, -, -, ho, -⟩ := hplain
  obtain ⟨k, l, hread⟩ := regRead_plain (.tcc t) (by rintro q ⟨⟩; exact leafLoc_tcc_die t) hupw hpw hplainw
  rw [hr, hshow.regWord_eq _ ho] at hread
  refine ⟨_, congrArg Host.Outcome.next (globalOp_free h hfree), ?_⟩
  dsimp only
  rw [landLine_none _ (xfers_noteIssue hx 0xC4), hk]
  dsimp only
  rw [hread]
  dsimp only
  exact loaded_noteEnd (hshow.frame k l).mem_eq (hshow.frame k l |>.pc_eq _)

/-- LDG of an address without a unit (R32). -/
theorem answers_ldg_unmapped (hk : daKind (globalAddr s t f) = .unmapped) : answers (.ldg t f) s fun u =>
    u.mem = s.mem ∧ pcOf u t 40 = (pcOf s t 40 + 8) % 2 ^ 64 ∧ getG u t 40 f.gd.toNat = 0 ∧ sticky u (tccPage t) 4 = true := by
  have hfree : (globalHalves (globalAddr s t f)).any (halfHeld s) = false := by rw [globalHalves_none (.inl hk)]; rfl
  refine ⟨_, congrArg Host.Outcome.next (globalOp_free h hfree), ?_⟩
  dsimp only
  rw [landLine_none _ (xfers_noteIssue hx 0xC4), hk]
  dsimp only
  rw [daRead_unmapped globalAddr_mod hk]
  dsimp only
  obtain ⟨hf, hset⟩ := tccAddrErr_spec (noteIssue s t 40 0xC4 0) t
  obtain ⟨hmem, hpc, hg⟩ := loaded_noteEnd (s := s) (f := f) (v := 0#64) (hf.mem_eq.trans (mem_noteIssue ..))
    ((hf.pcOf_eq t 40).trans (pcOf_noteIssue ..))
  refine ⟨hmem, hpc, hg.trans (ite_self _), ?_⟩
  rw [sticky_noteEnd]
  exact keepsSticky_setG _ _ _ _ _ _ _ (by decide) hset

/-- STG to an address without a unit (R32). -/
theorem answers_stg_unmapped (hk : daKind (globalAddr s t f) = .unmapped) : answers (.stg t f) s fun u =>
    u.mem = s.mem ∧ pcOf u t 40 = (pcOf s t 40 + 8) % 2 ^ 64 ∧ sticky u (tccPage t) 4 = true := by
  have hfree : (globalHalves (globalAddr s t f)).any (halfHeld s) = false := by rw [globalHalves_none (.inl hk)]; rfl
  refine ⟨_, congrArg Host.Outcome.next (globalOp_free h hfree), ?_⟩
  dsimp only
  have hx' : (coreOf (nextPc (noteIssue s t 40 0xC5 0) t 40) (coreId t 40)).xfers = [] := by
    rw [coreOf_issued, if_pos rfl]
    exact hx
  rw [landLine_none _ hx', hk]
  dsimp only
  rw [daWrite_unmapped globalAddr_mod hk (length_leBytes ..), if_pos rfl]
  obtain ⟨hf, hset⟩ := tccAddrErr_spec (nextPc (noteIssue s t 40 0xC5 0) t 40) t
  refine ⟨?_, ?_, by rw [sticky_noteEnd]; exact hset⟩
  · rw [mem_noteEnd, hf.mem_eq, mem_issued]
  · rw [pcOf_noteEnd, hf.pcOf_eq, pcOf_nextPc, pcOf_noteIssue]

section
variable {a o : Nat} (hk : daKind (globalAddr s t f) = .shared a o) (hup : baseUp s a = true)
  (hp : pathsGood s)
include hk hup hp

/-- LDG of a good word of a shared buffer (R298). -/
theorem answers_ldg_shared (hpar : s.mem.parityBad (globalAddr s t f) 4 = false) : answers (.ldg t f) s fun u =>
    u.mem = s.mem ∧ pcOf u t 40 = (pcOf s t 40 + 8) % 2 ^ 64 ∧
      getG u t 40 f.gd.toNat = if f.gd = 0 then 0 else BitVec.ofNat 64 (leNat (s.mem.readBytes (globalAddr s t f) 4)) := by
  have hfree : (globalHalves (globalAddr s t f)).any (halfHeld s) = false := by rw [globalHalves_none (.inr ⟨a, o, hk⟩)]; rfl
  have hshow := showsSame_noteIssue s t 0xC4 0
  refine ⟨_, congrArg Host.Outcome.next (globalOp_free h hfree), ?_⟩
  dsimp only
  rw [landLine_none _ (xfers_noteIssue hx 0xC4), hk]
  set w := noteIssue s t 40 0xC4 0
  have hgood : pathsGood w ∧ baseUp w a = true := by
    obtain ⟨⟨cores, k, l, e⟩, -⟩ := hshow
    rw [e]
    exact ⟨hp, hup⟩
  obtain ⟨k, hread⟩ := chunkRead_shared (q := ⟨.part t 40, (coreOf w (coreId t 40)).tag.toNat⟩) (n := 4) hk hgood.1
    (leafLoc_tcc_die t) hgood.2 (by rw [hshow.mem_eq]; exact hpar)
  have hin : globalAddr s t f % 128 + 4 ≤ 128 := by
    have := globalAddr_mod (s := s) (t := t) (f := f)
    omega
  dsimp only
  rw [daRead_inLine (by decide) hin hread, hshow.mem_eq]
  dsimp only
  exact loaded_noteEnd hshow.mem_eq (hshow.pc_eq _)

/-- STG to a word of a shared buffer (R298). -/
theorem answers_stg_shared (hheld : s.store.held = []) (htag : firstRun (coreOf s (coreId t 40)).tag.toNat) :
    let da := globalAddr s t f
    answers (.stg t f) s fun u => pcOf u t 40 = (pcOf s t 40 + 8) % 2 ^ 64 ∧
      u.mem.readBytes da 4 = leBytes 4 ((getG s t 40 f.gb.toNat).toNat % 2 ^ 32) ∧ memSameOutside s u da (da + 4) := by
  intro da
  have hfree : (globalHalves (globalAddr s t f)).any (halfHeld s) = false := by rw [globalHalves_none (.inr ⟨a, o, hk⟩)]; rfl
  refine ⟨_, congrArg Host.Outcome.next (globalOp_free h hfree), ?_⟩
  have hx' : (coreOf (nextPc (noteIssue s t 40 0xC5 0) t 40) (coreId t 40)).xfers = [] := by
    rw [coreOf_issued, if_pos rfl]
    exact hx
  dsimp only
  rw [landLine_none _ hx', hk, getG_noteIssue]
  set w := nextPc (noteIssue s t 40 0xC5 0) t 40
  have hw : w.mem = s.mem ∧ pathsGood w ∧ baseUp w a = true ∧ w.store.held = [] := by
    obtain ⟨k, e, -⟩ := noteIssue_spec s t 40 0xC5 0
    simp only [w, e]
    exact ⟨rfl, hp, hup, hheld⟩
  obtain ⟨hmem, hpw, hupw, hheldw⟩ := hw
  have htagw : firstRun (coreOf w (coreId t 40)).tag.toNat := by
    rw [show coreOf w (coreId t 40) = _ from coreOf_issued .., if_pos rfl]
    exact htag
  have hmod := globalAddr_mod (s := s) (t := t) (f := f)
  have ho : o % 4 = 0 := by
    have := daKind_eq_shared hk
    unfold sbBase at this
    omega
  set data := leBytes 4 ((getG s t 40 f.gb.toNat).toNat % 2 ^ 32)
  have hlen : data.length = 4 := length_leBytes ..
  obtain ⟨k, d, hwrite⟩ := chunkWrite_shared_put (q := ⟨.part t 40, (coreOf w (coreId t 40)).tag.toNat⟩) hk hpw
    (leafLoc_tcc_die t) hupw htagw hheldw data
  obtain ⟨m, hm⟩ := sbWrite_words ((w.setRegs { w.regs with counters := k }).setSched d) (coreOf w (coreId t 40)).tag.toNat a o
    (data := data) ho (by rw [hlen]) (by rw [hlen]; decide)
  have hput : daWrite w ⟨.part t 40, (coreOf w (coreId t 40)).tag.toNat⟩ da data =
      (.ok, sbWrite ((w.setRegs { w.regs with counters := k }).setSched d) (coreOf w (coreId t 40)).tag.toNat a o data) := by
    obtain ⟨hs, hst⟩ := daWrite_inLine (s := w) (q := ⟨.part t 40, (coreOf w (coreId t 40)).tag.toNat⟩) (da := da) (data := data)
      (by rw [hlen]; decide) (by omega)
    rw [hwrite] at hs hst
    exact Prod.ext hst hs
  dsimp only
  rw [hput]
  dsimp only
  rw [if_neg (by decide)]
  set v := sbWrite ((w.setRegs { w.regs with counters := k }).setSched d) (coreOf w (coreId t 40)).tag.toNat a o data
  have hbyte (c : Nat) : v.mem.readByte c = (s.mem.writeBytes da data).readByte c := by
    rw [readByte_sbWrite, ← daKind_eq_shared hk, ← hmem]
    rfl
  refine ⟨?_, ?_, fun c hc => ?_⟩
  · have hcore : coreOf v (coreId t 40) = coreOf w (coreId t 40) := by
      rw [hm, coreOf_setMem, coreOf_count]
      rfl
    rw [pcOf_noteEnd, pcOf, hcore, ← pcOf, pcOf_nextPc, pcOf_noteIssue]
  · have hread := Memory.readBytes_writeBytes s.mem da data
    rw [hlen] at hread
    rw [mem_noteEnd, Memory.readBytes_congr hbyte, hread]
  · rw [mem_noteEnd, hbyte, Memory.readByte_writeBytes_outside _ _ _ _ (by rwa [hlen])]

end

end

end

/-! The host's access words (R331, R333). -/

section
variable {off : BitVec 26} {n : Fin 9} {d : List Byte} {s : State}

theorem exec_registerWrite_host (v : BitVec 32) (hfree : (pageHalves (off.toNat / 0x1000)).any (halfHeld s) = false) :
    exec (.registerWrite .host off v) s = .next (agentWrite .host (regWrite s .host off.toNat v.toNat)) :=
  congrArg Host.Outcome.next (if_neg (by simp [hfree]))

theorem exec_bar0Access_write (hfree : (pageHalves (off.toNat / 0x1000)).any (halfHeld s) = false) :
    exec (.bar0Access off n (some d)) s = .next (if hostWidth off.toNat d.length then hostWords s off.toNat (chunksOf 4 2 d)
      else raiseTag (wakeFor s 1) hiPage 3 0) :=
  congrArg Host.Outcome.next (if_neg (by simp [hfree]))

/-- One word of a host write is a register write of the host. -/
theorem hostWords_cons (s : State) (off : Nat) (w : List Byte) (l : List (List Byte)) :
    hostWords s off (w :: l) = hostWords (agentWrite .host (regWrite s .host off (leNat w))) (off + 4) l := by
  have hwrite (x : ASt × State) : (if x.1 = .error then postedDiscard x.2 else x.2) = agentWrite .host x := by
    obtain ⟨st, u⟩ := x
    cases st <;> rfl
  rw [hostWords, ← hwrite]

theorem ofNat_leNat {l : List Byte} (h : l.length ≤ 4) : (BitVec.ofNat 32 (leNat l)).toNat = leNat l := by
  have hlt := leNat_lt l
  have hpow : 256 ^ l.length ≤ 256 ^ 4 := Nat.pow_le_pow_right (by decide) h
  rw [BitVec.toNat_ofNat, Nat.mod_eq_of_lt (by omega)]

/-- A host write of one word. -/
theorem answers_bar0_word (hfree : (pageHalves (off.toNat / 0x1000)).any (halfHeld s) = false) (hlen : d.length = 4)
    (hal : off.toNat % 4 = 0) : answers (.bar0Access off n (some d)) s fun u =>
      exec (.registerWrite .host off (BitVec.ofNat 32 (leNat d))) s = .next u := by
  have hchunks : chunksOf 4 2 d = [d] := by
    obtain ⟨a, b, c, e, rfl⟩ := List.length_eq_four.1 hlen
    rfl
  refine ⟨_, exec_bar0Access_write hfree, ?_⟩
  rw [exec_registerWrite_host _ hfree, hlen, if_pos (by simp [hostWidth, hal]), hchunks, hostWords_cons, ofNat_leNat (by omega)]
  rfl

/-- A host write of two words: the low one first. -/
theorem answers_bar0_words (hfree : (pageHalves (off.toNat / 0x1000)).any (halfHeld s) = false) (hlen : d.length = 8)
    (hal : off.toNat % 8 = 0) : answers (.bar0Access off n (some d)) s fun u =>
      ∃ x, exec (.registerWrite .host off (BitVec.ofNat 32 (leNat (d.take 4)))) s = .next x ∧
        ((pageHalves (off.toNat / 0x1000)).any (halfHeld x) = false →
          exec (.registerWrite .host (off + 4) (BitVec.ofNat 32 (leNat (d.drop 4)))) x = .next u) := by
  have hlow : (d.take 4).length = 4 := by rw [List.length_take, hlen]; rfl
  have hhigh : (d.drop 4).length = 4 := by rw [List.length_drop, hlen]
  have hchunks : chunksOf 4 2 d = [d.take 4, d.drop 4] := by
    have hne : d ≠ [] := by rintro rfl; cases hlen
    have hne' : d.drop 4 ≠ [] := by intro h; rw [h] at hhigh; cases hhigh
    simp [chunksOf, hne, hne', List.take_of_length_le hhigh.le]
  have hoff : (off + 4).toNat = off.toNat + 4 := by
    have := off.isLt
    rw [BitVec.toNat_add, show (4 : BitVec 26).toNat = 4 from rfl, Nat.mod_eq_of_lt (by omega)]
  have hpage : (off + 4).toNat / 0x1000 = off.toNat / 0x1000 := by omega
  refine ⟨_, exec_bar0Access_write hfree, _, exec_registerWrite_host _ hfree, fun hfree' => ?_⟩
  rw [exec_registerWrite_host _ (by rwa [hpage]), hlen, if_pos (by simp [hostWidth, hal]), hchunks, hostWords_cons, hostWords_cons,
    ofNat_leNat hlow.le, ofNat_leNat hhigh.le, hoff]
  rfl

/-- A host write of any other width or alignment is discarded with its source (R331). -/
theorem answers_bar0_illegal (hbad : ¬ ((d.length = 4 ∨ d.length = 8) ∧ off.toNat % d.length = 0)) (hup : upFor s (off.toNat / 0x1000)) :
    answers (.bar0Access off n (some d)) s fun u => sticky u hiPage 3 = true ∧ u.mem = s.mem ∧
      ∀ o, o % 0x1000 ≠ 0x020 → pageBlock (o / 0x1000) ≠ some .aggregator → regGet u o = regGet s o := by
  have hbad' : hostWidth off.toNat d.length = false := by
    simp only [hostWidth, Bool.and_eq_false_iff, Bool.or_eq_false_iff, decide_eq_false_iff_not]
    tauto
  have hexec := exec_bar0Access_write (n := n) (d := d) (pageHalves_free hup)
  rw [hbad', if_neg Bool.false_ne_true, wakeFor_awake ⟨hup.1, hup.2.1⟩] at hexec
  have hset : setsSource hiPage s (raiseTag s hiPage 3 0) := setsSource_raiseTag 3 0 fun t h => nomatch h
  exact ⟨_, hexec, (raiseTag_spec s hiPage 3 0).2 .hostIf rfl (by decide) (by decide), mem_raiseTag .., hset.2.2⟩

/-- A host read inside a plain word (R333). -/
theorem answers_bar0_read (hup : upFor s (off.toNat / 0x1000)) (hp : pathsGood s) (hn : 0 < n.val)
    (hin : off.toNat % 0x1000 % 4 + n.val ≤ 4)
    (hplain : readsPlain s (off.toNat / 0x1000) (off.toNat % 0x1000 / 4 * 4)) :
    answers (.bar0Access off n none) s fun u => u.mem = s.mem ∧ u.host.rstat = .success ∧
      u.host.rdata = ((leBytes 4 (regWord s (off.toNat / 0x1000) (off.toNat % 0x1000 / 4 * 4))).drop (off.toNat % 0x1000 % 4)).take n.val := by
  have hoff : off.toNat % 4 = off.toNat % 0x1000 % 4 := by omega
  have hone : divUp (off.toNat % 4 + n.val) 4 = 1 := by unfold divUp; omega
  have hpage : off.toNat / 4 * 4 / 0x1000 = off.toNat / 0x1000 := by omega
  have hword : off.toNat / 4 * 4 % 0x1000 / 4 * 4 = off.toNat % 0x1000 / 4 * 4 := by omega
  obtain ⟨k, l, hread⟩ := regRead_plain (off := off.toNat / 4 * 4) .host (by rintro q ⟨⟩; decide) (by rwa [hpage]) hp
    (by rwa [hpage, hword])
  rw [hpage, hword] at hread
  have hwords : hostReadWords s (off.toNat / 4 * 4) 1 =
      ((leBytes 4 (regWord s (off.toNat / 0x1000) (off.toNat % 0x1000 / 4 * 4)), .ok), afterAccess s k l) := by
    rw [hostReadWords, hread]
    simp only [hostReadWords, List.append_nil]
    rfl
  have hexec : exec (.bar0Access off n none) s = .next (hostReply (afterAccess s k l) n.val
      (((leBytes 4 (regWord s (off.toNat / 0x1000) (off.toNat % 0x1000 / 4 * 4))).drop (off.toNat % 4)).take n.val) .ok) := by
    change execBar0Access off n none s = _
    unfold execBar0Access
    rw [awaitAccess, if_neg (by simp [pageHalves_free hup])]
    dsimp only
    rw [hone, hwords]
  refine ⟨_, hexec, rfl, rfl, ?_⟩
  rw [← hoff]
  rfl

end

/-- Settles O24: LDG, STG, and the host's reads and writes of words of registers. -/
theorem wordAccesses : Obligations.Word_accesses := by
  intro t f off n d s da w next plain k
  refine ⟨fun i hi hgo hheld => ?_, fun h hx => ⟨fun r hk hup hp hplain => ?_, fun hk =>
      ⟨answers_ldg_unmapped h hx hk, answers_stg_unmapped h hx hk⟩, fun a o hk hup hpar hheld hp htag =>
      ⟨answers_ldg_shared h hx hk hup hp hpar, answers_stg_shared h hx hk hup hp hheld htag⟩⟩,
    fun hfree => ⟨answers_bar0_word hfree, answers_bar0_words hfree⟩, answers_bar0_illegal, answers_bar0_read⟩
  · obtain rfl | rfl := hi
    · exact globalOp_held rfl hgo hheld
    · exact globalOp_held rfl hgo hheld
  · obtain ⟨u, hu, hmem, hpc, hg⟩ := answers_ldg_register h hx hk hup hp hplain
    exact ⟨u, hu, hmem, hpc, fun _ => hg⟩

end Sys2Proof.Machine
end

section
/-!
Vector loads and stores of the own store and VMXQ (R96, R109, R110): the statement Vector_memory.
-/

namespace Sys2Proof.Machine

open Sys2Proof

/-! Ranges of the store that no transfer writes. -/

/-- A range of a store that no transfer writes is loaded as it stands, at any alignment. -/
theorem loadRange_quiet_any {s : State} {t p a n : Nat} (h : storeQuiet s t p) (hin : a + n ≤ storeSize p) :
    loadRange s t p a n = (s.mem.readBytes (storeKey t p a) n, s) := by
  have hsize := eight_dvd_storeSize p
  refine if_pos (tlaWriters_part h (by omega) ?_)
  rw [divUp]
  omega

theorem storeQuiet_vop {s : State} {t p : Nat} (op md : Nat) (h : storeQuiet s t p) : storeQuiet (noteIssue s t p op md) t p :=
  tlaWriters_noteIssue op md h

/-- A fold of loads over a store that no transfer writes reads each range as it stands. -/
theorem foldr_loadRange_quiet {s : State} {t p n : Nat} (h : storeQuiet s t p) :
    ∀ l : List Nat, (∀ x ∈ l, x + n ≤ storeSize p) →
      l.foldr (fun x (r : List Nat × State) => (leNat (loadRange r.2 t p x n).1 :: r.1, (loadRange r.2 t p x n).2)) ([], s) =
        (l.map fun x => leNat (s.mem.readBytes (storeKey t p x) n), s)
  | [], _ => rfl
  | x :: l, hin => by
    rw [List.foldr_cons, foldr_loadRange_quiet h l fun y hy => hin y (List.mem_cons_of_mem _ hy)]
    dsimp only
    rw [loadRange_quiet_any h (hin x List.mem_cons_self), List.map_cons]

theorem Memory.getD_readBytes (m : Memory) (a : Nat) (d : Byte) : ∀ n i : Nat, i < n → (m.readBytes a n).getD i d = m.readByte (a + i)
  | n + 1, 0, _ => rfl
  | n + 1, i + 1, h => by
    rw [Memory.readBytes, List.getD_cons_succ, Memory.getD_readBytes m (a + 1) d n i (by omega), Nat.add_assoc, Nat.add_comm 1]

/-! What an access allows, after the instruction is noted. -/

section
variable (s : State) (t : Fin 12) (v : Fin 8) (f : VFields) (op md : Nat)

theorem vecAddr_noteIssue (p : Nat) : vecAddr (noteIssue s t p op md) t p f = vecAddr s t p f := by
  rw [vecAddr, getG_noteIssue]; rfl

theorem vmemOk_noteIssue (p : Nat) : vmemOk (noteIssue s t p op md) t p f = vmemOk s t p f := by
  unfold vmemOk
  rw [vecAddr_noteIssue, getG_noteIssue]

theorem vmxOk_noteIssue : vmxOk (noteIssue s t (vcPart v) op md) t (vcPart v) f = vmxOk s t (vcPart v) f := by
  unfold vmxOk
  rw [vecAddr_noteIssue, getG_noteIssue, blkCap_vcPart]

end

section
variable {s : State} {t p : Nat} {f : VFields}

theorem vmemOk_contiguous (hgb : (getG s t p f.gb.toNat).toNat = 0) :
    vmemOk s t p f = true ↔ vecAddr s t p f + 8 * fmtWidth f.md.toNat ≤ storeSize p := by
  unfold vmemOk
  rw [if_pos hgb, inStore, decide_eq_true_iff]

theorem vmemOk_strided (hgb : (getG s t p f.gb.toNat).toNat ≠ 0) :
    vmemOk s t p f = true ↔ fmtWidth f.md.toNat ≠ 4 ∧
      ∀ i < 64, (vecAddr s t p f + i * (getG s t p f.gb.toNat).toNat) % 2 ^ 64 + fmtWidth f.md.toNat / 8 ≤ storeSize p := by
  unfold vmemOk
  rw [if_neg hgb]
  simp [strideAddrs, inStore]

theorem vmxOk_iff : vmxOk s t p f = true ↔ fmtMx f.md.toNat = true ∧ blkCap s (ptPage t p) 2 = true ∧
    vecAddr s t p f + 8 * fmtWidth f.md.toNat ≤ storeSize p ∧ (getG s t p f.gb.toNat).toNat + 2 ≤ storeSize p := by
  simp [vmxOk, inStore, and_assoc]

end

/-! Loads. -/

/-- The two scale bytes that a VLD reads (R109). -/
def vldScale (s : State) (t p : Nat) (f : VFields) : List Byte × State :=
  if fmtMx f.md.toNat then loadRange s t p (getG s t p f.gb.toNat).toNat 2 else ([127#8, 127#8], s)

/-- Whether a VLD is allowed (R96, R109). -/
def vldOk (s : State) (t p : Nat) (f : VFields) : Bool :=
  if fmtMx f.md.toNat then vmxOk s t p f else f.md.toNat != 0xF && vmemOk s t p f

/-- The work of a VLD that is allowed (R109). -/
def vldWork (s : State) (t p : Nat) (f : VFields) : State :=
  let (raw, s) := vldRaw s t p f
  let (sc, s) := vldScale s t p f
  setY s t p f.yd.toNat (((List.range 64).zip raw).map fun (i, x) => elemToF32 f.md.toNat x (sc.getD (i / 32) 127#8).toNat)

theorem exec_vld (t : Fin 12) (v : Fin 8) (f : VFields) (s : State) : exec (.vld t v f) s =
    .next (vop t v f 0x60 (fun u => vldOk u t (vcPart v) f) (fun u => vldWork u t (vcPart v) f) s) := rfl

theorem vldOk_noteIssue (s : State) (t : Fin 12) (v : Fin 8) (f : VFields) (op md : Nat) :
    vldOk (noteIssue s t (vcPart v) op md) t (vcPart v) f = vldOk s t (vcPart v) f := by
  rw [vldOk, vmxOk_noteIssue, vmemOk_noteIssue]; rfl

/-- The work of a VLD whose elements and scale bytes are read without a change of state. -/
theorem vldWork_eq {s : State} {t p : Nat} {f : VFields} {raw : Nat → Nat} {sc : List Byte}
    (hraw : vldRaw s t p f = ((List.range 64).map raw, s)) (hsc : vldScale s t p f = (sc, s)) :
    vldWork s t p f = setY s t p f.yd.toNat
      ((List.range 64).map fun i => elemToF32 f.md.toNat (raw i) (sc.getD (i / 32) 127#8).toNat) := by
  have hzip : (List.range 64).zip ((List.range 64).map raw) = (List.range 64).map fun i => (i, raw i) := by
    rw [← List.zip_map', List.map_id']
  rw [vldWork, hraw]
  dsimp only
  rw [hsc, hzip, List.map_map]
  rfl

/-- The elements of a contiguous VLD (R109). -/
theorem vldRaw_contiguous {s : State} {t p : Nat} {f : VFields} (hq : storeQuiet s t p)
    (hc : fmtMx f.md.toNat = true ∨ (getG s t p f.gb.toNat).toNat = 0)
    (hin : vecAddr s t p f + 8 * fmtWidth f.md.toNat ≤ storeSize p) :
    vldRaw s t p f = ((List.range 64).map
      (packedElem (leNat (s.mem.readBytes (storeKey t p (vecAddr s t p f)) (8 * fmtWidth f.md.toNat))) (fmtWidth f.md.toNat)), s) := by
  unfold vldRaw
  rw [if_pos (by simpa using hc), loadRange_quiet_any hq hin]

/-- The elements of a strided VLD (R109). -/
theorem vldRaw_strided {s : State} {t p : Nat} {f : VFields} (hq : storeQuiet s t p) (hmx : fmtMx f.md.toNat = false)
    (hgb : (getG s t p f.gb.toNat).toNat ≠ 0)
    (hin : ∀ i < 64, (vecAddr s t p f + i * (getG s t p f.gb.toNat).toNat) % 2 ^ 64 + fmtWidth f.md.toNat / 8 ≤ storeSize p) :
    vldRaw s t p f = ((List.range 64).map fun i => leNat (s.mem.readBytes
      (storeKey t p ((vecAddr s t p f + i * (getG s t p f.gb.toNat).toNat) % 2 ^ 64)) (fmtWidth f.md.toNat / 8)), s) := by
  have hall : ∀ x ∈ strideAddrs (vecAddr s t p f) (getG s t p f.gb.toNat).toNat, x + fmtWidth f.md.toNat / 8 ≤ storeSize p := by
    simpa [strideAddrs] using hin
  unfold vldRaw
  rw [if_neg (by simp [hmx, hgb])]
  dsimp only
  rw [foldr_loadRange_quiet hq _ hall, strideAddrs, List.map_map]
  rfl

theorem vldScale_mx {s : State} {t p : Nat} {f : VFields} (hq : storeQuiet s t p) (hmx : fmtMx f.md.toNat = true)
    (hin : (getG s t p f.gb.toNat).toNat + 2 ≤ storeSize p) :
    vldScale s t p f = (s.mem.readBytes (storeKey t p (getG s t p f.gb.toNat).toNat) 2, s) := by
  rw [vldScale, if_pos hmx, loadRange_quiet_any hq hin]

theorem vldScale_plain {s : State} {t p : Nat} {f : VFields} (hmx : fmtMx f.md.toNat = false) :
    vldScale s t p f = ([127#8, 127#8], s) := if_neg (by simp [hmx])

/-- Without MX every element has the scale 127. -/
theorem getD_plainScale {i : Nat} (hi : i < 64) : ([127#8, 127#8].getD (i / 32) 127#8).toNat = 127 := by
  have : i / 32 = 0 ∨ i / 32 = 1 := by omega
  obtain h | h := this <;> rw [h] <;> rfl

section
variable {s : State} {t : Fin 12} {v : Fin 8} {f : VFields} (h : canIssue s t (vcPart v) = true)
include h

theorem wasIllegal_vld (hok : vldOk s t (vcPart v) f = false) : answers (.vld t v f) s fun u => wasIllegal s u t (vcPart v) :=
  exec_vop_of_not_ok h (exec_vld t v f s) (by rw [vldOk_noteIssue, hok])

/-- What a VLD that is allowed writes to YD, where `raw` and `sc` are the elements and the scale bytes that it reads (R109). -/
theorem answers_vld {raw : Nat → Nat} {sc : List Byte} (hok : vldOk s t (vcPart v) f = true)
    (hraw : vldRaw (noteIssue s t (vcPart v) 0x60 f.md.toNat) t (vcPart v) f =
      ((List.range 64).map raw, noteIssue s t (vcPart v) 0x60 f.md.toNat))
    (hsc : vldScale (noteIssue s t (vcPart v) 0x60 f.md.toNat) t (vcPart v) f = (sc, noteIssue s t (vcPart v) 0x60 f.md.toNat)) :
    answers (.vld t v f) s fun u => wroteVecs s u t (vcPart v) [f.yd.toNat] ∧ getY u t (vcPart v) f.yd.toNat =
      (List.range 64).map fun i => elemToF32 f.md.toNat (raw i) (sc.getD (i / 32) 127#8).toNat := by
  have hwork := vldWork_eq hraw hsc
  set lanes := (List.range 64).map fun i => elemToF32 f.md.toNat (raw i) (sc.getD (i / 32) 127#8).toNat with hlanes
  have hlen : lanes.length = 64 := by simp [hlanes]
  obtain ⟨u, hu, hw, hy⟩ := exec_vop_of_ok (ds := [f.yd.toNat]) h (exec_vld t v f s) (by rw [vldOk_noteIssue, hok])
    (by rw [hwork]; exact onlyVecs_setY _ _ _ _ hlen)
  refine ⟨u, hu, hw, (hy _).trans ?_⟩
  rw [hwork, getY_setY _ _ _ _ _ hlen, if_pos rfl]

/-- A contiguous VLD outside MX (R109). -/
theorem answers_vld_contiguous (hq : storeQuiet s t (vcPart v)) (hmx : fmtMx f.md.toNat = false) (hc : f.md.toNat ≠ 15)
    (hgb : (getG s t (vcPart v) f.gb.toNat).toNat = 0)
    (hin : vecAddr s t (vcPart v) f + 8 * fmtWidth f.md.toNat ≤ storeSize (vcPart v)) :
    answers (.vld t v f) s fun u => wroteVecs s u t (vcPart v) [f.yd.toNat] ∧ getY u t (vcPart v) f.yd.toNat =
      (List.range 64).map fun i => elemToF32 f.md.toNat (packedElem (leNat (s.mem.readBytes
        (storeKey t (vcPart v) (vecAddr s t (vcPart v) f)) (8 * fmtWidth f.md.toNat))) (fmtWidth f.md.toNat) i) 127 := by
  have hok : vldOk s t (vcPart v) f = true := by simp [vldOk, hmx, hc, vmemOk_contiguous hgb, hin]
  have hraw := vldRaw_contiguous (f := f) (storeQuiet_vop 0x60 f.md.toNat hq) (.inr (by rw [getG_noteIssue, hgb]))
    (by rw [vecAddr_noteIssue]; exact hin)
  obtain ⟨u, hu, hw, hy⟩ := answers_vld h hok hraw (vldScale_plain hmx)
  refine ⟨u, hu, hw, hy.trans (List.map_congr_left fun i hi => ?_)⟩
  rw [getD_plainScale (List.mem_range.1 hi), mem_noteIssue, vecAddr_noteIssue]

/-- A strided VLD (R109). -/
theorem answers_vld_strided (hq : storeQuiet s t (vcPart v)) (hmx : fmtMx f.md.toNat = false) (hc : f.md.toNat ≠ 15)
    (hgb : (getG s t (vcPart v) f.gb.toNat).toNat ≠ 0) (hw4 : fmtWidth f.md.toNat ≠ 4)
    (hin : ∀ i < 64, (vecAddr s t (vcPart v) f + i * (getG s t (vcPart v) f.gb.toNat).toNat) % 2 ^ 64 + fmtWidth f.md.toNat / 8 ≤
      storeSize (vcPart v)) :
    answers (.vld t v f) s fun u => wroteVecs s u t (vcPart v) [f.yd.toNat] ∧ getY u t (vcPart v) f.yd.toNat =
      (List.range 64).map fun i => elemToF32 f.md.toNat (leNat (s.mem.readBytes (storeKey t (vcPart v)
        ((vecAddr s t (vcPart v) f + i * (getG s t (vcPart v) f.gb.toNat).toNat) % 2 ^ 64)) (fmtWidth f.md.toNat / 8))) 127 := by
  have hok : vldOk s t (vcPart v) f = true := by
    rw [vldOk, if_neg (by simp [hmx]), Bool.and_eq_true, vmemOk_strided hgb]
    exact ⟨by simpa using hc, hw4, hin⟩
  have hraw := vldRaw_strided (f := f) (storeQuiet_vop 0x60 f.md.toNat hq) hmx (by rw [getG_noteIssue]; exact hgb)
    (by rw [vecAddr_noteIssue, getG_noteIssue]; exact hin)
  obtain ⟨u, hu, hw, hy⟩ := answers_vld h hok hraw (vldScale_plain hmx)
  refine ⟨u, hu, hw, hy.trans (List.map_congr_left fun i hi => ?_)⟩
  rw [getD_plainScale (List.mem_range.1 hi), mem_noteIssue, vecAddr_noteIssue, getG_noteIssue]

/-- A VLD of an MX format (R109). -/
theorem answers_vld_mx (hq : storeQuiet s t (vcPart v)) (hok : vmxOk s t (vcPart v) f = true) :
    answers (.vld t v f) s fun u => wroteVecs s u t (vcPart v) [f.yd.toNat] ∧ getY u t (vcPart v) f.yd.toNat =
      (List.range 64).map fun i => elemToF32 f.md.toNat (packedElem (leNat (s.mem.readBytes
        (storeKey t (vcPart v) (vecAddr s t (vcPart v) f)) (8 * fmtWidth f.md.toNat))) (fmtWidth f.md.toNat) i)
        (s.mem.readByte (storeKey t (vcPart v) (getG s t (vcPart v) f.gb.toNat).toNat + i / 32)).toNat := by
  obtain ⟨hmx, -, hin, hscale⟩ := vmxOk_iff.1 hok
  have hquiet := storeQuiet_vop 0x60 f.md.toNat hq
  have hraw := vldRaw_contiguous (f := f) hquiet (.inl hmx) (by rw [vecAddr_noteIssue]; exact hin)
  have hsc := vldScale_mx (f := f) hquiet hmx (by rw [getG_noteIssue]; exact hscale)
  obtain ⟨u, hu, hw, hy⟩ := answers_vld h (by rw [vldOk, if_pos hmx, hok]) hraw hsc
  refine ⟨u, hu, hw, hy.trans (List.map_congr_left fun i hi => ?_)⟩
  have hi : i / 32 < 2 := by have := List.mem_range.1 hi; omega
  rw [Memory.getD_readBytes _ _ _ _ _ hi, mem_noteIssue, vecAddr_noteIssue, getG_noteIssue]

end

/-! Stores. -/

/-- A vector instruction whose work changes memory alone. -/
theorem answers_vop_setMem {t : Fin 12} {v : Fin 8} {f : VFields} {s : State} {i : Instr} {op : Nat} {ok : State → Bool}
    {g : State → State} {m : Memory} (h : canIssue s t (vcPart v) = true) (hi : exec i s = .next (vop t v f op ok g s))
    (hok : ok (noteIssue s t (vcPart v) op f.md.toNat) = true)
    (hg : g (noteIssue s t (vcPart v) op f.md.toNat) = (noteIssue s t (vcPart v) op f.md.toNat).setMem m) :
    answers i s fun u => wroteVecs s (u.setMem s.mem) t (vcPart v) [] ∧ u.mem = m := by
  refine ⟨_, hi, ?_⟩
  rw [vop, issue, if_pos h, if_pos hok, hg, nextPc_setMem, noteEnd_setMem]
  obtain ⟨hw, -⟩ := wroteVecs_of_onlyVecs (w := noteIssue s t (vcPart v) op f.md.toNat) (ds := []) (wait_of_canIssue h)
    ⟨rfl, rfl, fun _ _ => rfl, fun _ _ => rfl, rfl⟩
  have hmem : (noteEnd (nextPc (noteIssue s t (vcPart v) op f.md.toNat) t (vcPart v)) t (vcPart v)).mem = s.mem := by
    rw [mem_noteEnd, mem_nextPc, mem_noteIssue]
  rw [setMem_back hmem]
  exact ⟨hw, rfl⟩

/-- Ranges written one after another. -/
theorem foldList_writeBytes (t p : Nat) (w : Nat) : ∀ (l : List (Nat × Nat)) (s : State),
    foldList (fun (x : Nat × Nat) st => writeBytes st (storeKey t p x.1) (leBytes w x.2)) l s =
      s.setMem (l.foldl (fun m x => m.writeBytes (storeKey t p x.1) (leBytes w x.2)) s.mem)
  | [], _ => rfl
  | x :: l, s => by
    rw [foldList, foldList_writeBytes t p w l]
    rfl

/-- A memory after values are written at the places `key i`, by ascending i (log 91). -/
def writeStrided (m : Memory) (key val : Nat → Nat) (w n : Nat) : Memory :=
  (List.range n).foldl (fun m i => m.writeBytes (key i) (leBytes w (val i))) m

theorem writeStrided_succ (m : Memory) (key val : Nat → Nat) (w n : Nat) :
    writeStrided m key val w (n + 1) = (writeStrided m key val w n).writeBytes (key n) (leBytes w (val n)) := by
  rw [writeStrided, List.range_succ, List.foldl_append, List.foldl_cons, List.foldl_nil]; rfl

theorem readByte_writeStrided_outside (m : Memory) (key val : Nat → Nat) (w b : Nat) : ∀ n : Nat,
    (∀ i < n, b < key i ∨ key i + w ≤ b) → (writeStrided m key val w n).readByte b = m.readByte b
  | 0, _ => rfl
  | n + 1, h => by
    rw [writeStrided_succ, Memory.readByte_writeBytes_outside _ _ _ _ (by rw [length_leBytes]; exact h n (by omega)),
      readByte_writeStrided_outside m key val w b n fun i hi => h i (by omega)]

theorem Memory.readBytes_writeBytes_disjoint (m : Memory) (a : Nat) (l : List Byte) :
    ∀ b n : Nat, (a + l.length ≤ b ∨ b + n ≤ a) → (m.writeBytes a l).readBytes b n = m.readBytes b n
  | _, 0, _ => rfl
  | b, n + 1, h => by
    rw [Memory.readBytes, Memory.readBytes, Memory.readByte_writeBytes_outside _ _ _ _ (by omega),
      Memory.readBytes_writeBytes_disjoint m a l (b + 1) n (by omega)]

/-- An element of a strided store stands where no later one overlaps it. -/
theorem readBytes_writeStrided (m : Memory) (key val : Nat → Nat) (w i : Nat) : ∀ n : Nat, i < n →
    (∀ j < n, i < j → key j + w ≤ key i ∨ key i + w ≤ key j) → (writeStrided m key val w n).readBytes (key i) w = leBytes w (val i)
  | n + 1, hi, h => by
    rw [writeStrided_succ]
    obtain hlt | rfl : i < n ∨ i = n := by omega
    · rw [Memory.readBytes_writeBytes_disjoint _ _ _ _ _ (by rw [length_leBytes]; exact h n (by omega) hlt)]
      exact readBytes_writeStrided m key val w i n hlt fun j hj => h j (by omega)
    · have hread := Memory.readBytes_writeBytes (writeStrided m key val w i) (key i) (leBytes w (val i))
      rwa [length_leBytes] at hread

/-- The lanes of a strided store, as places and values. -/
theorem foldl_strideAddrs (m : Memory) (t p a stride w : Nat) {out : List Nat} (hout : out.length = 64) :
    ((strideAddrs a stride).zip out).foldl (fun m x => m.writeBytes (storeKey t p x.1) (leBytes w x.2)) m =
      writeStrided m (fun i => storeKey t p ((a + i * stride) % 2 ^ 64)) (fun i => out.getD i 0) w 64 := by
  have hlen : (strideAddrs a stride).length = 64 := by simp [strideAddrs]
  rw [zip_eq_map_range 0 0 hlen hout, List.foldl_map, writeStrided]
  refine List.foldl_ext _ _ _ fun m i hi => ?_
  have hi : i < 64 := List.mem_range.1 hi
  have haddr : (strideAddrs a stride).getD i 0 = (a + i * stride) % 2 ^ 64 := by simp [strideAddrs, hi]
  rw [haddr]

section
variable {s : State} {t : Fin 12} {v : Fin 8} {f : VFields} (h : canIssue s t (vcPart v) = true)
include h

theorem wasIllegal_vst (hok : (!fmtMx f.md.toNat && f.md.toNat != 0xF && vmemOk s t (vcPart v) f) = false) :
    answers (.vst t v f) s fun u => wasIllegal s u t (vcPart v) := by
  refine exec_vop_of_not_ok (f := f) (op := 0x61) h rfl ?_
  rw [vmemOk_noteIssue, hok]

theorem wasIllegal_vmxq (hok : vmxOk s t (vcPart v) f = false) : answers (.vmxq t v f) s fun u => wasIllegal s u t (vcPart v) := by
  refine exec_vop_of_not_ok (f := f) (op := 0x62) h rfl ?_
  rw [vmxOk_noteIssue, hok]

section
variable (hmx : fmtMx f.md.toNat = false) (hc : f.md.toNat ≠ 15)
include hmx hc

/-- A contiguous VST (R109). -/
theorem answers_vst_contiguous (hgb : (getG s t (vcPart v) f.gb.toNat).toNat = 0)
    (hin : vecAddr s t (vcPart v) f + 8 * fmtWidth f.md.toNat ≤ storeSize (vcPart v)) :
    answers (.vst t v f) s fun u => wroteVecs s (u.setMem s.mem) t (vcPart v) [] ∧
      u.mem = s.mem.writeBytes (storeKey t (vcPart v) (vecAddr s t (vcPart v) f)) (leBytes (8 * fmtWidth f.md.toNat)
        (packElems (fmtWidth f.md.toNat) ((getY s t (vcPart v) f.ya.toNat).map (f32ToOut f.md.toNat)))) := by
  refine answers_vop_setMem (f := f) (op := 0x61) h rfl ?_ ?_
  · rw [vmemOk_noteIssue, (vmemOk_contiguous hgb).2 hin, hmx]
    simpa using hc
  · dsimp only
    rw [getG_noteIssue, if_pos hgb, vecAddr_noteIssue, getY_noteIssue, writeBytes, mem_noteIssue]

/-- A strided VST (R109). -/
theorem answers_vst_strided (hgb : (getG s t (vcPart v) f.gb.toNat).toNat ≠ 0) (hw4 : fmtWidth f.md.toNat ≠ 4)
    (hin : ∀ i < 64, (vecAddr s t (vcPart v) f + i * (getG s t (vcPart v) f.gb.toNat).toNat) % 2 ^ 64 + fmtWidth f.md.toNat / 8 ≤
      storeSize (vcPart v)) :
    answers (.vst t v f) s fun u => wroteVecs s (u.setMem s.mem) t (vcPart v) [] ∧
      u.mem = writeStrided s.mem
        (fun i => storeKey t (vcPart v) ((vecAddr s t (vcPart v) f + i * (getG s t (vcPart v) f.gb.toNat).toNat) % 2 ^ 64))
        (fun i => ((getY s t (vcPart v) f.ya.toNat).map (f32ToOut f.md.toNat)).getD i 0) (fmtWidth f.md.toNat / 8) 64 := by
  refine answers_vop_setMem (f := f) (op := 0x61) h rfl ?_ ?_
  · rw [vmemOk_noteIssue, (vmemOk_strided hgb).2 ⟨hw4, hin⟩, hmx]
    simpa using hc
  · dsimp only
    rw [getG_noteIssue, if_neg hgb, vecAddr_noteIssue, getY_noteIssue, foldList_writeBytes, mem_noteIssue,
      foldl_strideAddrs _ _ _ _ _ _ (by simp)]

end

/-- A VMXQ that is allowed (R110). -/
theorem answers_vmxq (hok : vmxOk s t (vcPart v) f = true) :
    answers (.vmxq t v f) s fun u => wroteVecs s (u.setMem s.mem) t (vcPart v) [] ∧
      u.mem = (s.mem.writeBytes (storeKey t (vcPart v) (vecAddr s t (vcPart v) f)) (leBytes (8 * fmtWidth f.md.toNat)
        (packElems (fmtWidth f.md.toNat) ((mxQuantise f.md.toNat ((getY s t (vcPart v) f.ya.toNat).take 32)).2 ++
          (mxQuantise f.md.toNat ((getY s t (vcPart v) f.ya.toNat).drop 32)).2)))).writeBytes
        (storeKey t (vcPart v) (getG s t (vcPart v) f.gb.toNat).toNat)
        [BitVec.ofNat 8 (mxQuantise f.md.toNat ((getY s t (vcPart v) f.ya.toNat).take 32)).1,
          BitVec.ofNat 8 (mxQuantise f.md.toNat ((getY s t (vcPart v) f.ya.toNat).drop 32)).1] := by
  refine answers_vop_setMem (f := f) (op := 0x62) h rfl ?_ ?_
  · rw [vmxOk_noteIssue, hok]
  · have hg (m : Memory) : getG ((noteIssue s t (vcPart v) 0x62 f.md.toNat).setMem m) t (vcPart v) f.gb.toNat =
        getG s t (vcPart v) f.gb.toNat := getG_noteIssue ..
    dsimp only
    rw [getY_noteIssue, vecAddr_noteIssue, writeBytes, writeBytes, hg, mem_noteIssue]
    rfl

end

theorem packedElem_eq (bits w i : Nat) : packedElem bits w i = bits / 2 ^ (w * i) % 2 ^ w := by
  rw [packedElem, Nat.shiftRight_eq_div_pow]

section
variable {s : State} {t p : Nat} {f : VFields}

theorem vmxOk_eq_false (h : fmtMx f.md.toNat = false ∨ blkCap s (ptPage t p) 2 = false ∨
    storeSize p < vecAddr s t p f + 8 * fmtWidth f.md.toNat ∨ storeSize p < (getG s t p f.gb.toNat).toNat + 2) :
    vmxOk s t p f = false := by
  rw [Bool.eq_false_iff, Ne, vmxOk_iff]
  rintro ⟨hmx, hcap, hin, hscale⟩
  obtain h | h | h | h := h
  · simp [h] at hmx
  · simp [h] at hcap
  · omega
  · omega

theorem vmemOk_eq_false (h : ((getG s t p f.gb.toNat).toNat = 0 ∧ storeSize p < vecAddr s t p f + 8 * fmtWidth f.md.toNat) ∨
    ((getG s t p f.gb.toNat).toNat ≠ 0 ∧ (fmtWidth f.md.toNat = 4 ∨ ∃ i < 64,
      storeSize p < (vecAddr s t p f + i * (getG s t p f.gb.toNat).toNat) % 2 ^ 64 + fmtWidth f.md.toNat / 8))) :
    vmemOk s t p f = false := by
  rw [Bool.eq_false_iff, Ne]
  obtain ⟨hgb, hout⟩ | ⟨hgb, h⟩ := h
  · rw [vmemOk_contiguous hgb]
    exact Nat.not_le.2 hout
  · rw [vmemOk_strided hgb]
    rintro ⟨hw4, hin⟩
    obtain hw | ⟨i, hi, hout⟩ := h
    · exact hw4 hw
    · exact Nat.not_le.2 hout (hin i hi)

/-- A vector access that is not allowed is illegal as a load and as a store (R96, R109). -/
theorem vldOk_vstOk_eq_false (h : f.md.toNat = 15 ∨
      (fmtMx f.md.toNat = true ∧ (blkCap s (ptPage t p) 2 = false ∨
        storeSize p < vecAddr s t p f + 8 * fmtWidth f.md.toNat ∨ storeSize p < (getG s t p f.gb.toNat).toNat + 2)) ∨
      (fmtMx f.md.toNat = false ∧ (getG s t p f.gb.toNat).toNat = 0 ∧
        storeSize p < vecAddr s t p f + 8 * fmtWidth f.md.toNat) ∨
      (fmtMx f.md.toNat = false ∧ (getG s t p f.gb.toNat).toNat ≠ 0 ∧ (fmtWidth f.md.toNat = 4 ∨ ∃ i < 64,
        storeSize p < (vecAddr s t p f + i * (getG s t p f.gb.toNat).toNat) % 2 ^ 64 + fmtWidth f.md.toNat / 8))) :
    vldOk s t p f = false ∧ (!fmtMx f.md.toNat && f.md.toNat != 0xF && vmemOk s t p f) = false := by
  obtain hc | ⟨hmx, hno⟩ | ⟨hmx, hgb, hout⟩ | ⟨hmx, hgb, hno⟩ := h
  · have hmx : fmtMx f.md.toNat = false := by rw [hc]; rfl
    rw [vldOk, if_neg (by simp [hmx])]
    simp [hc]
  · have hok := vmxOk_eq_false (.inr hno)
    simp [vldOk, hmx, hok]
  · have hok := vmemOk_eq_false (.inl ⟨hgb, hout⟩)
    simp [vldOk, hmx, hok]
  · have hok := vmemOk_eq_false (.inr ⟨hgb, hno⟩)
    simp [vldOk, hmx, hok]

end

/-- Two ranges written that do not overlap: each reads as written, and what lies outside both is unchanged. -/
theorem Memory.writeBytes_two (m : Memory) (a b : Nat) (l l' : List Byte) (h : b + l'.length ≤ a ∨ a + l.length ≤ b) :
    ((m.writeBytes a l).writeBytes b l').readBytes a l.length = l ∧
    ((m.writeBytes a l).writeBytes b l').readBytes b l'.length = l' ∧
    ∀ c, (c < a ∨ a + l.length ≤ c) → (c < b ∨ b + l'.length ≤ c) →
      ((m.writeBytes a l).writeBytes b l').readByte c = m.readByte c := by
  refine ⟨?_, Memory.readBytes_writeBytes .., fun c ha hb => ?_⟩
  · rw [Memory.readBytes_writeBytes_disjoint _ _ _ _ _ h, Memory.readBytes_writeBytes]
  · rw [Memory.readByte_writeBytes_outside _ _ _ _ hb, Memory.readByte_writeBytes_outside _ _ _ _ ha]

/-- Settles O13: contiguous, strided and MX loads, contiguous and strided stores, VMXQ, and the accesses that are illegal. -/
theorem vectorMemory : Obligations.Vector_memory := by
  intro t v f s h
  refine ⟨fun hq hok => ?_, fun hmx hc hgb hin => ?_, fun hmx hc hgb hw4 hin => ⟨fun hq => ?_, ?_⟩, fun hbad => ?_, fun hbad => ?_,
    fun hmx hcap hin hscale hapart => ?_, fun hno => ?_⟩
  · obtain ⟨hmx, hcap, hin, hscale⟩ | ⟨hmx, hc, hgb, hin⟩ := hok
    · obtain ⟨u, hu, hw, hy⟩ := answers_vld_mx (f := f) h hq (vmxOk_iff.2 ⟨hmx, hcap, hin, hscale⟩)
      refine ⟨u, hu, hw, hy.trans (List.map_congr_left fun i _ => ?_)⟩
      beta_reduce
      rw [packedElem_eq, if_pos hmx]
      rfl
    · obtain ⟨u, hu, hw, hy⟩ := answers_vld_contiguous (f := f) h hq hmx hc hgb hin
      refine ⟨u, hu, hw, hy.trans (List.map_congr_left fun i _ => ?_)⟩
      beta_reduce
      rw [packedElem_eq, if_neg (by simp [hmx])]
      rfl
  · obtain ⟨u, hu, hw, hmem⟩ := answers_vst_contiguous (f := f) h hmx hc hgb hin
    have hread := Memory.readBytes_writeBytes s.mem (storeKey t (vcPart v) (vecAddr s t (vcPart v) f))
      (leBytes (8 * fmtWidth f.md.toNat)
        (packElems (fmtWidth f.md.toNat) ((getY s t (vcPart v) f.ya.toNat).map (f32ToOut f.md.toNat))))
    rw [length_leBytes, ← hmem] at hread
    refine ⟨u, hu, hw, hread, fun b hb => ?_⟩
    rw [hmem, Memory.readByte_writeBytes_outside _ _ _ _ (by rw [length_leBytes]; exact hb)]
  · exact answers_vld_strided h hq hmx hc hgb hw4 hin
  · obtain ⟨u, hu, hw, hmem⟩ := answers_vst_strided (f := f) h hmx hc hgb hw4 hin
    refine ⟨u, hu, hw, fun i hi hlast => ?_, fun b hb => ?_⟩
    · rw [hmem]
      exact readBytes_writeStrided _ _ _ _ i 64 hi hlast
    · rw [hmem]
      exact readByte_writeStrided_outside _ _ _ _ b 64 hb
  · exact wasIllegal_vld h (vldOk_vstOk_eq_false hbad).1
  · refine wasIllegal_vst h ?_
    obtain hmx | hbad := hbad
    · rw [hmx]; rfl
    · exact (vldOk_vstOk_eq_false hbad).2
  · obtain ⟨u, hu, hw, hmem⟩ := answers_vmxq (f := f) h (vmxOk_iff.2 ⟨hmx, hcap, hin, hscale⟩)
    refine ⟨u, hu, hw, ?_⟩
    have htwo := Memory.writeBytes_two s.mem (storeKey t (vcPart v) (vecAddr s t (vcPart v) f))
      (storeKey t (vcPart v) (getG s t (vcPart v) f.gb.toNat).toNat)
      (leBytes (8 * fmtWidth f.md.toNat)
        (packElems (fmtWidth f.md.toNat) ((mxQuantise f.md.toNat ((getY s t (vcPart v) f.ya.toNat).take 32)).2 ++
          (mxQuantise f.md.toNat ((getY s t (vcPart v) f.ya.toNat).drop 32)).2)))
      [BitVec.ofNat 8 (mxQuantise f.md.toNat ((getY s t (vcPart v) f.ya.toNat).take 32)).1,
        BitVec.ofNat 8 (mxQuantise f.md.toNat ((getY s t (vcPart v) f.ya.toNat).drop 32)).1]
      (by
        rw [length_leBytes]
        simp only [storeKey, tlaKey, List.length_cons, List.length_nil]
        have : (getG s t (vcPart v) f.gb.toNat).toNat + 2 ≤ vecAddr s t (vcPart v) f ∨
          vecAddr s t (vcPart v) f + 8 * fmtWidth f.md.toNat ≤ (getG s t (vcPart v) f.gb.toNat).toNat := hapart
        omega)
    rw [length_leBytes, ← hmem] at htwo
    exact htwo
  · exact wasIllegal_vmxq h (vmxOk_eq_false hno)

end Sys2Proof.Machine
end

section
/-!
SUPPORT. Operations of the fabric that leave every core's outstanding transfers: reads and writes by device address and by tile-local
address (R25, R98). The lemma about an operation is stated once, for simp, in the order of the model.
-/

namespace Sys2Proof.Machine

open Sys2Proof

/-- The outstanding transfers of a core. -/
def coreXfers (s : State) (c : Nat) : List Xfer := (coreOf s c).xfers

@[simp] theorem coreXfers_setMem (s x c) : coreXfers (s.setMem x) c = coreXfers s c := rfl
@[simp] theorem coreXfers_setRegs (s x c) : coreXfers (s.setRegs x) c = coreXfers s c := rfl
@[simp] theorem coreXfers_setMcs (s x c) : coreXfers (s.setMcs x) c = coreXfers s c := rfl
@[simp] theorem coreXfers_setHost (s x c) : coreXfers (s.setHost x) c = coreXfers s c := rfl
@[simp] theorem coreXfers_setSched (s x c) : coreXfers (s.setSched x) c = coreXfers s c := rfl
@[simp] theorem coreXfers_setStore (s x c) : coreXfers (s.setStore x) c = coreXfers s c := rfl
@[simp] theorem coreXfers_setChain (s x c) : coreXfers (s.setChain x) c = coreXfers s c := rfl
@[simp] theorem coreXfers_setFree (s x c) : coreXfers (s.setFree x) c = coreXfers s c := rfl
@[simp] theorem coreXfers_setSync (s x c) : coreXfers (s.setSync x) c = coreXfers s c := rfl

@[simp] theorem coreXfers_setCore (s : State) (c c' : Nat) (x : Core) :
    coreXfers (setCore s c x) c' = if c' = c then x.xfers else coreXfers s c' := by
  rw [coreXfers, coreOf_setCore, apply_ite Core.xfers]; rfl

@[simp] theorem coreXfers_ite (p : Prop) [Decidable p] (s u : State) (c : Nat) :
    coreXfers (if p then s else u) c = if p then coreXfers s c else coreXfers u c := apply_ite (coreXfers · c) p s u

@[simp] theorem coreXfers_foldList {α : Type} {f : α → State → State} {c : Nat} (hf : ∀ a u, coreXfers (f a u) c = coreXfers u c)
    (l : List α) (s : State) : coreXfers (foldList f l s) c = coreXfers s c :=
  foldList_induction (P := fun u => coreXfers u c = coreXfers s c) (fun a u hu => (hf a u).trans hu) l rfl

theorem coreXfers_of_onlyFaults {s u : State} (h : onlyFaults s u) (c : Nat) : coreXfers u c = coreXfers s c := by
  rw [coreXfers, h.core_eq]; rfl

section
variable (s : State) (c : Nat)

/-! Operations that every part uses. -/

@[simp] theorem coreXfers_drawWord : coreXfers (drawWord s).2 c = coreXfers s c := rfl
@[simp] theorem coreXfers_regSet (off v) : coreXfers (regSet s off v) c = coreXfers s c := by simp [regSet]
@[simp] theorem coreXfers_pset (page off v) : coreXfers (pset s page off v) c = coreXfers s c := by simp [pset]
@[simp] theorem coreXfers_count (page off n) : coreXfers (count s page off n) c = coreXfers s c := by simp [count]
@[simp] theorem coreXfers_setCurop (page ws) : coreXfers (setCurop s page ws) c = coreXfers s c := by
  unfold setCurop
  split <;> simp
@[simp] theorem coreXfers_raiseTag (page src tag) : coreXfers (raiseTag s page src tag) c = coreXfers s c :=
  coreXfers_of_onlyFaults (raiseTag_spec ..).1 c
@[simp] theorem coreXfers_raise (page src) : coreXfers (raise s page src) c = coreXfers s c :=
  coreXfers_of_onlyFaults (onlyFaults_raise ..) c
@[simp] theorem coreXfers_raiseOp (page src ws) : coreXfers (raiseOp s page src ws) c = coreXfers s c := by simp [raiseOp]
@[simp] theorem coreXfers_addrErr (t p) : coreXfers (addrErr s t p) c = coreXfers s c := by simp [addrErr]
@[simp] theorem coreXfers_setMc (t n x) : coreXfers (setMc s t n x) c = coreXfers s c := by simp [setMc]
@[simp] theorem coreXfers_writeBytes (a l) : coreXfers (writeBytes s a l) c = coreXfers s c := by simp [writeBytes]

/-! Halves and routes. -/

@[simp] theorem coreXfers_travel (x y n) : coreXfers (travel s x y n).2 c = coreXfers s c := by
  obtain ⟨k, e⟩ := travel_spec s x y n
  rw [e, coreXfers_setRegs]
@[simp] theorem coreXfers_carry (q y n) : coreXfers (carry s q y n).2 c = coreXfers s c := by
  have hthere := coreXfers_travel s c (leafLoc q.who) y n
  have hback := coreXfers_travel (travel s (leafLoc q.who) y n).2 c y (leafLoc q.who) n
  grind [carry, coreXfers_setStore]
@[simp] theorem coreXfers_touchHalf (t h) : coreXfers (touchHalf s t h) c = coreXfers s c := by simp [touchHalf]
@[simp] theorem coreXfers_touchHalves (hs) : coreXfers (touchHalves s hs) c = coreXfers s c := by simp [touchHalves]
@[simp] theorem coreXfers_touchPart (t p) : coreXfers (touchPart s t p) c = coreXfers s c := by simp [touchPart]
@[simp] theorem coreXfers_setHalf (t h code) : coreXfers (setHalf s t h code) c = coreXfers s c := by simp [setHalf]
@[simp] theorem coreXfers_latchWake (t h) : coreXfers (latchWake s t h) c = coreXfers s c := by simp [latchWake]
@[simp] theorem coreXfers_slowRequests (t h) : coreXfers (slowRequests s t h) c = coreXfers s c := by simp [slowRequests]
@[simp] theorem coreXfers_slowWake (t h) : coreXfers (slowWake s t h) c = coreXfers s c := by
  unfold slowWake
  split <;> simp
@[simp] theorem coreXfers_awaken (t h) : coreXfers (awaken s t h) c = coreXfers s c := by
  unfold awaken
  dsimp only
  split <;> simp
@[simp] theorem coreXfers_wakeHalf (t h) : coreXfers (wakeHalf s t h) c = coreXfers s c := by simp [wakeHalf]
@[simp] theorem coreXfers_reachHalf (t h tag) : coreXfers (reachHalf s t h tag).2 c = coreXfers s c := by simp [reachHalf]
@[simp] theorem coreXfers_sliceReach (q t n) : coreXfers (sliceReach s q t n).2 c = coreXfers s c := by simp [sliceReach]

/-! LPDDR5X. -/

@[simp] theorem coreXfers_setLp (p x) : coreXfers (setLp s p x) c = coreXfers s c := by simp [setLp]
@[simp] theorem coreXfers_lpMoved (ch n lo hi write) : coreXfers (lpMoved s ch n lo hi write) c = coreXfers s c := by simp [lpMoved]
@[simp] theorem coreXfers_lpCharge (ch cda write) : coreXfers (lpCharge s ch cda write) c = coreXfers s c := by simp [lpCharge]
@[simp] theorem coreXfers_lpUncCount (ch op cda tag) : coreXfers (lpUncCount s ch op cda tag) c = coreXfers s c := by simp [lpUncCount]
@[simp] theorem coreXfers_lpLineLost (op tag ch cda) : coreXfers (lpLineLost s op tag ch cda) c = coreXfers s c := by simp [lpLineLost]
@[simp] theorem coreXfers_lpCheckPar (op tag da ch cda par) : coreXfers (lpCheckPar s op tag da ch cda par) c = coreXfers s c := by
  simp [lpCheckPar]
@[simp] theorem coreXfers_lpCheckedLine (op tag a q r) : coreXfers (lpCheckedLine s op tag a q r).2 c = coreXfers s c := by
  simp [lpCheckedLine]
@[simp] theorem coreXfers_putLine (da data good) : coreXfers (putLine s da data good) c = coreXfers s c := by simp [putLine]
@[simp] theorem coreXfers_lpMerge (p e par) : coreXfers (lpMerge s p e par) c = coreXfers s c := by simp [lpMerge]
@[simp] theorem coreXfers_lpRmw (p e) : coreXfers (lpRmw s p e) c = coreXfers s c := by simp [lpRmw]
@[simp] theorem coreXfers_lpFlush (p line) : coreXfers (lpFlush s p line) c = coreXfers s c := by
  unfold lpFlush
  split <;> simp
@[simp] theorem coreXfers_lpReadLine (op tag a q r) : coreXfers (lpReadLine s op tag a q r).2 c = coreXfers s c := by simp [lpReadLine]
@[simp] theorem coreXfers_lpWriteLine (a q data) : coreXfers (lpWriteLine s a q data) c = coreXfers s c := by simp [lpWriteLine]
@[simp] theorem coreXfers_lpWriteNarrow (tag a q data) : coreXfers (lpWriteNarrow s tag a q data) c = coreXfers s c := by
  unfold lpWriteNarrow
  extract_lets da line
  split
  next ch _ _ =>
    extract_lets p s₁ l has s₂ l' gb s₃
    have h₁ : coreXfers s₁ c = coreXfers s c := by unfold s₁; split <;> simp
    have h₂ : coreXfers s₂ c = coreXfers s c := by
      unfold s₂
      split
      · split
        · rw [coreXfers_lpRmw, h₁]
        · exact h₁
      · exact h₁
    have h₃ : coreXfers s₃ c = coreXfers s c := by rw [← h₂]; exact coreXfers_setLp ..
    split
    · split
      · rw [coreXfers_lpWriteLine, h₃]
      · exact h₃
    · exact h₃
@[simp] theorem coreXfers_lpPut (tag a q data) : coreXfers (lpPut s tag a q data) c = coreXfers s c := by simp [lpPut]
@[simp] theorem coreXfers_snoopOut (line) : coreXfers (snoopOut s line) c = coreXfers s c :=
  (coreXfers_foldList (fun w u => by split <;> simp) ..).trans (by simp)
@[simp] theorem coreXfers_lpDeviceWrite (tag a q data) : coreXfers (lpDeviceWrite s tag a q data) c = coreXfers s c := by
  simp [lpDeviceWrite]
@[simp] theorem coreXfers_lpTail (a tag) : coreXfers (lpTail s a tag) c = coreXfers s c := by simp [lpTail]

/-! Bonded DRAM. -/

@[simp] theorem coreXfers_setSlice (t n x) : coreXfers (setSlice s t n x) c = coreXfers s c := by simp [setSlice]
@[simp] theorem coreXfers_rowLog (t n o op kind tag) : coreXfers (rowLog s t n o op kind tag) c = coreXfers s c := by
  unfold rowLog
  dsimp only
  split <;> simp
@[simp] theorem coreXfers_goldenLine (tag t n g) : coreXfers (goldenLine s tag t n g).2 c = coreXfers s c := by
  unfold goldenLine
  dsimp only
  split <;> simp
@[simp] theorem coreXfers_goldenStep (tag t n o g) : coreXfers (goldenStep s tag t n o g).2 c = coreXfers s c := by simp [goldenStep]
@[simp] theorem coreXfers_badLine (bond tag t n o) : coreXfers (badLine s bond tag t n o).2 c = coreXfers s c := by
  unfold badLine
  split <;> simp
@[simp] theorem coreXfers_sliceRmw (t n e) : coreXfers (sliceRmw s t n e) c = coreXfers s c := by
  unfold sliceRmw
  dsimp only
  (repeat' split) <;> simp
@[simp] theorem coreXfers_sliceParity (t n e) : coreXfers (sliceParity s t n e) c = coreXfers s c := by simp [sliceParity]
@[simp] theorem coreXfers_sliceFlush (t n line) : coreXfers (sliceFlush s t n line) c = coreXfers s c := by
  unfold sliceFlush
  split <;> simp
@[simp] theorem coreXfers_sliceReadLine (bond tag t n o) : coreXfers (sliceReadLine s bond tag t n o).2 c = coreXfers s c := by
  simp [sliceReadLine]
@[simp] theorem coreXfers_sliceWriteLine (t n o data) : coreXfers (sliceWriteLine s t n o data) c = coreXfers s c := by
  simp [sliceWriteLine]
@[simp] theorem coreXfers_sliceWriteNarrow (tag t n o data) : coreXfers (sliceWriteNarrow s tag t n o data) c = coreXfers s c := by
  unfold sliceWriteNarrow
  extract_lets da line s₁ x has s₂ y mb s₃
  have h₁ : coreXfers s₁ c = coreXfers s c := by unfold s₁; split <;> simp
  have h₂ : coreXfers s₂ c = coreXfers s c := by
    unfold s₂
    split
    · split
      · rw [coreXfers_sliceRmw, h₁]
      · exact h₁
    · exact h₁
  have h₃ : coreXfers s₃ c = coreXfers s c := by rw [← h₂]; exact coreXfers_setSlice ..
  split
  · split
    · rw [coreXfers_sliceWriteLine, coreXfers_count, h₃]
    · exact h₃
  · exact h₃

/-! The shared buffers. -/

@[simp] theorem coreXfers_sbBad (a o op tag) : coreXfers (sbBad s a o op tag) c = coreXfers s c := by simp [sbBad]
@[simp] theorem coreXfers_sbRead (op tag a o n) : coreXfers (sbRead s op tag a o n).2 c = coreXfers s c := by
  have hcount := coreXfers_count s c (sbPage a) 0x800 1
  have hbad := coreXfers_sbBad (count s (sbPage a) 0x800 1) c a
  unfold sbRead
  dsimp only
  split
  · rw [hbad, hcount]
  · exact hcount
@[simp] theorem coreXfers_sbWrite (tag a o data) : coreXfers (sbWrite s tag a o data) c = coreXfers s c := by
  have hbad (p : Prop) [Decidable p] (u : State) (x : Nat) :
      coreXfers (if p then sbBad u a x 2 tag else u) c = coreXfers u c := by
    split
    · exact coreXfers_sbBad ..
    · rfl
  unfold sbWrite
  extract_lets da n w lo hi head tail headTail m w₁ w₂
  calc coreXfers (if tail = true then sbBad w₂ a (o + n - 1) 2 tag else w₂) c = coreXfers w₂ c := hbad ..
    _ = coreXfers w₁ c := hbad ..
    _ = coreXfers w c := coreXfers_setMem ..
    _ = coreXfers s c := coreXfers_count ..

/-! Accesses. -/

@[simp] theorem coreXfers_setGroup (x) : coreXfers (setGroup s x) c = coreXfers s c := by simp [setGroup]
@[simp] theorem coreXfers_noteLine (q differs) : coreXfers (noteLine s q differs).2 c = coreXfers s c := by
  grind [noteLine, coreXfers_setGroup]
@[simp] theorem coreXfers_putResult {f : State → State} (hf : ∀ u, coreXfers (f u) c = coreXfers u c) (q da data) :
    coreXfers (putResult s q da data f).2 c = coreXfers s c := by
  unfold putResult
  split <;> simp [hf]
@[simp] theorem coreXfers_chunkRead (q da n) : coreXfers (chunkRead s q da n).2 c = coreXfers s c := by
  unfold chunkRead
  split
  case h_1 => simp
  case h_2 => simp
  case h_3 => simp
  case h_4 => rfl
  case h_5 => rfl
@[simp] theorem coreXfers_chunkPut (q da data) : coreXfers (chunkPut s q da data).2 c = coreXfers s c := by
  unfold chunkPut
  split <;> simp
@[simp] theorem coreXfers_putUnheld (q da l) : coreXfers (putUnheld s q da l).2 c = coreXfers s c := by
  induction l generalizing s da with
  | nil => rfl
  | cons b l ih => simp [putUnheld, ih]
@[simp] theorem coreXfers_chunkWrite (q da data) : coreXfers (chunkWrite s q da data).2 c = coreXfers s c := by simp [chunkWrite]

theorem coreXfers_readPieces {rd : State → Nat → Nat → (List Byte × ASt) × State} (h : ∀ u a n, coreXfers (rd u a n).2 c = coreXfers u c)
    (l) : coreXfers (readPieces rd l s).2 c = coreXfers s c := by
  induction l generalizing s with
  | nil => rfl
  | cons x l ih => simp [readPieces, ih, h]

theorem coreXfers_writePieces {wr : State → Nat → List Byte → ASt × State} (h : ∀ u a d, coreXfers (wr u a d).2 c = coreXfers u c)
    (l d) : coreXfers (writePieces wr l d s).2 c = coreXfers s c := by
  induction l generalizing s d with
  | nil => rfl
  | cons x l ih => simp [writePieces, ih, h]

@[simp] theorem coreXfers_daRead (q a n) : coreXfers (daRead s q a n).2 c = coreXfers s c := coreXfers_readPieces s c (by simp) _
@[simp] theorem coreXfers_daWrite (q a data) : coreXfers (daWrite s q a data).2 c = coreXfers s c :=
  coreXfers_writePieces s c (by simp) _ _
@[simp] theorem coreXfers_tlaReach (q t a) : coreXfers (tlaReach s q t a).2 c = coreXfers s c := by
  unfold tlaReach
  dsimp only
  split <;> simp
@[simp] theorem coreXfers_storePut (t p off data own) : coreXfers (storePut s t p off data own) c = coreXfers s c := by simp [storePut]
@[simp] theorem coreXfers_storeWrite (t p off data own) : coreXfers (storeWrite s t p off data own) c = coreXfers s c := by
  simp [storeWrite]
@[simp] theorem coreXfers_tlaChunkRead (q t a n) : coreXfers (tlaChunkRead s q t a n).2 c = coreXfers s c := by simp [tlaChunkRead]
@[simp] theorem coreXfers_tlaChunkWrite (q t a data) : coreXfers (tlaChunkWrite s q t a data).2 c = coreXfers s c := by
  unfold tlaChunkWrite
  dsimp only
  (repeat' split) <;> simp
@[simp] theorem coreXfers_tlaRead (q t a n) : coreXfers (tlaRead s q t a n).2 c = coreXfers s c := coreXfers_readPieces s c (by simp) _
@[simp] theorem coreXfers_tlaWrite (q t a data) : coreXfers (tlaWrite s q t a data).2 c = coreXfers s c :=
  coreXfers_writePieces s c (by simp) _ _

/-! Transfers. -/

@[simp] theorem coreXfers_setFlag (md t n v) : coreXfers (setFlag s md t n v) c = coreXfers s c := by simp [setFlag]
@[simp] theorem coreXfers_xferCopy (t p x) : coreXfers (xferCopy s t p x).2 c = coreXfers s c := by simp [xferCopy]
@[simp] theorem coreXfers_xferLand (t p x) : coreXfers (xferLand s t p x) c = coreXfers s c := by simp [xferLand]

end

end Sys2Proof.Machine
end

section
/-!
Block transfers (R98, R125, R314, R420): the statement Transfers.
-/

namespace Sys2Proof.Machine

open Sys2Proof

/-! Issue. -/

theorem sync_latchWake (s : State) (t h : Nat) : (latchWake s t h).sync = s.sync := by
  unfold latchWake
  dsimp only
  split <;> split <;> rfl

theorem sync_seamRequest (s : State) (q : Req) (t h n : Nat) : (seamRequest s q t h n).sync = s.sync := by
  unfold seamRequest
  split
  · rfl
  · rw [sync_latchWake]; rfl

/-- A core with one more transfer, in the place of its PC's next instruction. -/
def withXfer (s : State) (t p : Nat) (x : Xfer) : State :=
  nextPc (setCore s (coreId t p) { coreOf s (coreId t p) with xfers := (coreOf s (coreId t p)).xfers ++ [x] }) t p

/-- A transfer that XFER adds, and its requests (R98). -/
def addXfer (s : State) (t p : Nat) (x : Xfer) : State :=
  foldList (fun h st => seamRequest st (partReq st t p) h.1 h.2 ((x.lineHalves t).count h)) (x.halves t) (withXfer s t p x)

/-- The transfer that an XFER names. -/
def namedXfer (s : State) (t p : Nat) (f : SFields) : Xfer :=
  ⟨f.flags.getLsbD 0, f.flags.getLsbD 2, (getG s t p f.ga.toNat).toNat / 128 * 128, (getG s t p f.gd.toNat).toNat / 128 * 128,
    (getG s t p f.gb.toNat).toNat / 128 * 128, if f.flags.getLsbD 1 then some (f.imm.toNat % 256) else none, false⟩

theorem namedXfer_noteIssue (s : State) (t p op md : Nat) (f : SFields) : namedXfer (noteIssue s t p op md) t p f = namedXfer s t p f := by
  simp only [namedXfer, getG_noteIssue]

section
variable {t : Fin 12} {p : Fin 41} {f : SFields} {s : State}

theorem exec_xfer : exec (.xfer t p f) s = .next (issueWhen s (.xfer t p f) t p 0x28 ((coreOf s (coreId t p)).xfers.length < 4) fun u =>
    if inStore p (namedXfer u t p f).loc (namedXfer u t p f).len then addXfer u t p (namedXfer u t p f) else illegal u t p) := rfl

/-- What an XFER's requests leave: the cores, the TCCs, memory and the synchronisation state. -/
theorem addXfer_spec (s : State) (t p : Nat) (x : Xfer) :
    leavesParts (withXfer s t p x) (addXfer s t p x) ∧ (addXfer s t p x).sync = (withXfer s t p x).sync := by
  refine foldList_induction (P := fun u => leavesParts (withXfer s t p x) u ∧ u.sync = (withXfer s t p x).sync) ?_ _
    ⟨⟨rfl, rfl, rfl⟩, rfl⟩
  rintro h u ⟨⟨hc, ht, hm⟩, hs⟩
  obtain ⟨hc', ht', hm'⟩ := leavesParts_seamRequest u (partReq u t p) h.1 h.2 ((x.lineHalves t).count h)
  exact ⟨⟨hc'.trans hc, ht'.trans ht, hm'.trans hm⟩, (sync_seamRequest ..).trans hs⟩

theorem coreOf_withXfer (s : State) (t p : Nat) (x : Xfer) (c : Nat) : coreOf (withXfer s t p x) c = if c = coreId t p then
    { coreOf s (coreId t p) with
      pc := (pcOf s t p + 8) % 2 ^ 64, xfers := (coreOf s (coreId t p)).xfers ++ [x] } else coreOf s c := by
  rw [withXfer, nextPc, coreOf_setPc, pcOf, coreOf_setCore, coreOf_setCore, if_pos rfl]
  split <;> rfl

/-- XFER with room for one more, inside the store (R98). -/
theorem answers_xfer (h : canIssue s t p = true) (hroom : (coreOf s (coreId t p)).xfers.length < 4)
    (hin : (namedXfer s t p f).loc + (namedXfer s t p f).len ≤ storeSize p) : answers (.xfer t p f) s fun u =>
      u.mem = s.mem ∧ u.sync = s.sync ∧ (∀ c, c ≠ coreId t p → coreOf u c = coreOf s c) ∧ (∀ j, getG u t p j = getG s t p j) ∧
      coreOf u (coreId t p) = { coreOf s (coreId t p) with
        opcode := 0, opmod := 0, pc := (pcOf s t p + 8) % 2 ^ 64
        xfers := (coreOf s (coreId t p)).xfers ++ [namedXfer s t p f] } := by
  refine answers_issueWhen exec_xfer h (decide_eq_true hroom) ?_
  rw [namedXfer_noteIssue, if_pos (by simpa [inStore] using hin)]
  obtain ⟨⟨hcores, htccs, hmem⟩, hsync⟩ := addXfer_spec (noteIssue s t p 0x28 0) t p (namedXfer s t p f)
  set w := addXfer (noteIssue s t p 0x28 0) t p (namedXfer s t p f)
  have hcore : coreOf w (coreId t p) = { coreOf s (coreId t p) with
      opcode := 0x28, opmod := 0, pc := (pcOf s t p + 8) % 2 ^ 64
      xfers := (coreOf s (coreId t p)).xfers ++ [namedXfer s t p f] } := by
    rw [coreOf_of_cores hcores, coreOf_withXfer, if_pos rfl, coreOf_noteIssue, if_pos rfl, pcOf_noteIssue, ← held_of_canIssue h]
  have hcore' : coreOf (noteEnd w t p) (coreId t p) = { coreOf s (coreId t p) with
      opcode := 0, opmod := 0, pc := (pcOf s t p + 8) % 2 ^ 64
      xfers := (coreOf s (coreId t p)).xfers ++ [namedXfer s t p f] } := by
    rw [noteEnd_eq _ _ _ (by rw [hcore]; exact wait_of_canIssue h), coreOf_setCore, if_pos rfl, hcore]
  have htcc : tccOf (noteEnd w t p) t = tccOf s t := by
    rw [noteEnd_eq _ _ _ (by rw [hcore]; exact wait_of_canIssue h), ← tccOf_noteIssue s t p 0x28 0 t]
    exact congrArg (kget _ · _) htccs
  refine ⟨?_, ?_, fun c hc => ?_, getG_congr (by rw [hcore']) (by rw [hcore']) (by rw [htcc]) (by rw [htcc]), hcore'⟩
  · rw [mem_noteEnd, hmem, withXfer, mem_nextPc, mem_setCore, mem_noteIssue]
  · rw [sync_noteEnd, hsync, ← sync_noteIssue s t p 0x28 0]; rfl
  · rw [coreOf_noteEnd_other hc, coreOf_of_cores hcores, coreOf_withXfer, if_neg hc, coreOf_noteIssue, if_neg hc]

/-- XFER of a local range outside the store is illegal (R96). -/
theorem answers_xfer_illegal (h : canIssue s t p = true) (hroom : (coreOf s (coreId t p)).xfers.length < 4)
    (hout : storeSize p < (namedXfer s t p f).loc + (namedXfer s t p f).len) : answers (.xfer t p f) s fun u =>
      wasIllegal s u t p := by
  refine answers_issueWhen exec_xfer h (decide_eq_true hroom) ?_
  rw [namedXfer_noteIssue, if_neg (by simpa [inStore] using hout)]
  exact wasIllegal_noteEnd ..

end

/-! Completion. -/

/-- The transfers that the completion of the oldest follows: none. -/
theorem landBefore_zero (s : State) (t p : Nat) (x : Xfer) : landBefore s t p x 0 = s := rfl

theorem length_landBefore (s : State) (t p : Nat) (x : Xfer) (n : Nat) :
    (coreXfers (landBefore s t p x n) (coreId t p)).length = (coreXfers s (coreId t p)).length := by
  unfold landBefore
  refine foldList_induction (P := fun u => (coreXfers u (coreId t p)).length = (coreXfers s (coreId t p)).length) (fun m u hu => ?_) _ rfl
  dsimp only
  split
  next y _ =>
    split
    · exact hu
    · rw [coreXfers_setCore, if_pos rfl, List.length_set, ← hu, ← coreXfers_xferLand u (coreId t p) t p y]
      rfl
  · exact hu

/-- The record of a transfer dropped, with what its completion notes (R98, R125). -/
def dropXfer (s : State) (t p i : Nat) (x : Xfer) : State :=
  let k := coreOf s (coreId t p)
  let s := setCore s (coreId t p) { k with xfers := k.xfers.eraseIdx i }
  let s := touchHalves (touchPart s t p) (x.halves t)
  if 32 ≤ p && p < 40 then count s (ptPage t p) 0x820 x.len else s

/-- A transfer complete: its record dropped, and its flag set where it has one (R98). -/
def endXfer (s : State) (t p i : Nat) (x : Xfer) : State :=
  match x.flag with
  | some n => setFlag (dropXfer s t p i x) false t n true
  | none => dropXfer s t p i x

theorem coreXfers_dropXfer (s : State) (t p i : Nat) (x : Xfer) :
    coreXfers (dropXfer s t p i x) (coreId t p) = (coreXfers s (coreId t p)).eraseIdx i := by
  simp only [dropXfer, coreXfers_ite, coreXfers_count, coreXfers_touchHalves, coreXfers_touchPart, coreXfers_setCore, if_pos, ite_self]
  rfl

theorem coreXfers_endXfer (s : State) (t p i : Nat) (x : Xfer) :
    coreXfers (endXfer s t p i x) (coreId t p) = (coreXfers s (coreId t p)).eraseIdx i := by
  unfold endXfer
  split
  · rw [coreXfers_setFlag, coreXfers_dropXfer]
  · exact coreXfers_dropXfer ..

theorem mem_endXfer (s : State) (t p i : Nat) (x : Xfer) : (endXfer s t p i x).mem = s.mem := by
  have hdrop : (dropXfer s t p i x).mem = s.mem := by simp [dropXfer]
  unfold endXfer
  split
  · rw [mem_setFlag, hdrop]
  · exact hdrop

theorem flagVal_endXfer {s : State} {t p i : Nat} {x : Xfer} {n : Nat} (hflag : x.flag = some n) :
    flagVal (endXfer s t p i x) false t n = true := by
  rw [endXfer, hflag]
  dsimp only
  rw [flagVal_setFlag, if_pos ⟨rfl, rfl⟩]

section
variable {t : Fin 12} {p : Fin 41} {i : Fin 4} {x : Xfer} {s : State} (hx : (coreOf s (coreId t p)).xfers[i.val]? = some x)
include hx

theorem exec_xferComplete : exec (.xferComplete t p i) s = .next
    (if (x.flag.isSome && (i.val != 0 || storeHeld s t p)) || xferStuck s t p x then s
      else endXfer (xferLand (landBefore s t p x i) t p x) t p i x) := by
  change execXferComplete t p i s = _
  unfold execXferComplete
  rw [hx]
  rfl

theorem idles_xferComplete (h : (x.flag.isSome = true ∧ (i.val ≠ 0 ∨ storeHeld s t p = true)) ∨ xferStuck s t p x = true) :
    idles (.xferComplete t p i) s := by
  rw [idles, exec_xferComplete hx, if_pos (by simpa using h)]

theorem exec_xferComplete_ends (hbehind : ¬ (x.flag.isSome = true ∧ (i.val ≠ 0 ∨ storeHeld s t p = true)))
    (hstuck : xferStuck s t p x = false) :
    exec (.xferComplete t p i) s = .next (endXfer (xferLand (landBefore s t p x i) t p x) t p i x) := by
  rw [exec_xferComplete hx, if_neg (by simpa [hstuck] using hbehind)]

/-- A transfer that completes leaves the list and sets its flag. -/
theorem answers_xferComplete (hbehind : ¬ (x.flag.isSome = true ∧ (i.val ≠ 0 ∨ storeHeld s t p = true)))
    (hstuck : xferStuck s t p x = false) : answers (.xferComplete t p i) s fun u =>
      (coreOf u (coreId t p)).xfers.length + 1 = (coreOf s (coreId t p)).xfers.length ∧
      (i.val = 0 → (coreOf u (coreId t p)).xfers = (coreOf s (coreId t p)).xfers.drop 1) ∧
      ∀ n, x.flag = some n → flagVal u false t n = true := by
  refine ⟨_, exec_xferComplete_ends hx hbehind hstuck, ?_, fun hi => ?_, fun n => flagVal_endXfer⟩
  · have hlen := length_landBefore s t p x i
    have hlt : i.val < (coreXfers s (coreId t p)).length := (List.getElem?_eq_some_iff.1 hx).1
    have herase := congrArg List.length (coreXfers_endXfer (xferLand (landBefore s t p x i) t p x) t p i x)
    rw [coreXfers_xferLand, List.length_eraseIdx_of_lt (by omega)] at herase
    simp only [coreXfers] at *
    omega
  · have herase := coreXfers_endXfer (xferLand (landBefore s t p x i) t p x) t p i x
    rw [coreXfers_xferLand, hi, landBefore_zero, List.eraseIdx_zero, ← List.drop_one] at herase
    rw [hi]
    exact herase

end

/-! The copy of one line (R98). -/

theorem leafLoc_part_die (t : Fin 12) (p : Nat) : (leafLoc (.part t p)).die < 4 := leafLoc_tcc_die t

theorem tlaStore_tcc {a : Nat} (h : tlaStore a = some 40) : 0x5800000 ≤ a := by
  unfold tlaStore at h
  split_ifs at h with h₁ h₂ h₃
  · simp only [Bool.and_eq_true, decide_eq_true_eq, Option.some.injEq] at h₁ h
    omega
  · simp only [Bool.and_eq_true, decide_eq_true_eq, Option.some.injEq] at h₂ h
    omega
  · simp only [Bool.and_eq_true, decide_eq_true_eq] at h₃
    exact h₃.1

/-- No MXA reads above the stores of the matrix cores. -/
theorem tlaBusy_above {s : State} {t a n : Nat} (h : 0x5000000 ≤ a) : tlaBusy s t a n = false := by
  rw [tlaBusy, List.any_eq_false]
  intro c hc
  have hc : c < 32 := List.mem_range.1 hc
  have hlo : storeTla c + 0x200000 ≤ 0x5000000 := by
    rw [storeTla, if_pos hc]
    omega
  have hbelow : ¬ a < storeTla c + 0x200000 := by omega
  simp [hbelow]

theorem storeTla_above {p : Nat} (h : 32 ≤ p) : 0x5000000 ≤ storeTla p := by
  rw [storeTla, if_neg (by omega)]
  split <;> omega

/-- A line written to a store that no MXA reads. -/
theorem storeWrite_line {s : State} {t p off : Nat} {data : List Byte} {own : Bool} (hp : 32 ≤ p) (hoff : off % 128 = 0)
    (hlen : data.length = 128) : storeWrite s t p off data own = writeBytes s (storeKey t p off) data := by
  have hfree : lineFree s t p off := fun hlt => absurd hlt (by omega)
  rw [storeWrite, hlen, pieces_inLine off 128 (by decide) (by omega), foldList, foldList, Nat.sub_self, List.drop_zero,
    List.take_of_length_le hlen.le, storePut_free hfree]

section
variable {s : State} {q : Req} {t a : Nat} (ha : tlaStore a = some 40) (hin : a + 128 ≤ 0x5880000) (hup : tileUp s t = true)
  (hp : pathsGood s) (hdie : (leafLoc q.who).die < 4)
include ha hup hp hdie

theorem tlaReach_tcc : ∃ k, tlaReach s q t a = (true, s.setRegs { s.regs with counters := k }) := by
  obtain ⟨hgo, k, hk⟩ := carry_good s q (tlaLoc t a) 1 hp hdie
  have hhalf : tlaHalf a = none := by rw [tlaHalf, ha]; rfl
  refine ⟨k, ?_⟩
  unfold tlaReach
  rw [hhalf]
  dsimp only
  rw [hup, if_pos rfl]
  exact Prod.ext hgo hk

include hin

theorem tlaRead_tcc (hline : a % 128 = 0) :
    ∃ k, tlaRead s q t a 128 = ((s.mem.readBytes (tlaKey t a) 128, .ok), s.setRegs { s.regs with counters := k }) := by
  obtain ⟨k, hk⟩ := tlaReach_tcc ha hup hp hdie
  have hmapped : tlaMapped a = true := decide_eq_true (by omega)
  have hchunk : tlaChunkRead s q t a 128 = ((s.mem.readBytes (tlaKey t a) 128, .ok), s.setRegs { s.regs with counters := k }) := by
    rw [tlaChunkRead, hmapped, hk]
    rfl
  refine ⟨k, ?_⟩
  rw [tlaRead, pieces_inLine a 128 (by decide) (by omega), readPieces, hchunk]
  dsimp only
  rw [readPieces, List.append_nil]
  rfl

theorem tlaWrite_tcc (hline : a % 128 = 0) (htag : firstRun q.tag) {data : List Byte} (hlen : data.length = 128) :
    ∃ k, tlaWrite s q t a data = (.ok, writeBytes (s.setRegs { s.regs with counters := k }) (tlaKey t a) data) := by
  obtain ⟨k, hk⟩ := tlaReach_tcc ha hup hp hdie
  have hmapped : tlaMapped a = true := decide_eq_true (by omega)
  have hkept (u : State) : tlaWithheld u q t a = false := by
    rw [tlaWithheld, show bitOf q.tag 7 = false from htag]
    rfl
  have hfree (u : State) : lineFree u t 40 (a - storeTla 40) := fun hlt => absurd hlt (by decide)
  have hkey : storeKey t 40 (a - storeTla 40) = tlaKey t a := by
    have := tlaStore_tcc ha
    have htla : storeTla 40 = 0x5800000 := rfl
    rw [storeKey, htla, Nat.add_sub_cancel' this]
  have hchunk : tlaChunkWrite s q t a data = (.ok, writeBytes (s.setRegs { s.regs with counters := k }) (tlaKey t a) data) := by
    unfold tlaChunkWrite
    rw [hmapped, hk]
    dsimp only
    rw [hkept, ha]
    dsimp only
    rw [storePut_free (hfree _), hkey]
    rfl
  refine ⟨k, ?_⟩
  rw [tlaWrite, hlen, pieces_inLine a 128 (by decide) (by omega), writePieces, List.take_of_length_le hlen.le, hchunk]
  rfl

end

section
variable {t : Fin 12} {p : Fin 41} {i : Fin 4} {x : Xfer} {s : State} (hx : (coreOf s (coreId t p)).xfers[i.val]? = some x)
  (hi : i.val = 0) (hland : x.landed = false) (hflag : x.flag = none) (hquench : s.quench.holding = false)
include hx hi hland hflag hquench

/-- The oldest transfer, without a flag, while Quench holds nothing and no MXA reads what it writes: memory is what its copy leaves. -/
theorem answers_xferComplete_oldest {P : Memory → Prop}
    (hfree : (!x.toRemote || x.tla) = true → tlaBusy s t (if x.toRemote then x.remote else storeTla p + x.loc) x.len = false)
    {w : State} (hcopy : xferCopy s t p x = (.ok, w)) (hP : P w.mem) :
    answers (.xferComplete t p i) s fun u => P u.mem := by
  have hstuck : xferStuck s t p x = false := by
    unfold xferStuck
    rw [hquench, hland, Bool.false_and, Bool.false_and, Bool.false_or]
    by_cases hw : (!x.toRemote || x.tla) = true
    · rw [hw, if_neg Bool.false_ne_true, hfree hw]
      rfl
    · rw [Bool.eq_false_iff.2 hw, Bool.false_and]
  refine ⟨_, exec_xferComplete_ends hx (by rw [hflag]; rintro ⟨h, -⟩; cases h) hstuck, ?_⟩
  dsimp only
  rw [hi, landBefore_zero, mem_endXfer, xferLand, hland, if_neg Bool.false_ne_true, hcopy]
  exact hP

end

section
variable {t : Fin 12} {p : Fin 41} {x : Xfer} {s : State} (hlen : x.len = 128) (hp : pathsGood s)
include hlen hp

/-- The copy of a line to the TCC's store. -/
theorem xferCopy_toTcc (hremote : x.remote % 128 = 0) (htag : firstRun (partReq s t p).tag) (hup : tileUp s t = true)
    (htla : x.tla = true) (ha : tlaStore x.remote = some 40) (hin : x.remote + 128 ≤ 0x5880000) (hto : x.toRemote = true) :
    ∃ w, xferCopy s t p x = (.ok, w) ∧
      w.mem = s.mem.writeBytes (tlaKey t x.remote) (s.mem.readBytes (storeKey t p x.loc) 128) := by
  obtain ⟨k, hk⟩ := tlaWrite_tcc (q := partReq s t p) ha hin hup hp (leafLoc_part_die t p) hremote htag
    (s.mem.length_readBytes (storeKey t p x.loc) 128)
  exact ⟨_, by rw [xferCopy, hto, htla, hlen]; exact hk, rfl⟩

/-- The copy of a line from the TCC's store to a vector core's or the TCC's own. -/
theorem xferCopy_fromTcc (hremote : x.remote % 128 = 0) (hloc : x.loc % 128 = 0) (hup : tileUp s t = true)
    (htla : x.tla = true) (ha : tlaStore x.remote = some 40) (hin : x.remote + 128 ≤ 0x5880000) (hto : x.toRemote = false)
    (hpart : 32 ≤ p.val) : ∃ w, xferCopy s t p x = (.ok, w) ∧
      w.mem = s.mem.writeBytes (storeKey t p x.loc) (s.mem.readBytes (tlaKey t x.remote) 128) := by
  obtain ⟨k, hk⟩ := tlaRead_tcc (q := partReq s t p) ha hin hup hp (leafLoc_part_die t p) hremote
  have hwrite := storeWrite_line (s := s.setRegs { s.regs with counters := k }) (t := t) (own := false) hpart hloc
    (s.mem.length_readBytes (tlaKey t x.remote) 128)
  refine ⟨writeBytes (s.setRegs { s.regs with counters := k }) (storeKey t p x.loc) (s.mem.readBytes (tlaKey t x.remote) 128), ?_, rfl⟩
  rw [← hwrite, xferCopy, hto, htla, hlen, if_neg Bool.false_ne_true, if_pos rfl, hk]

/-- The copy of a line to a shared buffer of a base die that serves, outside every held range. -/
theorem xferCopy_toShared {a o : Nat} (hremote : x.remote % 128 = 0) (htag : firstRun (partReq s t p).tag) (htla : x.tla = false)
    (hto : x.toRemote = true) (hk : daKind x.remote = .shared a o) (hup : baseUp s a = true) (hheld : s.store.held = []) :
    ∃ w, xferCopy s t p x = (.ok, w) ∧ ∀ b,
      w.mem.readByte b = (s.mem.writeBytes x.remote (s.mem.readBytes (storeKey t p x.loc) 128)).readByte b := by
  have hdata := s.mem.length_readBytes (storeKey t p x.loc) 128
  obtain ⟨k, d, hwrite⟩ := chunkWrite_shared_put (q := partReq s t p) hk hp (leafLoc_part_die t p) hup htag hheld
    (s.mem.readBytes (storeKey t p x.loc) 128)
  obtain ⟨hs, hst⟩ := daWrite_inLine (s := s) (q := partReq s t p) (da := x.remote)
    (data := s.mem.readBytes (storeKey t p x.loc) 128) (by rw [hdata]; decide) (by rw [hdata, hremote])
  rw [hwrite] at hs hst
  refine ⟨_, by rw [xferCopy, hto, htla, hlen]; exact Prod.ext hst hs, fun b => ?_⟩
  rw [readByte_sbWrite, ← daKind_eq_shared hk]
  rfl

end

/-- Memory n is m with the line at `src` copied to `dst`. -/
def lineCopied (m n : Memory) (src dst : Nat) : Prop :=
  n.readBytes dst 128 = m.readBytes src 128 ∧ ∀ b, (b < dst ∨ dst + 128 ≤ b) → n.readByte b = m.readByte b

theorem lineCopied_of_writeBytes {m n : Memory} {src dst : Nat}
    (h : ∀ b, n.readByte b = (m.writeBytes dst (m.readBytes src 128)).readByte b) : lineCopied m n src dst := by
  have hlen := m.length_readBytes src 128
  have hread := Memory.readBytes_writeBytes m dst (m.readBytes src 128)
  rw [hlen] at hread
  refine ⟨?_, fun b hb => ?_⟩
  · rw [Memory.readBytes_congr h, hread]
  · rw [h, Memory.readByte_writeBytes_outside _ _ _ _ (by rwa [hlen])]

/-- Settles O6: XFER with room, outside the store and held; a completion that waits, one that ends, and the copy of a line. -/
theorem transfers : Obligations.Transfers := by
  intro t p f s
  refine ⟨fun h hroom => ⟨answers_xfer h hroom, fun hout => ?_⟩, fun hgo hfull => heldBack_issueWhen exec_xfer hgo (by simpa using hfull),
    fun i x hx => ⟨idles_xferComplete hx, answers_xferComplete hx, ?_, ?_, ?_⟩⟩
  · obtain ⟨u, hu, hset, hpc, hmem, -⟩ := answers_xfer_illegal h hroom hout
    exact ⟨u, hu, hset, hpc, hmem⟩
  · rintro ⟨hi, hland, hflag, hlen, hremote, -, hp, htag, hquench, hup⟩ ⟨htla, ha, hin⟩ hto
    obtain ⟨w, hcopy, hmem⟩ := xferCopy_toTcc hlen hp hremote htag hup htla ha hin hto
    have habove := tlaStore_tcc ha
    refine answers_xferComplete_oldest hx hi hland hflag hquench (fun _ => ?_) hcopy
      (P := fun m => lineCopied s.mem m (storeKey t p x.loc) (tlaKey t x.remote)) (lineCopied_of_writeBytes fun b => by rw [hmem])
    rw [if_pos hto]
    exact tlaBusy_above (by omega)
  · rintro ⟨hi, hland, hflag, hlen, hremote, hloc, hp, -, hquench, hup⟩ ⟨htla, ha, hin⟩ hto hpart -
    obtain ⟨w, hcopy, hmem⟩ := xferCopy_fromTcc hlen hp hremote hloc hup htla ha hin hto hpart
    have habove := storeTla_above hpart
    refine answers_xferComplete_oldest hx hi hland hflag hquench (fun _ => ?_) hcopy
      (P := fun m => lineCopied s.mem m (tlaKey t x.remote) (storeKey t p x.loc)) (lineCopied_of_writeBytes fun b => by rw [hmem])
    rw [if_neg (by simp [hto])]
    exact tlaBusy_above (by omega)
  · rintro a o ⟨hi, hland, hflag, hlen, hremote, -, hp, htag, hquench, -⟩ htla hto hk hup hheld
    obtain ⟨w, hcopy, hmem⟩ := xferCopy_toShared hlen hp hremote htag htla hto hk hup hheld
    exact answers_xferComplete_oldest hx hi hland hflag hquench (fun hw => by simp [hto, htla] at hw) hcopy
      (P := fun m => lineCopied s.mem m (storeKey t p x.loc) x.remote) (lineCopied_of_writeBytes hmem)

end Sys2Proof.Machine
end
